-- ==== Sys2Proof/Word.lean ====
section
/-! DEFINITION. The widths of R25, R241 and R22 as bit vectors, and the canonical sparse map in which the model keeps every
addressed thing (tiles, lanes, keys, connections, memory bytes). -/

namespace Sys2Proof

/-- A byte of memory, of a register or of a frame. -/
abbrev Byte := BitVec 8
/-- A 64-bit word: a control register (R16), an a register (R241). -/
abbrev Word := BitVec 64
/-- A v register of R241; byte `j` is bits [8j+7:8j]. -/
abbrev Vec := BitVec 512
/-- A 128-bit cipher block of R647, byte 0 in bits [127:120]. -/
abbrev Block := BitVec 128
/-- A run of bytes in address order. -/
abbrev Bytes := List Byte

/-- A sparse map from numbers: keys strictly rising, no entry equal to the default its owner names. -/
abbrev AMap (α : Type) := List (Nat × α)

end Sys2Proof
end

