-- ==== Sys2Proof/Syntax.lean ====
section
/-! DEFINITION. The commands of the block: one constructor of `Instr` for each row of spec/opcode_table.json, in the
table's order, with the operands its rule gives it. No row has bits, so the operands are the fields that the agent behind
the command supplies: the fields of an Aelo word at their full width (R255), of a frame or flit, of a register write, or
what a timer, a pin or a partner presents. -/

namespace Sys2Proof

/-- A task context: Kiosk `k`, context `x` is `8k + x` (R284); 4,096 is the Belvedere (R314). -/
abbrev Ctx := Fin 4097
/-- A device connection; its queue-pair number is 0x40_0000 + c (R376). -/
abbrev Conn := Fin 4194304

/-- The operation of MAJ 0x03 to 0x05 (R257). -/
inductive LogicOp where
  | and | or | xor
  deriving DecidableEq, Repr

/-- The access size of MAJ 0x18 to 0x1F (R257). -/
inductive Size where
  | b8 | b16 | b32 | b64
  deriving DecidableEq, Repr

/-- Bytes of an access size. -/
def Size.bytes : Size → Nat
  | .b8 => 1 | .b16 => 2 | .b32 => 4 | .b64 => 8

/-- A tile as the modules hold it: the 64-byte tag of R51 and the ciphertext of R52. -/
structure StoredCopy where
  /-- Tag bytes 0 to 63. -/
  tag : Bytes
  /-- 4,096 bytes of AES-256-XTS ciphertext. -/
  cipher : Bytes
  deriving DecidableEq, Repr

/-- What the modules return at start (R127, R130, R202): the codewords of their shutdown, drain and spill areas. -/
structure RecoveryImage where
  /-- Codewords of 300 bytes by lane and slot; a slot that is not listed cannot be read. -/
  words : List (Nat × Nat × Bytes)
  deriving DecidableEq, Repr

/-- A received Promenade frame (R137): header fields, payload as sent, and the 16-byte tag. TYPE is the command. -/
structure PrmFrame where
  grp : Fin 2
  fromSenior : Bool
  last : Bool
  keySel : Bool
  fsn : BitVec 48
  ackFsn : BitVec 48
  credit : BitVec 32
  nctr : BitVec 40
  body : Bytes
  tag : Block
  deriving DecidableEq, Repr

/-- What a PAIRING frame's SPDM 1.3 or key-exchange message amounts to (R150, R151, R156); the cited standards define the
bytes, the manual their outcome. -/
inductive PairMsg where
  /-- An SPDM request of the peer's: 0 GET_CERTIFICATE, 1 CHALLENGE, 2 GET_MEASUREMENTS (R151). -/
  | request (n : Fin 3)
  /-- The peer's SPDM answers are in; `ok` under the pairing policy. -/
  | attested (ok : Bool)
  /-- A message of the hybrid exchange of R150: the senior's keys, or the junior's answer. -/
  | exchange
  /-- The survivor's transfer of R156 to a replacement. -/
  | transfer
  deriving DecidableEq, Repr

/-- The twin's side of resuming a pair (R153, R161, R162). -/
structure PeerState where
  /-- The peer attested under the policy (R151). -/
  attestOk : Bool
  /-- Its nonce and its key-confirmation MAC (R153). -/
  nonce : BitVec 256
  mac : BitVec 128
  senior : Bool
  pairId : Word
  /-- STATE of its pair-state record (R161). -/
  state : Byte
  term : BitVec 32
  seqHigh : Word
  /-- It reported JOURNAL_LOST or GEN_TABLE_STALE at this start. -/
  lost : Bool
  /-- It took FORCE_SOLO in its current term. -/
  forced : Bool
  /-- Its dirty map was lost (R164). -/
  mapLost : Bool
  /-- Extents it has marked as diverged (R146). -/
  diverged : List Nat
  /-- Granules it adds to the scope as a target that discards (R163). -/
  own : List Nat
  deriving DecidableEq, Repr

/-- An IDENTIFY descriptor (R180). -/
structure Ident where
  version : Byte
  serial : Word
  slots : Word
  deriving DecidableEq, Repr

/-- Who reads under a walk plan (R228): a task context, a connection, a logical device. -/
inductive PlanReader where
  | ctx (c : Ctx) | conn (n : Conn) | ld (l : Fin 32)
  deriving DecidableEq, Repr

/-- The units that a drain bound ends (R337). -/
inductive DrainUnit where
  | netPort (p : Fin 64) | cxlPort (p : Fin 2) | kiosk (k : Fin 512) | queue (q : Fin 1024)
  | slice (s : Fin 16) | lane (l : Fin 128)
  deriving DecidableEq, Repr

/-- A received Ethernet frame that carries IP and UDP (R350); `bth` and `body` are the UDP payload: the 12 bytes of the
BTH, then everything before the ICRC. -/
structure NetFrame where
  fcsOk : Bool
  /-- Frame bytes, FCS included. -/
  len : Nat
  dstMac : BitVec 48
  srcMac : BitVec 48
  /-- PCP of a tagged frame (R354). -/
  pcp : Option (Fin 8)
  srcIp : BitVec 128
  dstIp : BitVec 128
  /-- Marked CE (R370). -/
  ce : Bool
  udpPort : BitVec 16
  icrcOk : Bool
  bth : Bytes
  body : Bytes
  deriving DecidableEq, Repr

/-- A Communication Manager REQ (R384, R385) and the frame facts R378 takes from it. -/
structure CmReq where
  serviceId : Word
  /-- Private data bytes 0 to 91. -/
  priv : Bytes
  qpn : BitVec 24
  psn : BitVec 24
  /-- Path MTU in bytes. -/
  mtu : Nat
  srcMac : BitVec 48
  srcIp : BitVec 128
  dstIp : BitVec 128
  deriving DecidableEq, Repr

/-- What an SPDM message amounts to (R421, R458, R598). -/
inductive SpdmStep where
  /-- A request that opens or ends no session, by its code. -/
  | request (code : Byte)
  /-- A secured session completes; with mutual authentication; SHA3-384 of the key its requester chain ends in. -/
  | opened (bothAuth : Bool) (chainKeyHash : BitVec 384)
  /-- Session `n` ends. -/
  | closed (n : Fin 2)
  deriving DecidableEq, Repr

/-- Why a CXL port's island is reset (R424). -/
inductive CxlReset where
  | perst | hot | linkDrop
  deriving DecidableEq, Repr

/-- Why a rail failed to come up (R503, R508, R509). -/
inductive RailCause where
  | pgTimeout
  /-- All four attempts of a transaction failed, so many of them by losing arbitration (R509, R592). -/
  | pmbus (lost : Fin 5)
  | mode
  deriving DecidableEq, Repr

/-- How an attempt at a PWRBUS transaction ends: acknowledged, not acknowledged or failing PEC, or lost in arbitration (R509, R592). -/
inductive PmTry where
  | acked | failed | arbLost
  deriving DecidableEq, Repr

/-- A change that a management program makes to an extent or a tile, and that no control register carries (R27, R31, R66; log entry 68).
Classes are numbered in the order of R27: PINNED, NORMAL, STREAM, COLD. -/
inductive ExtChange where
  | assign (e : Fin 524288) (owner : BitVec 24) (fenced : Bool) (cls : Fin 4) (map : Byte)
  | setMode (e : Fin 524288) (fenced : Bool)
  | setClass (e : Fin 524288) (cls : Fin 4)
  | release (e : Fin 524288)
  | relocate (t : BitVec 37)
  deriving DecidableEq, Repr

/-- What is submitted to the journal: a record that the device has formed, or the record of a management program's change. -/
inductive Submitted where
  | formed (id : Nat) | change (c : ExtChange)
  deriving DecidableEq, Repr

/-- What the ECC of a flash code word finds on a read (R558). -/
inductive EccResult where
  | corrected | bad
  deriving DecidableEq, Repr

/-- An MCTP packet on MGMTBUS (R593, R597). -/
structure MctpPacket where
  /-- 7-bit address the packet came from (R599). -/
  src : BitVec 7
  /-- 7-bit address it is sent to (R593). -/
  addr : BitVec 7
  /-- The sender begins at the same instant as the device does with its own packet (R590). -/
  atOnce : Bool
  /-- Where both then send the same address, the device is the first to send a 1 against a 0 (R590). -/
  losesLater : Bool
  dstEid : Byte
  msgType : Byte
  /-- Length and format as DSP0237 has them. -/
  formOk : Bool
  pecOk : Bool
  deriving DecidableEq, Repr

/-- The flash commands that FLS_RECOVER gives (R584). -/
inductive RecoverOp where
  | program (count : BitVec 12) (addr : BitVec 28)
  | erase (addr : BitVec 28)
  | read (count : BitVec 12) (addr : BitVec 28)
  | writeCommit (arg : Word)
  | buf (i : Fin 8192) (v : Word)
  deriving DecidableEq, Repr


/-- What the Terrace reports while a fill runs (R208): a corrected burst, or an uncorrectable one by region. -/
inductive TerErr where
  | none
  | corrected
  /-- Tile cache: the frame of a tile. -/
  | frame (t : Nat)
  /-- Journal payload of a record, as a SEG_CRC failure at a tile. -/
  | payload (t : Nat)
  /-- Journal header or descriptors, tile directory, journal index, key table, device area. -/
  | halt (stack : Fin 4)
  /-- Generation-table cache: a leaf. -/
  | table (leaf : Fin 268435456)
  | backing (c : Conn)
  | store (p : Fin 1024)
  deriving DecidableEq, Repr

/-- An access of a CXL host to control space: offset, bytes, and the value a write brings (R34 to R36). -/
structure HostAccess where
  off : BitVec 26
  len : Nat
  v : Word
  deriving DecidableEq, Repr

/-- The commands, one for each row of the table (R24 to R646). -/
inductive Instr where
  /-- ALU_OP (R259): An integer ALU instruction (MAJ 0x01) computes a result into a[D]. -/
  | aluOp (c : Ctx) (gp : BitVec 3) (d a b : BitVec 5) (fn : BitVec 8)
  /-- ADDI (R257): Adds a sign-extended immediate to a[A] and writes a[D]. -/
  | addi (c : Ctx) (gp : BitVec 3) (d a : BitVec 5) (imm : BitVec 13)
  /-- ANDI_ORI_XORI (R257): Bitwise immediate operation on a[A] into a[D]. -/
  | andiOriXori (c : Ctx) (op : LogicOp) (gp : BitVec 3) (d a : BitVec 5) (imm : BitVec 13)
  /-- SHI (R257): Shift or rotate of a[A] by an immediate amount. -/
  | shi (c : Ctx) (gp : BitVec 3) (d a : BitVec 5) (imm : BitVec 13)
  /-- LI (R257): Loads a sign-extended 18-bit immediate into a[D]. -/
  | li (c : Ctx) (gp : BitVec 3) (d : BitVec 5) (imm : BitVec 18)
  /-- LIS (R257): Shifts a[D] left by 16 and ORs in a 16-bit immediate. -/
  | lis (c : Ctx) (gp : BitVec 3) (d : BitVec 5) (imm : BitVec 18)
  /-- CMP (R259): Compares two a registers and writes a predicate. -/
  | cmp (c : Ctx) (gp : BitVec 3) (d a b : BitVec 5) (fn : BitVec 8)
  /-- CMPI (R257): Compares a[A] with an immediate under the condition in D[4:3] and writes a predicate. -/
  | cmpi (c : Ctx) (gp : BitVec 3) (d a : BitVec 5) (imm : BitVec 13)
  /-- PREDICATE_OP (R259): Predicate logic, PTOA or ATOP between predicate and a registers. -/
  | predicateOp (c : Ctx) (gp : BitVec 3) (d a b : BitVec 5) (fn : BitVec 8)
  /-- SPR (R244): Reads a special register into a[D]. -/
  | spr (c : Ctx) (gp : BitVec 3) (d a : BitVec 5) (imm : BitVec 13)
  /-- BR (R257): Branches when the guard predicate is 1. -/
  | br (c : Ctx) (gp : BitVec 3) (off : BitVec 23)
  /-- BRN (R257): Branches when the guard predicate is 0. -/
  | brn (c : Ctx) (gp : BitVec 3) (off : BitVec 23)
  /-- CALL (R257): Writes the return address to a31 and branches. -/
  | call (c : Ctx) (gp : BitVec 3) (off : BitVec 23)
  /-- JR (R257): Jumps to a[A], saving the return address, or raises ALIGN. -/
  | jr (c : Ctx) (gp : BitVec 3) (d a b : BitVec 5) (fn : BitVec 8)
  /-- LD (R251): Scalar load through the local store or a window, taking staged bytes first and recording the tile version. -/
  | ld (c : Ctx) (sz : Size) (gp : BitVec 3) (d a : BitVec 5) (imm : BitVec 13)
  /-- ST (R252): Scalar store to the local store, a scratchpad window or the staging buffer. -/
  | st (c : Ctx) (sz : Size) (gp : BitVec 3) (d a : BitVec 5) (imm : BitVec 13)
  /-- VLD (R257): Loads 64 bytes into a vector register. -/
  | vld (c : Ctx) (gp : BitVec 3) (d a : BitVec 5) (imm : BitVec 13)
  /-- VST (R252): Stores a vector register, staging it for DPA windows. -/
  | vst (c : Ctx) (gp : BitVec 3) (d a : BitVec 5) (imm : BitVec 13)
  /-- VALU (R260): Element-wise vector arithmetic, logic, shift, min, max or compare. -/
  | valu (c : Ctx) (gp : BitVec 3) (d a b : BitVec 5) (fn : BitVec 8)
  /-- VECTOR_MOVE (R261): VINS, VEXT, VBC64, VBC8 or VTEST between a, v and p registers. -/
  | vectorMove (c : Ctx) (gp : BitVec 3) (d a b : BitVec 5) (fn : BitVec 8)
  /-- FIELD_OP (R262): GF(2^8) multiply or multiply-accumulate, or carry-less multiply. -/
  | fieldOp (c : Ctx) (gp : BitVec 3) (d a b : BitVec 5) (fn : BitVec 8)
  /-- CRC_OP (R263): One CRC-64 or CRC-32C update step over a vector, word or byte. -/
  | crcOp (c : Ctx) (gp : BitVec 3) (d a b : BitVec 5) (fn : BitVec 8)
  /-- KECCAK (R264): One round of Keccak-f[1600] on four vector registers. -/
  | keccak (c : Ctx) (gp : BitVec 3) (d a b : BitVec 5) (fn : BitVec 8)
  /-- TMAP (R247): Maps a read-write DPA window after alignment, range and tenant checks. -/
  | tmap (c : Ctx) (gp : BitVec 3) (d a b : BitVec 5)
  /-- TMAPR (R265): Maps a read-only DPA window. -/
  | tmapr (c : Ctx) (gp : BitVec 3) (d a b : BitVec 5)
  /-- TMAPS (R248): Maps a window onto owned scratchpad blocks. -/
  | tmaps (c : Ctx) (gp : BitVec 3) (d a b : BitVec 5)
  /-- TUNMAP (R265): Unmaps a window, keeping the read set and staging. -/
  | tunmap (c : Ctx) (gp : BitVec 3) (d a b : BitVec 5)
  /-- WALK (R266): Reads and declares a walk plan for the context, returning OK or MALFORMED. -/
  | walk (c : Ctx) (gp : BitVec 3) (d a b : BitVec 5)
  /-- WCANCEL (R265): Ends the context's walk plan. -/
  | wcancel (c : Ctx) (gp : BitVec 3) (d a b : BitVec 5)
  /-- JSTG (R267): Stages a block of bytes as stores would. -/
  | jstg (c : Ctx) (gp : BitVec 3) (d a b : BitVec 5)
  /-- JDROP (R267): Discards all staged bytes, keeping the read set. -/
  | jdrop (c : Ctx) (gp : BitVec 3) (d a b : BitVec 5)
  /-- JFENCE (R114): Captures the current JSN and waits for the mirror watermark to reach it. -/
  | jfence (c : Ctx) (gp : BitVec 3) (d a b : BitVec 5)
  /-- COMMIT (R268): Submits the staged bytes as one DATA record with read-set validation, or applies staged control stores on the Belvedere. -/
  | commit (c : Ctx) (gp : BitVec 3) (d a b : BitVec 5)
  /-- CAS64 (R270): 64-bit compare-and-swap on device memory as one DATA record. -/
  | cas64 (c : Ctx) (gp : BitVec 3) (d a b : BitVec 5)
  /-- CAS128 (R270): 128-bit compare-and-swap on device memory as one DATA record. -/
  | cas128 (c : Ctx) (gp : BitVec 3) (d a b : BitVec 5)
  /-- FADD64 (R270): 64-bit fetch-and-add on device memory as one DATA record. -/
  | fadd64 (c : Ctx) (gp : BitVec 3) (d a b : BitVec 5)
  /-- FADD128 (R270): 128-bit fetch-and-add on device memory as one DATA record. -/
  | fadd128 (c : Ctx) (gp : BitVec 3) (d a b : BitVec 5)
  /-- GCM_ENC (R273): Cipher call encrypting a buffer under a derived GCM key with a device-formed nonce. -/
  | gcmEnc (c : Ctx) (gp : BitVec 3) (d a b : BitVec 5) (fnHi : BitVec 4)
  /-- GCM_DEC (R273): Cipher call decrypting a buffer and checking its GCM tag. -/
  | gcmDec (c : Ctx) (gp : BitVec 3) (d a b : BitVec 5) (fnHi : BitVec 4)
  /-- XTS_ENC (R273): Cipher call encrypting a buffer under XTS. -/
  | xtsEnc (c : Ctx) (gp : BitVec 3) (d a b : BitVec 5) (fnHi : BitVec 4)
  /-- XTS_DEC (R273): Cipher call decrypting a buffer under XTS. -/
  | xtsDec (c : Ctx) (gp : BitVec 3) (d a b : BitVec 5) (fnHi : BitVec 4)
  /-- CMAC (R273): Cipher call computing a CMAC of a buffer. -/
  | cmac (c : Ctx) (gp : BitVec 3) (d a b : BitVec 5) (fnHi : BitVec 4)
  /-- GWAIT (R275): Waits until a gate counter reaches a value. -/
  | gwait (c : Ctx) (gp : BitVec 3) (d a b : BitVec 5)
  /-- GPOLL (R275): Reads a gate counter without waiting. -/
  | gpoll (c : Ctx) (gp : BitVec 3) (d a b : BitVec 5)
  /-- GADD (R275): Adds to a gate counter. -/
  | gadd (c : Ctx) (gp : BitVec 3) (d a b : BitVec 5)
  /-- GRECV (R275): Waits for and removes a message from the inbox. -/
  | grecv (c : Ctx) (gp : BitVec 3) (d a b : BitVec 5)
  /-- GPOST (R275): Posts a message to another task of the same tenant. -/
  | gpost (c : Ctx) (gp : BitVec 3) (d a b : BitVec 5)
  /-- SPAWN (R277): Queues a child RUN task in the parent's queue. -/
  | spawn (c : Ctx) (gp : BitVec 3) (d a b : BitVec 5)
  /-- ABORT (R279): Ends the task with ABORTED and a result word. -/
  | abort (c : Ctx) (gp : BitVec 3) (d a b : BitVec 5)
  /-- TASK_WAIT_END (R276): A waiting context becomes ready when its gate, message or resource arrives. -/
  | taskWaitEnd (c : Ctx)
  /-- INSN_BUDGET (R301): The instruction count runs out and the task ends with LIMIT. -/
  | insnBudget (c : Ctx)
  /-- TIME_BUDGET (R301): The run-time budget expires and the task ends with LIMIT. -/
  | timeBudget (c : Ctx)
  /-- TASK_START (R298): The dispatcher starts a queued task on a free context when all start conditions hold. -/
  | taskStart (sq : Fin 16)
  /-- CHILD_MSG_DELIVER (R277): A held child message enters the parent's inbox when it has room. -/
  | childMsgDeliver (c : Ctx)
  /-- LOAD_DESCRIPTOR (R309): A LOAD descriptor starts reading a program image into the other slot. -/
  | loadDescriptor (p : Fin 1024)
  /-- LOAD_COMPLETE (R309): The image read ends, its CRC is checked and the slot flips or the LOAD fails. -/
  | loadComplete (p : Fin 1024)
  /-- LOAD_OLD_IMAGE_FREED (R310): A LOAD waiting for old-image tasks proceeds once they have ended. -/
  | loadOldImageFreed (p : Fin 1024)
  /-- CANCEL_DESCRIPTOR (R303): A CANCEL ends a queued or running task of the queue with ABORTED. -/
  | cancelDescriptor (q : Fin 1024)
  /-- PROGRAM_CLEAR (R313): KSK_PROG_CMD CLEAR makes a program EMPTY. -/
  | programClear (p : Fin 1024)
  /-- KIOSK_FENCE (R319): Fences a Kiosk so no task starts on it and its tasks drain. -/
  | kioskFence (k : Fin 512)
  /-- KIOSK_RESTORE (R319): Returns a fenced Kiosk with its local store zeroed. -/
  | kioskRestore (k : Fin 512)
  /-- QUEUE_DISABLE (R321): ENABLE = 0 stops a queue's acceptance and disables its queued tasks. -/
  | queueDisable (q : Fin 1024)
  /-- MGMT_TASK_START (R314): The Belvedere takes the next management descriptor and runs its library program. -/
  | mgmtTaskStart
  /-- RECORD_SUBMIT (R100): A record's early checks run and journal space and index entries are reserved. -/
  | recordSubmit (w : Submitted)
  /-- RECORD_SPACE_GRANTED (R94): A record waiting for journal space or index entries obtains them. -/
  | recordSpaceGranted (id : Nat)
  /-- RECORD_SEQUENCER_STEP (R100): After its payload copy, the record is rechecked, given a JSN, validated, indexed and admitted. -/
  | recordSequencerStep (id : Nat)
  /-- LAG_AGE_BOUND (R148): The oldest unacknowledged record reaches LAG_US and admission pauses. -/
  | lagAgeBound
  /-- RELEASE_FINISH (R31): The home takes in the record that frees a released extent once its operations have resolved. -/
  | releaseFinish (e : Fin 524288)
  /-- FENCE_COMPLETE (R114): A FLUSH, GPF or task fence completes when JNL_MIRROR_JSN reaches its JSN. -/
  | fenceComplete (id : Nat)
  /-- RETIREMENT_START (R117): A tile becomes eligible by hold time or occupancy and its retirement begins. -/
  | retirementStart (t : Nat)
  /-- RETIREMENT_COMPLETE (R82): When all 18 modules acknowledge, the table entry and index entries change in one step. -/
  | retirementComplete (t : Nat)
  /-- ATTR_PERSIST_DONE (R119): The persistent write of an ATTR record's changes is acknowledged and the record retires. -/
  | attrPersistDone
  /-- ROOT_RECORD_PROGRAM (R76): The newest root record is programmed to flash at most once per ROOT_PERIOD_MS. -/
  | rootRecordProgram
  /-- DRAIN_COMPLETE (R126): The last drain stripe is acknowledged; the root and shutdown record are written. -/
  | drainComplete
  /-- DRAIN_ABANDON (R123): The drain is still running 81 ms after commitment and is abandoned. -/
  | drainAbandon
  /-- JOURNAL_RECOVERY (R127): At start the drain image is verified, decrypted and the index rebuilt, or JOURNAL_LOST is reported. -/
  | journalRecovery (img : RecoveryImage)
  /-- GEN_ROOT_CHECK (R77): The root is checked against the level-3 tiles and upper table tiles are loaded. -/
  | genRootCheck (l3 : List StoredCopy)
  /-- MEDIA_FILL_COMPLETE (R78): A tile's codewords have arrived and it is verified and installed, or resolution starts. -/
  | mediaFillComplete (t : Nat) (terr : TerErr)
  /-- HEDGE_TIMER (R187): A fetch still missing codewords after HEDGE_US reads the unissued parity codewords. -/
  | hedgeTimer (t : Nat)
  /-- REPAIR_TIMEOUT (R169): A repair that has accepted no copy within TIMEOUT_US fails. -/
  | repairTimeout (t : Nat)
  /-- REPAIR_RETRY (R85): A second REPAIR_REQ is sent when JNL_MIRROR_JSN reaches the JSN current at the first copy. -/
  | repairRetry (t : Nat)
  /-- REPAIR_DEFERRED_ACCEPT (R85): A copy above the local live version is accepted once the intervening records are admitted. -/
  | repairDeferredAccept (t : Nat)
  /-- COPY_OUT_END (R211): The last copy-out of a MOVING frame ends and it becomes VALID or BASE. -/
  | copyOutEnd (t : Nat)
  /-- PRM_RECORD (R145): A RECORD frame is received, reassembled, checked and its record admitted in PAIR_SEQ order. -/
  | prmRecord (f : PrmFrame)
  /-- RACK (R107): A cumulative acknowledgement makes records mirror-durable and advances the watermark. -/
  | rack (f : PrmFrame)
  /-- FORWARD (R147): The home checks a forwarded write and takes in it or answers FWD_RESP. -/
  | forward (f : PrmFrame)
  /-- FWD_RESP (R147): The forwarding twin completes a write with the home's refusal status. -/
  | fwdResp (f : PrmFrame)
  /-- HEARTBEAT (R158): A HEARTBEAT frame is received on a group. -/
  | heartbeat (f : PrmFrame)
  /-- REPAIR_REQ (R168): The twin serves a repair request through its verified read path. -/
  | repairReq (f : PrmFrame)
  /-- REPAIR_DATA (R85): A repair copy is received, verified and judged against the version window. -/
  | repairData (f : PrmFrame)
  /-- RESYNC_MAP (R165): The target receives the extent map or a sub-map and adds its own granules. -/
  | resyncMap (f : PrmFrame)
  /-- RESYNC_DATA (R165): The target receives and verifies a resync tile. -/
  | resyncData (f : PrmFrame)
  /-- RESYNC_TILE_INSTALL (R165): Once records up to READ_SEQ are admitted, the tile is installed and covered segments dropped. -/
  | resyncTileInstall (t : Nat)
  /-- RESYNC_TILE_SEND (R165): The source sends the next dirty tile at the paced resync rate. -/
  | resyncTileSend
  /-- NACK (R141): A NACK makes the sender resend from the named frame. -/
  | nack (f : PrmFrame)
  /-- REKEY (R139): The receiver takes up the sender's new Promenade key epoch. -/
  | rekey (f : PrmFrame)
  /-- PAIRING (R151): An SPDM or key-exchange PAIRING frame is processed. -/
  | pairing (f : PrmFrame) (m : PairMsg)
  /-- HOME (R165): The HOME frame ends a resync: homes return, the target takes the TERM, both record PAIRED. -/
  | home (f : PrmFrame)
  /-- IDLE (R141): An IDLE frame carries header acknowledgements and credit. -/
  | idle (f : PrmFrame)
  /-- PRM_RTO_EXPIRE (R141): A numbered frame unacknowledged for RTO_NS is resent, or the group goes down. -/
  | prmRtoExpire (g : Fin 2)
  /-- PRM_HEARTBEAT_SEND (R158): Every HB_US a heartbeat is sent on each group that is up. -/
  | prmHeartbeatSend
  /-- PRM_HEARTBEAT_MISS (R158): HB_MISS intervals pass with no valid frame and the group goes down. -/
  | prmHeartbeatMiss (g : Fin 2)
  /-- PRM_GROUP_TRAINED (R136): A Promenade group finishes training at width 16 or 8. -/
  | prmGroupTrained (g : Fin 2) (width : Fin 4) (flightNs : BitVec 11)
  /-- TWIN_ALIVE_TOGGLE (R158): TWIN_ALIVE_OUT toggles every HB_US in the live journal states. -/
  | twinAliveToggle
  /-- TWIN_ALIVE_EDGE (R158): An edge arrives on TWIN_ALIVE_IN. -/
  | twinAliveEdge
  /-- TWIN_ALIVE_QUIET (R158): No edge on TWIN_ALIVE_IN for 3 x HB_US. -/
  | twinAliveQuiet
  /-- ESTABLISH (R150): PRM_PAIR_CMD ESTABLISH starts a new pairing. -/
  | establish
  /-- START_SOLO (R154): PRM_PAIR_CMD START_SOLO makes a waiting or READONLY device go solo. -/
  | startSolo
  /-- FORCE_SOLO (R155): PRM_PAIR_CMD FORCE_SOLO re-anchors the table on stored copies and goes solo. -/
  | forceSolo (l3 : List StoredCopy)
  /-- ADMIT_REPLACEMENT (R156): PRM_PAIR_CMD ADMIT_REPLACEMENT takes in and keys a replacement twin. -/
  | admitReplacement
  /-- REANCHOR_TILE (R155): The background walk after FORCE_SOLO re-anchors one table or data tile. -/
  | reanchorTile (t : Nat) (copy : StoredCopy)
  /-- PAIR_RESUME (R153): After recovery the twins attest, confirm keys, exchange pair state and settle resync. -/
  | pairResume (p : PeerState)
  /-- MED_DATA_FLIT (R180): A DATA flit carries one codeword of a busy READ tag. The operands are the flit's bytes on the line: header,
  codeword, 4 reserved bytes, CRC-64 (R177). -/
  | medDataFlit (lane : Fin 128) (head cw pad crc : Bytes)
  /-- MED_RESP_FLIT (R179): A RESP ends a module command with its status. The operands are the flit's bytes on the line: header, body,
  CRC-64 (R177). -/
  | medRespFlit (lane : Fin 128) (head body crc : Bytes)
  /-- MED_REPLAY_REQ (R182): A REPLAY_REQ makes the sender resend, retrain or fence the lane. -/
  | medReplayReq (lane : Fin 128) (line : Bytes)
  /-- MED_IDLE_FLIT (R178): An IDLE flit is discarded to absorb clock difference. -/
  | medIdleFlit (lane : Fin 128) (line : Bytes)
  /-- MED_ALIGN_FLIT (R178): An ALIGN flit marks flit boundaries and is discarded. -/
  | medAlignFlit (lane : Fin 128)
  /-- MED_CMD_TIMEOUT (R183): A command outlives TIMEOUT_US and fences its lane. -/
  | medCmdTimeout (lane : Fin 128) (tag : Fin 128)
  /-- LANE_TRAIN_STAGE_DONE (R184): A lane completes a training stage and moves to the next or into service. -/
  | laneTrainStageDone (lane : Fin 128) (ident : Ident) (replays : Nat)
  /-- LANE_TRAIN_TIMEOUT (R184): A training stage exceeds its ceiling and the lane is fenced with TRAIN. -/
  | laneTrainTimeout (lane : Fin 128)
  /-- LANE_FENCE (R191): MED_LANE_CMD FENCE fences a lane and starts its written-extent map. -/
  | laneFence (lane : Fin 128)
  /-- LANE_REPLACE (R195): MED_LANE_CMD REPLACE trains a new module and starts its rebuild. -/
  | laneReplace (lane : Fin 128)
  /-- LANE_RETRAIN (R184): MED_LANE_CMD RETRAIN quick-retrains an IN_SERVICE lane. -/
  | laneRetrain (lane : Fin 128)
  /-- REBUILD_STRIPE (R195): A rebuild reads, verifies and writes the missing codeword of the next stripe. -/
  | rebuildStripe (lane : Fin 128)
  /-- SWEEP_TILE (R198): The Sweeper reads and verifies the next tile and writes back corrections. -/
  | sweepTile
  /-- MODULE_TABLE_LOAD (R185): At start the newest verified module table is read and serials compared. -/
  | moduleTableLoad (copies : List Bytes)
  /-- LINE_LOCK (R223): ORG_LOCK_CMD LOCK fills and locks a line in a lockable way. -/
  | lineLock (line : BitVec 41)
  /-- LINE_UNLOCK (R225): ORG_LOCK_CMD UNLOCK ends a line's lock. -/
  | lineUnlock (line : BitVec 41)
  /-- RANGE_INVALIDATION (R238): ORG_INVAL_CMD starts a range invalidation of extents. -/
  | rangeInvalidation (release : Bool) (count : BitVec 20) (first : Fin 524288)
  /-- RANGE_INVALIDATION_DONE (R238): A range invalidation finishes its sweep. -/
  | rangeInvalidationDone
  /-- SLICE_FENCE (R226): ORG_SLICE_CMD FENCE stops a slice's allocations and releases its locks. -/
  | sliceFence (sl : Fin 16)
  /-- SLICE_RESTORE (R226): ORG_SLICE_CMD RESTORE returns a slice empty with scratchpad zeroed. -/
  | sliceRestore (sl : Fin 16)
  /-- WAYMODE_WRITE (R220): A write of ORG_WAYMODE converts ways to scratchpad or back. -/
  | waymodeWrite (lock : BitVec 4) (scratch : BitVec 4)
  /-- SCRATCH_OWNER_ASSIGN (R221): A write of ORG_SCR_OWNER assigns a scratchpad block, zeroing it first. -/
  | scratchOwnerAssign (b : Fin 192) (tenant : BitVec 24)
  /-- SCRATCH_ZERO_DONE (R221): Zeroing of an assigned block ends and the assignment takes effect. -/
  | scratchZeroDone (b : Fin 192)
  /-- LOGGIA_TTL_EXPIRE (R227): A prefetched line unused for LOGGIA_TTL_US is dropped. -/
  | loggiaTtlExpire (line : BitVec 41)
  /-- PLAN_IDLE_EXPIRE (R230): A host plan without an advance for PLAN_IDLE_US ends. -/
  | planIdleExpire (r : PlanReader)
  /-- PIN_LOAD_TILE (R236): The background load of a PINNED extent fetches its next tile. -/
  | pinLoadTile (t : Nat)
  /-- TERRACE_TRAIN_DONE (R206): The Terrace stacks finish training at start. -/
  | terraceTrainDone (up : BitVec 4)
  /-- OP_TIMEOUT (R333): A source timeout fires and claims an entry's resolve step with TIMEOUT. -/
  | opTimeout (tag : Fin 262144)
  /-- DRAIN_BOUND (R337): The drain bound of a quiesced unit resolves its remaining operations with DISABLED. -/
  | drainBound (u : DrainUnit)
  /-- CLEAR_HIGH (R342): TST_CMD CLEAR_HIGH resets every source's high-water mark. -/
  | clearHigh
  /-- ROCE_FRAME (R350): A received frame is classified and a RoCEv2 packet passed to the transport. -/
  | roceFrame (port : Fin 64) (f : NetFrame)
  /-- ARP_REQUEST (R350): An ARP request for a port address is answered. -/
  | arpRequest (port : Fin 64) (ip : BitVec 128) (mac : BitVec 48)
  /-- NEIGHBOR_SOLICITATION (R350): An IPv6 Neighbor Solicitation for a port address is answered. -/
  | neighborSolicitation (port : Fin 64) (ip : BitVec 128) (mac : BitVec 48)
  /-- PFC_FRAME (R355): A received PFC frame pauses or resumes a priority, or is ignored. -/
  | pfcFrame (port : Fin 64) (prio : Fin 8) (quanta : BitVec 16)
  /-- PAUSE_FRAME (R349): A Clause 31 PAUSE frame is ignored and counted. -/
  | pauseFrame (port : Fin 64)
  /-- PFC_REFRESH (R355): The PFC frame is repeated every 0x8000 quanta while occupancy stays high. -/
  | pfcRefresh (port : Fin 64) (prio : Fin 8)
  /-- PFC_WATCHDOG (R357): A priority paused for PFC_WD_MS makes the port ignore PFC for it. -/
  | pfcWatchdog (port : Fin 64) (prio : Fin 8)
  /-- PFC_WATCHDOG_CLEAR (R357): After 100 ms without PFC frames the port honours PFC again. -/
  | pfcWatchdogClear (port : Fin 64) (prio : Fin 8)
  /-- NET_LINK_UP (R359): Every lane holds lock for 10 ms and the port goes UP. -/
  | netLinkUp (port : Fin 64) (polarity : Byte)
  /-- NET_TRAIN_TIMEOUT (R359): Training does not bring the port UP within 2 s. -/
  | netTrainTimeout (port : Fin 64)
  /-- NET_RETRAIN_TIMER (R358): A DOWN port retries training every 1 s. -/
  | netRetrainTimer (port : Fin 64)
  /-- NET_LINK_DOWN (R360): Loss of lock, a fault or FEC errors take an UP port DOWN. -/
  | netLinkDown (port : Fin 64) (cause : Fin 3)
  /-- NET_PORT_FENCE (R363): NET_PORT_CMD FENCE quiesces a port. -/
  | netPortFence (port : Fin 64)
  /-- NET_PORT_RESTORE (R363): NET_PORT_CMD RESTORE begins training a fenced port. -/
  | netPortRestore (port : Fin 64)
  /-- NET_PORT_RETRAIN (R363): NET_PORT_CMD RETRAIN drops and retrains an UP port. -/
  | netPortRetrain (port : Fin 64)
  /-- CC_ROUND_END (R368): At the end of an SRTT round the congestion window is cut or grown. -/
  | ccRoundEnd (conn : Conn)
  /-- SRTT_RESET (R367): After 1 ms without an RTT sample SRTT returns to BASE_RTT_US. -/
  | srttReset (conn : Conn)
  /-- CNP (R370): A received CNP sets cnp_seen on its connection. -/
  | cnp (conn : Conn) (port : Fin 64)
  /-- CM_REQ (R386): A Communication Manager REQ is verified and answered with REP or REJ. -/
  | cmReq (port : Fin 64) (r : CmReq)
  /-- CM_RTU (R388): An RTU moves an ESTABLISHING connection to RTS. -/
  | cmRtu (conn : Conn)
  /-- CM_DREQ (R388): A DREQ moves a connection to CLOSING, or frees an ERROR connection. -/
  | cmDreq (conn : Conn)
  /-- CM_DREP (R389): A DREP frees a connection. -/
  | cmDrep (conn : Conn)
  /-- CONTEXT_FETCH_DONE (R392): A connection context arrives from the backing and its held packets are processed. -/
  | contextFetchDone (conn : Conn)
  /-- RDMA_WRITE (R399): A WRITE packet is judged against its key and forms one DATA record. -/
  | rdmaWrite (conn : Conn)
  /-- RDMA_READ (R397): A READ request is served tile by tile through the verified read path. -/
  | rdmaRead (conn : Conn)
  /-- COMPARE_AND_SWAP (R398): A Compare and Swap forms one DATA record applied at its sequencer step. -/
  | compareAndSwap (conn : Conn)
  /-- FETCH_AND_ADD (R398): A Fetch and Add forms one DATA record applied at its sequencer step. -/
  | fetchAndAdd (conn : Conn)
  /-- ATOMIC_WRITE (R398): An ATOMIC WRITE forms one DATA record applied at its sequencer step. -/
  | atomicWrite (conn : Conn)
  /-- FLUSH (R400): A FLUSH waits behind earlier operations and reports mirror-durability. -/
  | flush (conn : Conn)
  /-- ROCE_ACKNOWLEDGE (R415): A host's ACK or NAK completes or fails a device-originated request. -/
  | roceAcknowledge (conn : Conn)
  /-- RDMA_READ_RESPONSE (R413): A host's READ response forms a DATA record into the local buffer. -/
  | rdmaReadResponse (conn : Conn)
  /-- RNR_NAK (R414): A host's unsealed RNR NAK delays a device request's retry. -/
  | rnrNak (conn : Conn) (psn : BitVec 24) (timer : BitVec 5)
  /-- ROCE_UNSUPPORTED (R374): An unsupported opcode gets a NAK or the packet is discarded. -/
  | roceUnsupported (conn : Conn)
  /-- SEND_TASK_DESCRIPTORS (R294): A SEND places 1 to 32 task descriptors in a queue all or none. -/
  | sendTaskDescriptors (conn : Conn)
  /-- SEND_WALK_PLAN (R401): A SEND declares a host walk plan for the connection. -/
  | sendWalkPlan (conn : Conn)
  /-- SEND_PLAN_CANCEL (R401): A SEND cancels the connection's walk plan. -/
  | sendPlanCancel (conn : Conn)
  /-- REGISTER (R405): A key command registers a memory key. -/
  | register (conn : Conn)
  /-- REVOKE (R405): A key command moves a key to REVOKING. -/
  | revoke (conn : Conn)
  /-- WORK_REQUEST_POST (R409): A SEND posts gated work requests all or none. -/
  | workRequestPost (conn : Conn)
  /-- WR_ISSUE (R413): An opened work request is issued when window, fence and quota allow. -/
  | wrIssue (conn : Conn)
  /-- REQ_ACK_TIMEOUT (R414): An unacknowledged device request is retried or fails after RETRY_CNT. -/
  | reqAckTimeout (conn : Conn)
  /-- ERROR_HOLD_EXPIRE (R389): An ERROR connection becomes FREE after ERROR_HOLD_MS. -/
  | errorHoldExpire (conn : Conn)
  /-- MEM_RD (R434): A CXL MemRd or MemRdData is served from device memory. -/
  | memRd (ld : Fin 32) (dpa : BitVec 49) (tag : BitVec 16)
  /-- MEM_WR (R433): A CXL MemWr or MemWrPtl is combined into a DATA record and receives Cmp. -/
  | memWr (ld : Fin 32) (dpa : BitVec 49) (tag : BitVec 16) (data : Vec) (be : BitVec 64) (poison : Bool)
  /-- MEM_SPEC_RD (R418): A MemSpecRd is accepted and discarded. -/
  | memSpecRd (ld : Fin 32) (dpa : BitVec 49)
  /-- CXL_BAD_REQ (R418): An unsupported M2S request is answered harmlessly and counted. -/
  | cxlBadReq (port : Fin 2) (isRead : Bool) (tag : BitVec 16)
  /-- COMBINE_WINDOW_EXPIRE (R103): The 64 ns combining window ends and the combined writes form one record. -/
  | combineWindowExpire (ld : Fin 32) (t : Nat)
  /-- GLOBAL_PERSISTENT_FLUSH (R438): A GPF Phase 2 captures the JSN and completes at mirror-durability. -/
  | globalPersistentFlush (port : Fin 2)
  /-- IDENTIFY_MEMORY_DEVICE (R419): Mailbox command returning device identity. -/
  | identifyMemoryDevice (ld : Fin 32)
  /-- GET_HEALTH_INFO (R419): Mailbox command returning health information. -/
  | getHealthInfo (ld : Fin 32)
  /-- GET_EVENT_RECORDS (R419): Mailbox command returning event-log records. -/
  | getEventRecords (ld : Fin 32)
  /-- CLEAR_EVENT_RECORDS (R419): Mailbox command clearing event-log records. -/
  | clearEventRecords (ld : Fin 32) (n : Nat)
  /-- GET_POISON_LIST (R437): Mailbox command listing poisoned lines of quarantined tiles. -/
  | getPoisonList (ld : Fin 32)
  /-- GET_DC_CONFIGURATION (R419): Mailbox command returning the Dynamic Capacity configuration. -/
  | getDcConfiguration (ld : Fin 32)
  /-- GET_DC_EXTENT_LIST (R419): Mailbox command returning the LD's accepted extents. -/
  | getDcExtentList (ld : Fin 32)
  /-- ADD_DC_RESPONSE (R429): The host accepts offered extents. -/
  | addDcResponse (ld : Fin 32) (exts : List (Fin 524288))
  /-- RELEASE_DC (R430): The host releases an extent from its LD. -/
  | releaseDc (ld : Fin 32) (ext : Fin 524288)
  /-- MAILBOX_UNSUPPORTED (R419): Any other mailbox command completes with Unsupported. -/
  | mailboxUnsupported (ld : Fin 32) (opcode : BitVec 16)
  /-- GET_LD_INFO (R420): FM API command returning LD information. -/
  | getLdInfo (port : Fin 2)
  /-- GET_LD_ALLOCATIONS (R420): FM API command returning LD allocations. -/
  | getLdAllocations (port : Fin 2)
  /-- FM_API_REFUSED (R420): Set LD Allocations or another changing FM API command is refused. -/
  | fmApiRefused (port : Fin 2) (opcode : BitVec 16)
  /-- SPDM_MESSAGE (R421): An SPDM request over DOE is answered as responder. -/
  | spdmMessage (ld : Fin 32) (m : SpdmStep)
  /-- IDE_KM (R421): An IDE_KM message inside a secured session installs IDE keys. -/
  | ideKm (port : Fin 2) (stream : Byte) (key : BitVec 256)
  /-- CDAT_READ (R418): A DOE Table Access read returns CDAT. -/
  | cdatRead (ld : Fin 32)
  /-- IDE_STATE_CHANGE (R425): CXL.cachemem IDE becomes active or drops and credits are returned or withheld. -/
  | ideStateChange (port : Fin 2) (active : Bool)
  /-- CXL_LINK_TRAINED (R423): A CXL port finishes training at a width and speed. -/
  | cxlLinkTrained (port : Fin 2) (width : Fin 3) (gts32 : Bool) (mld : Bool)
  /-- CXL_PORT_RESET (R424): PERST, hot reset or link drop resets a CXL port's island. -/
  | cxlPortReset (port : Fin 2) (why : CxlReset)
  /-- FUNCTION_LEVEL_RESET (R424): An FLR resets the state of one LD. -/
  | functionLevelReset (ld : Fin 32)
  /-- CXL_PORT_FENCE (R337): CXL_PORT_CMD FENCE quiesces a CXL port. -/
  | cxlPortFence (port : Fin 2)
  /-- CXL_PORT_RESTORE (R337): CXL_PORT_CMD RESTORE returns a fenced port. -/
  | cxlPortRestore (port : Fin 2)
  /-- CXL_PORT_RETRAIN (R425): CXL_PORT_CMD RETRAIN drops and retrains the link. -/
  | cxlPortRetrain (port : Fin 2)
  /-- OFFER (R428): CXL_DC_CMD OFFER offers an extent to an LD. -/
  | offer (ld : Fin 32) (ext : Fin 524288)
  /-- WITHDRAW (R430): CXL_DC_CMD WITHDRAW asks the host to release an extent. -/
  | withdraw (ld : Fin 32) (ext : Fin 524288)
  /-- OFFER_LAPSE (R429): An offer without response for RESP_MS lapses. -/
  | offerLapse (ld : Fin 32) (ext : Fin 524288)
  /-- FORCED_RELEASE (R430): WITHDRAW_MS passes without release and the extent is removed. -/
  | forcedRelease (ld : Fin 32) (ext : Fin 524288)
  /-- RING_BASE (R441): A doorbell-page write binds, rebinds or unbinds a ring. -/
  | ringBase (ld : Fin 32) (slot : Fin 8) (v : Word)
  /-- CI_ADDR (R440): A doorbell-page write sets the consumer-index address. -/
  | ciAddr (ld : Fin 32) (slot : Fin 8) (v : Word)
  /-- DOORBELL (R441): A doorbell write gives a new producer index or puts the ring in ERROR. -/
  | doorbell (ld : Fin 32) (slot : Fin 8) (v : Word)
  /-- RING_FETCH_DONE (R442): Descriptors read over CXL.io enter the queue and the consumer index is written. -/
  | ringFetchDone (ld : Fin 32) (slot : Fin 8) (ok : Bool) (descs : List Bytes)
  /-- PLAN_STAT_ADDR (R443): A doorbell-page write sets the plan-status address. -/
  | planStatAddr (ld : Fin 32) (v : Word)
  /-- PLAN_SUBMIT (R443): A doorbell-page write submits or cancels the LD's walk plan. -/
  | planSubmit (ld : Fin 32) (v : Word)
  /-- PLAN_READ_DONE (R443): A submitted plan has been read and its status written. -/
  | planReadDone (ld : Fin 32) (plan : Bytes)
  /-- CXL_DENIED_ACCESS (R34 to R36): A CXL host's access to its control-space window; outside its rights it is discarded or read as 0 and
  counted. -/
  | cxlDeniedAccess (ld : Fin 32) (write : Bool) (a : HostAccess)
  /-- CREATE (R452): GTH_TEN_CMD CREATE creates a tenant entry by an ATTR record. -/
  | create (tenant : BitVec 24)
  /-- DESTROY (R452): GTH_TEN_CMD DESTROY removes an empty tenant entry. -/
  | destroy (tenant : BitVec 24)
  /-- PROCESS (R454): GTH_ENROL_CMD PROCESS checks an enrolment request and takes in its ATTR record. -/
  | process (bytes : BitVec 16) (sigMldsaOk : Bool) (sigEcdsaOk : Bool)
  /-- ENROL_RESPONSE (R455): Once the enrolment record is durable the wrapped response is written. -/
  | enrolResponse (kemCt : Bytes) (kemSecret : BitVec 256) (ecdhPub : Bytes) (ecdhX : Bytes)
  /-- CIPHER_CORE_FENCE (R464): GTH_CORE_CMD FENCE removes a core from the schedule. -/
  | cipherCoreFence (core : Fin 96)
  /-- CIPHER_CORE_RESTORE (R464): GTH_CORE_CMD RESTORE tests and returns a core. -/
  | cipherCoreRestore (core : Fin 96) (katOk : Bool)
  /-- KAT_TIMER (R467): A periodic known-answer test runs on a core and may fence it. -/
  | katTimer (core : Fin 96) (ok : Bool)
  /-- PACE_WINDOW (R477): Each 1 us window the pace count crosses and is published. -/
  | paceWindow (sq : Fin 16) (samples : List (BitVec 16 × BitVec 16))
  /-- CLEAR_MINMAX (R500): KSK_PACE_CMD CLEAR_MINMAX resets pace min and max. -/
  | clearMinmax
  /-- VCORE_STEP (R478): Every STEP_US the setpoint steps or issue is throttled by pace and power. -/
  | vcoreStep (powerW : BitVec 8)
  /-- ISLAND_CLOCK_STOPPED (R496): No island heartbeat for 10 us marks the island CLK_STOPPED. -/
  | islandClockStopped (i : Fin 51)
  /-- ISLAND_HEARTBEAT_RETURN (R496): A heartbeat returns and the island is RUNNING again. -/
  | islandHeartbeatReturn (i : Fin 51)
  /-- TIMEBASE_LOST (R498): The pace ring counts 16,000 handshakes without a timebase heartbeat. -/
  | timebaseLost
  /-- TIMEBASE_RETURN (R499): Timebase heartbeats return and timing resumes on the timebase. -/
  | timebaseReturn
  /-- POWER_ON_RESET_END (R502): VAON and VIO in window for 1 ms end power-on reset and straps are sampled. -/
  | powerOnResetEnd (senior seqMode : Bool)
  /-- RAIL_POWER_GOOD (R512): A rail becomes power-good and the next rail or wave proceeds. -/
  | railPowerGood (rail : Fin 56) (mv : BitVec 16)
  /-- RAIL_PG_TIMEOUT (R513): A switched-on rail is not power-good within 5 ms. -/
  | railPgTimeout (rail : Fin 56) (cause : RailCause) (mv : BitVec 16)
  /-- GROUP_RAIL_FAIL (R524): A group rail fails and its group is fenced. -/
  | groupRailFail (rail : Fin 56) (high : Bool) (mv : BitVec 16)
  /-- CRITICAL_RAIL_FAIL (R525): A critical rail fails in service and the device stops without drain. -/
  | criticalRailFail (rail : Fin 56) (high : Bool) (mv : BitVec 16)
  /-- VFL_FAIL (R526): VFL fails in service and the flash controller is fenced. -/
  | vflFail (high : Bool) (mv : BitVec 16)
  /-- VCORE_LOW (R504): VCORE below 0.62 V for 100 us is logged and posted. -/
  | vcoreLow (mv : BitVec 16)
  /-- THERMAL_TRIP (R527): A sensor at 115 C for 1 ms stops the device. -/
  | thermalTrip (sensor : Fin 48) (temp : Byte)
  /-- PWR_WARN_COMMIT (R530): PWR_WARN_N asserted for 20 us commits a shutdown. -/
  | pwrWarnCommit
  /-- WARN_GLITCH (R530): A PWR_WARN_N pulse shorter than 20 us is ignored and logged. -/
  | warnGlitch (us : BitVec 5)
  /-- INPUT_STABLE (R535): PWR_WARN_N deasserted for 50 ms after a shutdown starts a cold start. -/
  | inputStable
  /-- RAIL_OFF_STAGE (R532): A power-down stage ends when its rails fall or 2 ms pass, and the next begins. -/
  | railOffStage (mons : List (Fin 56 × BitVec 16))
  /-- WAVE_RELEASE (R515): The Lamplighter releases the next wave once its gap and condition are met. -/
  | waveRelease
  /-- GO (R516): PWR_WAVE_CMD GO lets waves 2 to 24 follow. -/
  | go
  /-- RESTORE_GROUP (R518): PWR_WAVE_CMD RESTORE_GROUP powers or checks and resets a fenced group. -/
  | restoreGroup (g : Fin 24)
  /-- CLEAR_LATCH (R514): PWR_LATCH_CMD CLEAR_LATCH clears the latch and restarts power-up. -/
  | clearLatch
  /-- SEQ_SYNC_STEP (R520): A high period of 10 us on SEQ_SYNC advances every participant's state. -/
  | seqSyncStep
  /-- SEQ_SYNC_ABORT (R521): SEQ_SYNC held low 10 ms in states 1 to 7 aborts power-up. -/
  | seqSyncAbort
  /-- PWRBUS_ATTENTION (R600): An attention request leads to Alert Response reads and status logging. -/
  | pwrbusAttention (answers : List (BitVec 7 × List (Fin 56 × BitVec 16)))
  /-- TELEMETRY (R528): Every TELEM_MS the rails' voltage, current and temperature are read. -/
  | telemetry (rail : Fin 56) (tries : List PmTry) (vout : BitVec 16) (iout : BitVec 16) (temp : BitVec 16)
  /-- CLEAR_PEAK (R643): PWR_TEMP_CMD CLEAR_PEAK resets the peak temperature. -/
  | clearPeak
  /-- SYS_RST_ASSERT (R540): SYS_RST_N asserted for 1 us requests a device reset with drain. -/
  | sysRstAssert
  /-- SYS_RST_DEASSERT (R540): SYS_RST_N released after a device reset starts again from wave 1. -/
  | sysRstDeassert
  /-- DEVICE_RESET (R540): SUP_RESET_CMD DEVICE_RESET requests a device reset with drain. -/
  | deviceReset
  /-- BELVEDERE_RESTART (R552): SUP_RESET_CMD BELVEDERE_RESTART requests a warm restart. -/
  | belvedereRestart
  /-- BELVEDERE_FAULT (R552): A fault of the Belvedere causes a warm restart. -/
  | belvedereFault
  /-- WATCHDOG_EXPIRE (R554): No KICK within TIMEOUT_MS causes a warm restart. -/
  | watchdogExpire
  /-- KICK (R554): SUP_WDOG_KICK restarts the watchdog count. -/
  | kick
  /-- BOOT_ROM_RUN (R544): The boot ROM selects, verifies and layers an image and starts the setup program. -/
  | bootRomRun (aOk : Bool) (bOk : Bool)
  /-- FLS_KEY (R565): A write to FLS_KEY advances or drops the command sequence. -/
  | flsKey (v : Word)
  /-- PROGRAM (R566): Flash command programming code words from FLS_BUF. -/
  | program (count : BitVec 12) (addr : BitVec 28)
  /-- ERASE (R563): Flash command erasing, verifying and sealing a sector. -/
  | erase (count : BitVec 12) (addr : BitVec 28)
  /-- READ (R566): Flash command copying code words into FLS_BUF. -/
  | read (count : BitVec 12) (addr : BitVec 28) (ecc : List (Nat × EccResult))
  /-- UNLOCK (R569): Flash command presenting a region password. -/
  | unlock (addr : BitVec 28) (arg : Word)
  /-- WRITE_CONFIG (R577): Flash command writing a new configuration sector. -/
  | writeConfig (count : BitVec 12) (addr : BitVec 28)
  /-- WRITE_COMMIT (R581): Flash command appending a commit record. -/
  | writeCommit (count : BitVec 12) (addr : BitVec 28) (arg : Word)
  /-- FLASH_COMMAND_DONE (R567): A flash program or erase operation finishes and its result is recorded. -/
  | flashCommandDone (bank : Fin 2) (ok : Bool)
  /-- FLASH_RECORD_APPEND (R575): The record writer programs a queued record, preempting firmware work. -/
  | flashRecordAppend
  /-- FLASH_SCAN (R564): At FLS domain reset every sector header is read and half-erased sectors marked. -/
  | flashScan
  /-- CONFIG_AUTO_WRITE (R577): After pairing or replacement the controller writes a new configuration sector. -/
  | configAutoWrite
  /-- MCTP_PACKET (R593): A Block Write with command 0x0F delivers an MCTP packet. -/
  | mctpPacket (p : MctpPacket)
  /-- MGMT_REGISTER_READ (R594): Process call 0xA0 returns a register value or status. -/
  | mgmtRegisterRead (off : BitVec 32) (pecOk : Bool)
  /-- MGMT_CLEAR_LATCH (R593): Write Byte 0xA1 with 0x5A clears the power latch. -/
  | mgmtClearLatch (data : Byte) (pecOk : Bool)
  /-- SET_ENDPOINT_ID (R597): MCTP control command assigning the endpoint ID. -/
  | setEndpointId (src : BitVec 7) (eid : Byte)
  /-- GET_ENDPOINT_ID (R597): MCTP control command returning the endpoint ID. -/
  | getEndpointId (src : BitVec 7)
  /-- GET_MCTP_VERSION_SUPPORT (R597): MCTP control command returning supported versions. -/
  | getMctpVersionSupport (src : BitVec 7) (typ : Byte)
  /-- GET_MESSAGE_TYPE_SUPPORT (R597): MCTP control command returning supported message types. -/
  | getMessageTypeSupport (src : BitVec 7)
  /-- MCTP_SPDM (R598): An SPDM message over MCTP advances a session. -/
  | mctpSpdm (src : BitVec 7) (m : SpdmStep)
  /-- MCTP_SECURED_MESSAGE (R598): A secured message carries one management descriptor into the management queue. -/
  | mctpSecuredMessage (src : BitVec 7) (session : Fin 2) (desc : Bytes)
  /-- MCTP_SEND_TIMEOUT (R599): An MCTP message unsent after 100 ms is dropped. -/
  | mctpSendTimeout
  /-- CLOCK_LOW_TIMEOUT (R602): SCL low for 25 ms ends the transaction. -/
  | clockLowTimeout (bus : Fin 2)
  /-- BUS_RECOVERY (R603): A stuck bus is clocked free with up to nine clocks and a STOP. -/
  | busRecovery (bus : Fin 2) (clocks : Fin 10)
  /-- CQ_CI_POLL (R614): A waiting record re-reads the consumer index every 2 us. -/
  | cqCiPoll (cq : Fin 65536) (ci : BitVec 32)
  /-- CQ_FULL_TIMEOUT (R615): A queue WAITING for FULL_MS becomes OVERRUN. -/
  | cqFullTimeout (cq : Fin 65536)
  /-- CQ_BASE_WRITE (R615): A write of STA_CQ1 BASE binds or rebinds a completion ring. -/
  | cqBaseWrite (cq : Fin 65536) (v : Word)
  /-- TARGET_WRITE (R608): A write of STA_TGT0 makes a delivery target READY. -/
  | targetWrite (t : Fin 4096) (v : Word)
  /-- PAGE_REFRESH (R621): Every REFRESH_US each status page is rebuilt under its seqlock. -/
  | pageRefresh
  /-- PAGE_MIRROR (R625): Every MIRROR_US the tenant and global pages are written to host memory. -/
  | pageMirror (slot : Fin 2048)
  /-- IDCODE (R645): JTAG instruction selecting the IDCODE register. -/
  | idcode
  /-- BYPASS (R644): JTAG instruction selecting BYPASS. -/
  | bypass
  /-- SAMPLE_PRELOAD (R644): JTAG instruction sampling or preloading boundary cells. -/
  | samplePreload (cells : List Bool)
  /-- EXTEST (R644): JTAG instruction driving pins from boundary cells while in reset. -/
  | extest
  /-- CLAMP (R644): JTAG instruction clamping pins while in reset. -/
  | clamp
  /-- HIGHZ (R644): JTAG instruction floating pins while in reset. -/
  | highz
  /-- EXTEST_PULSE (R644): IEEE 1149.6 AC test instruction while in reset. -/
  | extestPulse
  /-- EXTEST_TRAIN (R644): IEEE 1149.6 AC test train instruction while in reset. -/
  | extestTrain
  /-- FLS_RECOVER (R584): JTAG instruction giving flash command access while NO_IMAGE. -/
  | flsRecover (op : RecoverOp)
  /-- DBG_UNLOCK (R646): JTAG instruction checking an unlock token for DBG. -/
  | dbgUnlock (token : Bytes) (sigMldsaOk : Bool) (sigEcdsaOk : Bool)
  /-- TRST (R537): TRST_N resets the JTAG island. -/
  | trst
  /-- REGISTER_WRITE (R16): A write to a control register with no behaviour of its own sets its fields. -/
  | registerWrite (off : BitVec 32) (v : Word)
  /-- VAON_LEAVES_WINDOW (R502): VAON or VIO leaves its window, the device enters power-on reset, and the latch, try counts and supervision log are lost. -/
  | vaonLeavesWindow
  /-- CXL_RETRAIN_TIMER (R423): A CXL port that could not train at x4 and 32 GT/s retries training every 1 s. -/
  | cxlRetrainTimer (port : Fin 2)
  /-- CXL_PERST_DEASSERT (R424): Release of CXL_PERST_N[p] takes port p out of fundamental reset, terminates its receivers and starts link training. -/
  | cxlPerstDeassert (port : Fin 2)
  /-- RNR_RETRY_TIMER (R414): The timer of a host's RNR NAK runs out and the device retries its request. -/
  | rnrRetryTimer (conn : Conn)
  /-- PFC_QUANTA_EXPIRE (R355): The pause time granted by a received PFC frame runs out and the port resumes transmitting that priority. -/
  | pfcQuantaExpire (port : Fin 64) (prio : Fin 8)
  /-- VFUSE_VOLTAGE (R502): A voltage appears on VFUSE in service and is logged and otherwise ignored. -/
  | vfuseVoltage (mv : BitVec 16)
  deriving DecidableEq, Repr

end Sys2Proof
end

