-- ==== Sys2Proof/WellFormed.lean ====
section
/-! DEFINITION. Which commands the block can be given. Most operands have types that take exactly the range the spec
gives them; the checks here are those of lists and of tile keys, whose bounds no type carries. -/

namespace Sys2Proof

/-- A tile key: data tile t below 2^37, or 2^37 + g for tile g of system space (R26, R69). -/
def tileKeyOk (t : Nat) : Bool := t < 2 ^ 37 + 268960770

/-- A stored tile has a 64-byte tag and 4,096 bytes of ciphertext (R51, R52). -/
def StoredCopy.wf (c : StoredCopy) : Bool := c.tag.length == 64 && c.cipher.length == 4096

/-- A Promenade payload has at most 4,184 bytes and is a multiple of 8 bytes long (R137). -/
def PrmFrame.wf (f : PrmFrame) : Bool := f.body.length ≤ 4184

/-- A UDP payload begins with the 12-byte BTH (R350). -/
def NetFrame.wf (f : NetFrame) : Bool := f.bth.length == 12

/-- 92 bytes of private data, and one of the path MTUs of R378 (R384). -/
def CmReq.wf (r : CmReq) : Bool := r.priv.length == 92 && [256, 512, 1024, 2048, 4096].contains r.mtu

/-- A codeword is 2,400 bits, 300 bytes (R55). -/
def RecoveryImage.wf (r : RecoveryImage) : Bool := r.words.all (·.2.2.length == 300)

/-- The checks of one command; a command without a line here has none. -/
def Instr.wf : Instr → Bool
  | .retirementStart t | .retirementComplete t | .mediaFillComplete t _ | .hedgeTimer t | .repairTimeout t
  | .repairRetry t | .repairDeferredAccept t | .copyOutEnd t | .resyncTileInstall t | .pinLoadTile t
  | .combineWindowExpire _ t => tileKeyOk t
  | .reanchorTile t c => tileKeyOk t && c.wf
  | .journalRecovery img => img.wf
  | .genRootCheck l | .forceSolo l => l.all (·.wf)
  | .prmRecord f | .rack f | .forward f | .fwdResp f | .heartbeat f | .repairReq f | .repairData f | .resyncMap f
  | .resyncData f | .nack f | .rekey f | .pairing f _ | .home f | .idle f => f.wf
  | .medDataFlit _ h cw pad crc => h.length == 8 && cw.length == 300 && pad.length == 4 && crc.length == 8
  | .medRespFlit _ h body crc => h.length == 8 && body.length == 304 && crc.length == 8
  | .medReplayReq _ b | .medIdleFlit _ b => b.length == 320
  | .roceFrame _ f => f.wf
  | .cmReq _ r => r.wf
  | .ringFetchDone _ _ _ ds => ds.all (·.length == 128)
  | .mctpSecuredMessage _ _ d => d.length == 128
  | .samplePreload cells => cells.length == 554
  | _ => true

end Sys2Proof
end

