-- ==== Sys2Proof/Decode.lean ====
section
/-! DEFINITION. The words of Aelo programs (R255 to R257): the instruction a 32-bit word is, and the word of an instruction. And the
commands that words of spec/opcode_table.json spell: none, for no row of the table gives bits. -/

namespace Sys2Proof

/-! ## Fields of a word (R255) -/

/-- MAJ, bits [31:26]. -/
def wMaj (w : Nat) : Nat := w / 2 ^ 26 % 64
/-- GP, bits [2:0]. -/
def wGp (w : Nat) : BitVec 3 := BitVec.ofNat 3 w
/-- D, bits [25:21]. -/
def wD (w : Nat) : BitVec 5 := BitVec.ofNat 5 (w / 2 ^ 21)
/-- A, bits [20:16]. -/
def wA (w : Nat) : BitVec 5 := BitVec.ofNat 5 (w / 2 ^ 16)
/-- B, bits [15:11]. -/
def wB (w : Nat) : BitVec 5 := BitVec.ofNat 5 (w / 2 ^ 11)
/-- FN, bits [10:3]. -/
def wFn (w : Nat) : BitVec 8 := BitVec.ofNat 8 (w / 2 ^ 3)
/-- IMM13, bits [15:3]. -/
def wImm13 (w : Nat) : BitVec 13 := BitVec.ofNat 13 (w / 2 ^ 3)
/-- IMM18, bits [20:3]. -/
def wImm18 (w : Nat) : BitVec 18 := BitVec.ofNat 18 (w / 2 ^ 3)
/-- OFF23, bits [25:3]. -/
def wOff23 (w : Nat) : BitVec 23 := BitVec.ofNat 23 (w / 2 ^ 3)

/-! ## From a word to its instruction (R256, R257) -/

/-- The instructions of the R formats in which FN names the instruction (R265, R267, R270, R273, R275, R277, R279). -/
def decodeByFn (c : Ctx) (maj : Nat) (gp : BitVec 3) (d a b : BitVec 5) (fn : BitVec 8) : Option Instr :=
  match maj with
  | 0x28 =>
    match fn.toNat with
    | 0x00 => some (.tmap c gp d a b)
    | 0x01 => some (.tmapr c gp d a b)
    | 0x02 => some (.tmaps c gp d a b)
    | 0x03 => some (.tunmap c gp d a b)
    | 0x10 => some (.walk c gp d a b)
    | 0x11 => some (.wcancel c gp d a b)
    | _ => none
  | 0x2A =>
    match fn.toNat with
    | 0x00 => some (.jstg c gp d a b)
    | 0x01 => some (.jdrop c gp d a b)
    | 0x02 => some (.jfence c gp d a b)
    | 0x03 => some (.commit c gp d a b)
    | _ => none
  | 0x2B =>
    match fn.toNat with
    | 0x00 => some (.cas64 c gp d a b)
    | 0x01 => some (.cas128 c gp d a b)
    | 0x02 => some (.fadd64 c gp d a b)
    | 0x03 => some (.fadd128 c gp d a b)
    | _ => none
  | 0x2D =>
    match fn.toNat with
    | 0x00 => some (.gwait c gp d a b)
    | 0x01 => some (.gpoll c gp d a b)
    | 0x02 => some (.gadd c gp d a b)
    | 0x03 => some (.grecv c gp d a b)
    | 0x04 => some (.gpost c gp d a b)
    | _ => none
  | 0x2E =>
    match fn.toNat with
    | 0x00 => some (.spawn c gp d a b)
    | 0x01 => some (.abort c gp d a b)
    | _ => none
  | 0x2C =>
    let hi := BitVec.ofNat 4 (fn.toNat / 16)
    match fn.toNat % 16 with
    | 0x00 => some (.gcmEnc c gp d a b hi)
    | 0x01 => some (.gcmDec c gp d a b hi)
    | 0x02 => some (.xtsEnc c gp d a b hi)
    | 0x03 => some (.xtsDec c gp d a b hi)
    | 0x04 => some (.cmac c gp d a b hi)
    | _ => none
  | _ => none

/-- The instruction of context `c` that a word is; none where its MAJ, or an FN that names the instruction, is unassigned. Fields that
must be 0 and register fields are judged where the instruction issues (R256). -/
def decodeAelo (c : Ctx) (w : Nat) : Option Instr :=
  let gp := wGp w
  let d := wD w
  let a := wA w
  let b := wB w
  let fn := wFn w
  match wMaj w with
  | 0x01 => some (.aluOp c gp d a b fn)
  | 0x02 => some (.addi c gp d a (wImm13 w))
  | 0x03 => some (.andiOriXori c .and gp d a (wImm13 w))
  | 0x04 => some (.andiOriXori c .or gp d a (wImm13 w))
  | 0x05 => some (.andiOriXori c .xor gp d a (wImm13 w))
  | 0x06 => some (.shi c gp d a (wImm13 w))
  | 0x07 => some (.li c gp d (wImm18 w))
  | 0x08 => some (.lis c gp d (wImm18 w))
  | 0x09 => some (.cmp c gp d a b fn)
  | 0x0A => some (.cmpi c gp d a (wImm13 w))
  | 0x0B => some (.predicateOp c gp d a b fn)
  | 0x0C => some (.spr c gp d a (wImm13 w))
  | 0x10 => some (.br c gp (wOff23 w))
  | 0x11 => some (.brn c gp (wOff23 w))
  | 0x12 => some (.call c gp (wOff23 w))
  | 0x13 => some (.jr c gp d a b fn)
  | 0x18 => some (.ld c .b8 gp d a (wImm13 w))
  | 0x19 => some (.ld c .b16 gp d a (wImm13 w))
  | 0x1A => some (.ld c .b32 gp d a (wImm13 w))
  | 0x1B => some (.ld c .b64 gp d a (wImm13 w))
  | 0x1C => some (.st c .b8 gp d a (wImm13 w))
  | 0x1D => some (.st c .b16 gp d a (wImm13 w))
  | 0x1E => some (.st c .b32 gp d a (wImm13 w))
  | 0x1F => some (.st c .b64 gp d a (wImm13 w))
  | 0x20 => some (.vld c gp d a (wImm13 w))
  | 0x21 => some (.vst c gp d a (wImm13 w))
  | 0x22 => some (.valu c gp d a b fn)
  | 0x23 => some (.fieldOp c gp d a b fn)
  | 0x24 => some (.crcOp c gp d a b fn)
  | 0x25 => some (.keccak c gp d a b fn)
  | 0x26 => some (.vectorMove c gp d a b fn)
  | maj => decodeByFn c maj gp d a b fn

/-! ## From an instruction to its word (R255, R257) -/

/-- A word of format R. -/
def rWord (maj : Nat) (gp : BitVec 3) (d a b : BitVec 5) (fn : Nat) : Nat :=
  maj * 2 ^ 26 + d.toNat * 2 ^ 21 + a.toNat * 2 ^ 16 + b.toNat * 2 ^ 11 + fn * 2 ^ 3 + gp.toNat
/-- A word of format I. -/
def iWord (maj : Nat) (gp : BitVec 3) (d a : BitVec 5) (imm : BitVec 13) : Nat :=
  maj * 2 ^ 26 + d.toNat * 2 ^ 21 + a.toNat * 2 ^ 16 + imm.toNat * 2 ^ 3 + gp.toNat
/-- A word of format L. -/
def lWord (maj : Nat) (gp : BitVec 3) (d : BitVec 5) (imm : BitVec 18) : Nat := maj * 2 ^ 26 + d.toNat * 2 ^ 21 + imm.toNat * 2 ^ 3 + gp.toNat
/-- A word of format J. -/
def jWord (maj : Nat) (gp : BitVec 3) (off : BitVec 23) : Nat := maj * 2 ^ 26 + off.toNat * 2 ^ 3 + gp.toNat

/-- MAJ of a logic immediate. -/
def LogicOp.maj : LogicOp → Nat
  | .and => 0x03 | .or => 0x04 | .xor => 0x05

/-- Which of the four sizes. -/
def Size.num : Size → Nat
  | .b8 => 0 | .b16 => 1 | .b32 => 2 | .b64 => 3

/-- The word of an instruction with its context; a command that is no Aelo instruction has none. -/
def encodeAelo : Instr → Option (Ctx × Nat)
  | .aluOp c gp d a b fn => some (c, rWord 0x01 gp d a b fn.toNat)
  | .cmp c gp d a b fn => some (c, rWord 0x09 gp d a b fn.toNat)
  | .predicateOp c gp d a b fn => some (c, rWord 0x0B gp d a b fn.toNat)
  | .jr c gp d a b fn => some (c, rWord 0x13 gp d a b fn.toNat)
  | .valu c gp d a b fn => some (c, rWord 0x22 gp d a b fn.toNat)
  | .fieldOp c gp d a b fn => some (c, rWord 0x23 gp d a b fn.toNat)
  | .crcOp c gp d a b fn => some (c, rWord 0x24 gp d a b fn.toNat)
  | .keccak c gp d a b fn => some (c, rWord 0x25 gp d a b fn.toNat)
  | .vectorMove c gp d a b fn => some (c, rWord 0x26 gp d a b fn.toNat)
  | .addi c gp d a imm => some (c, iWord 0x02 gp d a imm)
  | .shi c gp d a imm => some (c, iWord 0x06 gp d a imm)
  | .cmpi c gp d a imm => some (c, iWord 0x0A gp d a imm)
  | .spr c gp d a imm => some (c, iWord 0x0C gp d a imm)
  | .vld c gp d a imm => some (c, iWord 0x20 gp d a imm)
  | .vst c gp d a imm => some (c, iWord 0x21 gp d a imm)
  | .li c gp d imm => some (c, lWord 0x07 gp d imm)
  | .lis c gp d imm => some (c, lWord 0x08 gp d imm)
  | .br c gp off => some (c, jWord 0x10 gp off)
  | .brn c gp off => some (c, jWord 0x11 gp off)
  | .call c gp off => some (c, jWord 0x12 gp off)
  | .andiOriXori c op gp d a imm => some (c, iWord op.maj gp d a imm)
  | .ld c sz gp d a imm => some (c, iWord (0x18 + sz.num) gp d a imm)
  | .st c sz gp d a imm => some (c, iWord (0x1C + sz.num) gp d a imm)
  | .tmap c gp d a b => some (c, rWord 0x28 gp d a b 0x00)
  | .tmapr c gp d a b => some (c, rWord 0x28 gp d a b 0x01)
  | .tmaps c gp d a b => some (c, rWord 0x28 gp d a b 0x02)
  | .tunmap c gp d a b => some (c, rWord 0x28 gp d a b 0x03)
  | .walk c gp d a b => some (c, rWord 0x28 gp d a b 0x10)
  | .wcancel c gp d a b => some (c, rWord 0x28 gp d a b 0x11)
  | .jstg c gp d a b => some (c, rWord 0x2A gp d a b 0x00)
  | .jdrop c gp d a b => some (c, rWord 0x2A gp d a b 0x01)
  | .jfence c gp d a b => some (c, rWord 0x2A gp d a b 0x02)
  | .commit c gp d a b => some (c, rWord 0x2A gp d a b 0x03)
  | .cas64 c gp d a b => some (c, rWord 0x2B gp d a b 0x00)
  | .cas128 c gp d a b => some (c, rWord 0x2B gp d a b 0x01)
  | .fadd64 c gp d a b => some (c, rWord 0x2B gp d a b 0x02)
  | .fadd128 c gp d a b => some (c, rWord 0x2B gp d a b 0x03)
  | .gwait c gp d a b => some (c, rWord 0x2D gp d a b 0x00)
  | .gpoll c gp d a b => some (c, rWord 0x2D gp d a b 0x01)
  | .gadd c gp d a b => some (c, rWord 0x2D gp d a b 0x02)
  | .grecv c gp d a b => some (c, rWord 0x2D gp d a b 0x03)
  | .gpost c gp d a b => some (c, rWord 0x2D gp d a b 0x04)
  | .spawn c gp d a b => some (c, rWord 0x2E gp d a b 0x00)
  | .abort c gp d a b => some (c, rWord 0x2E gp d a b 0x01)
  | .gcmEnc c gp d a b hi => some (c, rWord 0x2C gp d a b (hi.toNat * 16 + 0))
  | .gcmDec c gp d a b hi => some (c, rWord 0x2C gp d a b (hi.toNat * 16 + 1))
  | .xtsEnc c gp d a b hi => some (c, rWord 0x2C gp d a b (hi.toNat * 16 + 2))
  | .xtsDec c gp d a b hi => some (c, rWord 0x2C gp d a b (hi.toNat * 16 + 3))
  | .cmac c gp d a b hi => some (c, rWord 0x2C gp d a b (hi.toNat * 16 + 4))
  | _ => none

/-- The command a word of the table spells (log entry 2). -/
def decodeTableWord (_nbits _w : Nat) : Option Instr := none

end Sys2Proof
end

