-- ==== Sys2Proof/Machine/AMap.lean ====
section
/-! DEFINITION. Reading and writing the canonical sparse maps. -/

namespace Sys2Proof

/-- The entry at `k`, by one walk along the rising keys. -/
def AMap.find? {α : Type} : AMap α → Nat → Option α
  | [], _ => none
  | (j, v) :: r, k => if k = j then some v else AMap.find? r k

/-- Puts `v` at `k`, keeping the keys rising. -/
def AMap.put {α : Type} : AMap α → Nat → α → AMap α
  | [], k, v => [(k, v)]
  | (j, w) :: r, k, v =>
    if k < j then (k, v) :: (j, w) :: r
    else if k = j then (k, v) :: r
    else (j, w) :: AMap.put r k v

/-- Takes the entry at `k` away. -/
def AMap.del {α : Type} : AMap α → Nat → AMap α
  | [], _ => []
  | (j, w) :: r, k => if k = j then AMap.del r k else (j, w) :: AMap.del r k

/-- What key `k` holds, where an unlisted key holds `d`. -/
def AMap.get {α : Type} (d : α) (m : AMap α) (k : Nat) : α := (AMap.find? m k).getD d

/-- Makes key `k` hold `v`; holding the default means not being listed. -/
def AMap.set {α : Type} [DecidableEq α] (d : α) (m : AMap α) (k : Nat) (v : α) : AMap α :=
  if v = d then AMap.del m k else AMap.put m k v

/-- The canonical form: keys strictly rising, no entry equal to the default. -/
abbrev AMap.Wf {α : Type} (d : α) (m : AMap α) : Prop :=
  m.Pairwise (fun p q => p.1 < q.1) ∧ ∀ p ∈ m, p.2 ≠ d

/-- The keys strictly rise; for maps whose every entry means something. -/
abbrev AMap.Rising {α : Type} (m : AMap α) : Prop := m.Pairwise (fun p q => p.1 < q.1)

end Sys2Proof
end

