-- ==== Sys2Proof/Machine/Cipher.lean ====
section
/-! DEFINITION. The arithmetic of R54, R55, R58, R98, R262 to R264, R447 to R449 and R461: GF(2^8), CRC-64 and CRC-32C,
Reed-Solomon over GF(2^10), AES-256 with GCM, XTS, CMAC and the SP 800-108 derivation, Keccak and SHA3-384. A 128-bit
block is the big-endian integer of its bytes (R647). -/

namespace Sys2Proof.Machine

/-! ## Bytes and numbers -/

/-- Little-endian number of bytes (R15). -/
def leNat : Bytes → Nat
  | [] => 0
  | b :: r => b.toNat + 256 * leNat r

/-- `n` little-endian bytes of a number. -/
def natLe : Nat → Nat → Bytes
  | 0, _ => []
  | n + 1, x => BitVec.ofNat 8 x :: natLe n (x / 256)

/-- Big-endian number of bytes (R647). -/
def beNat (l : Bytes) : Nat := l.foldl (fun x b => 256 * x + b.toNat) 0

/-- `n` big-endian bytes of a number. -/
def natBe (n x : Nat) : Bytes := (natLe n x).reverse

/-- Bytes `i` to `i + n - 1`; bytes beyond the end read 0. -/
def slice (l : Bytes) (i n : Nat) : Bytes :=
  let r := (l.drop i).take n
  r ++ List.replicate (n - r.length) 0

/-- The little-endian field at byte `i`, `n` bytes long. -/
def fieldAt (l : Bytes) (i n : Nat) : Nat := leNat (slice l i n)

/-- Exclusive or of two byte runs, as long as the shorter. -/
def xorBytes (a b : Bytes) : Bytes := List.zipWith (· ^^^ ·) a b

/-- Overwrites the bytes of `l` from `i` on with `w`; `l` is taken as extended by zeros. -/
def overlay (l : Bytes) (i : Nat) (w : Bytes) : Bytes :=
  slice l 0 i ++ w ++ l.drop (i + w.length)

/-- Cuts a run into pieces of `n` bytes; `fuel` bounds the pieces. -/
def chunks (n : Nat) : Nat → Bytes → List Bytes
  | 0, _ => []
  | _ + 1, [] => []
  | fuel + 1, l => l.take n :: chunks n fuel (l.drop n)

/-- The pieces of 16 bytes, the last one maybe shorter. -/
def blocks16 (l : Bytes) : List Bytes := chunks 16 (l.length / 16 + 1) l

/-! ## GF(2^8) with 0x11D, CRC -/

/-- Product in GF(2)[x] modulo a polynomial of degree `w`, by `n` steps of shift and add. -/
def gfStep (w poly : Nat) : Nat → Nat → Nat → Nat → Nat
  | 0, _, _, acc => acc
  | n + 1, a, b, acc =>
    let acc := if b % 2 = 1 then acc ^^^ a else acc
    let a2 := a * 2
    let a := if a2.testBit w then a2 ^^^ poly else a2
    gfStep w poly n a (b / 2) acc

/-- Product in GF(2^8) of R54 and R262. -/
def gf8 (a b : Byte) : Byte := BitVec.ofNat 8 (gfStep 8 0x11D 8 a.toNat b.toNat 0)

/-- 0x02 to the `k` (R54). -/
def gf8Pow : Nat → Byte
  | 0 => 1
  | k + 1 => gf8 2 (gf8Pow k)

/-- The inverse of a nonzero element: its 254th power. -/
def gf8Inv (a : Byte) : Byte := (List.range 253).foldl (fun x _ => gf8 x a) a

/-- Carry-less product of two 64-bit values (R262). -/
def clmul (a b : Nat) : Nat := (List.range 64).foldl (fun x i => if b.testBit i then x ^^^ (a <<< i) else x) 0

/-- One byte into a CRC-64 (R263). -/
def crc64Byte (c : Word) (b : Byte) : Word :=
  (List.range 8).foldl
    (fun c _ => if c.getMsbD 0 then (c <<< 1) ^^^ 0x42F0E1EBA9EA3693 else c <<< 1) (c ^^^ (b.zeroExtend 64 <<< 56))

/-- CRC-64 of R98 over bytes, from a starting value. -/
def crc64 (c : Word) (l : Bytes) : Word := l.foldl crc64Byte c

/-- One byte into a CRC-32C (R263). -/
def crc32Byte (c : BitVec 32) (b : Byte) : BitVec 32 :=
  (List.range 8).foldl
    (fun c _ => if c.getLsbD 0 then (c >>> 1) ^^^ 0x82F63B78 else c >>> 1) (c ^^^ b.zeroExtend 32)

/-- CRC-32C step over bytes (R263). -/
def crc32 (c : BitVec 32) (l : Bytes) : BitVec 32 := l.foldl crc32Byte c

/-- CRC-32C as R98 defines SEG_CRC: from all ones, inverted at the end. -/
def crc32c (l : Bytes) : BitVec 32 := ~~~ crc32 0xFFFFFFFF l

/-! ## AES-256 (FIPS 197) -/

/-- The S-box as one number, entry `x` in bits [8x+7:8x]. -/
def sboxTab : Nat := 0x16bb54b00f2d99416842e6bf0d89a18cdf2855cee9871e9b948ed9691198f8e19e1dc186b95735610ef6034866b53e708a8bbd4b1f74dde8c6b4a61c2e2578ba08ae7a65eaf4566ca94ed58d6d37c8e779e4959162acd3c25c2406490a3a32e0db0b5ede14b8ee4688902a22dc4f816073195d643d7ea7c41744975fec130ccdd2f3ff1021dab6bcf5389d928f40a351a89f3c507f02f94585334d43fbaaefd0cf584c4a39becb6a5bb1fc20ed00d153842fe329b3d63b52a05a6e1b1a2c830975b227ebe28012079a059618c323c7041531d871f1e5a534ccf73f362693fdb7c072a49cafa2d4adf04759fa7dc982ca76abd7fe2b670130c56f6bf27b777c63
/-- The inverse S-box likewise. -/
def isboxTab : Nat := 0x7d0c2155631469e126d677ba7e042b17619953833cbbebc8b0f52aae4d3be0a0ef9cc9939f7ae52d0d4ab519a97f51605fec8027591012b131c7078833a8dd1ff45acd78fec0db9a2079d2c64b3e56fc1bbe18aa0e62b76f89c5291d711af1476edf751ce837f9e28535ade72274ac9673e6b4f0cecff297eadc674f4111913a6b8a130103bdafc1020f3fca8f1e2cd00645b3b80558e4f70ad3bc8c00abd890849d8da75746155edab9edfd5048706c92b6655dcc5ca4d41698688664f6f87225d18b6d49a25b76b224d92866a12e084ec3fa420b954cee3d23c2a632947b54cbe9dec444438e3487ff2f9b8239e37cfbd7f3819ea340bf38a53630d56a0952

/-- SubBytes on one byte. -/
def sbox (x : Nat) : Nat := (sboxTab >>> (8 * x)) % 256
/-- InvSubBytes on one byte. -/
def isbox (x : Nat) : Nat := (isboxTab >>> (8 * x)) % 256
/-- Product in GF(2^8) with 0x11B. -/
def aesMul (a b : Nat) : Nat := gfStep 8 0x11B 8 a b 0

/-- One step of the key expansion: the next 4-byte word from the words so far, newest first. -/
def aesNextWord (i : Nat) (ws : List (List Nat)) : List Nat :=
  let t := ws.getD 0 []
  let t := if i % 8 = 0 then
      let r := (t.drop 1 ++ t.take 1).map sbox
      [r.getD 0 0 ^^^ (2 ^ (i / 8 - 1)), r.getD 1 0, r.getD 2 0, r.getD 3 0]
    else if i % 8 = 4 then t.map sbox else t
  List.zipWith (· ^^^ ·) t (ws.getD 7 [])

/-- The 15 round keys of a 256-bit key, 16 bytes each. -/
def aesKeys (key : Bytes) : List (List Nat) :=
  let w0 := (chunks 4 8 (slice key 0 32)).map (·.map BitVec.toNat)
  let ws := (List.range 52).foldl (fun ws i => aesNextWord (i + 8) ws :: ws) w0.reverse
  let fl := ws.reverse.flatten
  (List.range 15).map fun r => (fl.drop (16 * r)).take 16

/-- ShiftRows: byte 4c + r of the result is byte 4((c + r) mod 4) + r. -/
def shiftRows (s : List Nat) : List Nat := (List.range 16).map fun i => s.getD ((i + 4 * (i % 4)) % 16) 0
/-- InvShiftRows. -/
def ishiftRows (s : List Nat) : List Nat := (List.range 16).map fun i => s.getD ((i + 16 - 4 * (i % 4)) % 16) 0

/-- MixColumns with the coefficients of a circulant matrix. -/
def mixColumns (m : List Nat) (s : List Nat) : List Nat :=
  (List.range 16).map fun i =>
    (List.range 4).foldl (fun x j => x ^^^ aesMul (m.getD ((j + 4 - i % 4) % 4) 0) (s.getD (4 * (i / 4) + j) 0)) 0

/-- Adds a round key. -/
def addKey (s k : List Nat) : List Nat := List.zipWith (· ^^^ ·) s k

/-- AES-256 encryption of a 16-byte block under expanded keys. -/
def aesEncK (ks : List (List Nat)) (b : List Nat) : List Nat :=
  let s := addKey b (ks.getD 0 [])
  let s := (List.range 13).foldl
    (fun s r => addKey (mixColumns [2, 3, 1, 1] (shiftRows (s.map sbox))) (ks.getD (r + 1) [])) s
  addKey (shiftRows (s.map sbox)) (ks.getD 14 [])

/-- AES-256 decryption of a 16-byte block under expanded keys. -/
def aesDecK (ks : List (List Nat)) (b : List Nat) : List Nat :=
  let s := addKey b (ks.getD 14 [])
  let s := (List.range 13).foldl
    (fun s r => mixColumns [14, 11, 13, 9] (addKey ((ishiftRows s).map isbox) (ks.getD (13 - r) []))) s
  addKey ((ishiftRows s).map isbox) (ks.getD 0 [])

/-- AES-256 of one block of bytes. -/
def aesEnc (key : Bytes) (b : Bytes) : Bytes :=
  (aesEncK (aesKeys key) ((slice b 0 16).map BitVec.toNat)).map (BitVec.ofNat 8)

/-! ## GHASH, GCM, XTS, CMAC -/

/-- Product in the field of SP 800-38D; blocks are big-endian integers, so bit 0 of the standard is bit 127 here. -/
def ghashMul (x y : Nat) : Nat :=
  ((List.range 128).foldl
    (fun (p : Nat × Nat) i =>
      (if x.testBit (127 - i) then p.1 ^^^ p.2 else p.1,
       if p.2 % 2 = 1 then (p.2 / 2) ^^^ (0xE1 <<< 120) else p.2 / 2)) (0, y)).1

/-- GHASH over 16-byte blocks (R58); a short last block is padded with zeros. -/
def ghash (h : Nat) (bs : List Bytes) : Nat := bs.foldl (fun y b => ghashMul (y ^^^ beNat (slice b 0 16)) h) 0

/-- H to the `n` by `n - 1` products (R60). -/
def ghashPow (h : Nat) : Nat → Nat
  | 0 => 1 <<< 127
  | n + 1 => ghashMul (ghashPow h n) h

/-- The counter-mode key stream of SP 800-38D from counter value `c` on, for a 96-bit nonce. -/
def ctrBlocks (ks : List (List Nat)) (iv : Bytes) (c n : Nat) : Bytes :=
  ((List.range n).map fun i =>
    (aesEncK ks ((slice iv 0 12 ++ natBe 4 (c + i)).map BitVec.toNat)).map (BitVec.ofNat 8)).flatten

/-- Counter-mode encryption or decryption of a message. -/
def gcmCrypt (key iv data : Bytes) : Bytes := xorBytes data (ctrBlocks (aesKeys key) iv 2 (data.length / 16 + 1))

/-- The GCM tag over associated data and ciphertext. -/
def gcmTag (key iv aad c : Bytes) : Bytes :=
  let h := beNat (aesEnc key (List.replicate 16 0))
  let s := ghash h (blocks16 aad ++ blocks16 c ++ [natBe 8 (8 * aad.length) ++ natBe 8 (8 * c.length)])
  xorBytes (natBe 16 s) (ctrBlocks (aesKeys key) iv 1 1)

/-- GCM sealing: ciphertext and 16-byte tag. -/
def gcmSeal (key iv aad data : Bytes) : Bytes × Bytes :=
  let c := gcmCrypt key iv data
  (c, gcmTag key iv aad c)

/-- GCM opening: the plaintext if the tag verifies. -/
def gcmOpen (key iv aad c tag : Bytes) : Option Bytes :=
  if tag = gcmTag key iv aad c then some (gcmCrypt key iv c) else none

/-- Multiplication of an XTS tweak by x, byte 0 least significant (SP 800-38E). -/
def xtsDouble (t : Bytes) : Bytes :=
  let n := 2 * leNat t
  natLe 16 (if n.testBit 128 then n ^^^ 0x87 else n)

/-- XTS over whole blocks; `f` is the block cipher's direction. -/
def xtsGo (f : List Nat → List Nat) : Nat → Bytes → Bytes → Bytes
  | 0, _, _ => []
  | n + 1, t, l =>
    let b := (f ((xorBytes (slice l 0 16) t).map BitVec.toNat)).map (BitVec.ofNat 8)
    xorBytes b t ++ xtsGo f n (xtsDouble t) (l.drop 16)

/-- XTS-AES-256 under a 64-byte key, data key first (R449), with a 128-bit tweak. -/
def xtsEnc (key tweak data : Bytes) : Bytes :=
  xtsGo (aesEncK (aesKeys (key.take 32))) (data.length / 16) (aesEnc (key.drop 32) tweak) data
/-- XTS decryption. -/
def xtsDec (key tweak data : Bytes) : Bytes :=
  xtsGo (aesDecK (aesKeys (key.take 32))) (data.length / 16) (aesEnc (key.drop 32) tweak) data

/-- Doubling of a CMAC subkey (SP 800-38B). -/
def cmacDouble (b : Bytes) : Bytes :=
  let n := 2 * beNat b
  natBe 16 (if n.testBit 128 then n ^^^ 0x87 else n)

/-- AES-256-CMAC (SP 800-38B). -/
def cmac (key msg : Bytes) : Bytes :=
  let l := aesEnc key (List.replicate 16 0)
  let k1 := cmacDouble l
  let n := (msg.length + 15) / 16
  let body := msg.take (16 * (n - 1))
  let tail := msg.drop (16 * (n - 1))
  let last := if tail.length = 16 then xorBytes tail k1
    else xorBytes (slice (tail ++ [0x80]) 0 16) (cmacDouble k1)
  let x := (chunks 16 (n - 1) body).foldl (fun x b => aesEnc key (xorBytes x b)) (List.replicate 16 0)
  aesEnc key (xorBytes x last)

/-- Bits [127:64] of a block (R647). -/
def top64 (b : Bytes) : Word := BitVec.ofNat 64 (beNat (b.take 8))

/-- The context label of R449; `ext` is bits [151:0], used by NET_RX and NET_TX alone. -/
def keyLabel (purpose tenant object epoch ext : Nat) : Bytes :=
  natBe 1 purpose ++ natBe 3 tenant ++ natBe 5 object ++ natBe 4 epoch ++ natBe 19 ext

/-- SP 800-108 counter mode with AES-256-CMAC (R448), to 256 or 512 bits. -/
def kdf (root label : Bytes) (bits : Nat) : Bytes :=
  ((List.range (bits / 128)).map fun i => cmac root (natBe 1 (i + 1) ++ label ++ [0] ++ natBe 2 bits)).flatten

/-! ## Keccak-f[1600] (FIPS 202) -/

/-- Round constants of iota. -/
def keccakRc : List Nat := [0x1, 0x8082, 0x800000000000808a, 0x8000000080008000, 0x808b, 0x80000001, 0x8000000080008081, 0x8000000000008009, 0x8a, 0x88, 0x80008009, 0x8000000a, 0x8000808b, 0x800000000000008b, 0x8000000000008089, 0x8000000000008003, 0x8000000000008002, 0x8000000000000080, 0x800a, 0x800000008000000a, 0x8000000080008081, 0x8000000000008080, 0x80000001, 0x8000000080008008]
/-- Rotation offsets of rho, lane x + 5y. -/
def keccakRot : List Nat := [0, 1, 62, 28, 27, 36, 44, 6, 55, 20, 3, 10, 43, 25, 39, 41, 45, 15, 21, 8, 18, 2, 61, 56, 14]

/-- One round on 25 lanes. -/
def keccakRound (ir : Nat) (l : List Word) : List Word :=
  let at' := fun (i : Nat) => l.getD i 0
  let c := (List.range 5).map fun x => at' x ^^^ at' (x + 5) ^^^ at' (x + 10) ^^^ at' (x + 15) ^^^ at' (x + 20)
  let d := (List.range 5).map fun x => c.getD ((x + 4) % 5) 0 ^^^ (c.getD ((x + 1) % 5) 0).rotateLeft 1
  let t := (List.range 25).map fun i => (at' i ^^^ d.getD (i % 5) 0).rotateLeft (keccakRot.getD i 0)
  -- pi: lane (x, y) of the result is lane (x + 3y, x)
  let b := (List.range 25).map fun i => t.getD ((i % 5 + 3 * (i / 5)) % 5 + 5 * (i % 5)) 0
  (List.range 25).map fun i =>
    let x := i % 5
    let y := 5 * (i / 5)
    let v := b.getD i 0 ^^^ (~~~ b.getD ((x + 1) % 5 + y) 0 &&& b.getD ((x + 2) % 5 + y) 0)
    if i = 0 then v ^^^ BitVec.ofNat 64 (keccakRc.getD ir 0) else v

/-- The permutation: 24 rounds. -/
def keccakF (l : List Word) : List Word := (List.range 24).foldl (fun l r => keccakRound r l) l

/-- SHA3-384: rate 104 bytes, domain bits 01. -/
def sha3_384 (m : Bytes) : Bytes :=
  let z := 103 - m.length % 104
  let p := if z = 0 then m ++ [0x86] else m ++ [0x06] ++ List.replicate (z - 1) 0 ++ [0x80]
  let st := (chunks 104 (p.length / 104) p).foldl
    (fun st blk => keccakF ((List.range 25).map fun i =>
      if i < 13 then st.getD i 0 ^^^ BitVec.ofNat 64 (fieldAt blk (8 * i) 8) else st.getD i 0))
    (List.replicate 25 0)
  ((st.take 6).map fun w => natLe 8 w.toNat).flatten

/-! ## Reed-Solomon over GF(2^10) (R55) -/

/-- Product in GF(2^10) with x^10 + x^3 + 1. -/
def gf10 (a b : Nat) : Nat := gfStep 10 0x409 10 a b 0
/-- α to the `k`. -/
def gf10Pow : Nat → Nat
  | 0 => 1
  | k + 1 => gf10 2 (gf10Pow k)
/-- Inverse: the 1,022nd power. -/
def gf10Inv (a : Nat) : Nat := (List.range 8).foldl (fun p _ => let q := gf10 p p; gf10 q a) a |> fun p => gf10 p p

/-- The 240 symbols of a 300-byte codeword (R55): bit n of the codeword is bit n mod 10 of symbol n / 10. -/
def symbols (cw : Bytes) : List Nat := (List.range 240).map fun j => (leNat (slice cw 0 300) >>> (10 * j)) % 1024
/-- The bytes of symbols. -/
def unsymbols (n : Nat) (l : List Nat) : Bytes := natLe n (l.foldr (fun x acc => x + 1024 * acc) 0)

/-- Symbol j is the coefficient of x^(239 - j) (log entry 9). Value of the word at `a`, by Horner's rule. -/
def polyEval (l : List Nat) (a : Nat) : Nat := l.foldl (fun x c => gf10 x a ^^^ c) 0

/-- The generator polynomial, leading coefficient first. -/
def rsGen : List Nat :=
  (List.range 32).foldl
    (fun g i => List.zipWith (· ^^^ ·) (g ++ [0]) (0 :: g.map (gf10 (gf10Pow i)))) [1]

/-- The 32 check symbols of 208 payload symbols. -/
def rsCheck (p : List Nat) : List Nat :=
  p.foldl (fun r c =>
    let q := c ^^^ r.headD 0
    List.zipWith (· ^^^ ·) (r.drop 1 ++ [0]) ((rsGen.drop 1).map (gf10 q))) (List.replicate 32 0)

/-- A 260-byte payload as a 300-byte codeword. -/
def rsEncode (payload : Bytes) : Bytes :=
  let p := (List.range 208).map fun j => (leNat (slice payload 0 260) >>> (10 * j)) % 1024
  unsymbols 300 (p ++ rsCheck p)

/-- One step of Berlekamp's iteration: the connection polynomial, the saved one, their gap, its discrepancy, the length;
coefficients from x^0 up. -/
def bmStep (syn : List Nat) (st : List Nat × List Nat × Nat × Nat × Nat) (n : Nat) :
    List Nat × List Nat × Nat × Nat × Nat :=
  let (c, b, m, bd, len) := st
  let d := (List.range (len + 1)).foldl (fun x i => x ^^^ gf10 (c.getD i 0) (syn.getD (n - i) 0)) 0
  if d = 0 then (c, b, m + 1, bd, len)
  else
    let f := gf10 d (gf10Inv bd)
    let sh := List.replicate m 0 ++ b.map (gf10 f)
    let k := max c.length sh.length
    let c' := (List.range k).map fun i => c.getD i 0 ^^^ sh.getD i 0
    if 2 * len ≤ n then (c', c, 1, d, n + 1 - len) else (c', b, m + 1, bd, len)

/-- Decoding (R55): the payload and how many symbols were corrected, or none where more than 16 symbols are wrong. -/
def rsDecode (cw : Bytes) : Option (Bytes × Nat) :=
  let w := symbols cw
  let syn := (List.range 32).map fun i => polyEval w (gf10Pow i)
  if syn.all (· == 0) then some (unsymbols 260 (w.take 208), 0)
  else
    let (loc, _, _, _, len) := (List.range 32).foldl (bmStep syn) ([1], [1], 1, 1, 0)
    -- error positions: j with locator zero at the inverse of α^(239 - j)
    let inv := fun (j : Nat) => gf10Inv (gf10Pow (239 - j))
    let pos := (List.range 240).filter fun j => polyEval loc.reverse (inv j) == 0
    if len > 16 ∨ pos.length ≠ len then none
    else
      let om := (List.range len).map fun k =>
        (List.range (k + 1)).foldl (fun x i => x ^^^ gf10 (loc.getD i 0) (syn.getD (k - i) 0)) 0
      let fix := pos.foldl (fun w j =>
        let xi := inv j
        let num := gf10 (gf10Pow (239 - j)) (polyEval om.reverse xi)
        let den := (List.range loc.length).foldl
          (fun x i => if i % 2 = 1 then x ^^^ gf10 (loc.getD i 0) ((List.range (i - 1)).foldl (fun p _ => gf10 p xi) 1)
            else x) 0
        w.set j (w.getD j 0 ^^^ gf10 num (gf10Inv den))) w
      if (List.range 32).all (fun i => polyEval fix (gf10Pow i) == 0) then
        some (unsymbols 260 (fix.take 208), len)
      else none

end Sys2Proof.Machine
end

