-- ==== Sys2Proof/Config.lean ====
section
/-! DEFINITION. What one device or one board fixes and the manual does not: fuses, and the free values of what the manual
leaves open. Nothing here has a body, so no proof can rest on a number (log entries 6 and 7). -/

namespace Sys2Proof.Config

/-- STEP_MINOR of SUP_IDENT, a fuse (R3). -/
opaque stepMinor : BitVec 8
/-- NET_MAC_BASE.BASE[47:6], a fuse; BASE[5:0] is 0 (R351). -/
opaque macBase : BitVec 42
/-- The device root key, anti-fuse (R447). -/
opaque deviceRootKey : BitVec 256
/-- A free value of eight bits, for the n-th draw (log entry 6). -/
opaque freeByte : Nat → Byte
/-- A free value of 64 bits, for the n-th draw (log entry 6). -/
opaque freeWord : Nat → Word
/-- PHASE of the device-event-log record with a SEQ: R617 states a phase for rings only (log entry 6). -/
opaque logPhase : Nat → BitVec 1
/-- An ML-DSA-87 Alias signature over a message (R455): FIPS 204 computes it under a key the device never shows. -/
opaque signMldsa : List Byte → List Byte
/-- An ECDSA P-384 Alias signature over a message (R455). -/
opaque signEcdsa : List Byte → List Byte

/-- SHA3-384 of the device's DeviceID public keys, which a debug token names (R646). -/
opaque deviceIdHash : BitVec 384

/-- ML-KEM-1024 (FIPS 203), which R150 cites: the encapsulation key and the decapsulation key from a seed. -/
opaque mlkemKeys : List Byte → List Byte × List Byte
/-- ML-KEM-1024 encapsulation: ciphertext and shared secret, from an encapsulation key and a seed. -/
opaque mlkemEncaps : List Byte → List Byte → List Byte × List Byte
/-- ML-KEM-1024 decapsulation: the shared secret, from a decapsulation key and a ciphertext. -/
opaque mlkemDecaps : List Byte → List Byte → List Byte
/-- ECDH over P-384, which R150 cites: the public key of a private value. -/
opaque p384Public : List Byte → List Byte
/-- The x-coordinate of a P-384 shared secret, from a private value and a public key. -/
opaque p384Shared : List Byte → List Byte → List Byte
/-- An SPDM 1.3 request of R151: 0 GET_CERTIFICATE, 1 CHALLENGE, 2 GET_MEASUREMENTS; its bytes are the standard's. -/
opaque spdmRequest : Fin 3 → List Byte
/-- The answer to such a request. -/
opaque spdmAnswer : Fin 3 → List Byte → List Byte

/-- The reason byte of a NACK for a CRC mismatch (true) or a tag failure (false): R137 gives the byte and no codes. -/
opaque nackReason : Bool → Byte
/-- The ZERO status of RESYNC_DATA (R165), for which R137 and R609 give no code. -/
opaque zeroStatus : Byte

end Sys2Proof.Config
end

