-- ==== Sys2Proof/Machine/Regs.lean ====
section
/-! DEFINITION. The control registers of R3, R92, R132, R170, R203, R240, R322, R342, R372, R417, R444, R473, R500,
R536, R555, R585, R605, R626 and R643: every field of every register table of the spec, with its control-space offset,
its lowest bit, its width and its reset value (R20), and the table of registers that reads and writes go through (R16). -/

namespace Sys2Proof.Machine

/-- One field of a control register: the register's control-space offset, the field's lowest bit and width, and the
value of the Reset column (R20). Fields whose Reset column says "strap" carry 0 here; the end of power-on reset samples the
straps and writes them (R538). Fuses are constants of Config. -/
structure Fld where
  /-- Control-space offset of the register (R32). -/
  off : Nat
  /-- Lowest bit of the field (R14). -/
  lo  : Nat
  /-- Width in bits. -/
  wid : Nat
  /-- Reset value (R20). -/
  rst : Nat
  deriving DecidableEq, Repr

/-- The key of a field in `State.ctl`: one number per (register, lowest bit). -/
def Fld.key (f : Fld) : Nat := f.off * 64 + f.lo

/-- The access codes of R16. -/
inductive Acc where
  | ro | rw | w1c | rov | wo
  deriving DecidableEq, Repr

/-- One register or register array of the tables: `n`-th register at `base + stride * n`. -/
structure RegDesc where
  /-- Offset of register 0. -/
  base   : Nat
  /-- Distance of two registers of an array; 0 for a single register. -/
  stride : Nat
  /-- How many registers the array has. -/
  count  : Nat
  /-- Its fields, each with its access code; reserved fields are not listed. -/
  fields : List (Acc × (Nat → Fld))

namespace R

/-- SUP_IDENT.FAMILY, bits [63:48], RO. -/
def SUP_IDENT.FAMILY : Fld := ⟨0x00000000, 48, 16, 0xf7a⟩
/-- SUP_IDENT.PART, bits [47:32], RO. -/
def SUP_IDENT.PART : Fld := ⟨0x00000000, 32, 16, 0x9640⟩
/-- SUP_IDENT.STEP_MAJOR, bits [31:24], RO. -/
def SUP_IDENT.STEP_MAJOR : Fld := ⟨0x00000000, 24, 8, 1⟩
/-- SUP_IDENT.STEP_MINOR, bits [23:16], RO. -/
def SUP_IDENT.STEP_MINOR : Fld := ⟨0x00000000, 16, 8, Config.stepMinor.toNat⟩
/-- SUP_DENIED_CNT.COUNT, bits [31:0], RO-V. -/
def SUP_DENIED_CNT.COUNT : Fld := ⟨0x00000040, 0, 32, 0⟩
/-- JNL_GEN_CTL.ROOT_PERIOD_MS, bits [15:0], RW. -/
def JNL_GEN_CTL.ROOT_PERIOD_MS : Fld := ⟨0x01030000, 0, 16, 0x3e8⟩
/-- JNL_GEN_STAT.ROOT_OK, bits [63:63], RO-V. -/
def JNL_GEN_STAT.ROOT_OK : Fld := ⟨0x01030008, 63, 1, 0⟩
/-- JNL_GEN_STAT.LEAVES, bits [52:32], RO-V. -/
def JNL_GEN_STAT.LEAVES : Fld := ⟨0x01030008, 32, 21, 0⟩
/-- JNL_GEN_STAT.ROOT_SEQ, bits [31:0], RO-V. -/
def JNL_GEN_STAT.ROOT_SEQ : Fld := ⟨0x01030008, 0, 32, 0⟩
/-- JNL_GEN_CNT.RELOCATIONS, bits [63:32], RO-V. -/
def JNL_GEN_CNT.RELOCATIONS : Fld := ⟨0x01030010, 32, 32, 0⟩
/-- JNL_GEN_CNT.EXHAUSTED, bits [31:0], RO-V. -/
def JNL_GEN_CNT.EXHAUSTED : Fld := ⟨0x01030010, 0, 32, 0⟩
/-- MED_VFY_CNT0.RECON, bits [63:32], RO-V. -/
def MED_VFY_CNT0.RECON : Fld := ⟨0x01430000, 32, 32, 0⟩
/-- MED_VFY_CNT0.CORRECTED, bits [31:0], RO-V. -/
def MED_VFY_CNT0.CORRECTED : Fld := ⟨0x01430000, 0, 32, 0⟩
/-- MED_VFY_CNT1.POISONED, bits [63:32], RO-V. -/
def MED_VFY_CNT1.POISONED : Fld := ⟨0x01430008, 32, 32, 0⟩
/-- MED_VFY_CNT1.REPAIRED, bits [31:0], RO-V. -/
def MED_VFY_CNT1.REPAIRED : Fld := ⟨0x01430008, 0, 32, 0⟩
/-- MED_VFY_CNT2.STALE, bits [63:32], RO-V. -/
def MED_VFY_CNT2.STALE : Fld := ⟨0x01430010, 32, 32, 0⟩
/-- MED_VFY_CNT2.SEAL_MISMATCH, bits [31:0], RO-V. -/
def MED_VFY_CNT2.SEAL_MISMATCH : Fld := ⟨0x01430010, 0, 32, 0⟩
/-- JNL_STAT.STATE, bits [63:61], RO-V. -/
def JNL_STAT.STATE : Fld := ⟨0x01000000, 61, 3, 0⟩
/-- JNL_STAT.THROTTLED, bits [60:60], RO-V. -/
def JNL_STAT.THROTTLED : Fld := ⟨0x01000000, 60, 1, 0⟩
/-- JNL_STAT.FULL, bits [59:59], RO-V. -/
def JNL_STAT.FULL : Fld := ⟨0x01000000, 59, 1, 0⟩
/-- JNL_STAT.INDEX_FULL, bits [58:58], RO-V. -/
def JNL_STAT.INDEX_FULL : Fld := ⟨0x01000000, 58, 1, 0⟩
/-- JNL_STAT.OCC_KIB, bits [24:0], RO-V. -/
def JNL_STAT.OCC_KIB : Fld := ⟨0x01000000, 0, 25, 0⟩
/-- JNL_ADMIT_CNT.RECORDS, bits [63:0], RO-V. -/
def JNL_ADMIT_CNT.RECORDS : Fld := ⟨0x01000008, 0, 64, 0⟩
/-- JNL_JSN.JSN, bits [63:0], RO-V. -/
def JNL_JSN.JSN : Fld := ⟨0x01000010, 0, 64, 0⟩
/-- JNL_MIRROR_JSN.JSN, bits [63:0], RO-V. -/
def JNL_MIRROR_JSN.JSN : Fld := ⟨0x01000018, 0, 64, 0⟩
/-- JNL_LIMIT_CTL.HOLD_US, bits [47:32], RW. -/
def JNL_LIMIT_CTL.HOLD_US : Fld := ⟨0x01000020, 32, 16, 0x64⟩
/-- JNL_LIMIT_CTL.HIGH_WATER, bits [15:8], RW. -/
def JNL_LIMIT_CTL.HIGH_WATER : Fld := ⟨0x01000020, 8, 8, 0x32⟩
/-- JNL_LIMIT_CTL.DRAIN_LIMIT, bits [5:0], RW. -/
def JNL_LIMIT_CTL.DRAIN_LIMIT : Fld := ⟨0x01000020, 0, 6, 0x34⟩
/-- JNL_RET_CNT.TILES, bits [63:0], RO-V. -/
def JNL_RET_CNT.TILES : Fld := ⟨0x01000028, 0, 64, 0⟩
/-- JNL_RMW_CNT.TILES, bits [63:0], RO-V. -/
def JNL_RMW_CNT.TILES : Fld := ⟨0x01000030, 0, 64, 0⟩
/-- JNL_STALL_CNT.INDEX, bits [63:32], RO-V. -/
def JNL_STALL_CNT.INDEX : Fld := ⟨0x01000038, 32, 32, 0⟩
/-- JNL_STALL_CNT.SPACE, bits [31:0], RO-V. -/
def JNL_STALL_CNT.SPACE : Fld := ⟨0x01000038, 0, 32, 0⟩
/-- JNL_SHUT_STAT.VALID, bits [63:63], RO-V. -/
def JNL_SHUT_STAT.VALID : Fld := ⟨0x01000040, 63, 1, 0⟩
/-- JNL_SHUT_STAT.COMPLETE, bits [62:62], RO-V. -/
def JNL_SHUT_STAT.COMPLETE : Fld := ⟨0x01000040, 62, 1, 0⟩
/-- JNL_SHUT_STAT.JOURNAL_LOST, bits [61:61], RO-V. -/
def JNL_SHUT_STAT.JOURNAL_LOST : Fld := ⟨0x01000040, 61, 1, 0⟩
/-- JNL_SHUT_STAT.SPILLED, bits [60:60], RO-V. -/
def JNL_SHUT_STAT.SPILLED : Fld := ⟨0x01000040, 60, 1, 0⟩
/-- JNL_SHUT_STAT.STREET_FAIL, bits [47:32], RO-V. -/
def JNL_SHUT_STAT.STREET_FAIL : Fld := ⟨0x01000040, 32, 16, 0⟩
/-- JNL_SHUT_STAT.SHUT_SEQ, bits [31:0], RO-V. -/
def JNL_SHUT_STAT.SHUT_SEQ : Fld := ⟨0x01000040, 0, 32, 0⟩
/-- PRM_STAT.SENIOR, bits [63:63], RO. -/
def PRM_STAT.SENIOR : Fld := ⟨0x01800000, 63, 1, 0⟩
/-- PRM_STAT.STATE, bits [62:60], RO-V. -/
def PRM_STAT.STATE : Fld := ⟨0x01800000, 60, 3, 0⟩
/-- PRM_STAT.GRP_A_UP, bits [59:59], RO-V. -/
def PRM_STAT.GRP_A_UP : Fld := ⟨0x01800000, 59, 1, 0⟩
/-- PRM_STAT.GRP_B_UP, bits [58:58], RO-V. -/
def PRM_STAT.GRP_B_UP : Fld := ⟨0x01800000, 58, 1, 0⟩
/-- PRM_STAT.TWIN_ALIVE, bits [57:57], RO-V. -/
def PRM_STAT.TWIN_ALIVE : Fld := ⟨0x01800000, 57, 1, 0⟩
/-- PRM_STAT.TERM, bits [31:0], RO-V. -/
def PRM_STAT.TERM : Fld := ⟨0x01800000, 0, 32, 0⟩
/-- PRM_GRP_STAT.A_WIDTH, bits [63:62], RO-V. -/
def PRM_GRP_STAT.A_WIDTH : Fld := ⟨0x01800008, 62, 2, 0⟩
/-- PRM_GRP_STAT.B_WIDTH, bits [61:60], RO-V. -/
def PRM_GRP_STAT.B_WIDTH : Fld := ⟨0x01800008, 60, 2, 0⟩
/-- PRM_GRP_STAT.B_FLIGHT_NS, bits [42:32], RO-V. -/
def PRM_GRP_STAT.B_FLIGHT_NS : Fld := ⟨0x01800008, 32, 11, 0⟩
/-- PRM_GRP_STAT.A_FLIGHT_NS, bits [10:0], RO-V. -/
def PRM_GRP_STAT.A_FLIGHT_NS : Fld := ⟨0x01800008, 0, 11, 0⟩
/-- PRM_LINK_CTL.HB_MISS, bits [35:32], RW. -/
def PRM_LINK_CTL.HB_MISS : Fld := ⟨0x01800010, 32, 4, 0x5⟩
/-- PRM_LINK_CTL.HB_US, bits [31:24], RW. -/
def PRM_LINK_CTL.HB_US : Fld := ⟨0x01800010, 24, 8, 0xa⟩
/-- PRM_LINK_CTL.RETRIES, bits [19:16], RW. -/
def PRM_LINK_CTL.RETRIES : Fld := ⟨0x01800010, 16, 4, 0x4⟩
/-- PRM_LINK_CTL.RTO_NS, bits [15:0], RW. -/
def PRM_LINK_CTL.RTO_NS : Fld := ⟨0x01800010, 0, 16, 0x7d0⟩
/-- PRM_LAG_CTL.LAG_US, bits [20:16], RW. -/
def PRM_LAG_CTL.LAG_US : Fld := ⟨0x01800018, 16, 5, 0x14⟩
/-- PRM_LAG_CTL.LAG_MIB, bits [6:0], RW. -/
def PRM_LAG_CTL.LAG_MIB : Fld := ⟨0x01800018, 0, 7, 0x40⟩
/-- PRM_LAG_STAT.AGE_NS, bits [63:32], RO-V. -/
def PRM_LAG_STAT.AGE_NS : Fld := ⟨0x01800020, 32, 32, 0⟩
/-- PRM_LAG_STAT.BYTES_KIB, bits [16:0], RO-V. -/
def PRM_LAG_STAT.BYTES_KIB : Fld := ⟨0x01800020, 0, 17, 0⟩
/-- PRM_REPAIR_CTL.TIMEOUT_US, bits [15:0], RW. -/
def PRM_REPAIR_CTL.TIMEOUT_US : Fld := ⟨0x01800028, 0, 16, 0xc8⟩
/-- PRM_RESYNC_CTL.PAUSE, bits [63:63], RW. -/
def PRM_RESYNC_CTL.PAUSE : Fld := ⟨0x01800030, 63, 1, 0⟩
/-- PRM_RESYNC_CTL.RATE_GBPS, bits [7:0], RW. -/
def PRM_RESYNC_CTL.RATE_GBPS : Fld := ⟨0x01800030, 0, 8, 0x28⟩
/-- PRM_RESYNC_STAT.EXTENTS_LEFT, bits [63:44], RO-V. -/
def PRM_RESYNC_STAT.EXTENTS_LEFT : Fld := ⟨0x01800038, 44, 20, 0⟩
/-- PRM_RESYNC_STAT.GRANULES_LEFT, bits [33:0], RO-V. -/
def PRM_RESYNC_STAT.GRANULES_LEFT : Fld := ⟨0x01800038, 0, 34, 0⟩
/-- PRM_PAIR_CMD.FORCE_SOLO, bits [3:3], WO. -/
def PRM_PAIR_CMD.FORCE_SOLO : Fld := ⟨0x01800040, 3, 1, 0⟩
/-- PRM_PAIR_CMD.ADMIT_REPLACEMENT, bits [2:2], WO. -/
def PRM_PAIR_CMD.ADMIT_REPLACEMENT : Fld := ⟨0x01800040, 2, 1, 0⟩
/-- PRM_PAIR_CMD.START_SOLO, bits [1:1], WO. -/
def PRM_PAIR_CMD.START_SOLO : Fld := ⟨0x01800040, 1, 1, 0⟩
/-- PRM_PAIR_CMD.ESTABLISH, bits [0:0], WO. -/
def PRM_PAIR_CMD.ESTABLISH : Fld := ⟨0x01800040, 0, 1, 0⟩
/-- PRM_CNT0.TAG_FAIL, bits [63:32], RO-V. -/
def PRM_CNT0.TAG_FAIL : Fld := ⟨0x01800048, 32, 32, 0⟩
/-- PRM_CNT0.RETRANSMIT, bits [31:0], RO-V. -/
def PRM_CNT0.RETRANSMIT : Fld := ⟨0x01800048, 0, 32, 0⟩
/-- PRM_CNT1.REFUSED, bits [63:48], RO-V. -/
def PRM_CNT1.REFUSED : Fld := ⟨0x01800050, 48, 16, 0⟩
/-- PRM_CNT1.LATE, bits [47:32], RO-V. -/
def PRM_CNT1.LATE : Fld := ⟨0x01800050, 32, 16, 0⟩
/-- PRM_CNT1.THROTTLE, bits [31:16], RO-V. -/
def PRM_CNT1.THROTTLE : Fld := ⟨0x01800050, 16, 16, 0⟩
/-- PRM_CNT1.DISCARDED, bits [15:0], RO-V. -/
def PRM_CNT1.DISCARDED : Fld := ⟨0x01800050, 0, 16, 0⟩
/-- MED_LANE_STAT[n].STATE, bits [63:61], RO-V. -/
def MED_LANE_STAT.STATE (n : Nat) : Fld := ⟨0x01400000 + 8 * n, 61, 3, 0⟩
/-- MED_LANE_STAT[n].CAUSE, bits [60:57], RO-V. -/
def MED_LANE_STAT.CAUSE (n : Nat) : Fld := ⟨0x01400000 + 8 * n, 57, 4, 0⟩
/-- MED_LANE_STAT[n].PARTIAL, bits [56:56], RO-V. -/
def MED_LANE_STAT.PARTIAL (n : Nat) : Fld := ⟨0x01400000 + 8 * n, 56, 1, 0⟩
/-- MED_LANE_STAT[n].OUTSTANDING, bits [39:32], RO-V. -/
def MED_LANE_STAT.OUTSTANDING (n : Nat) : Fld := ⟨0x01400000 + 8 * n, 32, 8, 0⟩
/-- MED_LANE_CMD.ACTION, bits [10:8], WO. -/
def MED_LANE_CMD.ACTION : Fld := ⟨0x01400400, 8, 3, 0⟩
/-- MED_LANE_CMD.LANE, bits [6:0], WO. -/
def MED_LANE_CMD.LANE : Fld := ⟨0x01400400, 0, 7, 0⟩
/-- MED_STREET_STAT.CMD_REFUSED, bits [63:63], W1C. -/
def MED_STREET_STAT.CMD_REFUSED : Fld := ⟨0x01400408, 63, 1, 0⟩
/-- MED_STREET_STAT.RAIL_FAIL, bits [31:16], RO-V. -/
def MED_STREET_STAT.RAIL_FAIL : Fld := ⟨0x01400408, 16, 16, 0⟩
/-- MED_STREET_STAT.FENCED, bits [15:0], RO-V. -/
def MED_STREET_STAT.FENCED : Fld := ⟨0x01400408, 0, 16, 0⟩
/-- MED_LINK_CTL.REPLAYS, bits [19:16], RW. -/
def MED_LINK_CTL.REPLAYS : Fld := ⟨0x01400410, 16, 4, 0x4⟩
/-- MED_CMD_CTL.TIMEOUT_US, bits [47:32], RW. -/
def MED_CMD_CTL.TIMEOUT_US : Fld := ⟨0x01400418, 32, 16, 0x2710⟩
/-- MED_CMD_CTL.HEDGE_US, bits [9:0], RW. -/
def MED_CMD_CTL.HEDGE_US : Fld := ⟨0x01400418, 0, 10, 0x14⟩
/-- MED_SWEEP_CTL.ENABLE, bits [63:63], RW. -/
def MED_SWEEP_CTL.ENABLE : Fld := ⟨0x01400420, 63, 1, 1⟩
/-- MED_SWEEP_CTL.PASS_HOURS, bits [41:32], RW. -/
def MED_SWEEP_CTL.PASS_HOURS : Fld := ⟨0x01400420, 32, 10, 0x48⟩
/-- MED_SWEEP_CTL.DEGRADE_PER_M, bits [15:0], RW. -/
def MED_SWEEP_CTL.DEGRADE_PER_M : Fld := ⟨0x01400420, 0, 16, 0x64⟩
/-- MED_SWEEP_STAT.PASSES, bits [63:48], RO-V. -/
def MED_SWEEP_STAT.PASSES : Fld := ⟨0x01400428, 48, 16, 0⟩
/-- MED_SWEEP_STAT.PERCENT, bits [47:40], RO-V. -/
def MED_SWEEP_STAT.PERCENT : Fld := ⟨0x01400428, 40, 8, 0⟩
/-- MED_SWEEP_STAT.LAST_HOURS, bits [15:0], RO-V. -/
def MED_SWEEP_STAT.LAST_HOURS : Fld := ⟨0x01400428, 0, 16, 0⟩
/-- MED_REBUILD_CTL.PAUSE, bits [63:63], RW. -/
def MED_REBUILD_CTL.PAUSE : Fld := ⟨0x01400430, 63, 1, 0⟩
/-- MED_REBUILD_CTL.RATE_MBPS, bits [11:0], RW. -/
def MED_REBUILD_CTL.RATE_MBPS : Fld := ⟨0x01400430, 0, 12, 0x3e8⟩
/-- MED_REBUILD_STAT.LANES, bits [63:56], RO-V. -/
def MED_REBUILD_STAT.LANES : Fld := ⟨0x01400438, 56, 8, 0⟩
/-- MED_REBUILD_STAT.EXTENTS_LEFT, bits [55:29], RO-V. -/
def MED_REBUILD_STAT.EXTENTS_LEFT : Fld := ⟨0x01400438, 29, 27, 0⟩
/-- MED_REBUILD_STAT.CRITICAL, bits [28:0], RO-V. -/
def MED_REBUILD_STAT.CRITICAL : Fld := ⟨0x01400438, 0, 29, 0⟩
/-- MED_HEDGE_CNT.LATE, bits [63:32], RO-V. -/
def MED_HEDGE_CNT.LATE : Fld := ⟨0x01400440, 32, 32, 0⟩
/-- MED_HEDGE_CNT.HEDGED, bits [31:0], RO-V. -/
def MED_HEDGE_CNT.HEDGED : Fld := ⟨0x01400440, 0, 32, 0⟩
/-- MED_MODULE_ID[n].SERIAL, bits [63:0], RO-V. -/
def MED_MODULE_ID.SERIAL (n : Nat) : Fld := ⟨0x01400800 + 8 * n, 0, 64, 0⟩
/-- MED_LANE_CNT[n].TIMEOUTS, bits [63:48], RO-V. -/
def MED_LANE_CNT.TIMEOUTS (n : Nat) : Fld := ⟨0x01400C00 + 8 * n, 48, 16, 0⟩
/-- MED_LANE_CNT[n].MEDIA_ERRORS, bits [47:32], RO-V. -/
def MED_LANE_CNT.MEDIA_ERRORS (n : Nat) : Fld := ⟨0x01400C00 + 8 * n, 32, 16, 0⟩
/-- MED_LANE_CNT[n].REPLAYS, bits [31:0], RO-V. -/
def MED_LANE_CNT.REPLAYS (n : Nat) : Fld := ⟨0x01400C00 + 8 * n, 0, 32, 0⟩
/-- ORG_WAYMODE.LOCK_WAYS, bits [11:8], RW. -/
def ORG_WAYMODE.LOCK_WAYS : Fld := ⟨0x00800000, 8, 4, 0x0⟩
/-- ORG_WAYMODE.SCRATCH_WAYS, bits [3:0], RW. -/
def ORG_WAYMODE.SCRATCH_WAYS : Fld := ⟨0x00800000, 0, 4, 0x0⟩
/-- ORG_LOCK_CMD.ACTION, bits [63:62], WO. -/
def ORG_LOCK_CMD.ACTION : Fld := ⟨0x00800010, 62, 2, 0⟩
/-- ORG_LOCK_CMD.LINE, bits [48:8], WO. -/
def ORG_LOCK_CMD.LINE : Fld := ⟨0x00800010, 8, 41, 0⟩
/-- ORG_LOCK_STAT.REFUSED, bits [63:63], W1C. -/
def ORG_LOCK_STAT.REFUSED : Fld := ⟨0x00800018, 63, 1, 0⟩
/-- ORG_LOCK_STAT.LOCKED, bits [18:0], RO-V. -/
def ORG_LOCK_STAT.LOCKED : Fld := ⟨0x00800018, 0, 19, 0⟩
/-- ORG_INVAL_CMD.RELEASE_LOCKS, bits [63:63], WO. -/
def ORG_INVAL_CMD.RELEASE_LOCKS : Fld := ⟨0x00800020, 63, 1, 0⟩
/-- ORG_INVAL_CMD.COUNT, bits [51:32], WO. -/
def ORG_INVAL_CMD.COUNT : Fld := ⟨0x00800020, 32, 20, 0⟩
/-- ORG_INVAL_CMD.FIRST_EXTENT, bits [18:0], WO. -/
def ORG_INVAL_CMD.FIRST_EXTENT : Fld := ⟨0x00800020, 0, 19, 0⟩
/-- ORG_INVAL_STAT.BUSY, bits [63:63], RO-V. -/
def ORG_INVAL_STAT.BUSY : Fld := ⟨0x00800028, 63, 1, 0⟩
/-- ORG_INVAL_STAT.REFUSED, bits [62:62], W1C. -/
def ORG_INVAL_STAT.REFUSED : Fld := ⟨0x00800028, 62, 1, 0⟩
/-- ORG_INVAL_STAT.DONE, bits [31:0], RO-V. -/
def ORG_INVAL_STAT.DONE : Fld := ⟨0x00800028, 0, 32, 0⟩
/-- ORG_SLICE_CMD.ACTION, bits [63:62], WO. -/
def ORG_SLICE_CMD.ACTION : Fld := ⟨0x00800030, 62, 2, 0⟩
/-- ORG_SLICE_CMD.SLICE, bits [3:0], WO. -/
def ORG_SLICE_CMD.SLICE : Fld := ⟨0x00800030, 0, 4, 0⟩
/-- ORG_PF_CTL.PLAN_IDLE_US, bits [63:48], RW. -/
def ORG_PF_CTL.PLAN_IDLE_US : Fld := ⟨0x00800038, 48, 16, 0x3e8⟩
/-- ORG_PF_CTL.PF_TRACKERS, bits [45:32], RW. -/
def ORG_PF_CTL.PF_TRACKERS : Fld := ⟨0x00800038, 32, 14, 0x1000⟩
/-- ORG_PF_CTL.PF_MISS, bits [24:16], RW. -/
def ORG_PF_CTL.PF_MISS : Fld := ⟨0x00800038, 16, 9, 0x80⟩
/-- ORG_PF_CTL.LOGGIA_TTL_US, bits [15:0], RW. -/
def ORG_PF_CTL.LOGGIA_TTL_US : Fld := ⟨0x00800038, 0, 16, 0x64⟩
/-- ORG_CNT0.MISSES, bits [63:32], RO-V. -/
def ORG_CNT0.MISSES : Fld := ⟨0x00800040, 32, 32, 0⟩
/-- ORG_CNT0.HITS, bits [31:0], RO-V. -/
def ORG_CNT0.HITS : Fld := ⟨0x00800040, 0, 32, 0⟩
/-- ORG_CNT1.PF_WASTED, bits [63:32], RO-V. -/
def ORG_CNT1.PF_WASTED : Fld := ⟨0x00800048, 32, 32, 0⟩
/-- ORG_CNT1.PF_LINES, bits [31:0], RO-V. -/
def ORG_CNT1.PF_LINES : Fld := ⟨0x00800048, 0, 32, 0⟩
/-- ORG_CNT2.LOCK_LOST, bits [63:48], RO-V. -/
def ORG_CNT2.LOCK_LOST : Fld := ⟨0x00800050, 48, 16, 0⟩
/-- ORG_CNT2.PF_SKIPPED, bits [47:32], RO-V. -/
def ORG_CNT2.PF_SKIPPED : Fld := ⟨0x00800050, 32, 16, 0⟩
/-- ORG_CNT2.MERGED, bits [31:0], RO-V. -/
def ORG_CNT2.MERGED : Fld := ⟨0x00800050, 0, 32, 0⟩
/-- ORG_SLICE_STAT[n].STATE, bits [63:62], RO-V. -/
def ORG_SLICE_STAT.STATE (n : Nat) : Fld := ⟨0x00800100 + 8 * n, 62, 2, 0⟩
/-- ORG_SLICE_STAT[n].MISS_BUSY, bits [41:32], RO-V. -/
def ORG_SLICE_STAT.MISS_BUSY (n : Nat) : Fld := ⟨0x00800100 + 8 * n, 32, 10, 0⟩
/-- ORG_SCR_OWNER[n].ZEROING, bits [63:63], RO-V. -/
def ORG_SCR_OWNER.ZEROING (n : Nat) : Fld := ⟨0x00801000 + 8 * n, 63, 1, 0⟩
/-- ORG_SCR_OWNER[n].TENANT, bits [23:0], RW. -/
def ORG_SCR_OWNER.TENANT (n : Nat) : Fld := ⟨0x00801000 + 8 * n, 0, 24, 0⟩
/-- TER_STAT.STATE, bits [63:62], RO-V. -/
def TER_STAT.STATE : Fld := ⟨0x00C00000, 62, 2, 0⟩
/-- TER_STAT.STACK_UP, bits [61:58], RO-V. -/
def TER_STAT.STACK_UP : Fld := ⟨0x00C00000, 58, 4, 0⟩
/-- TER_STAT.FRAMES_USED, bits [25:0], RO-V. -/
def TER_STAT.FRAMES_USED : Fld := ⟨0x00C00000, 0, 26, 0⟩
/-- TER_PIN_CTL.MAX_GIB, bits [7:0], RW. -/
def TER_PIN_CTL.MAX_GIB : Fld := ⟨0x00C00008, 0, 8, 0x0⟩
/-- TER_PIN_STAT.PINNED_GIB, bits [39:32], RO-V. -/
def TER_PIN_STAT.PINNED_GIB : Fld := ⟨0x00C00010, 32, 8, 0⟩
/-- TER_PIN_STAT.LOAD_LEFT, bits [31:0], RO-V. -/
def TER_PIN_STAT.LOAD_LEFT : Fld := ⟨0x00C00010, 0, 32, 0⟩
/-- TER_ECC_CNT.UNCORRECTABLE, bits [63:32], RO-V. -/
def TER_ECC_CNT.UNCORRECTABLE : Fld := ⟨0x00C00018, 32, 32, 0⟩
/-- TER_ECC_CNT.CORRECTED, bits [31:0], RO-V. -/
def TER_ECC_CNT.CORRECTED : Fld := ⟨0x00C00018, 0, 32, 0⟩
/-- TER_CNT.MOVING_SKIPS, bits [63:32], RO-V. -/
def TER_CNT.MOVING_SKIPS : Fld := ⟨0x00C00020, 32, 32, 0⟩
/-- TER_CNT.NO_VICTIM, bits [31:0], RO-V. -/
def TER_CNT.NO_VICTIM : Fld := ⟨0x00C00020, 0, 32, 0⟩
/-- KSK_QCFG0[n].ENABLE, bits [63:63], RW. -/
def KSK_QCFG0.ENABLE (n : Nat) : Fld := ⟨0x01C00000 + 32 * n, 63, 1, 0⟩
/-- KSK_QCFG0[n].LS_SIZE, bits [58:56], RW. -/
def KSK_QCFG0.LS_SIZE (n : Nat) : Fld := ⟨0x01C00000 + 32 * n, 56, 3, 0x0⟩
/-- KSK_QCFG0[n].SQUARE, bits [55:52], RW. -/
def KSK_QCFG0.SQUARE (n : Nat) : Fld := ⟨0x01C00000 + 32 * n, 52, 4, 0x0⟩
/-- KSK_QCFG0[n].WEIGHT, bits [51:44], RW. -/
def KSK_QCFG0.WEIGHT (n : Nat) : Fld := ⟨0x01C00000 + 32 * n, 44, 8, 0x1⟩
/-- KSK_QCFG0[n].MAX_CTX, bits [40:32], RW. -/
def KSK_QCFG0.MAX_CTX (n : Nat) : Fld := ⟨0x01C00000 + 32 * n, 32, 9, 0x40⟩
/-- KSK_QCFG0[n].CHILD_CTX, bits [29:24], RW. -/
def KSK_QCFG0.CHILD_CTX (n : Nat) : Fld := ⟨0x01C00000 + 32 * n, 24, 6, 0x8⟩
/-- KSK_QCFG0[n].TENANT, bits [23:0], RW. -/
def KSK_QCFG0.TENANT (n : Nat) : Fld := ⟨0x01C00000 + 32 * n, 0, 24, 0⟩
/-- KSK_QCFG1[n].INSN_DEF, bits [63:32], RW. -/
def KSK_QCFG1.INSN_DEF (n : Nat) : Fld := ⟨0x01C00008 + 32 * n, 32, 32, 0x989680⟩
/-- KSK_QCFG1[n].TIME_DEF_US, bits [31:16], RW. -/
def KSK_QCFG1.TIME_DEF_US (n : Nat) : Fld := ⟨0x01C00008 + 32 * n, 16, 16, 0x7d0⟩
/-- KSK_QCFG1[n].TILES_DEF, bits [15:0], RW. -/
def KSK_QCFG1.TILES_DEF (n : Nat) : Fld := ⟨0x01C00008 + 32 * n, 0, 16, 0x1000⟩
/-- KSK_QCFG2[n].INSN_MAX, bits [63:32], RW. -/
def KSK_QCFG2.INSN_MAX (n : Nat) : Fld := ⟨0x01C00010 + 32 * n, 32, 32, 0x989680⟩
/-- KSK_QCFG2[n].TIME_MAX_US, bits [31:16], RW. -/
def KSK_QCFG2.TIME_MAX_US (n : Nat) : Fld := ⟨0x01C00010 + 32 * n, 16, 16, 0x7d0⟩
/-- KSK_QCFG2[n].TILES_MAX, bits [15:0], RW. -/
def KSK_QCFG2.TILES_MAX (n : Nat) : Fld := ⟨0x01C00010 + 32 * n, 0, 16, 0x1000⟩
/-- KSK_QCFG3[n].POOL_MAX, bits [63:48], RW. -/
def KSK_QCFG3.POOL_MAX (n : Nat) : Fld := ⟨0x01C00018 + 32 * n, 48, 16, 0x20⟩
/-- KSK_QCFG3[n].CQ, bits [19:0], RW. -/
def KSK_QCFG3.CQ (n : Nat) : Fld := ⟨0x01C00018 + 32 * n, 0, 20, 0⟩
/-- KSK_QSTAT[n].STATE, bits [63:62], RO-V. -/
def KSK_QSTAT.STATE (n : Nat) : Fld := ⟨0x01C08000 + 8 * n, 62, 2, 0⟩
/-- KSK_QSTAT[n].QUEUED, bits [44:32], RO-V. -/
def KSK_QSTAT.QUEUED (n : Nat) : Fld := ⟨0x01C08000 + 8 * n, 32, 13, 0⟩
/-- KSK_QSTAT[n].RUNNING, bits [8:0], RO-V. -/
def KSK_QSTAT.RUNNING (n : Nat) : Fld := ⟨0x01C08000 + 8 * n, 0, 9, 0⟩
/-- KSK_KIOSK_CMD.ACTION, bits [63:62], WO. -/
def KSK_KIOSK_CMD.ACTION : Fld := ⟨0x01C0A000, 62, 2, 0⟩
/-- KSK_KIOSK_CMD.KIOSK, bits [8:0], WO. -/
def KSK_KIOSK_CMD.KIOSK : Fld := ⟨0x01C0A000, 0, 9, 0⟩
/-- KSK_PROG_CMD.ACTION, bits [63:62], WO. -/
def KSK_PROG_CMD.ACTION : Fld := ⟨0x01C0A008, 62, 2, 0⟩
/-- KSK_PROG_CMD.PROGRAM, bits [9:0], WO. -/
def KSK_PROG_CMD.PROGRAM : Fld := ⟨0x01C0A008, 0, 10, 0⟩
/-- KSK_STAT.CMD_REFUSED, bits [63:63], W1C. -/
def KSK_STAT.CMD_REFUSED : Fld := ⟨0x01C0A010, 63, 1, 0⟩
/-- KSK_STAT.POOL_USED, bits [15:0], RO-V. -/
def KSK_STAT.POOL_USED : Fld := ⟨0x01C0A010, 0, 16, 0⟩
/-- KSK_KIOSK_STAT[n].STATE, bits [63:62], RO-V. -/
def KSK_KIOSK_STAT.STATE (n : Nat) : Fld := ⟨0x01C0C000 + 8 * n, 62, 2, 0⟩
/-- KSK_KIOSK_STAT[n].CTX_BUSY, bits [7:0], RO-V. -/
def KSK_KIOSK_STAT.CTX_BUSY (n : Nat) : Fld := ⟨0x01C0C000 + 8 * n, 0, 8, 0⟩
/-- KSK_SQUARE_STAT[n].KIOSKS_UP, bits [37:32], RO-V. -/
def KSK_SQUARE_STAT.KIOSKS_UP (n : Nat) : Fld := ⟨0x01C0D000 + 8 * n, 32, 6, 0⟩
/-- KSK_SQUARE_STAT[n].CTX_BUSY, bits [8:0], RO-V. -/
def KSK_SQUARE_STAT.CTX_BUSY (n : Nat) : Fld := ⟨0x01C0D000 + 8 * n, 0, 9, 0⟩
/-- KSK_CNT0.CONFLICTS, bits [63:32], RO-V. -/
def KSK_CNT0.CONFLICTS : Fld := ⟨0x01C0E000, 32, 32, 0⟩
/-- KSK_CNT0.COMMITS, bits [31:0], RO-V. -/
def KSK_CNT0.COMMITS : Fld := ⟨0x01C0E000, 0, 32, 0⟩
/-- KSK_CNT1.ORPHANS, bits [63:48], RO-V. -/
def KSK_CNT1.ORPHANS : Fld := ⟨0x01C0E008, 48, 16, 0⟩
/-- KSK_CNT1.DISABLED, bits [47:32], RO-V. -/
def KSK_CNT1.DISABLED : Fld := ⟨0x01C0E008, 32, 16, 0⟩
/-- KSK_CNT1.LIMITS, bits [31:16], RO-V. -/
def KSK_CNT1.LIMITS : Fld := ⟨0x01C0E008, 16, 16, 0⟩
/-- KSK_CNT1.FAULTS, bits [15:0], RO-V. -/
def KSK_CNT1.FAULTS : Fld := ⟨0x01C0E008, 0, 16, 0⟩
/-- KSK_PROG0[n].STATE, bits [63:61], RO-V. -/
def KSK_PROG0.STATE (n : Nat) : Fld := ⟨0x01C10000 + 16 * n, 61, 3, 0⟩
/-- KSK_PROG0[n].SLOT, bits [60:60], RO-V. -/
def KSK_PROG0.SLOT (n : Nat) : Fld := ⟨0x01C10000 + 16 * n, 60, 1, 0⟩
/-- KSK_PROG0[n].OWNER, bits [23:0], RW. -/
def KSK_PROG0.OWNER (n : Nat) : Fld := ⟨0x01C10000 + 16 * n, 0, 24, 0⟩
/-- KSK_PROG1[n].RUN_OLD, bits [63:48], RO-V. -/
def KSK_PROG1.RUN_OLD (n : Nat) : Fld := ⟨0x01C10008 + 16 * n, 48, 16, 0⟩
/-- KSK_PROG1[n].RUN_CUR, bits [47:32], RO-V. -/
def KSK_PROG1.RUN_CUR (n : Nat) : Fld := ⟨0x01C10008 + 16 * n, 32, 16, 0⟩
/-- KSK_PROG1[n].LEN_WORDS, bits [17:0], RO-V. -/
def KSK_PROG1.LEN_WORDS (n : Nat) : Fld := ⟨0x01C10008 + 16 * n, 0, 18, 0⟩
/-- TST_STAT.STALLED, bits [63:58], RO-V. -/
def TST_STAT.STALLED : Fld := ⟨0x00400000, 58, 6, 0⟩
/-- TST_STAT.IN_USE, bits [18:0], RO-V. -/
def TST_STAT.IN_USE : Fld := ⟨0x00400000, 0, 19, 0⟩
/-- TST_TMO_CTL.MAINT_MS, bits [45:40], RW. -/
def TST_TMO_CTL.MAINT_MS : Fld := ⟨0x00400008, 40, 6, 0x28⟩
/-- TST_TMO_CTL.PRM_MS, bits [37:32], RW. -/
def TST_TMO_CTL.PRM_MS : Fld := ⟨0x00400008, 32, 6, 0x28⟩
/-- TST_TMO_CTL.TASK_MS, bits [29:24], RW. -/
def TST_TMO_CTL.TASK_MS : Fld := ⟨0x00400008, 24, 6, 0x28⟩
/-- TST_TMO_CTL.CXL_MS, bits [21:16], RW. -/
def TST_TMO_CTL.CXL_MS : Fld := ⟨0x00400008, 16, 6, 0x28⟩
/-- TST_TMO_CTL.NET_MS, bits [5:0], RW. -/
def TST_TMO_CTL.NET_MS : Fld := ⟨0x00400008, 0, 6, 0x28⟩
/-- TST_DRAIN_CTL.DRAIN_MS, bits [5:0], RW. -/
def TST_DRAIN_CTL.DRAIN_MS : Fld := ⟨0x00400010, 0, 6, 0xa⟩
/-- TST_NET_CTL.RNR_TIMER, bits [4:0], RW. -/
def TST_NET_CTL.RNR_TIMER : Fld := ⟨0x00400018, 0, 5, 0x4⟩
/-- TST_CMD.CLEAR_HIGH, bits [0:0], WO. -/
def TST_CMD.CLEAR_HIGH : Fld := ⟨0x00400020, 0, 1, 0⟩
/-- TST_SRC_STAT[n].HIGH_WATER, bits [63:46], RO-V. -/
def TST_SRC_STAT.HIGH_WATER (n : Nat) : Fld := ⟨0x00400100 + 8 * n, 46, 18, 0⟩
/-- TST_SRC_STAT[n].LINGERING, bits [35:18], RO-V. -/
def TST_SRC_STAT.LINGERING (n : Nat) : Fld := ⟨0x00400100 + 8 * n, 18, 18, 0⟩
/-- TST_SRC_STAT[n].IN_USE, bits [17:0], RO-V. -/
def TST_SRC_STAT.IN_USE (n : Nat) : Fld := ⟨0x00400100 + 8 * n, 0, 18, 0⟩
/-- TST_SRC_CNT[n].TIMEOUTS, bits [63:48], RO-V. -/
def TST_SRC_CNT.TIMEOUTS (n : Nat) : Fld := ⟨0x00400200 + 8 * n, 48, 16, 0⟩
/-- TST_SRC_CNT[n].LATE, bits [47:32], RO-V. -/
def TST_SRC_CNT.LATE (n : Nat) : Fld := ⟨0x00400200 + 8 * n, 32, 16, 0⟩
/-- TST_SRC_CNT[n].DISABLED, bits [31:16], RO-V. -/
def TST_SRC_CNT.DISABLED (n : Nat) : Fld := ⟨0x00400200 + 8 * n, 16, 16, 0⟩
/-- TST_SRC_CNT[n].STALLS, bits [15:0], RO-V. -/
def TST_SRC_CNT.STALLS (n : Nat) : Fld := ⟨0x00400200 + 8 * n, 0, 16, 0⟩
/-- NET_MODE.MODE, bits [1:0], RW. -/
def NET_MODE.MODE : Fld := ⟨0x02400000, 0, 2, 0x2⟩
/-- NET_MAC_BASE.BASE, bits [47:0], RO. -/
def NET_MAC_BASE.BASE : Fld := ⟨0x02400008, 0, 48, Config.macBase.toNat * 64⟩
/-- NET_PORT_CFG[n].PMD, bits [63:62], RW. -/
def NET_PORT_CFG.PMD (n : Nat) : Fld := ⟨0x02400100 + 8 * n, 62, 2, 0x0⟩
/-- NET_PORT_CFG[n].AN_EN, bits [61:61], RW. -/
def NET_PORT_CFG.AN_EN (n : Nat) : Fld := ⟨0x02400100 + 8 * n, 61, 1, 1⟩
/-- NET_PORT_CFG[n].UNCORR_MAX, bits [55:48], RW. -/
def NET_PORT_CFG.UNCORR_MAX (n : Nat) : Fld := ⟨0x02400100 + 8 * n, 48, 8, 0x10⟩
/-- NET_PORT_CFG[n].FLAP_MAX, bits [47:44], RW. -/
def NET_PORT_CFG.FLAP_MAX (n : Nat) : Fld := ⟨0x02400100 + 8 * n, 44, 4, 0x5⟩
/-- NET_PFC_CTL.PRIO_MASK, bits [63:56], RW. -/
def NET_PFC_CTL.PRIO_MASK : Fld := ⟨0x02400010, 56, 8, 0x0⟩
/-- NET_PFC_CTL.UNTAGGED_PRIO, bits [55:53], RW. -/
def NET_PFC_CTL.UNTAGGED_PRIO : Fld := ⟨0x02400010, 53, 3, 0x0⟩
/-- NET_PFC_CTL.CNP_PRIO, bits [52:50], RW. -/
def NET_PFC_CTL.CNP_PRIO : Fld := ⟨0x02400010, 50, 3, 0x0⟩
/-- NET_PFC_CTL.XOFF_KIB, bits [47:32], RW. -/
def NET_PFC_CTL.XOFF_KIB : Fld := ⟨0x02400010, 32, 16, 0x800⟩
/-- NET_PFC_CTL.XON_KIB, bits [31:16], RW. -/
def NET_PFC_CTL.XON_KIB : Fld := ⟨0x02400010, 16, 16, 0x600⟩
/-- NET_PFC_CTL.PFC_WD_MS, bits [15:8], RW. -/
def NET_PFC_CTL.PFC_WD_MS : Fld := ⟨0x02400010, 8, 8, 0x14⟩
/-- NET_CC_CTL0.WIN_INIT_KIB, bits [63:48], RW. -/
def NET_CC_CTL0.WIN_INIT_KIB : Fld := ⟨0x02400018, 48, 16, 0x200⟩
/-- NET_CC_CTL0.AI_KIB, bits [47:32], RW. -/
def NET_CC_CTL0.AI_KIB : Fld := ⟨0x02400018, 32, 16, 0x8⟩
/-- NET_CC_CTL0.MD, bits [31:24], RW. -/
def NET_CC_CTL0.MD : Fld := ⟨0x02400018, 24, 8, 0x40⟩
/-- NET_CC_CTL0.DELAY_MD, bits [23:16], RW. -/
def NET_CC_CTL0.DELAY_MD : Fld := ⟨0x02400018, 16, 8, 0x20⟩
/-- NET_CC_CTL0.HAI_ROUNDS, bits [15:8], RW. -/
def NET_CC_CTL0.HAI_ROUNDS : Fld := ⟨0x02400018, 8, 8, 0x5⟩
/-- NET_CC_CTL1.TARGET_RTT_US, bits [63:48], RW. -/
def NET_CC_CTL1.TARGET_RTT_US : Fld := ⟨0x02400020, 48, 16, 0x14⟩
/-- NET_CC_CTL1.BASE_RTT_US, bits [47:32], RW. -/
def NET_CC_CTL1.BASE_RTT_US : Fld := ⟨0x02400020, 32, 16, 0x8⟩
/-- NET_CC_CTL1.CNP_INTERVAL_US, bits [31:16], RW. -/
def NET_CC_CTL1.CNP_INTERVAL_US : Fld := ⟨0x02400020, 16, 16, 0x8⟩
/-- NET_PORT_CMD.ACTION, bits [63:62], WO. -/
def NET_PORT_CMD.ACTION : Fld := ⟨0x02400400, 62, 2, 0⟩
/-- NET_PORT_CMD.PORT, bits [5:0], WO. -/
def NET_PORT_CMD.PORT : Fld := ⟨0x02400400, 0, 6, 0⟩
/-- NET_STAT.CMD_REFUSED, bits [63:63], W1C. -/
def NET_STAT.CMD_REFUSED : Fld := ⟨0x02400408, 63, 1, 0⟩
/-- NET_PORT_STAT[n].STATE, bits [63:61], RO-V. -/
def NET_PORT_STAT.STATE (n : Nat) : Fld := ⟨0x02400500 + 8 * n, 61, 3, 0⟩
/-- NET_PORT_STAT[n].CAUSE, bits [60:57], RO-V. -/
def NET_PORT_STAT.CAUSE (n : Nat) : Fld := ⟨0x02400500 + 8 * n, 57, 4, 0⟩
/-- NET_PORT_STAT[n].PFC_STORM, bits [56:56], RO-V. -/
def NET_PORT_STAT.PFC_STORM (n : Nat) : Fld := ⟨0x02400500 + 8 * n, 56, 1, 0⟩
/-- NET_PORT_STAT[n].POLARITY, bits [47:40], RO-V. -/
def NET_PORT_STAT.POLARITY (n : Nat) : Fld := ⟨0x02400500 + 8 * n, 40, 8, 0⟩
/-- NET_PORT_STAT[n].LOCKED, bits [39:32], RO-V. -/
def NET_PORT_STAT.LOCKED (n : Nat) : Fld := ⟨0x02400500 + 8 * n, 32, 8, 0⟩
/-- NET_PORT_STAT[n].DOWNS, bits [31:16], RO-V. -/
def NET_PORT_STAT.DOWNS (n : Nat) : Fld := ⟨0x02400500 + 8 * n, 16, 16, 0⟩
/-- NET_PORT_CNT0[n].RX_FRAMES, bits [63:32], RO-V. -/
def NET_PORT_CNT0.RX_FRAMES (n : Nat) : Fld := ⟨0x02401000 + 32 * n, 32, 32, 0⟩
/-- NET_PORT_CNT0[n].TX_FRAMES, bits [31:0], RO-V. -/
def NET_PORT_CNT0.TX_FRAMES (n : Nat) : Fld := ⟨0x02401000 + 32 * n, 0, 32, 0⟩
/-- NET_PORT_CNT1[n].FEC_CORRECTED, bits [63:32], RO-V. -/
def NET_PORT_CNT1.FEC_CORRECTED (n : Nat) : Fld := ⟨0x02401008 + 32 * n, 32, 32, 0⟩
/-- NET_PORT_CNT1[n].FEC_UNCORR, bits [31:16], RO-V. -/
def NET_PORT_CNT1.FEC_UNCORR (n : Nat) : Fld := ⟨0x02401008 + 32 * n, 16, 16, 0⟩
/-- NET_PORT_CNT1[n].FCS_ERR, bits [15:0], RO-V. -/
def NET_PORT_CNT1.FCS_ERR (n : Nat) : Fld := ⟨0x02401008 + 32 * n, 0, 16, 0⟩
/-- NET_PORT_CNT2[n].RX_DROP, bits [63:48], RO-V. -/
def NET_PORT_CNT2.RX_DROP (n : Nat) : Fld := ⟨0x02401010 + 32 * n, 48, 16, 0⟩
/-- NET_PORT_CNT2[n].OTHER, bits [47:32], RO-V. -/
def NET_PORT_CNT2.OTHER (n : Nat) : Fld := ⟨0x02401010 + 32 * n, 32, 16, 0⟩
/-- NET_PORT_CNT2[n].PFC_RX, bits [31:16], RO-V. -/
def NET_PORT_CNT2.PFC_RX (n : Nat) : Fld := ⟨0x02401010 + 32 * n, 16, 16, 0⟩
/-- NET_PORT_CNT2[n].PFC_TX, bits [15:0], RO-V. -/
def NET_PORT_CNT2.PFC_TX (n : Nat) : Fld := ⟨0x02401010 + 32 * n, 0, 16, 0⟩
/-- NET_PORT_CNT3[n].CE_RX, bits [63:48], RO-V. -/
def NET_PORT_CNT3.CE_RX (n : Nat) : Fld := ⟨0x02401018 + 32 * n, 48, 16, 0⟩
/-- NET_PORT_CNT3[n].CNP_TX, bits [47:32], RO-V. -/
def NET_PORT_CNT3.CNP_TX (n : Nat) : Fld := ⟨0x02401018 + 32 * n, 32, 16, 0⟩
/-- NET_PORT_CNT3[n].CNP_RX, bits [31:16], RO-V. -/
def NET_PORT_CNT3.CNP_RX (n : Nat) : Fld := ⟨0x02401018 + 32 * n, 16, 16, 0⟩
/-- NET_PORT_CNT3[n].PAUSE_IGNORED, bits [15:0], RO-V. -/
def NET_PORT_CNT3.PAUSE_IGNORED (n : Nat) : Fld := ⟨0x02401018 + 32 * n, 0, 16, 0⟩
/-- XPT_STAT.CACHED, bits [40:24], RO-V. -/
def XPT_STAT.CACHED : Fld := ⟨0x02800000, 24, 17, 0⟩
/-- XPT_STAT.CONNECTIONS, bits [22:0], RO-V. -/
def XPT_STAT.CONNECTIONS : Fld := ⟨0x02800000, 0, 23, 0⟩
/-- XPT_START.COUNT, bits [17:0], RO-V. -/
def XPT_START.COUNT : Fld := ⟨0x02800008, 0, 18, 0⟩
/-- XPT_CONN_CTL.ERROR_HOLD_MS, bits [63:48], RW. -/
def XPT_CONN_CTL.ERROR_HOLD_MS : Fld := ⟨0x02800010, 48, 16, 0x3e8⟩
/-- XPT_CONN_CTL.RESP_RES, bits [47:40], RW. -/
def XPT_CONN_CTL.RESP_RES : Fld := ⟨0x02800010, 40, 8, 0x80⟩
/-- XPT_CONN_CTL.INIT_DEPTH, bits [39:32], RW. -/
def XPT_CONN_CTL.INIT_DEPTH : Fld := ⟨0x02800010, 32, 8, 0x10⟩
/-- XPT_CONN_CTL.MAX_MGMT, bits [2:0], RW. -/
def XPT_CONN_CTL.MAX_MGMT : Fld := ⟨0x02800010, 0, 3, 0x1⟩
/-- XPT_REQ_CTL.RETRY_CNT, bits [34:32], RW. -/
def XPT_REQ_CTL.RETRY_CNT : Fld := ⟨0x02800018, 32, 3, 0x7⟩
/-- XPT_REQ_CTL.ACK_TMO_US, bits [15:0], RW. -/
def XPT_REQ_CTL.ACK_TMO_US : Fld := ⟨0x02800018, 0, 16, 0x7d0⟩
/-- XPT_WR_CTL.PER_CONN, bits [10:0], RW. -/
def XPT_WR_CTL.PER_CONN : Fld := ⟨0x02800020, 0, 11, 0x100⟩
/-- XPT_KEY_STAT.REVOKING, bits [56:32], RO-V. -/
def XPT_KEY_STAT.REVOKING : Fld := ⟨0x02800028, 32, 25, 0⟩
/-- XPT_KEY_STAT.VALID, bits [24:0], RO-V. -/
def XPT_KEY_STAT.VALID : Fld := ⟨0x02800028, 0, 25, 0⟩
/-- XPT_WR_STAT.POOL_USED, bits [16:0], RO-V. -/
def XPT_WR_STAT.POOL_USED : Fld := ⟨0x02800030, 0, 17, 0⟩
/-- XPT_CNT0.TAG_FAIL, bits [63:32], RO-V. -/
def XPT_CNT0.TAG_FAIL : Fld := ⟨0x02800038, 32, 32, 0⟩
/-- XPT_CNT0.REPLAY, bits [31:0], RO-V. -/
def XPT_CNT0.REPLAY : Fld := ⟨0x02800038, 0, 32, 0⟩
/-- XPT_CNT1.CTX_MISS, bits [63:32], RO-V. -/
def XPT_CNT1.CTX_MISS : Fld := ⟨0x02800040, 32, 32, 0⟩
/-- XPT_CNT1.NO_CONN, bits [31:0], RO-V. -/
def XPT_CNT1.NO_CONN : Fld := ⟨0x02800040, 0, 32, 0⟩
/-- XPT_CNT2.HOLD_RNR, bits [63:48], RO-V. -/
def XPT_CNT2.HOLD_RNR : Fld := ⟨0x02800048, 48, 16, 0⟩
/-- XPT_CNT2.RESP_DROP, bits [47:32], RO-V. -/
def XPT_CNT2.RESP_DROP : Fld := ⟨0x02800048, 32, 16, 0⟩
/-- XPT_CNT2.REVOKED, bits [31:16], RO-V. -/
def XPT_CNT2.REVOKED : Fld := ⟨0x02800048, 16, 16, 0⟩
/-- XPT_CNT2.GATE_MISS, bits [15:0], RO-V. -/
def XPT_CNT2.GATE_MISS : Fld := ⟨0x02800048, 0, 16, 0⟩
/-- XPT_CNT3.DUP, bits [63:48], RO-V. -/
def XPT_CNT3.DUP : Fld := ⟨0x02800050, 48, 16, 0⟩
/-- XPT_CNT3.ICRC_ERR, bits [47:32], RO-V. -/
def XPT_CNT3.ICRC_ERR : Fld := ⟨0x02800050, 32, 16, 0⟩
/-- XPT_CNT3.SEQ_NAK, bits [31:16], RO-V. -/
def XPT_CNT3.SEQ_NAK : Fld := ⟨0x02800050, 16, 16, 0⟩
/-- XPT_CNT3.EPOCH_MOVES, bits [15:0], RO-V. -/
def XPT_CNT3.EPOCH_MOVES : Fld := ⟨0x02800050, 0, 16, 0⟩
/-- XPT_HOLD_STAT[n].FULL, bits [63:48], RO-V. -/
def XPT_HOLD_STAT.FULL (n : Nat) : Fld := ⟨0x02800100 + 8 * n, 48, 16, 0⟩
/-- XPT_HOLD_STAT[n].USED_KIB, bits [10:0], RO-V. -/
def XPT_HOLD_STAT.USED_KIB (n : Nat) : Fld := ⟨0x02800100 + 8 * n, 0, 11, 0⟩
/-- XPT_ADDR0[n].VALID, bits [63:63], RW. -/
def XPT_ADDR0.VALID (n : Nat) : Fld := ⟨0x02800800 + 32 * n, 63, 1, 0⟩
/-- XPT_ADDR0[n].PORT, bits [27:22], RW. -/
def XPT_ADDR0.PORT (n : Nat) : Fld := ⟨0x02800800 + 32 * n, 22, 6, 0⟩
/-- XPT_ADDR0[n].PCP, bits [21:19], RW. -/
def XPT_ADDR0.PCP (n : Nat) : Fld := ⟨0x02800800 + 32 * n, 19, 3, 0⟩
/-- XPT_ADDR0[n].DSCP, bits [18:13], RW. -/
def XPT_ADDR0.DSCP (n : Nat) : Fld := ⟨0x02800800 + 32 * n, 13, 6, 0⟩
/-- XPT_ADDR0[n].TAGGED, bits [12:12], RW. -/
def XPT_ADDR0.TAGGED (n : Nat) : Fld := ⟨0x02800800 + 32 * n, 12, 1, 0⟩
/-- XPT_ADDR0[n].VLAN, bits [11:0], RW. -/
def XPT_ADDR0.VLAN (n : Nat) : Fld := ⟨0x02800800 + 32 * n, 0, 12, 0⟩
/-- XPT_ADDR1[n].IP_HIGH, bits [63:0], RW. -/
def XPT_ADDR1.IP_HIGH (n : Nat) : Fld := ⟨0x02800808 + 32 * n, 0, 64, 0⟩
/-- XPT_ADDR2[n].IP_LOW, bits [63:0], RW. -/
def XPT_ADDR2.IP_LOW (n : Nat) : Fld := ⟨0x02800810 + 32 * n, 0, 64, 0⟩
/-- XPT_KRANGE0[n].VALID, bits [63:63], RW. -/
def XPT_KRANGE0.VALID (n : Nat) : Fld := ⟨0x02810000 + 16 * n, 63, 1, 0⟩
/-- XPT_KRANGE0[n].TENANT, bits [23:0], RW. -/
def XPT_KRANGE0.TENANT (n : Nat) : Fld := ⟨0x02810000 + 16 * n, 0, 24, 0⟩
/-- XPT_KRANGE1[n].COUNT, bits [48:24], RW. -/
def XPT_KRANGE1.COUNT (n : Nat) : Fld := ⟨0x02810008 + 16 * n, 24, 25, 0⟩
/-- XPT_KRANGE1[n].FIRST, bits [23:0], RW. -/
def XPT_KRANGE1.FIRST (n : Nat) : Fld := ⟨0x02810008 + 16 * n, 0, 24, 0⟩
/-- CXL_PORT_CFG[n].MAX_WIDTH, bits [63:62], RW. -/
def CXL_PORT_CFG.MAX_WIDTH (n : Nat) : Fld := ⟨0x02C00000 + 8 * n, 62, 2, 0x0⟩
/-- CXL_PORT_CFG[n].MAX_GTS, bits [61:61], RW. -/
def CXL_PORT_CFG.MAX_GTS (n : Nat) : Fld := ⟨0x02C00000 + 8 * n, 61, 1, 0⟩
/-- CXL_PORT_CFG[n].SRIS, bits [60:60], RW. -/
def CXL_PORT_CFG.SRIS (n : Nat) : Fld := ⟨0x02C00000 + 8 * n, 60, 1, 0⟩
/-- CXL_PORT_CFG[n].IDE_REQ, bits [59:59], RW. -/
def CXL_PORT_CFG.IDE_REQ (n : Nat) : Fld := ⟨0x02C00000 + 8 * n, 59, 1, 1⟩
/-- CXL_PORT_STAT[n].STATE, bits [63:61], RO-V. -/
def CXL_PORT_STAT.STATE (n : Nat) : Fld := ⟨0x02C00010 + 8 * n, 61, 3, 0⟩
/-- CXL_PORT_STAT[n].WIDTH, bits [60:59], RO-V. -/
def CXL_PORT_STAT.WIDTH (n : Nat) : Fld := ⟨0x02C00010 + 8 * n, 59, 2, 0⟩
/-- CXL_PORT_STAT[n].GTS, bits [58:58], RO-V. -/
def CXL_PORT_STAT.GTS (n : Nat) : Fld := ⟨0x02C00010 + 8 * n, 58, 1, 0⟩
/-- CXL_PORT_STAT[n].MLD, bits [57:57], RO-V. -/
def CXL_PORT_STAT.MLD (n : Nat) : Fld := ⟨0x02C00010 + 8 * n, 57, 1, 0⟩
/-- CXL_PORT_STAT[n].IDE_ACTIVE, bits [56:56], RO-V. -/
def CXL_PORT_STAT.IDE_ACTIVE (n : Nat) : Fld := ⟨0x02C00010 + 8 * n, 56, 1, 0⟩
/-- CXL_PORT_STAT[n].CAUSE, bits [55:52], RO-V. -/
def CXL_PORT_STAT.CAUSE (n : Nat) : Fld := ⟨0x02C00010 + 8 * n, 52, 4, 0⟩
/-- CXL_PORT_STAT[n].DOWNS, bits [15:0], RO-V. -/
def CXL_PORT_STAT.DOWNS (n : Nat) : Fld := ⟨0x02C00010 + 8 * n, 0, 16, 0⟩
/-- CXL_PORT_CMD.ACTION, bits [63:62], WO. -/
def CXL_PORT_CMD.ACTION : Fld := ⟨0x02C00020, 62, 2, 0⟩
/-- CXL_PORT_CMD.PORT, bits [0:0], WO. -/
def CXL_PORT_CMD.PORT : Fld := ⟨0x02C00020, 0, 1, 0⟩
/-- CXL_STAT.CMD_REFUSED, bits [63:63], W1C. -/
def CXL_STAT.CMD_REFUSED : Fld := ⟨0x02C00028, 63, 1, 0⟩
/-- CXL_STAT.DC_REFUSED, bits [62:62], W1C. -/
def CXL_STAT.DC_REFUSED : Fld := ⟨0x02C00028, 62, 1, 0⟩
/-- CXL_DC_CTL.RESP_MS, bits [47:32], RW. -/
def CXL_DC_CTL.RESP_MS : Fld := ⟨0x02C00030, 32, 16, 0x3e8⟩
/-- CXL_DC_CTL.WITHDRAW_MS, bits [15:0], RW. -/
def CXL_DC_CTL.WITHDRAW_MS : Fld := ⟨0x02C00030, 0, 16, 0x3e8⟩
/-- CXL_DC_CMD.ACTION, bits [63:62], WO. -/
def CXL_DC_CMD.ACTION : Fld := ⟨0x02C00038, 62, 2, 0⟩
/-- CXL_DC_CMD.PORT, bits [56:56], WO. -/
def CXL_DC_CMD.PORT : Fld := ⟨0x02C00038, 56, 1, 0⟩
/-- CXL_DC_CMD.LD, bits [55:52], WO. -/
def CXL_DC_CMD.LD : Fld := ⟨0x02C00038, 52, 4, 0⟩
/-- CXL_DC_CMD.EXTENT, bits [18:0], WO. -/
def CXL_DC_CMD.EXTENT : Fld := ⟨0x02C00038, 0, 19, 0⟩
/-- CXL_LD_CFG[n].VALID, bits [63:63], RW. -/
def CXL_LD_CFG.VALID (n : Nat) : Fld := ⟨0x02C00100 + 8 * n, 63, 1, 0⟩
/-- CXL_LD_CFG[n].TENANT, bits [23:0], RW. -/
def CXL_LD_CFG.TENANT (n : Nat) : Fld := ⟨0x02C00100 + 8 * n, 0, 24, 0⟩
/-- CXL_LD_STAT[n].BOUND, bits [63:63], RO-V. -/
def CXL_LD_STAT.BOUND (n : Nat) : Fld := ⟨0x02C00200 + 8 * n, 63, 1, 0⟩
/-- CXL_LD_STAT[n].PLAN, bits [62:62], RO-V. -/
def CXL_LD_STAT.PLAN (n : Nat) : Fld := ⟨0x02C00200 + 8 * n, 62, 1, 0⟩
/-- CXL_LD_STAT[n].PENDING, bits [39:20], RO-V. -/
def CXL_LD_STAT.PENDING (n : Nat) : Fld := ⟨0x02C00200 + 8 * n, 20, 20, 0⟩
/-- CXL_LD_STAT[n].ACCEPTED, bits [19:0], RO-V. -/
def CXL_LD_STAT.ACCEPTED (n : Nat) : Fld := ⟨0x02C00200 + 8 * n, 0, 20, 0⟩
/-- CXL_RING_CFG[n].VALID, bits [63:63], RW. -/
def CXL_RING_CFG.VALID (n : Nat) : Fld := ⟨0x02C00400 + 8 * n, 63, 1, 0⟩
/-- CXL_RING_CFG[n].STATE, bits [62:61], RO-V. -/
def CXL_RING_CFG.STATE (n : Nat) : Fld := ⟨0x02C00400 + 8 * n, 61, 2, 0⟩
/-- CXL_RING_CFG[n].QUEUE, bits [9:0], RW. -/
def CXL_RING_CFG.QUEUE (n : Nat) : Fld := ⟨0x02C00400 + 8 * n, 0, 10, 0⟩
/-- CXL_LD_CNT[n].WR_REFUSED, bits [63:32], RO-V. -/
def CXL_LD_CNT.WR_REFUSED (n : Nat) : Fld := ⟨0x02C00C00 + 8 * n, 32, 32, 0⟩
/-- CXL_LD_CNT[n].RD_POISON, bits [31:0], RO-V. -/
def CXL_LD_CNT.RD_POISON (n : Nat) : Fld := ⟨0x02C00C00 + 8 * n, 0, 32, 0⟩
/-- CXL_PORT_CNT[n].BAD_REQ, bits [63:48], RO-V. -/
def CXL_PORT_CNT.BAD_REQ (n : Nat) : Fld := ⟨0x02C00D00 + 8 * n, 48, 16, 0⟩
/-- CXL_PORT_CNT[n].REPLAYS, bits [47:32], RO-V. -/
def CXL_PORT_CNT.REPLAYS (n : Nat) : Fld := ⟨0x02C00D00 + 8 * n, 32, 16, 0⟩
/-- CXL_PORT_CNT[n].COMBINED, bits [31:0], RO-V. -/
def CXL_PORT_CNT.COMBINED (n : Nat) : Fld := ⟨0x02C00D00 + 8 * n, 0, 32, 0⟩
/-- GTH_STAT.UDS_LOCKED, bits [63:63], RO-V. -/
def GTH_STAT.UDS_LOCKED : Fld := ⟨0x02000000, 63, 1, 0⟩
/-- GTH_STAT.DEBUG, bits [62:62], RO-V. -/
def GTH_STAT.DEBUG : Fld := ⟨0x02000000, 62, 1, 0⟩
/-- GTH_STAT.PAIR_KEY, bits [61:61], RO-V. -/
def GTH_STAT.PAIR_KEY : Fld := ⟨0x02000000, 61, 1, 0⟩
/-- GTH_STAT.CMD_REFUSED, bits [60:60], W1C. -/
def GTH_STAT.CMD_REFUSED : Fld := ⟨0x02000000, 60, 1, 0⟩
/-- GTH_STAT.AES_UP, bits [54:48], RO-V. -/
def GTH_STAT.AES_UP : Fld := ⟨0x02000000, 48, 7, 0⟩
/-- GTH_STAT.GHASH_UP, bits [45:40], RO-V. -/
def GTH_STAT.GHASH_UP : Fld := ⟨0x02000000, 40, 6, 0⟩
/-- GTH_STAT.SLOTS_USED, bits [12:0], RO-V. -/
def GTH_STAT.SLOTS_USED : Fld := ⟨0x02000000, 0, 13, 0⟩
/-- GTH_CORE_CMD.ACTION, bits [63:62], WO. -/
def GTH_CORE_CMD.ACTION : Fld := ⟨0x02000008, 62, 2, 0⟩
/-- GTH_CORE_CMD.CORE, bits [6:0], WO. -/
def GTH_CORE_CMD.CORE : Fld := ⟨0x02000008, 0, 7, 0⟩
/-- GTH_SHARE.MEDIA, bits [63:56], RW. -/
def GTH_SHARE.MEDIA : Fld := ⟨0x02000010, 56, 8, 0x30⟩
/-- GTH_SHARE.NET, bits [55:48], RW. -/
def GTH_SHARE.NET : Fld := ⟨0x02000010, 48, 8, 0x40⟩
/-- GTH_SHARE.PROM, bits [47:40], RW. -/
def GTH_SHARE.PROM : Fld := ⟨0x02000010, 40, 8, 0x30⟩
/-- GTH_SHARE.CXL, bits [39:32], RW. -/
def GTH_SHARE.CXL : Fld := ⟨0x02000010, 32, 8, 0x10⟩
/-- GTH_SHARE.TASK, bits [31:24], RW. -/
def GTH_SHARE.TASK : Fld := ⟨0x02000010, 24, 8, 0x8⟩
/-- GTH_SHARE.KDF, bits [23:16], RW. -/
def GTH_SHARE.KDF : Fld := ⟨0x02000010, 16, 8, 0x8⟩
/-- GTH_KAT_CTL.PERIOD_US, bits [15:0], RW. -/
def GTH_KAT_CTL.PERIOD_US : Fld := ⟨0x02000018, 0, 16, 0x3e8⟩
/-- GTH_CNT0.DERIVATIONS, bits [63:32], RO-V. -/
def GTH_CNT0.DERIVATIONS : Fld := ⟨0x02000020, 32, 32, 0⟩
/-- GTH_CNT0.EVICTIONS, bits [31:0], RO-V. -/
def GTH_CNT0.EVICTIONS : Fld := ⟨0x02000020, 0, 32, 0⟩
/-- GTH_CNT1.KAT_FAIL, bits [63:48], RO-V. -/
def GTH_CNT1.KAT_FAIL : Fld := ⟨0x02000028, 48, 16, 0⟩
/-- GTH_CNT1.KDF_DISAGREE, bits [47:32], RO-V. -/
def GTH_CNT1.KDF_DISAGREE : Fld := ⟨0x02000028, 32, 16, 0⟩
/-- GTH_CNT1.PURPOSE_REFUSED, bits [31:16], RO-V. -/
def GTH_CNT1.PURPOSE_REFUSED : Fld := ⟨0x02000028, 16, 16, 0⟩
/-- GTH_CNT1.ENROL_REFUSED, bits [15:0], RO-V. -/
def GTH_CNT1.ENROL_REFUSED : Fld := ⟨0x02000028, 0, 16, 0⟩
/-- GTH_CORE_STAT[n].STATE, bits [63:62], RO-V. -/
def GTH_CORE_STAT.STATE (n : Nat) : Fld := ⟨0x02000400 + 8 * n, 62, 2, 0⟩
/-- GTH_CORE_STAT[n].CAUSE, bits [61:58], RO-V. -/
def GTH_CORE_STAT.CAUSE (n : Nat) : Fld := ⟨0x02000400 + 8 * n, 58, 4, 0⟩
/-- GTH_CORE_STAT[n].DISAGREE, bits [15:0], RO-V. -/
def GTH_CORE_STAT.DISAGREE (n : Nat) : Fld := ⟨0x02000400 + 8 * n, 0, 16, 0⟩
/-- GTH_TEN_HASH[n].HASH, bits [63:0], RW. -/
def GTH_TEN_HASH.HASH (n : Nat) : Fld := ⟨0x02000200 + 8 * n, 0, 64, 0⟩
/-- GTH_TEN_CMD.ACTION, bits [63:62], WO. -/
def GTH_TEN_CMD.ACTION : Fld := ⟨0x02000230, 62, 2, 0⟩
/-- GTH_TEN_CMD.TENANT, bits [23:0], WO. -/
def GTH_TEN_CMD.TENANT : Fld := ⟨0x02000230, 0, 24, 0⟩
/-- GTH_TEN_STAT.REFUSED, bits [63:63], W1C. -/
def GTH_TEN_STAT.REFUSED : Fld := ⟨0x02000238, 63, 1, 0⟩
/-- GTH_TEN_STAT.TENANTS, bits [48:32], RO-V. -/
def GTH_TEN_STAT.TENANTS : Fld := ⟨0x02000238, 32, 17, 0⟩
/-- GTH_TEN_STAT.NEXT_EPOCH, bits [31:0], RO-V. -/
def GTH_TEN_STAT.NEXT_EPOCH : Fld := ⟨0x02000238, 0, 32, 0⟩
/-- GTH_ENROL_CMD.ACTION, bits [63:62], WO. -/
def GTH_ENROL_CMD.ACTION : Fld := ⟨0x02000240, 62, 2, 0⟩
/-- GTH_ENROL_CMD.REQ_BYTES, bits [15:0], WO. -/
def GTH_ENROL_CMD.REQ_BYTES : Fld := ⟨0x02000240, 0, 16, 0⟩
/-- GTH_ENROL_STAT.BUSY, bits [63:63], RO-V. -/
def GTH_ENROL_STAT.BUSY : Fld := ⟨0x02000248, 63, 1, 0⟩
/-- GTH_ENROL_STAT.STATUS, bits [55:48], RO-V. -/
def GTH_ENROL_STAT.STATUS : Fld := ⟨0x02000248, 48, 8, 0⟩
/-- GTH_ENROL_STAT.RESP_BYTES, bits [15:0], RO-V. -/
def GTH_ENROL_STAT.RESP_BYTES : Fld := ⟨0x02000248, 0, 16, 0⟩
/-- SUP_ISL_STAT[n].STATE, bits [63:62], RO-V. -/
def SUP_ISL_STAT.STATE (n : Nat) : Fld := ⟨0x00002000 + 8 * n, 62, 2, 0⟩
/-- SUP_ISL_STAT[n].CROSS_FAULT, bits [61:61], W1C. -/
def SUP_ISL_STAT.CROSS_FAULT (n : Nat) : Fld := ⟨0x00002000 + 8 * n, 61, 1, 0⟩
/-- SUP_ISL_STAT[n].RESETS, bits [47:32], RO-V. -/
def SUP_ISL_STAT.RESETS (n : Nat) : Fld := ⟨0x00002000 + 8 * n, 32, 16, 0⟩
/-- SUP_ISL_STAT[n].STOPS, bits [31:16], RO-V. -/
def SUP_ISL_STAT.STOPS (n : Nat) : Fld := ⟨0x00002000 + 8 * n, 16, 16, 0⟩
/-- SUP_ISL_STAT[n].DISAGREE, bits [15:0], RO-V. -/
def SUP_ISL_STAT.DISAGREE (n : Nat) : Fld := ⟨0x00002000 + 8 * n, 0, 16, 0⟩
/-- SUP_TIME_STAT.TIMEBASE_LOST, bits [63:63], RO-V. -/
def SUP_TIME_STAT.TIMEBASE_LOST : Fld := ⟨0x00002200, 63, 1, 0⟩
/-- SUP_TIME_STAT.LOSSES, bits [15:0], RO-V. -/
def SUP_TIME_STAT.LOSSES : Fld := ⟨0x00002200, 0, 16, 0⟩
/-- KSK_PACE[n].MAX, bits [47:32], RO-V. -/
def KSK_PACE.MAX (n : Nat) : Fld := ⟨0x01C20000 + 8 * n, 32, 16, 0⟩
/-- KSK_PACE[n].MIN, bits [31:16], RO-V. -/
def KSK_PACE.MIN (n : Nat) : Fld := ⟨0x01C20000 + 8 * n, 16, 16, 0xffff⟩
/-- KSK_PACE[n].PACE, bits [15:0], RO-V. -/
def KSK_PACE.PACE (n : Nat) : Fld := ⟨0x01C20000 + 8 * n, 0, 16, 0⟩
/-- KSK_PACE_CMD.CLEAR_MINMAX, bits [0:0], WO. -/
def KSK_PACE_CMD.CLEAR_MINMAX : Fld := ⟨0x01C20080, 0, 1, 0⟩
/-- PWR_VCORE_CTL.MODE, bits [63:63], RW. -/
def PWR_VCORE_CTL.MODE : Fld := ⟨0x00180000, 63, 1, 1⟩
/-- PWR_VCORE_CTL.FIXED_MV, bits [57:48], RW. -/
def PWR_VCORE_CTL.FIXED_MV : Fld := ⟨0x00180000, 48, 10, 0x320⟩
/-- PWR_VCORE_CTL.VMAX_MV, bits [47:38], RW. -/
def PWR_VCORE_CTL.VMAX_MV : Fld := ⟨0x00180000, 38, 10, 0x384⟩
/-- PWR_VCORE_CTL.VMIN_MV, bits [37:28], RW. -/
def PWR_VCORE_CTL.VMIN_MV : Fld := ⟨0x00180000, 28, 10, 0x26c⟩
/-- PWR_VCORE_CTL.PACE_TARGET, bits [27:16], RW. -/
def PWR_VCORE_CTL.PACE_TARGET : Fld := ⟨0x00180000, 16, 12, 0x4e2⟩
/-- PWR_VCORE_CTL.PACE_HYST, bits [15:10], RW. -/
def PWR_VCORE_CTL.PACE_HYST : Fld := ⟨0x00180000, 10, 6, 0x19⟩
/-- PWR_VCORE_CTL.STEP_US, bits [9:0], RW. -/
def PWR_VCORE_CTL.STEP_US : Fld := ⟨0x00180000, 0, 10, 0x32⟩
/-- PWR_VCORE_CAP.POWER_CAP_W, bits [7:0], RW. -/
def PWR_VCORE_CAP.POWER_CAP_W : Fld := ⟨0x00180008, 0, 8, 0xc8⟩
/-- PWR_VCORE_STAT.MODE, bits [63:63], RO-V. -/
def PWR_VCORE_STAT.MODE : Fld := ⟨0x00180010, 63, 1, 0⟩
/-- PWR_VCORE_STAT.CAPPED, bits [62:62], RO-V. -/
def PWR_VCORE_STAT.CAPPED : Fld := ⟨0x00180010, 62, 1, 0⟩
/-- PWR_VCORE_STAT.THROTTLED, bits [61:61], RO-V. -/
def PWR_VCORE_STAT.THROTTLED : Fld := ⟨0x00180010, 61, 1, 0⟩
/-- PWR_VCORE_STAT.SET_MV, bits [41:32], RO-V. -/
def PWR_VCORE_STAT.SET_MV : Fld := ⟨0x00180010, 32, 10, 0⟩
/-- PWR_VCORE_STAT.POWER_W, bits [23:16], RO-V. -/
def PWR_VCORE_STAT.POWER_W : Fld := ⟨0x00180010, 16, 8, 0⟩
/-- PWR_VCORE_STAT.LOW_PACE, bits [11:0], RO-V. -/
def PWR_VCORE_STAT.LOW_PACE : Fld := ⟨0x00180010, 0, 12, 0⟩
/-- PWR_STAT.STATE, bits [63:61], RO-V. -/
def PWR_STAT.STATE : Fld := ⟨0x00100000, 61, 3, 0⟩
/-- PWR_STAT.SEQ_MODE, bits [60:60], RO. -/
def PWR_STAT.SEQ_MODE : Fld := ⟨0x00100000, 60, 1, 0⟩
/-- PWR_STAT.WARN, bits [59:59], RO-V. -/
def PWR_STAT.WARN : Fld := ⟨0x00100000, 59, 1, 0⟩
/-- PWR_STAT.COMMITTED, bits [58:58], RO-V. -/
def PWR_STAT.COMMITTED : Fld := ⟨0x00100000, 58, 1, 0⟩
/-- PWR_STAT.CMD_REFUSED, bits [57:57], W1C. -/
def PWR_STAT.CMD_REFUSED : Fld := ⟨0x00100000, 57, 1, 0⟩
/-- PWR_STAT.SEQ_STATE, bits [55:52], RO-V. -/
def PWR_STAT.SEQ_STATE : Fld := ⟨0x00100000, 52, 4, 0⟩
/-- PWR_STAT.WAVE, bits [47:40], RO-V. -/
def PWR_STAT.WAVE : Fld := ⟨0x00100000, 40, 8, 0⟩
/-- PWR_STAT.GROUPS_FENCED, bits [23:0], RO-V. -/
def PWR_STAT.GROUPS_FENCED : Fld := ⟨0x00100000, 0, 24, 0⟩
/-- PWR_LATCH.LATCHED, bits [63:63], RO-V. -/
def PWR_LATCH.LATCHED : Fld := ⟨0x00100008, 63, 1, 0⟩
/-- PWR_LATCH.CAUSE, bits [62:59], RO-V. -/
def PWR_LATCH.CAUSE : Fld := ⟨0x00100008, 59, 4, 0⟩
/-- PWR_LATCH.RAIL, bits [53:48], RO-V. -/
def PWR_LATCH.RAIL : Fld := ⟨0x00100008, 48, 6, 0⟩
/-- PWR_LATCH.TIME_US, bits [47:0], RO-V. -/
def PWR_LATCH.TIME_US : Fld := ⟨0x00100008, 0, 48, 0⟩
/-- PWR_LATCH_CMD.CLEAR_LATCH, bits [0:0], WO. -/
def PWR_LATCH_CMD.CLEAR_LATCH : Fld := ⟨0x00100010, 0, 1, 0⟩
/-- PWR_WARN_STAT.GLITCHES, bits [63:48], RO-V. -/
def PWR_WARN_STAT.GLITCHES : Fld := ⟨0x00100018, 48, 16, 0⟩
/-- PWR_WARN_STAT.COMMITS, bits [47:32], RO-V. -/
def PWR_WARN_STAT.COMMITS : Fld := ⟨0x00100018, 32, 16, 0⟩
/-- PWR_WAVE_CTL.GAP_US, bits [15:0], RW. -/
def PWR_WAVE_CTL.GAP_US : Fld := ⟨0x00100020, 0, 16, 0xc8⟩
/-- PWR_WAVE_CMD.ACTION, bits [63:62], WO. -/
def PWR_WAVE_CMD.ACTION : Fld := ⟨0x00100028, 62, 2, 0⟩
/-- PWR_WAVE_CMD.GROUP, bits [4:0], WO. -/
def PWR_WAVE_CMD.GROUP : Fld := ⟨0x00100028, 0, 5, 0⟩
/-- PWR_MON_CTL.TELEM_MS, bits [15:0], RW. -/
def PWR_MON_CTL.TELEM_MS : Fld := ⟨0x00100030, 0, 16, 0x64⟩
/-- PWR_RAIL_CFG[n].VALID, bits [63:63], RW; RO for n ≤ 7. -/
def PWR_RAIL_CFG.VALID (n : Nat) : Fld := ⟨0x00100100 + 8 * n, 63, 1, if 3 ≤ n ∧ n ≤ 7 then 1 else 0⟩
/-- PWR_RAIL_CFG[n].ADDR, bits [14:8], RW; RO for n ≤ 7. -/
def PWR_RAIL_CFG.ADDR (n : Nat) : Fld := ⟨0x00100100 + 8 * n, 8, 7, if 3 ≤ n ∧ n ≤ 7 then 0x40 + n - 3 else 0⟩
/-- PWR_RAIL_CFG[n].PAGE, bits [7:0], RW; RO for n ≤ 7. -/
def PWR_RAIL_CFG.PAGE (n : Nat) : Fld := ⟨0x00100100 + 8 * n, 0, 8, 0⟩
/-- PWR_RAIL_STAT[n].STATE, bits [63:61], RO-V. -/
def PWR_RAIL_STAT.STATE (n : Nat) : Fld := ⟨0x00100400 + 8 * n, 61, 3, 0⟩
/-- PWR_RAIL_STAT[n].CAUSE, bits [60:57], RO-V. -/
def PWR_RAIL_STAT.CAUSE (n : Nat) : Fld := ⟨0x00100400 + 8 * n, 57, 4, 0⟩
/-- PWR_RAIL_STAT[n].IOUT_DA, bits [47:32], RO-V. -/
def PWR_RAIL_STAT.IOUT_DA (n : Nat) : Fld := ⟨0x00100400 + 8 * n, 32, 16, 0⟩
/-- PWR_RAIL_STAT[n].MON_MV, bits [15:0], RO-V. -/
def PWR_RAIL_STAT.MON_MV (n : Nat) : Fld := ⟨0x00100400 + 8 * n, 0, 16, 0⟩
/-- PWR_LOG_STAT.OVERWRITTEN, bits [63:48], RO-V. -/
def PWR_LOG_STAT.OVERWRITTEN : Fld := ⟨0x00100800, 48, 16, 0⟩
/-- PWR_LOG_STAT.COUNT, bits [16:8], RO-V. -/
def PWR_LOG_STAT.COUNT : Fld := ⟨0x00100800, 8, 9, 0⟩
/-- PWR_LOG_STAT.NEXT, bits [7:0], RO-V. -/
def PWR_LOG_STAT.NEXT : Fld := ⟨0x00100800, 0, 8, 0⟩
/-- PWR_LOG_LO[n].VALUE, bits [63:48], RO-V. -/
def PWR_LOG_LO.VALUE (n : Nat) : Fld := ⟨0x00101000 + 16 * n, 48, 16, 0⟩
/-- PWR_LOG_LO[n].TIME_US, bits [47:0], RO-V. -/
def PWR_LOG_LO.TIME_US (n : Nat) : Fld := ⟨0x00101000 + 16 * n, 0, 48, 0⟩
/-- PWR_LOG_HI[n].RAIL, bits [15:8], RO-V. -/
def PWR_LOG_HI.RAIL (n : Nat) : Fld := ⟨0x00101008 + 16 * n, 8, 8, 0⟩
/-- PWR_LOG_HI[n].CODE, bits [7:0], RO-V. -/
def PWR_LOG_HI.CODE (n : Nat) : Fld := ⟨0x00101008 + 16 * n, 0, 8, 0⟩
/-- SUP_RESET_CMD.ACTION, bits [63:62], WO. -/
def SUP_RESET_CMD.ACTION : Fld := ⟨0x00000100, 62, 2, 0⟩
/-- SUP_BOOT_STAT.STATE, bits [63:61], RO-V. -/
def SUP_BOOT_STAT.STATE : Fld := ⟨0x00000108, 61, 3, 0⟩
/-- SUP_BOOT_STAT.WARM, bits [60:60], RO-V. -/
def SUP_BOOT_STAT.WARM : Fld := ⟨0x00000108, 60, 1, 0⟩
/-- SUP_BOOT_STAT.IMAGE, bits [59:59], RO-V. -/
def SUP_BOOT_STAT.IMAGE : Fld := ⟨0x00000108, 59, 1, 0⟩
/-- SUP_BOOT_STAT.CAUSE, bits [58:56], RO-V. -/
def SUP_BOOT_STAT.CAUSE : Fld := ⟨0x00000108, 56, 3, 0⟩
/-- SUP_BOOT_STAT.CMD_REFUSED, bits [55:55], W1C. -/
def SUP_BOOT_STAT.CMD_REFUSED : Fld := ⟨0x00000108, 55, 1, 0⟩
/-- SUP_BOOT_STAT.SEC_VERSION, bits [31:0], RO-V. -/
def SUP_BOOT_STAT.SEC_VERSION : Fld := ⟨0x00000108, 0, 32, 0⟩
/-- SUP_WDOG_CTL.ENABLE, bits [63:63], RW. -/
def SUP_WDOG_CTL.ENABLE : Fld := ⟨0x00000110, 63, 1, 1⟩
/-- SUP_WDOG_CTL.TIMEOUT_MS, bits [15:0], RW. -/
def SUP_WDOG_CTL.TIMEOUT_MS : Fld := ⟨0x00000110, 0, 16, 0x3e8⟩
/-- SUP_WDOG_KICK.KICK, bits [0:0], WO. -/
def SUP_WDOG_KICK.KICK : Fld := ⟨0x00000118, 0, 1, 0⟩
/-- SUP_START_STAT.PHASE, bits [63:60], RO-V. -/
def SUP_START_STAT.PHASE : Fld := ⟨0x00000120, 60, 4, 0⟩
/-- SUP_START_STAT.SERVING, bits [59:59], RO-V. -/
def SUP_START_STAT.SERVING : Fld := ⟨0x00000120, 59, 1, 0⟩
/-- SUP_START_STAT.WARM_RESTARTS, bits [47:32], RO-V. -/
def SUP_START_STAT.WARM_RESTARTS : Fld := ⟨0x00000120, 32, 16, 0⟩
/-- SUP_START_STAT.START_MS, bits [31:0], RO-V. -/
def SUP_START_STAT.START_MS : Fld := ⟨0x00000120, 0, 32, 0⟩
/-- FLS_KEY.KEY, bits [15:0], WO. -/
def FLS_KEY.KEY : Fld := ⟨0x00300000, 0, 16, 0⟩
/-- FLS_CMD.OP, bits [63:56], WO. -/
def FLS_CMD.OP : Fld := ⟨0x00300008, 56, 8, 0⟩
/-- FLS_CMD.COUNT, bits [43:32], WO. -/
def FLS_CMD.COUNT : Fld := ⟨0x00300008, 32, 12, 0⟩
/-- FLS_ADDR.ADDR, bits [27:5], WO. -/
def FLS_ADDR.ADDR : Fld := ⟨0x00300010, 5, 23, 0⟩
/-- FLS_ARG.ARG, bits [63:0], WO. -/
def FLS_ARG.ARG : Fld := ⟨0x00300018, 0, 64, 0⟩
/-- FLS_STAT.BUSY0, bits [63:63], RO-V. -/
def FLS_STAT.BUSY0 : Fld := ⟨0x00300020, 63, 1, 0⟩
/-- FLS_STAT.BUSY1, bits [62:62], RO-V. -/
def FLS_STAT.BUSY1 : Fld := ⟨0x00300020, 62, 1, 0⟩
/-- FLS_STAT.RUN_BANK, bits [61:61], RO-V. -/
def FLS_STAT.RUN_BANK : Fld := ⟨0x00300020, 61, 1, 0⟩
/-- FLS_STAT.SEQ_ERR, bits [60:60], W1C. -/
def FLS_STAT.SEQ_ERR : Fld := ⟨0x00300020, 60, 1, 0⟩
/-- FLS_STAT.BUS_FAULT, bits [59:59], W1C. -/
def FLS_STAT.BUS_FAULT : Fld := ⟨0x00300020, 59, 1, 0⟩
/-- FLS_STAT.RESULT, bits [51:48], RO-V. -/
def FLS_STAT.RESULT : Fld := ⟨0x00300020, 48, 4, 0⟩
/-- FLS_STAT.DONE, bits [11:0], RO-V. -/
def FLS_STAT.DONE : Fld := ⟨0x00300020, 0, 12, 0⟩
/-- FLS_PROT_STAT.LOCKED_OUT, bits [47:32], RO-V. -/
def FLS_PROT_STAT.LOCKED_OUT : Fld := ⟨0x00300028, 32, 16, 0⟩
/-- FLS_PROT_STAT.UNLOCKED, bits [31:16], RO-V. -/
def FLS_PROT_STAT.UNLOCKED : Fld := ⟨0x00300028, 16, 16, 0⟩
/-- FLS_CNT.ERASES, bits [63:32], RO-V. -/
def FLS_CNT.ERASES : Fld := ⟨0x00300030, 32, 32, 0⟩
/-- FLS_CNT.REPROG, bits [31:16], RO-V. -/
def FLS_CNT.REPROG : Fld := ⟨0x00300030, 16, 16, 0⟩
/-- FLS_CNT.ECC_CORRECTED, bits [15:0], RO-V. -/
def FLS_CNT.ECC_CORRECTED : Fld := ⟨0x00300030, 0, 16, 0⟩
/-- FLS_HALF.FOUND, bits [44:32], RO-V. -/
def FLS_HALF.FOUND : Fld := ⟨0x00300038, 32, 13, 0⟩
/-- FLS_HALF.LEFT, bits [12:0], RO-V. -/
def FLS_HALF.LEFT : Fld := ⟨0x00300038, 0, 13, 0⟩
/-- FLS_BUF[n].DATA, bits [63:0], RW. -/
def FLS_BUF.DATA (n : Nat) : Fld := ⟨0x00310000 + 8 * n, 0, 64, 0⟩
/-- TWB_CFG[n].SPEED, bits [63:62], RW. -/
def TWB_CFG.SPEED (n : Nat) : Fld := ⟨0x00200000 + 8 * n, 62, 2, if n = 0 then 2 else 0⟩
/-- TWB_CFG[n].RECOVER_EN, bits [61:61], RW. -/
def TWB_CFG.RECOVER_EN (n : Nat) : Fld := ⟨0x00200000 + 8 * n, 61, 1, 1⟩
/-- TWB_CFG[n].ATTN_EN, bits [60:60], RW. -/
def TWB_CFG.ATTN_EN (n : Nat) : Fld := ⟨0x00200000 + 8 * n, 60, 1, if n = 0 then 1 else 0⟩
/-- TWB_CFG[n].TARGET_ADDR, bits [6:0], RW for b = 1; RO 0 for b = 0. -/
def TWB_CFG.TARGET_ADDR (n : Nat) : Fld := ⟨0x00200000 + 8 * n, 0, 7, 0⟩
/-- TWB_STAT[n].ROLE, bits [63:62], RO-V. -/
def TWB_STAT.ROLE (n : Nat) : Fld := ⟨0x00200010 + 8 * n, 62, 2, 0⟩
/-- TWB_STAT[n].BUS_STUCK, bits [61:61], RO-V. -/
def TWB_STAT.BUS_STUCK (n : Nat) : Fld := ⟨0x00200010 + 8 * n, 61, 1, 0⟩
/-- TWB_STAT[n].STRETCH_TMO, bits [60:60], W1C. -/
def TWB_STAT.STRETCH_TMO (n : Nat) : Fld := ⟨0x00200010 + 8 * n, 60, 1, 0⟩
/-- TWB_CNT0[n].ARB_LOST, bits [63:48], RO-V. -/
def TWB_CNT0.ARB_LOST (n : Nat) : Fld := ⟨0x00200020 + 8 * n, 48, 16, 0⟩
/-- TWB_CNT0[n].NACKS, bits [47:32], RO-V. -/
def TWB_CNT0.NACKS (n : Nat) : Fld := ⟨0x00200020 + 8 * n, 32, 16, 0⟩
/-- TWB_CNT0[n].PEC_ERR, bits [31:16], RO-V. -/
def TWB_CNT0.PEC_ERR (n : Nat) : Fld := ⟨0x00200020 + 8 * n, 16, 16, 0⟩
/-- TWB_CNT0[n].TIMEOUTS, bits [15:0], RO-V. -/
def TWB_CNT0.TIMEOUTS (n : Nat) : Fld := ⟨0x00200020 + 8 * n, 0, 16, 0⟩
/-- TWB_CNT1[n].ATTENTIONS, bits [63:48], RO-V. -/
def TWB_CNT1.ATTENTIONS (n : Nat) : Fld := ⟨0x00200030 + 8 * n, 48, 16, 0⟩
/-- TWB_CNT1[n].RECOVERIES, bits [47:32], RO-V. -/
def TWB_CNT1.RECOVERIES (n : Nat) : Fld := ⟨0x00200030 + 8 * n, 32, 16, 0⟩
/-- TWB_CNT1[n].ROLE_SWITCHES, bits [31:16], RO-V. -/
def TWB_CNT1.ROLE_SWITCHES (n : Nat) : Fld := ⟨0x00200030 + 8 * n, 16, 16, 0⟩
/-- TWB_CNT1[n].MCTP_DROP, bits [15:0], RO-V. -/
def TWB_CNT1.MCTP_DROP (n : Nat) : Fld := ⟨0x00200030 + 8 * n, 0, 16, 0⟩
/-- TWB_MCTP_STAT.EID, bits [63:56], RO-V. -/
def TWB_MCTP_STAT.EID : Fld := ⟨0x00200040, 56, 8, 0⟩
/-- TWB_MCTP_STAT.SESSIONS, bits [55:54], RO-V. -/
def TWB_MCTP_STAT.SESSIONS : Fld := ⟨0x00200040, 54, 2, 0⟩
/-- TWB_MCTP_STAT.MGMT_SESSION, bits [53:53], RO-V. -/
def TWB_MCTP_STAT.MGMT_SESSION : Fld := ⟨0x00200040, 53, 1, 0⟩
/-- STA_CTL.FULL_MS, bits [63:48], RW. -/
def STA_CTL.FULL_MS : Fld := ⟨0x03080000, 48, 16, 0x64⟩
/-- STA_CTL.MIRROR_US, bits [47:32], RW. -/
def STA_CTL.MIRROR_US : Fld := ⟨0x03080000, 32, 16, 0x3e8⟩
/-- STA_CTL.REFRESH_US, bits [31:16], RW. -/
def STA_CTL.REFRESH_US : Fld := ⟨0x03080000, 16, 16, 0x64⟩
/-- STA_CTL.MGMT_CQ, bits [15:0], RW. -/
def STA_CTL.MGMT_CQ : Fld := ⟨0x03080000, 0, 16, 0⟩
/-- STA_STAT.PENDING, bits [48:32], RO-V. -/
def STA_STAT.PENDING : Fld := ⟨0x03080008, 32, 17, 0⟩
/-- STA_STAT.EVLOG_SEQ, bits [31:0], RO-V. -/
def STA_STAT.EVLOG_SEQ : Fld := ⟨0x03080008, 0, 32, 0⟩
/-- STA_CNT.WRITTEN, bits [63:32], RO-V. -/
def STA_CNT.WRITTEN : Fld := ⟨0x03080010, 32, 32, 0⟩
/-- STA_CNT.MISROUTED, bits [31:16], RO-V. -/
def STA_CNT.MISROUTED : Fld := ⟨0x03080010, 16, 16, 0⟩
/-- STA_CNT.OVERRUNS, bits [15:0], RO-V. -/
def STA_CNT.OVERRUNS : Fld := ⟨0x03080010, 0, 16, 0⟩
/-- STA_EVLOG[n].WORD, bits [63:0], RO-V. -/
def STA_EVLOG.WORD (n : Nat) : Fld := ⟨0x03090000 + 8 * n, 0, 64, 0⟩
/-- STA_TGT0[n].VALID, bits [63:63], RW. -/
def STA_TGT0.VALID (n : Nat) : Fld := ⟨0x03100000 + 32 * n, 63, 1, 0⟩
/-- STA_TGT0[n].STATE, bits [62:61], RO-V. -/
def STA_TGT0.STATE (n : Nat) : Fld := ⟨0x03100000 + 32 * n, 61, 2, 0⟩
/-- STA_TGT0[n].PATH, bits [60:60], RW. -/
def STA_TGT0.PATH (n : Nat) : Fld := ⟨0x03100000 + 32 * n, 60, 1, 0⟩
/-- STA_TGT0[n].TENANT, bits [47:24], RW. -/
def STA_TGT0.TENANT (n : Nat) : Fld := ⟨0x03100000 + 32 * n, 24, 24, 0⟩
/-- STA_TGT0[n].ENDPOINT, bits [23:0], RW. -/
def STA_TGT0.ENDPOINT (n : Nat) : Fld := ⟨0x03100000 + 32 * n, 0, 24, 0⟩
/-- STA_TGT1[n].RKEY, bits [31:0], RW. -/
def STA_TGT1.RKEY (n : Nat) : Fld := ⟨0x03100008 + 32 * n, 0, 32, 0⟩
/-- STA_CQ0[n].VALID, bits [63:63], RW. -/
def STA_CQ0.VALID (n : Nat) : Fld := ⟨0x03200000 + 32 * n, 63, 1, 0⟩
/-- STA_CQ0[n].STATE, bits [62:61], RO-V. -/
def STA_CQ0.STATE (n : Nat) : Fld := ⟨0x03200000 + 32 * n, 61, 2, 0⟩
/-- STA_CQ0[n].SIZE, bits [39:36], RW. -/
def STA_CQ0.SIZE (n : Nat) : Fld := ⟨0x03200000 + 32 * n, 36, 4, 0x0⟩
/-- STA_CQ0[n].TARGET, bits [35:24], RW. -/
def STA_CQ0.TARGET (n : Nat) : Fld := ⟨0x03200000 + 32 * n, 24, 12, 0⟩
/-- STA_CQ0[n].TENANT, bits [23:0], RW. -/
def STA_CQ0.TENANT (n : Nat) : Fld := ⟨0x03200000 + 32 * n, 0, 24, 0⟩
/-- STA_CQ1[n].BASE, bits [63:12], RW. -/
def STA_CQ1.BASE (n : Nat) : Fld := ⟨0x03200008 + 32 * n, 12, 52, 0⟩
/-- STA_CQ2[n].CI_ADDR, bits [63:3], RW. -/
def STA_CQ2.CI_ADDR (n : Nat) : Fld := ⟨0x03200010 + 32 * n, 3, 61, 0⟩
/-- STA_CQ3[n].COUNT, bits [63:32], RO-V. -/
def STA_CQ3.COUNT (n : Nat) : Fld := ⟨0x03200018 + 32 * n, 32, 32, 0⟩
/-- STA_CQ3[n].LOST, bits [31:0], RO-V. -/
def STA_CQ3.LOST (n : Nat) : Fld := ⟨0x03200018 + 32 * n, 0, 32, 0⟩
/-- STA_TPAGE0[n].VALID, bits [63:63], RW. -/
def STA_TPAGE0.VALID (n : Nat) : Fld := ⟨0x03400000 + 32 * n, 63, 1, 0⟩
/-- STA_TPAGE0[n].EQ_SIZE, bits [62:59], RW. -/
def STA_TPAGE0.EQ_SIZE (n : Nat) : Fld := ⟨0x03400000 + 32 * n, 59, 4, 0x0⟩
/-- STA_TPAGE0[n].EQ_TARGET, bits [58:47], RW. -/
def STA_TPAGE0.EQ_TARGET (n : Nat) : Fld := ⟨0x03400000 + 32 * n, 47, 12, 0⟩
/-- STA_TPAGE0[n].MIRROR_TARGET, bits [46:35], RW. -/
def STA_TPAGE0.MIRROR_TARGET (n : Nat) : Fld := ⟨0x03400000 + 32 * n, 35, 12, 0⟩
/-- STA_TPAGE0[n].MIRROR_EN, bits [34:34], RW. -/
def STA_TPAGE0.MIRROR_EN (n : Nat) : Fld := ⟨0x03400000 + 32 * n, 34, 1, 0⟩
/-- STA_TPAGE0[n].TENANT, bits [23:0], RW. -/
def STA_TPAGE0.TENANT (n : Nat) : Fld := ⟨0x03400000 + 32 * n, 0, 24, 0⟩
/-- STA_TPAGE1[n].EQ_BASE, bits [63:12], RW. -/
def STA_TPAGE1.EQ_BASE (n : Nat) : Fld := ⟨0x03400008 + 32 * n, 12, 52, 0⟩
/-- STA_TPAGE2[n].EQ_CI_ADDR, bits [63:3], RW. -/
def STA_TPAGE2.EQ_CI_ADDR (n : Nat) : Fld := ⟨0x03400010 + 32 * n, 3, 61, 0⟩
/-- STA_TPAGE3[n].MIRROR_BASE, bits [63:13], RW. -/
def STA_TPAGE3.MIRROR_BASE (n : Nat) : Fld := ⟨0x03400018 + 32 * n, 13, 51, 0⟩
/-- PWR_TEMP_STAT.HOTTEST_C, bits [63:56], RO-V. -/
def PWR_TEMP_STAT.HOTTEST_C : Fld := ⟨0x00100038, 56, 8, 0⟩
/-- PWR_TEMP_STAT.SENSOR, bits [55:50], RO-V. -/
def PWR_TEMP_STAT.SENSOR : Fld := ⟨0x00100038, 50, 6, 0⟩
/-- PWR_TEMP_STAT.PEAK_C, bits [47:40], RO-V. -/
def PWR_TEMP_STAT.PEAK_C : Fld := ⟨0x00100038, 40, 8, 0⟩
/-- PWR_TEMP_STAT.TRIPS, bits [31:16], RO-V. -/
def PWR_TEMP_STAT.TRIPS : Fld := ⟨0x00100038, 16, 16, 0⟩
/-- PWR_TEMP_CMD.CLEAR_PEAK, bits [0:0], WO. -/
def PWR_TEMP_CMD.CLEAR_PEAK : Fld := ⟨0x00100040, 0, 1, 0⟩

end R

/-- Registers, part 0. -/
def regTable0 : List RegDesc :=
  [ ⟨0x00000000, 0, 1, [(.ro, fun _ => R.SUP_IDENT.FAMILY), (.ro, fun _ => R.SUP_IDENT.PART), (.ro, fun _ => R.SUP_IDENT.STEP_MAJOR), (.ro, fun _ => R.SUP_IDENT.STEP_MINOR)]⟩,
    ⟨0x00000040, 0, 1, [(.rov, fun _ => R.SUP_DENIED_CNT.COUNT)]⟩,
    ⟨0x01030000, 0, 1, [(.rw, fun _ => R.JNL_GEN_CTL.ROOT_PERIOD_MS)]⟩,
    ⟨0x01030008, 0, 1, [(.rov, fun _ => R.JNL_GEN_STAT.ROOT_OK), (.rov, fun _ => R.JNL_GEN_STAT.LEAVES), (.rov, fun _ => R.JNL_GEN_STAT.ROOT_SEQ)]⟩,
    ⟨0x01030010, 0, 1, [(.rov, fun _ => R.JNL_GEN_CNT.RELOCATIONS), (.rov, fun _ => R.JNL_GEN_CNT.EXHAUSTED)]⟩,
    ⟨0x01430000, 0, 1, [(.rov, fun _ => R.MED_VFY_CNT0.RECON), (.rov, fun _ => R.MED_VFY_CNT0.CORRECTED)]⟩,
    ⟨0x01430008, 0, 1, [(.rov, fun _ => R.MED_VFY_CNT1.POISONED), (.rov, fun _ => R.MED_VFY_CNT1.REPAIRED)]⟩,
    ⟨0x01430010, 0, 1, [(.rov, fun _ => R.MED_VFY_CNT2.STALE), (.rov, fun _ => R.MED_VFY_CNT2.SEAL_MISMATCH)]⟩,
    ⟨0x01000000, 0, 1, [(.rov, fun _ => R.JNL_STAT.STATE), (.rov, fun _ => R.JNL_STAT.THROTTLED), (.rov, fun _ => R.JNL_STAT.FULL), (.rov, fun _ => R.JNL_STAT.INDEX_FULL), (.rov, fun _ => R.JNL_STAT.OCC_KIB)]⟩,
    ⟨0x01000008, 0, 1, [(.rov, fun _ => R.JNL_ADMIT_CNT.RECORDS)]⟩,
    ⟨0x01000010, 0, 1, [(.rov, fun _ => R.JNL_JSN.JSN)]⟩,
    ⟨0x01000018, 0, 1, [(.rov, fun _ => R.JNL_MIRROR_JSN.JSN)]⟩,
    ⟨0x01000020, 0, 1, [(.rw, fun _ => R.JNL_LIMIT_CTL.HOLD_US), (.rw, fun _ => R.JNL_LIMIT_CTL.HIGH_WATER), (.rw, fun _ => R.JNL_LIMIT_CTL.DRAIN_LIMIT)]⟩,
    ⟨0x01000028, 0, 1, [(.rov, fun _ => R.JNL_RET_CNT.TILES)]⟩,
    ⟨0x01000030, 0, 1, [(.rov, fun _ => R.JNL_RMW_CNT.TILES)]⟩,
    ⟨0x01000038, 0, 1, [(.rov, fun _ => R.JNL_STALL_CNT.INDEX), (.rov, fun _ => R.JNL_STALL_CNT.SPACE)]⟩,
    ⟨0x01000040, 0, 1, [(.rov, fun _ => R.JNL_SHUT_STAT.VALID), (.rov, fun _ => R.JNL_SHUT_STAT.COMPLETE), (.rov, fun _ => R.JNL_SHUT_STAT.JOURNAL_LOST), (.rov, fun _ => R.JNL_SHUT_STAT.SPILLED), (.rov, fun _ => R.JNL_SHUT_STAT.STREET_FAIL), (.rov, fun _ => R.JNL_SHUT_STAT.SHUT_SEQ)]⟩,
    ⟨0x01800000, 0, 1, [(.ro, fun _ => R.PRM_STAT.SENIOR), (.rov, fun _ => R.PRM_STAT.STATE), (.rov, fun _ => R.PRM_STAT.GRP_A_UP), (.rov, fun _ => R.PRM_STAT.GRP_B_UP), (.rov, fun _ => R.PRM_STAT.TWIN_ALIVE), (.rov, fun _ => R.PRM_STAT.TERM)]⟩,
    ⟨0x01800008, 0, 1, [(.rov, fun _ => R.PRM_GRP_STAT.A_WIDTH), (.rov, fun _ => R.PRM_GRP_STAT.B_WIDTH), (.rov, fun _ => R.PRM_GRP_STAT.B_FLIGHT_NS), (.rov, fun _ => R.PRM_GRP_STAT.A_FLIGHT_NS)]⟩,
    ⟨0x01800010, 0, 1, [(.rw, fun _ => R.PRM_LINK_CTL.HB_MISS), (.rw, fun _ => R.PRM_LINK_CTL.HB_US), (.rw, fun _ => R.PRM_LINK_CTL.RETRIES), (.rw, fun _ => R.PRM_LINK_CTL.RTO_NS)]⟩ ]

/-- Registers, part 1. -/
def regTable1 : List RegDesc :=
  [ ⟨0x01800018, 0, 1, [(.rw, fun _ => R.PRM_LAG_CTL.LAG_US), (.rw, fun _ => R.PRM_LAG_CTL.LAG_MIB)]⟩,
    ⟨0x01800020, 0, 1, [(.rov, fun _ => R.PRM_LAG_STAT.AGE_NS), (.rov, fun _ => R.PRM_LAG_STAT.BYTES_KIB)]⟩,
    ⟨0x01800028, 0, 1, [(.rw, fun _ => R.PRM_REPAIR_CTL.TIMEOUT_US)]⟩,
    ⟨0x01800030, 0, 1, [(.rw, fun _ => R.PRM_RESYNC_CTL.PAUSE), (.rw, fun _ => R.PRM_RESYNC_CTL.RATE_GBPS)]⟩,
    ⟨0x01800038, 0, 1, [(.rov, fun _ => R.PRM_RESYNC_STAT.EXTENTS_LEFT), (.rov, fun _ => R.PRM_RESYNC_STAT.GRANULES_LEFT)]⟩,
    ⟨0x01800040, 0, 1, [(.wo, fun _ => R.PRM_PAIR_CMD.FORCE_SOLO), (.wo, fun _ => R.PRM_PAIR_CMD.ADMIT_REPLACEMENT), (.wo, fun _ => R.PRM_PAIR_CMD.START_SOLO), (.wo, fun _ => R.PRM_PAIR_CMD.ESTABLISH)]⟩,
    ⟨0x01800048, 0, 1, [(.rov, fun _ => R.PRM_CNT0.TAG_FAIL), (.rov, fun _ => R.PRM_CNT0.RETRANSMIT)]⟩,
    ⟨0x01800050, 0, 1, [(.rov, fun _ => R.PRM_CNT1.REFUSED), (.rov, fun _ => R.PRM_CNT1.LATE), (.rov, fun _ => R.PRM_CNT1.THROTTLE), (.rov, fun _ => R.PRM_CNT1.DISCARDED)]⟩,
    ⟨0x01400000, 8, 128, [(.rov, R.MED_LANE_STAT.STATE), (.rov, R.MED_LANE_STAT.CAUSE), (.rov, R.MED_LANE_STAT.PARTIAL), (.rov, R.MED_LANE_STAT.OUTSTANDING)]⟩,
    ⟨0x01400400, 0, 1, [(.wo, fun _ => R.MED_LANE_CMD.ACTION), (.wo, fun _ => R.MED_LANE_CMD.LANE)]⟩,
    ⟨0x01400408, 0, 1, [(.w1c, fun _ => R.MED_STREET_STAT.CMD_REFUSED), (.rov, fun _ => R.MED_STREET_STAT.RAIL_FAIL), (.rov, fun _ => R.MED_STREET_STAT.FENCED)]⟩,
    ⟨0x01400410, 0, 1, [(.rw, fun _ => R.MED_LINK_CTL.REPLAYS)]⟩,
    ⟨0x01400418, 0, 1, [(.rw, fun _ => R.MED_CMD_CTL.TIMEOUT_US), (.rw, fun _ => R.MED_CMD_CTL.HEDGE_US)]⟩,
    ⟨0x01400420, 0, 1, [(.rw, fun _ => R.MED_SWEEP_CTL.ENABLE), (.rw, fun _ => R.MED_SWEEP_CTL.PASS_HOURS), (.rw, fun _ => R.MED_SWEEP_CTL.DEGRADE_PER_M)]⟩,
    ⟨0x01400428, 0, 1, [(.rov, fun _ => R.MED_SWEEP_STAT.PASSES), (.rov, fun _ => R.MED_SWEEP_STAT.PERCENT), (.rov, fun _ => R.MED_SWEEP_STAT.LAST_HOURS)]⟩,
    ⟨0x01400430, 0, 1, [(.rw, fun _ => R.MED_REBUILD_CTL.PAUSE), (.rw, fun _ => R.MED_REBUILD_CTL.RATE_MBPS)]⟩,
    ⟨0x01400438, 0, 1, [(.rov, fun _ => R.MED_REBUILD_STAT.LANES), (.rov, fun _ => R.MED_REBUILD_STAT.EXTENTS_LEFT), (.rov, fun _ => R.MED_REBUILD_STAT.CRITICAL)]⟩,
    ⟨0x01400440, 0, 1, [(.rov, fun _ => R.MED_HEDGE_CNT.LATE), (.rov, fun _ => R.MED_HEDGE_CNT.HEDGED)]⟩,
    ⟨0x01400800, 8, 128, [(.rov, R.MED_MODULE_ID.SERIAL)]⟩,
    ⟨0x01400C00, 8, 128, [(.rov, R.MED_LANE_CNT.TIMEOUTS), (.rov, R.MED_LANE_CNT.MEDIA_ERRORS), (.rov, R.MED_LANE_CNT.REPLAYS)]⟩ ]

/-- Registers, part 2. -/
def regTable2 : List RegDesc :=
  [ ⟨0x00800000, 0, 1, [(.rw, fun _ => R.ORG_WAYMODE.LOCK_WAYS), (.rw, fun _ => R.ORG_WAYMODE.SCRATCH_WAYS)]⟩,
    ⟨0x00800010, 0, 1, [(.wo, fun _ => R.ORG_LOCK_CMD.ACTION), (.wo, fun _ => R.ORG_LOCK_CMD.LINE)]⟩,
    ⟨0x00800018, 0, 1, [(.w1c, fun _ => R.ORG_LOCK_STAT.REFUSED), (.rov, fun _ => R.ORG_LOCK_STAT.LOCKED)]⟩,
    ⟨0x00800020, 0, 1, [(.wo, fun _ => R.ORG_INVAL_CMD.RELEASE_LOCKS), (.wo, fun _ => R.ORG_INVAL_CMD.COUNT), (.wo, fun _ => R.ORG_INVAL_CMD.FIRST_EXTENT)]⟩,
    ⟨0x00800028, 0, 1, [(.rov, fun _ => R.ORG_INVAL_STAT.BUSY), (.w1c, fun _ => R.ORG_INVAL_STAT.REFUSED), (.rov, fun _ => R.ORG_INVAL_STAT.DONE)]⟩,
    ⟨0x00800030, 0, 1, [(.wo, fun _ => R.ORG_SLICE_CMD.ACTION), (.wo, fun _ => R.ORG_SLICE_CMD.SLICE)]⟩,
    ⟨0x00800038, 0, 1, [(.rw, fun _ => R.ORG_PF_CTL.PLAN_IDLE_US), (.rw, fun _ => R.ORG_PF_CTL.PF_TRACKERS), (.rw, fun _ => R.ORG_PF_CTL.PF_MISS), (.rw, fun _ => R.ORG_PF_CTL.LOGGIA_TTL_US)]⟩,
    ⟨0x00800040, 0, 1, [(.rov, fun _ => R.ORG_CNT0.MISSES), (.rov, fun _ => R.ORG_CNT0.HITS)]⟩,
    ⟨0x00800048, 0, 1, [(.rov, fun _ => R.ORG_CNT1.PF_WASTED), (.rov, fun _ => R.ORG_CNT1.PF_LINES)]⟩,
    ⟨0x00800050, 0, 1, [(.rov, fun _ => R.ORG_CNT2.LOCK_LOST), (.rov, fun _ => R.ORG_CNT2.PF_SKIPPED), (.rov, fun _ => R.ORG_CNT2.MERGED)]⟩,
    ⟨0x00800100, 8, 16, [(.rov, R.ORG_SLICE_STAT.STATE), (.rov, R.ORG_SLICE_STAT.MISS_BUSY)]⟩,
    ⟨0x00801000, 8, 192, [(.rov, R.ORG_SCR_OWNER.ZEROING), (.rw, R.ORG_SCR_OWNER.TENANT)]⟩,
    ⟨0x00C00000, 0, 1, [(.rov, fun _ => R.TER_STAT.STATE), (.rov, fun _ => R.TER_STAT.STACK_UP), (.rov, fun _ => R.TER_STAT.FRAMES_USED)]⟩,
    ⟨0x00C00008, 0, 1, [(.rw, fun _ => R.TER_PIN_CTL.MAX_GIB)]⟩,
    ⟨0x00C00010, 0, 1, [(.rov, fun _ => R.TER_PIN_STAT.PINNED_GIB), (.rov, fun _ => R.TER_PIN_STAT.LOAD_LEFT)]⟩,
    ⟨0x00C00018, 0, 1, [(.rov, fun _ => R.TER_ECC_CNT.UNCORRECTABLE), (.rov, fun _ => R.TER_ECC_CNT.CORRECTED)]⟩,
    ⟨0x00C00020, 0, 1, [(.rov, fun _ => R.TER_CNT.MOVING_SKIPS), (.rov, fun _ => R.TER_CNT.NO_VICTIM)]⟩,
    ⟨0x01C00000, 32, 1024, [(.rw, R.KSK_QCFG0.ENABLE), (.rw, R.KSK_QCFG0.LS_SIZE), (.rw, R.KSK_QCFG0.SQUARE), (.rw, R.KSK_QCFG0.WEIGHT), (.rw, R.KSK_QCFG0.MAX_CTX), (.rw, R.KSK_QCFG0.CHILD_CTX), (.rw, R.KSK_QCFG0.TENANT)]⟩,
    ⟨0x01C00008, 32, 1024, [(.rw, R.KSK_QCFG1.INSN_DEF), (.rw, R.KSK_QCFG1.TIME_DEF_US), (.rw, R.KSK_QCFG1.TILES_DEF)]⟩,
    ⟨0x01C00010, 32, 1024, [(.rw, R.KSK_QCFG2.INSN_MAX), (.rw, R.KSK_QCFG2.TIME_MAX_US), (.rw, R.KSK_QCFG2.TILES_MAX)]⟩ ]

/-- Registers, part 3. -/
def regTable3 : List RegDesc :=
  [ ⟨0x01C00018, 32, 1024, [(.rw, R.KSK_QCFG3.POOL_MAX), (.rw, R.KSK_QCFG3.CQ)]⟩,
    ⟨0x01C08000, 8, 1024, [(.rov, R.KSK_QSTAT.STATE), (.rov, R.KSK_QSTAT.QUEUED), (.rov, R.KSK_QSTAT.RUNNING)]⟩,
    ⟨0x01C0A000, 0, 1, [(.wo, fun _ => R.KSK_KIOSK_CMD.ACTION), (.wo, fun _ => R.KSK_KIOSK_CMD.KIOSK)]⟩,
    ⟨0x01C0A008, 0, 1, [(.wo, fun _ => R.KSK_PROG_CMD.ACTION), (.wo, fun _ => R.KSK_PROG_CMD.PROGRAM)]⟩,
    ⟨0x01C0A010, 0, 1, [(.w1c, fun _ => R.KSK_STAT.CMD_REFUSED), (.rov, fun _ => R.KSK_STAT.POOL_USED)]⟩,
    ⟨0x01C0C000, 8, 512, [(.rov, R.KSK_KIOSK_STAT.STATE), (.rov, R.KSK_KIOSK_STAT.CTX_BUSY)]⟩,
    ⟨0x01C0D000, 8, 16, [(.rov, R.KSK_SQUARE_STAT.KIOSKS_UP), (.rov, R.KSK_SQUARE_STAT.CTX_BUSY)]⟩,
    ⟨0x01C0E000, 0, 1, [(.rov, fun _ => R.KSK_CNT0.CONFLICTS), (.rov, fun _ => R.KSK_CNT0.COMMITS)]⟩,
    ⟨0x01C0E008, 0, 1, [(.rov, fun _ => R.KSK_CNT1.ORPHANS), (.rov, fun _ => R.KSK_CNT1.DISABLED), (.rov, fun _ => R.KSK_CNT1.LIMITS), (.rov, fun _ => R.KSK_CNT1.FAULTS)]⟩,
    ⟨0x01C10000, 16, 1024, [(.rov, R.KSK_PROG0.STATE), (.rov, R.KSK_PROG0.SLOT), (.rw, R.KSK_PROG0.OWNER)]⟩,
    ⟨0x01C10008, 16, 1024, [(.rov, R.KSK_PROG1.RUN_OLD), (.rov, R.KSK_PROG1.RUN_CUR), (.rov, R.KSK_PROG1.LEN_WORDS)]⟩,
    ⟨0x00400000, 0, 1, [(.rov, fun _ => R.TST_STAT.STALLED), (.rov, fun _ => R.TST_STAT.IN_USE)]⟩,
    ⟨0x00400008, 0, 1, [(.rw, fun _ => R.TST_TMO_CTL.MAINT_MS), (.rw, fun _ => R.TST_TMO_CTL.PRM_MS), (.rw, fun _ => R.TST_TMO_CTL.TASK_MS), (.rw, fun _ => R.TST_TMO_CTL.CXL_MS), (.rw, fun _ => R.TST_TMO_CTL.NET_MS)]⟩,
    ⟨0x00400010, 0, 1, [(.rw, fun _ => R.TST_DRAIN_CTL.DRAIN_MS)]⟩,
    ⟨0x00400018, 0, 1, [(.rw, fun _ => R.TST_NET_CTL.RNR_TIMER)]⟩,
    ⟨0x00400020, 0, 1, [(.wo, fun _ => R.TST_CMD.CLEAR_HIGH)]⟩,
    ⟨0x00400100, 8, 6, [(.rov, R.TST_SRC_STAT.HIGH_WATER), (.rov, R.TST_SRC_STAT.LINGERING), (.rov, R.TST_SRC_STAT.IN_USE)]⟩,
    ⟨0x00400200, 8, 6, [(.rov, R.TST_SRC_CNT.TIMEOUTS), (.rov, R.TST_SRC_CNT.LATE), (.rov, R.TST_SRC_CNT.DISABLED), (.rov, R.TST_SRC_CNT.STALLS)]⟩,
    ⟨0x02400000, 0, 1, [(.rw, fun _ => R.NET_MODE.MODE)]⟩,
    ⟨0x02400008, 0, 1, [(.ro, fun _ => R.NET_MAC_BASE.BASE)]⟩ ]

/-- Registers, part 4. -/
def regTable4 : List RegDesc :=
  [ ⟨0x02400100, 8, 64, [(.rw, R.NET_PORT_CFG.PMD), (.rw, R.NET_PORT_CFG.AN_EN), (.rw, R.NET_PORT_CFG.UNCORR_MAX), (.rw, R.NET_PORT_CFG.FLAP_MAX)]⟩,
    ⟨0x02400010, 0, 1, [(.rw, fun _ => R.NET_PFC_CTL.PRIO_MASK), (.rw, fun _ => R.NET_PFC_CTL.UNTAGGED_PRIO), (.rw, fun _ => R.NET_PFC_CTL.CNP_PRIO), (.rw, fun _ => R.NET_PFC_CTL.XOFF_KIB), (.rw, fun _ => R.NET_PFC_CTL.XON_KIB), (.rw, fun _ => R.NET_PFC_CTL.PFC_WD_MS)]⟩,
    ⟨0x02400018, 0, 1, [(.rw, fun _ => R.NET_CC_CTL0.WIN_INIT_KIB), (.rw, fun _ => R.NET_CC_CTL0.AI_KIB), (.rw, fun _ => R.NET_CC_CTL0.MD), (.rw, fun _ => R.NET_CC_CTL0.DELAY_MD), (.rw, fun _ => R.NET_CC_CTL0.HAI_ROUNDS)]⟩,
    ⟨0x02400020, 0, 1, [(.rw, fun _ => R.NET_CC_CTL1.TARGET_RTT_US), (.rw, fun _ => R.NET_CC_CTL1.BASE_RTT_US), (.rw, fun _ => R.NET_CC_CTL1.CNP_INTERVAL_US)]⟩,
    ⟨0x02400400, 0, 1, [(.wo, fun _ => R.NET_PORT_CMD.ACTION), (.wo, fun _ => R.NET_PORT_CMD.PORT)]⟩,
    ⟨0x02400408, 0, 1, [(.w1c, fun _ => R.NET_STAT.CMD_REFUSED)]⟩,
    ⟨0x02400500, 8, 64, [(.rov, R.NET_PORT_STAT.STATE), (.rov, R.NET_PORT_STAT.CAUSE), (.rov, R.NET_PORT_STAT.PFC_STORM), (.rov, R.NET_PORT_STAT.POLARITY), (.rov, R.NET_PORT_STAT.LOCKED), (.rov, R.NET_PORT_STAT.DOWNS)]⟩,
    ⟨0x02401000, 32, 64, [(.rov, R.NET_PORT_CNT0.RX_FRAMES), (.rov, R.NET_PORT_CNT0.TX_FRAMES)]⟩,
    ⟨0x02401008, 32, 64, [(.rov, R.NET_PORT_CNT1.FEC_CORRECTED), (.rov, R.NET_PORT_CNT1.FEC_UNCORR), (.rov, R.NET_PORT_CNT1.FCS_ERR)]⟩,
    ⟨0x02401010, 32, 64, [(.rov, R.NET_PORT_CNT2.RX_DROP), (.rov, R.NET_PORT_CNT2.OTHER), (.rov, R.NET_PORT_CNT2.PFC_RX), (.rov, R.NET_PORT_CNT2.PFC_TX)]⟩,
    ⟨0x02401018, 32, 64, [(.rov, R.NET_PORT_CNT3.CE_RX), (.rov, R.NET_PORT_CNT3.CNP_TX), (.rov, R.NET_PORT_CNT3.CNP_RX), (.rov, R.NET_PORT_CNT3.PAUSE_IGNORED)]⟩,
    ⟨0x02800000, 0, 1, [(.rov, fun _ => R.XPT_STAT.CACHED), (.rov, fun _ => R.XPT_STAT.CONNECTIONS)]⟩,
    ⟨0x02800008, 0, 1, [(.rov, fun _ => R.XPT_START.COUNT)]⟩,
    ⟨0x02800010, 0, 1, [(.rw, fun _ => R.XPT_CONN_CTL.ERROR_HOLD_MS), (.rw, fun _ => R.XPT_CONN_CTL.RESP_RES), (.rw, fun _ => R.XPT_CONN_CTL.INIT_DEPTH), (.rw, fun _ => R.XPT_CONN_CTL.MAX_MGMT)]⟩,
    ⟨0x02800018, 0, 1, [(.rw, fun _ => R.XPT_REQ_CTL.RETRY_CNT), (.rw, fun _ => R.XPT_REQ_CTL.ACK_TMO_US)]⟩,
    ⟨0x02800020, 0, 1, [(.rw, fun _ => R.XPT_WR_CTL.PER_CONN)]⟩,
    ⟨0x02800028, 0, 1, [(.rov, fun _ => R.XPT_KEY_STAT.REVOKING), (.rov, fun _ => R.XPT_KEY_STAT.VALID)]⟩,
    ⟨0x02800030, 0, 1, [(.rov, fun _ => R.XPT_WR_STAT.POOL_USED)]⟩,
    ⟨0x02800038, 0, 1, [(.rov, fun _ => R.XPT_CNT0.TAG_FAIL), (.rov, fun _ => R.XPT_CNT0.REPLAY)]⟩,
    ⟨0x02800040, 0, 1, [(.rov, fun _ => R.XPT_CNT1.CTX_MISS), (.rov, fun _ => R.XPT_CNT1.NO_CONN)]⟩ ]

/-- Registers, part 5. -/
def regTable5 : List RegDesc :=
  [ ⟨0x02800048, 0, 1, [(.rov, fun _ => R.XPT_CNT2.HOLD_RNR), (.rov, fun _ => R.XPT_CNT2.RESP_DROP), (.rov, fun _ => R.XPT_CNT2.REVOKED), (.rov, fun _ => R.XPT_CNT2.GATE_MISS)]⟩,
    ⟨0x02800050, 0, 1, [(.rov, fun _ => R.XPT_CNT3.DUP), (.rov, fun _ => R.XPT_CNT3.ICRC_ERR), (.rov, fun _ => R.XPT_CNT3.SEQ_NAK), (.rov, fun _ => R.XPT_CNT3.EPOCH_MOVES)]⟩,
    ⟨0x02800100, 8, 64, [(.rov, R.XPT_HOLD_STAT.FULL), (.rov, R.XPT_HOLD_STAT.USED_KIB)]⟩,
    ⟨0x02800800, 32, 256, [(.rw, R.XPT_ADDR0.VALID), (.rw, R.XPT_ADDR0.PORT), (.rw, R.XPT_ADDR0.PCP), (.rw, R.XPT_ADDR0.DSCP), (.rw, R.XPT_ADDR0.TAGGED), (.rw, R.XPT_ADDR0.VLAN)]⟩,
    ⟨0x02800808, 32, 256, [(.rw, R.XPT_ADDR1.IP_HIGH)]⟩,
    ⟨0x02800810, 32, 256, [(.rw, R.XPT_ADDR2.IP_LOW)]⟩,
    ⟨0x02810000, 16, 4096, [(.rw, R.XPT_KRANGE0.VALID), (.rw, R.XPT_KRANGE0.TENANT)]⟩,
    ⟨0x02810008, 16, 4096, [(.rw, R.XPT_KRANGE1.COUNT), (.rw, R.XPT_KRANGE1.FIRST)]⟩,
    ⟨0x02C00000, 8, 2, [(.rw, R.CXL_PORT_CFG.MAX_WIDTH), (.rw, R.CXL_PORT_CFG.MAX_GTS), (.rw, R.CXL_PORT_CFG.SRIS), (.rw, R.CXL_PORT_CFG.IDE_REQ)]⟩,
    ⟨0x02C00010, 8, 2, [(.rov, R.CXL_PORT_STAT.STATE), (.rov, R.CXL_PORT_STAT.WIDTH), (.rov, R.CXL_PORT_STAT.GTS), (.rov, R.CXL_PORT_STAT.MLD), (.rov, R.CXL_PORT_STAT.IDE_ACTIVE), (.rov, R.CXL_PORT_STAT.CAUSE), (.rov, R.CXL_PORT_STAT.DOWNS)]⟩,
    ⟨0x02C00020, 0, 1, [(.wo, fun _ => R.CXL_PORT_CMD.ACTION), (.wo, fun _ => R.CXL_PORT_CMD.PORT)]⟩,
    ⟨0x02C00028, 0, 1, [(.w1c, fun _ => R.CXL_STAT.CMD_REFUSED), (.w1c, fun _ => R.CXL_STAT.DC_REFUSED)]⟩,
    ⟨0x02C00030, 0, 1, [(.rw, fun _ => R.CXL_DC_CTL.RESP_MS), (.rw, fun _ => R.CXL_DC_CTL.WITHDRAW_MS)]⟩,
    ⟨0x02C00038, 0, 1, [(.wo, fun _ => R.CXL_DC_CMD.ACTION), (.wo, fun _ => R.CXL_DC_CMD.PORT), (.wo, fun _ => R.CXL_DC_CMD.LD), (.wo, fun _ => R.CXL_DC_CMD.EXTENT)]⟩,
    ⟨0x02C00100, 8, 32, [(.rw, R.CXL_LD_CFG.VALID), (.rw, R.CXL_LD_CFG.TENANT)]⟩,
    ⟨0x02C00200, 8, 32, [(.rov, R.CXL_LD_STAT.BOUND), (.rov, R.CXL_LD_STAT.PLAN), (.rov, R.CXL_LD_STAT.PENDING), (.rov, R.CXL_LD_STAT.ACCEPTED)]⟩,
    ⟨0x02C00400, 8, 256, [(.rw, R.CXL_RING_CFG.VALID), (.rov, R.CXL_RING_CFG.STATE), (.rw, R.CXL_RING_CFG.QUEUE)]⟩,
    ⟨0x02C00C00, 8, 32, [(.rov, R.CXL_LD_CNT.WR_REFUSED), (.rov, R.CXL_LD_CNT.RD_POISON)]⟩,
    ⟨0x02C00D00, 8, 2, [(.rov, R.CXL_PORT_CNT.BAD_REQ), (.rov, R.CXL_PORT_CNT.REPLAYS), (.rov, R.CXL_PORT_CNT.COMBINED)]⟩,
    ⟨0x02000000, 0, 1, [(.rov, fun _ => R.GTH_STAT.UDS_LOCKED), (.rov, fun _ => R.GTH_STAT.DEBUG), (.rov, fun _ => R.GTH_STAT.PAIR_KEY), (.w1c, fun _ => R.GTH_STAT.CMD_REFUSED), (.rov, fun _ => R.GTH_STAT.AES_UP), (.rov, fun _ => R.GTH_STAT.GHASH_UP), (.rov, fun _ => R.GTH_STAT.SLOTS_USED)]⟩ ]

/-- Registers, part 6. -/
def regTable6 : List RegDesc :=
  [ ⟨0x02000008, 0, 1, [(.wo, fun _ => R.GTH_CORE_CMD.ACTION), (.wo, fun _ => R.GTH_CORE_CMD.CORE)]⟩,
    ⟨0x02000010, 0, 1, [(.rw, fun _ => R.GTH_SHARE.MEDIA), (.rw, fun _ => R.GTH_SHARE.NET), (.rw, fun _ => R.GTH_SHARE.PROM), (.rw, fun _ => R.GTH_SHARE.CXL), (.rw, fun _ => R.GTH_SHARE.TASK), (.rw, fun _ => R.GTH_SHARE.KDF)]⟩,
    ⟨0x02000018, 0, 1, [(.rw, fun _ => R.GTH_KAT_CTL.PERIOD_US)]⟩,
    ⟨0x02000020, 0, 1, [(.rov, fun _ => R.GTH_CNT0.DERIVATIONS), (.rov, fun _ => R.GTH_CNT0.EVICTIONS)]⟩,
    ⟨0x02000028, 0, 1, [(.rov, fun _ => R.GTH_CNT1.KAT_FAIL), (.rov, fun _ => R.GTH_CNT1.KDF_DISAGREE), (.rov, fun _ => R.GTH_CNT1.PURPOSE_REFUSED), (.rov, fun _ => R.GTH_CNT1.ENROL_REFUSED)]⟩,
    ⟨0x02000400, 8, 96, [(.rov, R.GTH_CORE_STAT.STATE), (.rov, R.GTH_CORE_STAT.CAUSE), (.rov, R.GTH_CORE_STAT.DISAGREE)]⟩,
    ⟨0x02000200, 8, 6, [(.rw, R.GTH_TEN_HASH.HASH)]⟩,
    ⟨0x02000230, 0, 1, [(.wo, fun _ => R.GTH_TEN_CMD.ACTION), (.wo, fun _ => R.GTH_TEN_CMD.TENANT)]⟩,
    ⟨0x02000238, 0, 1, [(.w1c, fun _ => R.GTH_TEN_STAT.REFUSED), (.rov, fun _ => R.GTH_TEN_STAT.TENANTS), (.rov, fun _ => R.GTH_TEN_STAT.NEXT_EPOCH)]⟩,
    ⟨0x02000240, 0, 1, [(.wo, fun _ => R.GTH_ENROL_CMD.ACTION), (.wo, fun _ => R.GTH_ENROL_CMD.REQ_BYTES)]⟩,
    ⟨0x02000248, 0, 1, [(.rov, fun _ => R.GTH_ENROL_STAT.BUSY), (.rov, fun _ => R.GTH_ENROL_STAT.STATUS), (.rov, fun _ => R.GTH_ENROL_STAT.RESP_BYTES)]⟩,
    ⟨0x00002000, 8, 51, [(.rov, R.SUP_ISL_STAT.STATE), (.w1c, R.SUP_ISL_STAT.CROSS_FAULT), (.rov, R.SUP_ISL_STAT.RESETS), (.rov, R.SUP_ISL_STAT.STOPS), (.rov, R.SUP_ISL_STAT.DISAGREE)]⟩,
    ⟨0x00002200, 0, 1, [(.rov, fun _ => R.SUP_TIME_STAT.TIMEBASE_LOST), (.rov, fun _ => R.SUP_TIME_STAT.LOSSES)]⟩,
    ⟨0x01C20000, 8, 16, [(.rov, R.KSK_PACE.MAX), (.rov, R.KSK_PACE.MIN), (.rov, R.KSK_PACE.PACE)]⟩,
    ⟨0x01C20080, 0, 1, [(.wo, fun _ => R.KSK_PACE_CMD.CLEAR_MINMAX)]⟩,
    ⟨0x00180000, 0, 1, [(.rw, fun _ => R.PWR_VCORE_CTL.MODE), (.rw, fun _ => R.PWR_VCORE_CTL.FIXED_MV), (.rw, fun _ => R.PWR_VCORE_CTL.VMAX_MV), (.rw, fun _ => R.PWR_VCORE_CTL.VMIN_MV), (.rw, fun _ => R.PWR_VCORE_CTL.PACE_TARGET), (.rw, fun _ => R.PWR_VCORE_CTL.PACE_HYST), (.rw, fun _ => R.PWR_VCORE_CTL.STEP_US)]⟩,
    ⟨0x00180008, 0, 1, [(.rw, fun _ => R.PWR_VCORE_CAP.POWER_CAP_W)]⟩,
    ⟨0x00180010, 0, 1, [(.rov, fun _ => R.PWR_VCORE_STAT.MODE), (.rov, fun _ => R.PWR_VCORE_STAT.CAPPED), (.rov, fun _ => R.PWR_VCORE_STAT.THROTTLED), (.rov, fun _ => R.PWR_VCORE_STAT.SET_MV), (.rov, fun _ => R.PWR_VCORE_STAT.POWER_W), (.rov, fun _ => R.PWR_VCORE_STAT.LOW_PACE)]⟩,
    ⟨0x00100000, 0, 1, [(.rov, fun _ => R.PWR_STAT.STATE), (.ro, fun _ => R.PWR_STAT.SEQ_MODE), (.rov, fun _ => R.PWR_STAT.WARN), (.rov, fun _ => R.PWR_STAT.COMMITTED), (.w1c, fun _ => R.PWR_STAT.CMD_REFUSED), (.rov, fun _ => R.PWR_STAT.SEQ_STATE), (.rov, fun _ => R.PWR_STAT.WAVE), (.rov, fun _ => R.PWR_STAT.GROUPS_FENCED)]⟩,
    ⟨0x00100008, 0, 1, [(.rov, fun _ => R.PWR_LATCH.LATCHED), (.rov, fun _ => R.PWR_LATCH.CAUSE), (.rov, fun _ => R.PWR_LATCH.RAIL), (.rov, fun _ => R.PWR_LATCH.TIME_US)]⟩ ]

/-- Registers, part 7. -/
def regTable7 : List RegDesc :=
  [ ⟨0x00100010, 0, 1, [(.wo, fun _ => R.PWR_LATCH_CMD.CLEAR_LATCH)]⟩,
    ⟨0x00100018, 0, 1, [(.rov, fun _ => R.PWR_WARN_STAT.GLITCHES), (.rov, fun _ => R.PWR_WARN_STAT.COMMITS)]⟩,
    ⟨0x00100020, 0, 1, [(.rw, fun _ => R.PWR_WAVE_CTL.GAP_US)]⟩,
    ⟨0x00100028, 0, 1, [(.wo, fun _ => R.PWR_WAVE_CMD.ACTION), (.wo, fun _ => R.PWR_WAVE_CMD.GROUP)]⟩,
    ⟨0x00100030, 0, 1, [(.rw, fun _ => R.PWR_MON_CTL.TELEM_MS)]⟩,
    ⟨0x00100100, 8, 56, [(.rw, R.PWR_RAIL_CFG.VALID), (.rw, R.PWR_RAIL_CFG.ADDR), (.rw, R.PWR_RAIL_CFG.PAGE)]⟩,
    ⟨0x00100400, 8, 56, [(.rov, R.PWR_RAIL_STAT.STATE), (.rov, R.PWR_RAIL_STAT.CAUSE), (.rov, R.PWR_RAIL_STAT.IOUT_DA), (.rov, R.PWR_RAIL_STAT.MON_MV)]⟩,
    ⟨0x00100800, 0, 1, [(.rov, fun _ => R.PWR_LOG_STAT.OVERWRITTEN), (.rov, fun _ => R.PWR_LOG_STAT.COUNT), (.rov, fun _ => R.PWR_LOG_STAT.NEXT)]⟩,
    ⟨0x00101000, 16, 256, [(.rov, R.PWR_LOG_LO.VALUE), (.rov, R.PWR_LOG_LO.TIME_US)]⟩,
    ⟨0x00101008, 16, 256, [(.rov, R.PWR_LOG_HI.RAIL), (.rov, R.PWR_LOG_HI.CODE)]⟩,
    ⟨0x00000100, 0, 1, [(.wo, fun _ => R.SUP_RESET_CMD.ACTION)]⟩,
    ⟨0x00000108, 0, 1, [(.rov, fun _ => R.SUP_BOOT_STAT.STATE), (.rov, fun _ => R.SUP_BOOT_STAT.WARM), (.rov, fun _ => R.SUP_BOOT_STAT.IMAGE), (.rov, fun _ => R.SUP_BOOT_STAT.CAUSE), (.w1c, fun _ => R.SUP_BOOT_STAT.CMD_REFUSED), (.rov, fun _ => R.SUP_BOOT_STAT.SEC_VERSION)]⟩,
    ⟨0x00000110, 0, 1, [(.rw, fun _ => R.SUP_WDOG_CTL.ENABLE), (.rw, fun _ => R.SUP_WDOG_CTL.TIMEOUT_MS)]⟩,
    ⟨0x00000118, 0, 1, [(.wo, fun _ => R.SUP_WDOG_KICK.KICK)]⟩,
    ⟨0x00000120, 0, 1, [(.rov, fun _ => R.SUP_START_STAT.PHASE), (.rov, fun _ => R.SUP_START_STAT.SERVING), (.rov, fun _ => R.SUP_START_STAT.WARM_RESTARTS), (.rov, fun _ => R.SUP_START_STAT.START_MS)]⟩,
    ⟨0x00300000, 0, 1, [(.wo, fun _ => R.FLS_KEY.KEY)]⟩,
    ⟨0x00300008, 0, 1, [(.wo, fun _ => R.FLS_CMD.OP), (.wo, fun _ => R.FLS_CMD.COUNT)]⟩,
    ⟨0x00300010, 0, 1, [(.wo, fun _ => R.FLS_ADDR.ADDR)]⟩,
    ⟨0x00300018, 0, 1, [(.wo, fun _ => R.FLS_ARG.ARG)]⟩,
    ⟨0x00300020, 0, 1, [(.rov, fun _ => R.FLS_STAT.BUSY0), (.rov, fun _ => R.FLS_STAT.BUSY1), (.rov, fun _ => R.FLS_STAT.RUN_BANK), (.w1c, fun _ => R.FLS_STAT.SEQ_ERR), (.w1c, fun _ => R.FLS_STAT.BUS_FAULT), (.rov, fun _ => R.FLS_STAT.RESULT), (.rov, fun _ => R.FLS_STAT.DONE)]⟩ ]

/-- Registers, part 8. -/
def regTable8 : List RegDesc :=
  [ ⟨0x00300028, 0, 1, [(.rov, fun _ => R.FLS_PROT_STAT.LOCKED_OUT), (.rov, fun _ => R.FLS_PROT_STAT.UNLOCKED)]⟩,
    ⟨0x00300030, 0, 1, [(.rov, fun _ => R.FLS_CNT.ERASES), (.rov, fun _ => R.FLS_CNT.REPROG), (.rov, fun _ => R.FLS_CNT.ECC_CORRECTED)]⟩,
    ⟨0x00300038, 0, 1, [(.rov, fun _ => R.FLS_HALF.FOUND), (.rov, fun _ => R.FLS_HALF.LEFT)]⟩,
    ⟨0x00310000, 8, 8192, [(.rw, R.FLS_BUF.DATA)]⟩,
    ⟨0x00200000, 8, 2, [(.rw, R.TWB_CFG.SPEED), (.rw, R.TWB_CFG.RECOVER_EN), (.rw, R.TWB_CFG.ATTN_EN), (.rw, R.TWB_CFG.TARGET_ADDR)]⟩,
    ⟨0x00200010, 8, 2, [(.rov, R.TWB_STAT.ROLE), (.rov, R.TWB_STAT.BUS_STUCK), (.w1c, R.TWB_STAT.STRETCH_TMO)]⟩,
    ⟨0x00200020, 8, 2, [(.rov, R.TWB_CNT0.ARB_LOST), (.rov, R.TWB_CNT0.NACKS), (.rov, R.TWB_CNT0.PEC_ERR), (.rov, R.TWB_CNT0.TIMEOUTS)]⟩,
    ⟨0x00200030, 8, 2, [(.rov, R.TWB_CNT1.ATTENTIONS), (.rov, R.TWB_CNT1.RECOVERIES), (.rov, R.TWB_CNT1.ROLE_SWITCHES), (.rov, R.TWB_CNT1.MCTP_DROP)]⟩,
    ⟨0x00200040, 0, 1, [(.rov, fun _ => R.TWB_MCTP_STAT.EID), (.rov, fun _ => R.TWB_MCTP_STAT.SESSIONS), (.rov, fun _ => R.TWB_MCTP_STAT.MGMT_SESSION)]⟩,
    ⟨0x03080000, 0, 1, [(.rw, fun _ => R.STA_CTL.FULL_MS), (.rw, fun _ => R.STA_CTL.MIRROR_US), (.rw, fun _ => R.STA_CTL.REFRESH_US), (.rw, fun _ => R.STA_CTL.MGMT_CQ)]⟩,
    ⟨0x03080008, 0, 1, [(.rov, fun _ => R.STA_STAT.PENDING), (.rov, fun _ => R.STA_STAT.EVLOG_SEQ)]⟩,
    ⟨0x03080010, 0, 1, [(.rov, fun _ => R.STA_CNT.WRITTEN), (.rov, fun _ => R.STA_CNT.MISROUTED), (.rov, fun _ => R.STA_CNT.OVERRUNS)]⟩,
    ⟨0x03090000, 8, 16384, [(.rov, R.STA_EVLOG.WORD)]⟩,
    ⟨0x03100000, 32, 4096, [(.rw, R.STA_TGT0.VALID), (.rov, R.STA_TGT0.STATE), (.rw, R.STA_TGT0.PATH), (.rw, R.STA_TGT0.TENANT), (.rw, R.STA_TGT0.ENDPOINT)]⟩,
    ⟨0x03100008, 32, 4096, [(.rw, R.STA_TGT1.RKEY)]⟩,
    ⟨0x03200000, 32, 65536, [(.rw, R.STA_CQ0.VALID), (.rov, R.STA_CQ0.STATE), (.rw, R.STA_CQ0.SIZE), (.rw, R.STA_CQ0.TARGET), (.rw, R.STA_CQ0.TENANT)]⟩,
    ⟨0x03200008, 32, 65536, [(.rw, R.STA_CQ1.BASE)]⟩,
    ⟨0x03200010, 32, 65536, [(.rw, R.STA_CQ2.CI_ADDR)]⟩,
    ⟨0x03200018, 32, 65536, [(.rov, R.STA_CQ3.COUNT), (.rov, R.STA_CQ3.LOST)]⟩,
    ⟨0x03400000, 32, 2048, [(.rw, R.STA_TPAGE0.VALID), (.rw, R.STA_TPAGE0.EQ_SIZE), (.rw, R.STA_TPAGE0.EQ_TARGET), (.rw, R.STA_TPAGE0.MIRROR_TARGET), (.rw, R.STA_TPAGE0.MIRROR_EN), (.rw, R.STA_TPAGE0.TENANT)]⟩ ]

/-- Registers, part 9. -/
def regTable9 : List RegDesc :=
  [ ⟨0x03400008, 32, 2048, [(.rw, R.STA_TPAGE1.EQ_BASE)]⟩,
    ⟨0x03400010, 32, 2048, [(.rw, R.STA_TPAGE2.EQ_CI_ADDR)]⟩,
    ⟨0x03400018, 32, 2048, [(.rw, R.STA_TPAGE3.MIRROR_BASE)]⟩,
    ⟨0x00100038, 0, 1, [(.rov, fun _ => R.PWR_TEMP_STAT.HOTTEST_C), (.rov, fun _ => R.PWR_TEMP_STAT.SENSOR), (.rov, fun _ => R.PWR_TEMP_STAT.PEAK_C), (.rov, fun _ => R.PWR_TEMP_STAT.TRIPS)]⟩,
    ⟨0x00100040, 0, 1, [(.wo, fun _ => R.PWR_TEMP_CMD.CLEAR_PEAK)]⟩ ]

/-- MED_MAP words (R203): `n` numbers the words of all maps; byte `b` of a word is bits [8b+6:8b]. -/
def R.MED_MAP.LANE (m r w b : Nat) : Fld := ⟨0x01440000 + 0x600 * m + 0x18 * r + 8 * w, 8 * b, 7, 0⟩

/-- One of the three arrays of MED_MAP words: word `w` of every row, with its lane fields. -/
def mapWords (w lanes : Nat) : RegDesc :=
  ⟨0x01440000 + 8 * w, 24, 16384, (List.range lanes).map fun b => (.rw, fun n => R.MED_MAP.LANE (n / 64) (n % 64) w b)⟩

/-- The MED_MAP area: words 0 and 1 of a row hold eight lanes, word 2 holds two and its upper bytes are reserved. -/
def regTableMap : List RegDesc := [mapWords 0 8, mapWords 1 8, mapWords 2 2]

/-- The two enrolment buffers (R473) as arrays of 64-bit words. -/
def R.GTH_REQ_BUF.DATA (n : Nat) : Fld := ⟨0x02010000 + 8 * n, 0, 64, 0⟩
/-- Response buffer word. -/
def R.GTH_RESP_BUF.DATA (n : Nat) : Fld := ⟨0x02018000 + 8 * n, 0, 64, 0⟩

/-- The enrolment buffers. -/
def regTableEnrol : List RegDesc :=
  [⟨0x02010000, 8, 4096, [(.rw, R.GTH_REQ_BUF.DATA)]⟩, ⟨0x02018000, 8, 4096, [(.rov, R.GTH_RESP_BUF.DATA)]⟩]

/-- Every register of the spec but the write-only doorbell pages (R439), whose words are commands of their own. -/
def regTable : List RegDesc :=
  regTable0 ++ regTable1 ++ regTable2 ++ regTable3 ++ regTable4 ++ regTable5 ++ regTable6 ++ regTable7 ++ regTable8 ++ regTable9 ++ regTableMap ++ regTableEnrol

/-- Whether offset `off` is a register of `d` (R36: naturally aligned 64-bit registers). -/
def RegDesc.has (d : RegDesc) (off : Nat) : Bool :=
  if d.stride = 0 then off == d.base
  else d.base ≤ off && (off - d.base) % d.stride == 0 && (off - d.base) / d.stride < d.count

/-- The number of the register at `off` within the array `d`. -/
def RegDesc.idx (d : RegDesc) (off : Nat) : Nat := if d.stride = 0 then 0 else (off - d.base) / d.stride

/-- The access of a field, with the two tables whose access depends on the array index: PWR_RAIL_CFG is RO for rails 0
to 7 (R536) and TWB_CFG[0].TARGET_ADDR is RO (R605). -/
def accFor (off : Nat) (a : Acc) (f : Fld) : Acc :=
  if 0x00100100 ≤ off ∧ off < 0x00100140 then .ro
  else if off = 0x00200000 ∧ f.lo = 0 then .ro else a

/-- The fields of the register at `off`, empty where the region defines none (R32). -/
def fieldsAt (off : Nat) : List (Acc × Fld) :=
  match regTable.find? (·.has off) with
  | none => []
  | some d => d.fields.map fun p => (accFor off p.1 (p.2 (d.idx off)), p.2 (d.idx off))

end Sys2Proof.Machine
end

