-- ==== Sys2Proof/Machine/State.lean ====
section
/-! DEFINITION. The state of the FJH-9640: everything INVENTORY.md lists under State, as plain data, and the state at reset.
Control-register fields live in `ctl` alone (one entry for each field that is not at its reset value); the sub-records hold
what the manual gives a unit beside its registers. -/

namespace Sys2Proof.Machine

/-- Completion status codes (R609). -/
inductive Status where
  | ok | okSolo | conflict | poisoned | access | revoked | limit | disabled
  | timeout | exhausted | nospace | fault | readonly | aborted | malformed | internal
  deriving DecidableEq, Repr, Inhabited

/-- The code of a status (R609). -/
def Status.code : Status → Nat
  | .ok => 0 | .okSolo => 1 | .conflict => 2 | .poisoned => 3 | .access => 4 | .revoked => 5 | .limit => 6
  | .disabled => 7 | .timeout => 8 | .exhausted => 9 | .nospace => 10 | .fault => 11 | .readonly => 12
  | .aborted => 13 | .malformed => 14 | .internal => 15

/-! ## Extents, tiles, versions -/

/-- State of an extent (R27). -/
inductive ExtState where
  | free | assigned | reclaiming
  deriving DecidableEq, Repr, Inhabited

/-- Placement class (R27, R234). -/
inductive Place where
  | pinned | normal | stream | cold
  deriving DecidableEq, Repr, Inhabited

/-- Extent descriptor (R27), with the marks R146 and R432 put into it. -/
structure Ext where
  state : ExtState := .free
  owner : BitVec 24 := 0
  /-- Mirror mode: true for FENCED, false for SYNC. -/
  fenced : Bool := false
  cls : Place := .normal
  /-- Lane map number (R176). -/
  map : Nat := 0
  epoch : BitVec 32 := 0
  /-- The diverged mark of R146. -/
  diverged : Bool := false
  /-- The acceptance mask of R432, bit 16p + l. -/
  accepted : BitVec 32 := 0
  deriving DecidableEq, Repr, Inhabited

/-- Generation-table entry (R70); a tile never written has ZERO (R67). -/
structure Gen where
  quar : Bool := false
  zero : Bool := true
  reloc : Nat := 0
  gen : Nat := 0
  deriving DecidableEq, Repr, Inhabited

/-- A version: RELOC and live GEN (R62). -/
structure Ver where
  reloc : Nat
  gen : Nat
  deriving DecidableEq, Repr, Inhabited

/-! ## Journal -/

/-- A segment of a record (R97): bytes written at an offset of a tile. -/
structure Seg where
  tile : Nat
  off : Nat
  bytes : Bytes
  deriving DecidableEq, Repr, Inhabited

/-- What an ATTR record changes (R27, R31, R236, R451). -/
inductive Attr where
  | assign (e : Nat) (owner : BitVec 24) (fenced : Bool) (cls : Place) (map : Nat)
  | mode (e : Nat) (fenced : Bool)
  | cls (e : Nat) (c : Place)
  /-- A management task's release: the extent moves to RECLAIMING (R31). -/
  | release (e : Nat)
  /-- The journal engine's second record: epoch + 1, FREE, generations of R63 (R31). -/
  | freed (e : Nat)
  | tenantCreate (t : BitVec 24) (hash : BitVec 384) (epoch : BitVec 32)
  | tenantDestroy (t : BitVec 24)
  | tenantEnrol (t : BitVec 24) (rotate : Option (BitVec 32)) (cxlAuth : Bool) (ecdsaHash : BitVec 384)
  | maxGib (n : Nat)
  deriving DecidableEq, Repr

/-- The operation an atomic performs inside its sequencer step (R270, R398). -/
inductive Rmw where
  | cas (expect new : Nat)
  | add (n : Nat)
  | write (n : Nat)
  deriving DecidableEq, Repr

/-- What a record carries (R97). -/
inductive Body where
  | data (segs : List Seg)
  /-- An atomic on `w` bytes at `off` of a tile, resolved to data at the sequencer step (R398). -/
  | rmw (tile off w : Nat) (op : Rmw)
  | attr (a : Attr)
  | reloc (tile : Nat)
  /-- A generation-table entry's change, for the tile key `t` (R74). -/
  | table (t : Nat) (g : Gen)
  /-- A root record: SEQ, GEN_TOP0, GEN_TOP1 (R75). -/
  | root (seq top0 top1 : Nat)
  deriving DecidableEq, Repr

/-- Who hears of a record's outcome. -/
inductive Owner where
  /-- Turnstile operations (one, or the combined MemWr of R103). -/
  | ops (tags : List Nat)
  /-- An Aelo atomic of a context, its old value due in `a[d]` (R270). -/
  | atomic (c : Nat) (d : Nat)
  /-- A record received from the twin, with its Turnstile entry (R105, R323). -/
  | twin (tag : Nat)
  /-- A forwarded write of the twin, with its forward reference and its Turnstile entry (R147, R323). -/
  | forward (ref tag : Nat)
  /-- A management program, by its Belvedere task number (R649). -/
  | mgmt (num : Nat)
  /-- An enrolment (R454). -/
  | enrol
  /-- A response packet of a READ work request: its Turnstile entry and the work request (R413). -/
  | read (tag wr : Nat)
  /-- The device itself. -/
  | engine
  deriving DecidableEq, Repr

/-- A journal record (R97) on its way through R100. -/
structure Rec where
  /-- The model's name of the record, unique since reset. -/
  id : Nat
  body : Body
  mirror : Bool
  /-- SYNC of FLAGS: an extent it touches was SYNC at admission. -/
  sync : Bool := false
  twin : Bool := false
  jsn : Nat := 0
  pairSeq : Nat := 0
  tenant : BitVec 24
  origin : Nat
  owner : Owner
  /-- The read set a task commit validates (R47). -/
  readSet : List (Nat × Ver) := []
  /-- Forward reference under which the twin sent it, 0 for none (R147). -/
  ref : Nat := 0
  /-- OP_TAG as received, for a record whose operation is the twin's (R97). -/
  opTag : Nat := 0
  /-- A record of the twin's that returns a write this device forwarded: its image names the twin as ORIGIN (R97, R106). -/
  returns : Bool := false
  /-- Mirror-durable (R107). -/
  acked : Bool := false
  /-- Device time of its admission (R117, R148). -/
  admitNs : Nat := 0
  /-- First granule of its place in the ring (R93). -/
  pos : Nat := 0
  /-- Segments retired past or dropped (R119, R165), by tile. -/
  doneTiles : List Nat := []
  /-- Tiles for which its bytes cannot be read back (R99). -/
  bad : List Nat := []
  deriving DecidableEq, Repr

/-- Who waits for the mirror watermark (R114). -/
inductive FenceOwner where
  | flush (tag : Nat) | gpf (port : Nat) | task (c : Nat) (d : Nat) | wr (id : Nat)
  deriving DecidableEq, Repr

/-- A fence with the JSN it captured (R114). -/
structure Fence where
  id : Nat
  jsn : Nat
  owner : FenceOwner
  deriving DecidableEq, Repr

/-- A tile in retirement (R118): the JSN it retires past, its form, the lanes whose acknowledgement is due. -/
structure Retire where
  tile : Nat
  /-- Turnstile tag (R323). -/
  tag : Nat
  jsn : Nat
  /-- The version it stores: the live version when the retirement began. -/
  ver : Ver
  /-- Waiting for a retirement read (read-modify-write of R81). -/
  reading : Bool
  /-- It took that form. -/
  rmw : Bool := false
  /-- The new plaintext, once built. -/
  bytes : Bytes := []
  seal64 : Word := 0
  lanes : List Nat := []
  /-- The records are discarded at retirement (R89). -/
  discard : Bool := false
  deriving DecidableEq, Repr

/-- A shutdown record (R126). -/
structure Shut where
  flags : Nat := 0
  jsnLow : Nat := 0
  jsnHigh : Nat := 0
  mirrorJsn : Nat := 0
  stripes : Nat := 0
  streetFail : Nat := 0
  seq : Nat := 0
  drainSeal : Word := 0
  deriving DecidableEq, Repr, Inhabited

/-- A local-origin MIRROR record that the twin has not acknowledged (R107, R148). -/
structure Unacked where
  jsn : Nat
  pairSeq : Nat
  bytes : Nat
  admitNs : Nat
  owner : Owner
  /-- Its operation answers at mirror-durable (R110). -/
  wait : Bool
  /-- Its operation has answered, and its Turnstile entry is held until the record is mirror-durable (R111). -/
  hold : Bool := false
  /-- Extents it touches. -/
  exts : List Nat := []
  deriving DecidableEq, Repr

structure Jnl where
  /-- Formed records that have not been submitted. -/
  formed : List Rec := []
  /-- Records waiting for space, index entries or mirror lag (R94, R96, R109). -/
  waiting : List Rec := []
  /-- Records with their space reserved (R100 step 2). -/
  reserved : List Rec := []
  /-- Admitted, unretired records in JSN order (R101). -/
  recs : List Rec := []
  unacked : List Unacked := []
  nextId : Nat := 0
  /-- Granule after the newest record placed (R93). -/
  head : Nat := 0
  /-- Granules of the PAD record at the end of the region, of the last pass (R93). -/
  pad : Nat := 0
  /-- The watermark stops here: a later local-origin MIRROR record was never sent, or its acknowledgement can no longer come (R107). -/
  durTo : Option Nat := none
  /-- JNL_MIRROR_JSN at commitment (R126). -/
  commitMirror : Nat := 0
  /-- Verified stored copies that atomics wait with: record, tile, stored version, bytes (R398). -/
  bases : List (Nat × Nat × Ver × Bytes) := []
  fences : List Fence := []
  retiring : List Retire := []
  /-- Cached generation-table leaves, most recent first (R72). -/
  leaves : List Nat := []
  /-- Newest root record: SEQ, GEN_TOP0, GEN_TOP1 (R75, R76). -/
  root : Option (Nat × Nat × Nat) := none
  /-- Device time of the last root-log program (R76). -/
  rootNs : Nat := 0
  rootDue : Bool := false
  /-- Admission closed at commitment (R120). -/
  closed : Bool := false
  /-- The drain in progress, with what has gone into its shutdown record (R121). -/
  drain : Option Shut := none
  /-- Spill: lane, slots used, entries (R201). -/
  spill : List (Nat × List (Nat × Nat)) := []
  /-- Streets that failed during the drain (R122). -/
  streetFail : Nat := 0
  /-- SHUT_SEQ of the newest shutdown record (R126). -/
  shutSeq : Nat := 0
  /-- The new shutdown record of R129 has been written. -/
  recovered : Bool := false
  /-- Tiles whose event of R65 has been posted, with the RELOC then. -/
  near : AMap Nat := []
  /-- Lag pause in force (R109, R148). -/
  lagPaused : Bool := false
  /-- The last start was a first start (R130). -/
  firstStart : Bool := false
  deriving DecidableEq, Repr, Inhabited

/-! ## Promenade -/

/-- A frame in a retransmit buffer (R141). -/
structure TxFrame where
  typ : Nat
  fsn : Nat
  last : Bool
  payload : Bytes
  sends : Nat
  deriving DecidableEq, Repr, Inhabited

/-- One Promenade group (R137 to R143). -/
structure Grp where
  /-- Next FSN to give. -/
  fsn : Nat := 0
  /-- Highest FSN received in order, plus one. -/
  rxNext : Nat := 0
  nctr : Nat := 0
  keySel : Bool := false
  epoch : Nat := 0
  /-- The peer's key epoch and KEY_SEL in force. -/
  peerEpoch : Nat := 0
  peerSel : Bool := false
  /-- The peer's announced next epoch (R139). -/
  peerNext : Option Nat := none
  /-- Numbered frames not yet acknowledged (R141). -/
  rtx : List TxFrame := []
  /-- Frames waiting for credit (R143). -/
  txq : List TxFrame := []
  creditUsed : Nat := 0
  /-- What the peer has granted; the whole receive buffer before its first frame, and so what this side grants (R143; log entry 132). -/
  creditLimit : Nat := 16384
  creditGiven : Nat := 16384
  /-- Credit whose return is held back at the Turnstile's bound (R144). -/
  owed : Nat := 0
  deriving DecidableEq, Repr, Inhabited

/-- Where a repair fetch stands (R85, R169). -/
inductive RepairStep where
  | queued | asked | again (jsn : Nat) | askedAgain
  /-- A copy above the local live version waits for the records between (R85). -/
  | deferred (bytes : Bytes) (v : Ver)
  deriving DecidableEq, Repr

/-- A repair fetch outstanding toward the twin (R85, R168). -/
structure Repair where
  tile : Nat
  step : RepairStep
  /-- Taken without the version window and not installed (R146, R166). -/
  onDemand : Bool := false
  deriving DecidableEq, Repr

/-- A resync tile received and waiting for its records (R165 step 4). -/
structure ResyncTile where
  tile : Nat
  /-- Its Turnstile tag (R144). -/
  tag : Nat
  ver : Ver
  readSeq : Nat
  /-- OK with contents, ZERO, or POISONED. -/
  status : Status
  zero : Bool
  bytes : Bytes
  seal64 : Word
  deriving DecidableEq, Repr

/-- A resync under way (R165, R166). -/
structure Resync where
  /-- This device is the source. -/
  source : Bool
  /-- Every granule of every ASSIGNED extent is in scope (R162). -/
  all : Bool
  /-- Granules (tile / 16) not yet accepted, or not yet sent by the source, rising. -/
  granules : List Nat := []
  /-- Extents named by the extent map whose sub-map is still due (target). -/
  mapDue : List Nat := []
  /-- The extent map and every sub-map have arrived (R166). -/
  mapsIn : Bool := false
  /-- Next tile of the current granule to send or accept. -/
  next : Nat := 0
  /-- Received tiles waiting (R165). -/
  got : List ResyncTile := []
  /-- Own granules the target adds (R163). -/
  own : List Nat := []
  /-- Parts of the extent map that have arrived. -/
  parts : List Nat := []
  /-- Tiles installed of granules not yet accepted. -/
  inst : List Nat := []
  /-- The source's TERM (R165). -/
  term : Nat := 0
  /-- It covers extents alone that the target marked as diverged (R146). -/
  only : Bool := false
  deriving DecidableEq, Repr, Inhabited

/-- A fragment of an image: FRAG_OFF, the group and FSN it came with, its bytes (R137). -/
structure Frag where
  off : Nat
  grp : Nat
  fsn : Nat
  bytes : Bytes
  deriving DecidableEq, Repr

structure Prm where
  a : Grp := {}
  b : Grp := {}
  /-- Highest PAIR_SEQ given, acknowledged by the twin, received from the twin (R105, R161). -/
  pairGiven : Nat := 0
  pairAcked : Nat := 0
  seqHigh : Nat := 0
  /-- RECORD images being reassembled: PAIR_SEQ, REC_BYTES, fragments (R145). -/
  reasm : List (Nat × Nat × List Frag) := []
  /-- FORWARD images being reassembled, by forward reference (R147). -/
  fwdReasm : List (Nat × Nat × List Frag) := []
  /-- Complete records received and waiting for an entry or their turn: by PAIR_SEQ, forwarded ones by 0. -/
  rxRecs : List (Nat × Rec) := []
  /-- Other accepted frames that wait for an entry: TYPE and payload (R144). -/
  rxWait : List (Nat × Bytes) := []
  /-- Next forward reference. -/
  nextRef : Nat := 1
  /-- Forward references whose image has been taken (R142). -/
  fwdSeen : List Nat := []
  /-- Writes forwarded to the home, by forward reference (R106). -/
  fwd : List (Nat × Rec) := []
  repairs : List Repair := []
  secret : Option (BitVec 256) := none
  pairInc : BitVec 16 := 0
  joinInc : BitVec 16 := 0
  /-- A pairing under R150 is in progress. -/
  establishing : Bool := false
  attested : Bool := false
  /-- The senior's part of a key exchange under way: decapsulation key, private P-384 value, the message sent (R150). -/
  kex : Option (Bytes × Bytes × Bytes) := none
  /-- The transfer key of a replacement (R156). -/
  xferKey : Option Bytes := none
  /-- The nonce sent to resume the pair (R153). -/
  nonce : Option Bytes := none
  /-- ADMIT_REPLACEMENT in progress (R156). -/
  replacing : Bool := false
  /-- Granules dirty since the solo term began (R164), rising. -/
  dirty : List Nat := []
  dirtyLost : Bool := false
  resync : Option Resync := none
  /-- This start reported JOURNAL_LOST or GEN_TABLE_STALE (R154). -/
  lost : Bool := false
  stale : Bool := false
  /-- A resync has ended since: what was lost has been put in its place (R162, R165). -/
  healed : Bool := false
  /-- FORCE_SOLO has been taken since this start: tiles are re-anchored (R155). -/
  forced : Bool := false
  /-- Extents the twin had marked as diverged when the pair was resumed and no resync has covered yet (R146). -/
  peerDiv : List Nat := []
  /-- Tiles accepted under their own tag version after FORCE_SOLO are re-anchored (R155). -/
  anchored : List Nat := []
  /-- The twin reported JOURNAL_LOST or GEN_TABLE_STALE at the last resumption (R155). -/
  peerLost : Bool := false
  /-- STATE of the pair-state record found at start (R161). -/
  bootState : Nat := 1
  /-- PAIR_SEQ at which homes return (R165). -/
  homeSeq : Option Nat := none
  deriving DecidableEq, Repr, Inhabited

/-! ## Media -/

/-- Training stages (R184). -/
inductive Stage where
  | none | detect | lock | align | identify | test
  deriving DecidableEq, Repr, Inhabited

/-- A flit the device sends: FTYPE, FSEQ, TAG, INDEX, NCMD and body (R177). -/
structure TxFlit where
  ftype : Nat
  fseq : BitVec 12 := 0
  tag : Nat := 0
  index : Nat := 0
  ncmd : Nat := 0
  body : Bytes := []
  deriving DecidableEq, Repr, Inhabited

/-- One lane's link (R177, R182, R184). -/
structure Link where
  fseq : BitVec 12 := 0
  /-- The last 58 bits each way on the line, the newest highest (R177; log entry 136). -/
  tx : BitVec 58 := 0
  rx : BitVec 58 := 0
  /-- Flits sent since the last ALIGN flit (R178). -/
  sinceAlign : Nat := 0
  /-- FSEQ of the last flit received in order; the ones of its width before the first (log entry 51). -/
  lastGood : BitVec 12 := 0xFFF
  /-- Unacknowledged flits, oldest first (R182). -/
  sent : List TxFlit := []
  /-- Replays of the front flit. -/
  replays : Nat := 0
  stage : Stage := .none
  /-- A quick retrain is in progress (R184). -/
  quick : Bool := false
  /-- REPLACE: the serial check is waived (step 4 of the replacement). -/
  waive : Bool := false
  /-- The lane comes back from a fence and goes to REBUILDING (R194). -/
  back : Bool := false
  /-- The quick retrain of R182 has been used for the front flit. -/
  retrained : Bool := false
  /-- IDENTIFY of this training (R180). -/
  ident : Option Ident := none
  deriving DecidableEq, Repr, Inhabited

/-- Why a media command was issued. -/
inductive CmdOwner where
  /-- Codeword `pos` of a fetch of the tile. -/
  | fetch (tile pos : Nat)
  /-- A codeword of a fetch of the tile that has ended without it (R187). -/
  | late (tile : Nat)
  /-- A retirement write of the tile. -/
  | retire (tile : Nat)
  /-- A write-back, rebuild or repair rewrite of the tile (R38). -/
  | fix (tile : Nat)
  /-- A codeword of a drain stripe: stripe and position (R121, R201). -/
  | drain (stripe pos : Nat)
  /-- Other system-space writes: shutdown record, module table, level-3 tiles. -/
  | system
  deriving DecidableEq, Repr

/-- An outstanding module command (R179, R180). -/
structure Cmd where
  opcode : Nat
  slot : Nat
  count : Nat
  /-- DATA flits received. -/
  data : Nat := 0
  owner : CmdOwner
  /-- The codewords of a WRITE, or those a READ has received. -/
  cws : List Bytes := []
  deriving DecidableEq, Repr

/-- Who a tile is fetched for. `probe` is the JSN at its journal-index probe (R42, R102). -/
inductive Waiter where
  | cxl (tag : Nat) (probe : Nat)
  | net (tag : Nat) (probe : Nat)
  | ctx (c : Nat) (tag : Nat) (probe : Nat)
  | loadImg (p : Nat) (tag : Nat) (probe : Nat)
  | wr (id : Nat) (tag : Nat) (probe : Nat)
  /-- A repair request of the twin (R168). -/
  | twin (tag : Nat)
  | resync (tag : Nat)
  | retire
  | atomic (id : Nat)
  | line (line : Nat)
  /-- Entry of a plan: reader, PLAN_ID, selected lines, the class in force, PTR_OFF of a PTR entry that follows. -/
  | prefetch (r : PlanReader) (id : Word) (lines : Nat) (cls : Place) (ptrOff : Option Nat)
  | pin (tag : Nat)
  | sweep (tag : Nat)
  | rebuild (lane : Nat) (tag : Nat)
  /-- On a leaf of the generation table: the fill of a data tile that needs its entry (R72). -/
  | leaf (t : Nat)
  /-- On a leaf: a record whose admission needs an entry, where ATTN is set (R73). -/
  | recLeaf (id : Nat)
  /-- On a data tile: its leaf is lost and is rebuilt from the twin's tiles (R86). -/
  | relearn
  deriving DecidableEq, Repr

/-- A tile-fetch tracker (R214). -/
structure Fetch where
  tile : Nat
  /-- Codewords received: position, 300 bytes; a lost one is `none` (R190). -/
  got : List (Nat × Option Bytes) := []
  /-- Positions issued (R186, R187). -/
  issued : List Nat := []
  hedged : Bool := false
  /-- Marked stale (R102). -/
  stale : Bool := false
  waiters : List Waiter := []
  /-- Waiting for a repair fetch (R83 step 4). -/
  repairing : Bool := false
  /-- Waits behind a retirement write of the tile, or for a tracker (R188, R214). -/
  held : Bool := false
  /-- Requests that hold or have merged onto a miss register of this fill, by line (R216). -/
  missLines : List Nat := []
  /-- Lines with a miss register of a prefetch (R232). -/
  pfLines : List Nat := []
  /-- Requests that found their line's miss register full, by line (R216). -/
  full : List Nat := []
  /-- All 18 codewords are read: the Sweeper's reads (R198). -/
  all18 : Bool := false
  deriving DecidableEq, Repr

/-- Rebuild of one lane (R195). -/
structure Rebuild where
  /-- Extents still to rebuild, and whether system space is. -/
  extents : List Nat
  system : Bool
  /-- Stripes not yet read, those with two lost codewords first, and those being read. -/
  todo : List Nat := []
  busy : List Nat := []
  /-- Extents it covers. -/
  total : Nat := 0
  deriving DecidableEq, Repr

structure Med where
  links : AMap Link := []
  /-- Outstanding commands by lane * 128 + tag. -/
  cmds : AMap Cmd := []
  /-- Commands that wait for a tag of their lane, oldest first: lane and command (R172). -/
  waitq : List (Nat × Cmd) := []
  /-- Fetch trackers and fills waiting for one. -/
  fetch : List Fetch := []
  mtSeq : Nat := 0
  /-- The module table has been read this start (R184). -/
  mtLoaded : Bool := false
  /-- Written-extent maps by lane: extents, rising; 524,288 stands for system space (R194). -/
  written : AMap (List Nat) := []
  rebuild : AMap Rebuild := []
  /-- Lanes that may return to service only through rebuild (R194, R197). -/
  owe : List Nat := []
  /-- Sweeper position: next tile key of the pass (R198). -/
  sweepNext : Nat := 0
  sweepStartNs : Nat := 0
  /-- Codewords read and corrected this pass, by lane (R200). -/
  sweepRead : AMap Nat := []
  sweepFix : AMap Nat := []
  deriving DecidableEq, Repr, Inhabited

/-! ## Tiers -/

/-- Tile-directory states (R210). -/
inductive DirState where
  | filling | valid | base | moving (copies : Nat) (written : Bool) | retiring
  deriving DecidableEq, Repr, Inhabited

/-- A tile-cache frame and its directory entry (R210). -/
structure Frame where
  state : DirState
  ver : Ver
  seal64 : Word
  /-- The 4,096 plaintext bytes; shorter lists read as zeros beyond their end. -/
  bytes : Bytes
  deriving DecidableEq, Repr, Inhabited

/-- An Orangery line (R215); keyed by DPA[48:8]. -/
structure Line where
  way : Nat
  valid : Bool := true
  locked : Bool := false
  bytes : Bytes := []
  deriving DecidableEq, Repr, Inhabited

/-- A walk plan (R228). -/
structure Plan where
  id : Word
  cls : Nat
  distance : Nat
  strict : Bool
  /-- Entries: tile or pointer offset, KIND, LINES. -/
  entries : List (Nat × Nat × Nat)
  tenant : BitVec 24
  pos : Nat := 0
  /-- Tiles of the entries taken so far, in order; none where a pointer is unknown (R230). -/
  taken : List (Option Nat) := []
  skipped : Nat := 0
  /-- The pointer for a PTR entry that comes next: awaited, unknown, or the tile (R230). -/
  ptr : Option (Option Nat) := none
  /-- Device time of the last advance (R230). -/
  moveNs : Nat := 0
  deriving DecidableEq, Repr

/-- A read that waits at its slices for miss registers (R216): tile, offset, length, who reads, and the class in force. -/
structure MissReq where
  tile : Nat
  off : Nat
  len : Nat
  who : Waiter
  cls : Place
  deriving DecidableEq, Repr

/-- A Loggia line: DPA[48:8], the class its fetch was made under (R235), and 256 bytes. -/
structure LoggiaLine where
  line : Nat
  cls : Place
  bytes : Bytes
  deriving DecidableEq, Repr

structure Tier where
  /-- Tile cache, by tile key. -/
  dir : AMap Frame := []
  /-- Frames in use order, least recent first. -/
  lru : List Nat := []
  lines : AMap Line := []
  lineLru : List Nat := []
  /-- Loggia lines, least recent first (R227). -/
  loggia : List LoggiaLine := []
  /-- Reads that wait for miss registers, in arrival order (R216). -/
  missq : List MissReq := []
  /-- Scratchpad bytes (R219); unlisted bytes read 0. -/
  scratch : AMap Byte := []
  plans : List (PlanReader × Plan) := []
  /-- Owners waiting for their block to be zeroed (R221). -/
  zeroing : AMap (BitVec 24) := []
  inval : Option (Nat × Nat × Bool) := none
  /-- Slices restored or fenced keep their state in ctl; staged frames taken by tasks (R252). -/
  subFrames : Nat := 0
  deriving DecidableEq, Repr, Inhabited

/-! ## Tasks -/

/-- A task descriptor accepted into a queue (R290). -/
structure Task where
  num : Nat
  queue : Nat
  tenant : BitVec 24
  prog : Nat
  slot : Nat := 0
  userTag : Word
  /-- Parent task number and the counter its completion raises (R277). -/
  parent : Option (Nat × Nat) := none
  insn : Nat
  tiles : Nat
  timeUs : Nat
  args : List Word
  deriving DecidableEq, Repr, Inhabited

/-- A window mapping (R247, R248). -/
inductive Win where
  | dpa (base tiles : Nat) (ro : Bool)
  | scratch (base blocks : Nat)
  deriving DecidableEq, Repr

/-- What a context waits for (R276, R285). -/
inductive Wait where
  | none
  | tile (t : Nat)
  | gate (i : Nat) (v : Word) (d : Nat)
  | msg (tag : Nat) (d : Nat)
  | fence (id : Nat)
  | record (id : Nat)
  | frame
  /-- Ended by COMMIT: the context is free once the step below has answered. -/
  | commit (id : Nat)
  deriving DecidableEq, Repr, Inhabited

/-- A task context (R241). -/
structure CtxSt where
  task : Option Task := .none
  tag : Nat := 0
  a : AMap Word := []
  v : AMap Vec := []
  p : BitVec 8 := 1
  pc : Word := 0
  gc : AMap Word := []
  inbox : List Word := []
  /-- Messages of completed children held for room (R277). -/
  held : List Word := []
  wins : AMap Win := []
  readSet : AMap Ver := []
  touched : List Nat := []
  /-- Staged bytes by DPA (R252). -/
  staged : AMap Byte := []
  /-- Tiles the task has staged into since its start, those it dropped among them (R252). -/
  wrote : List Nat := []
  ls : AMap Byte := []
  lsBase : Nat := 0
  lsSize : Nat := 0
  insnLeft : Nat := 0
  tilesLeft : Nat := 0
  endNs : Nat := 0
  /-- Children that have not completed (R278). -/
  children : Nat := 0
  wait : Wait := .none
  /-- Tiles delivered to a waiting load: overlaid bytes and version (R250, R251). -/
  fills : List (Nat × Bytes × Ver) := []
  /-- The instruction at pc has been counted and is issued again (R282). -/
  charged : Bool := false
  deriving DecidableEq, Repr, Inhabited

/-- A LOAD under way (R309). -/
structure LoadJob where
  task : Task
  tag : Nat
  dpa : Nat
  len : Nat
  crc : Word
  /-- Waits for old-image tasks (R310). -/
  waiting : Bool
  got : Bytes := []
  /-- STATE to return to on failure. -/
  back : Nat
  status : Option Status := none
  /-- The device's own reload at a start (R311). -/
  reload : Bool := false
  deriving DecidableEq, Repr

/-- A program (R307); STATE, SLOT, OWNER, counts and length are in ctl. -/
structure Prog where
  img0 : Bytes := []
  img1 : Bytes := []
  /-- What system space keeps of an ACTIVE program: image DPA, length in bytes and IMAGE_CRC (R311). -/
  dpa : Nat := 0
  len : Nat := 0
  crc : Word := 0
  /-- Slots with an uncorrectable error (R208). -/
  bad : List Nat := []
  job : Option LoadJob := none
  deriving DecidableEq, Repr, Inhabited

/-- Where a management completion goes (R598, R616). -/
inductive MgmtSrc where
  | rdma (conn : Nat) | mctp (session : Nat) (src : BitVec 7)
  deriving DecidableEq, Repr

structure Ksk where
  ctx : AMap CtxSt := []
  /-- Queued RUN tasks in acceptance order (R297). -/
  pool : List Task := []
  /-- Accepted LOAD descriptors: task, TARGET, IMAGE_BYTES, IMAGE_CRC (R309). -/
  loads : List (Task × Nat × Nat × Word) := []
  /-- Accepted CANCEL descriptors: queue, task number to cancel, own task (R303). -/
  cancels : List (Nat × Nat × Task) := []
  seq : AMap Nat := []
  /-- Dispatcher: queue and turns used in this round, by Square (R298). -/
  rr : AMap (Nat × Nat) := []
  progs : AMap Prog := []
  /-- The management queue of 64 (R314). -/
  mgmt : List (Task × MgmtSrc) := []
  mgmtSrc : Option MgmtSrc := none
  mgmtSeq : Nat := 1
  /-- Belvedere SRAM by offset (R316, R578). -/
  sram : AMap Byte := []
  /-- Staged control-space stores, oldest first (R317). -/
  stores : List (Nat × Word) := []
  /-- The pending ATTR outcome of a management program (R649). -/
  mgmtWait : Option (Task × MgmtSrc) := none
  deriving DecidableEq, Repr, Inhabited

/-! ## Turnstile -/

/-- What a Turnstile entry stands for (R323). -/
inductive OpKind where
  | cxlRd (ld tag dpa : Nat)
  | cxlWr (ld tag dpa : Nat)
  | netWrite (conn psn : Nat) (imm : Option (BitVec 32))
  | netAtomic (conn psn : Nat)
  | netRead (conn psn dpa len sent : Nat)
  | netFlush (conn psn : Nat)
  | netSend (conn psn : Nat)
  | netReq (conn wr : Nat)
  | task (t : Task) (result : Word)
  | load (p : Nat)
  | prm (tile : Nat)
  | maint (tile : Nat)
  deriving DecidableEq, Repr

/-- A held entry: ACTIVE or LINGERING (R328). -/
structure Op where
  kind : OpKind
  lingering : Bool := false
  /-- JSN of its record, once sequenced (R331). -/
  jsn : Option Nat := none
  /-- Its response point is mirror-durable (R110). -/
  mirror : Bool := false
  /-- Memory key whose admitted-count it holds (R406). -/
  key : Option Nat := none
  /-- Media commands, repairs and requests issued and not returned (R330). -/
  out : Nat := 0
  /-- Forwarded to the home twin (R106). -/
  fwd : Bool := false
  /-- The writes of its line that a MemRd is held for (R434). -/
  after : List Nat := []
  deriving DecidableEq, Repr

structure Tst where
  ops : AMap Op := []
  /-- Units being quiesced whose bound has not fired (R337). -/
  draining : List DrainUnit := []
  deriving DecidableEq, Repr, Inhabited

/-! ## Network and RDMA -/

/-- A port's state beside its registers (R353 to R362). -/
structure Port where
  /-- Receive-buffer bytes by priority (R353, R355). -/
  occ : AMap Nat := []
  /-- Priorities for which XOFF was sent; priorities paused by the partner; those ignored by the watchdog (R355, R357). -/
  xoff : BitVec 8 := 0
  paused : BitVec 8 := 0
  storm : BitVec 8 := 0
  /-- Device times of recent DOWN transitions (R362). -/
  downs : List Nat := []
  trainFail : Bool := false
  deriving DecidableEq, Repr, Inhabited

/-- Connection states (R388). -/
inductive ConnState where
  | free | establishing | rts | closing | error
  deriving DecidableEq, Repr, Inhabited

/-- A verified packet of a connection, waiting in PSN order (R381, R395). -/
structure Pkt where
  opcode : Nat
  psn : Nat
  ackReq : Bool
  /-- Decrypted bytes between PETH and tag. -/
  plain : Bytes
  deriving DecidableEq, Repr, Inhabited

/-- A work request in the pool (R409). -/
structure Wr where
  id : Nat
  conn : Nat
  tenant : BitVec 24
  opcode : Nat
  signaled : Bool
  fence : Bool
  durable : Bool
  gate : Nat
  gateArg : Nat
  gateCq : Nat
  localAddr : Nat
  localKey : BitVec 32
  len : Nat
  remoteVa : Word
  remoteKey : BitVec 32
  imm : BitVec 32
  userTag : Word
  cq : Nat
  /-- The gate has opened, at this JSN (R412, R413). -/
  opened : Option Nat := none
  /-- Issued with this Turnstile tag and first PSN; retries used; bytes done. -/
  issued : Option (Nat × Nat) := none
  retries : Nat := 0
  done : Nat := 0
  /-- Local bytes read so far for a WRITE or SEND. -/
  buf : Bytes := []
  /-- Packets sent, and acknowledged, of those of the message (R366); of a READ, the response packets received. -/
  sent : Nat := 0
  acked : Nat := 0
  /-- Records of a READ that have not been admitted (R413). -/
  recs : Nat := 0
  /-- Waits for the host's RNR timer (R414). -/
  rnr : Bool := false
  /-- The device's own transfer through this delivery target: no Turnstile entry, no completion (R607, R324). -/
  target : Option Nat := none
  deriving DecidableEq, Repr

/-- A packet to send on a connection: BTH opcode, PSN, everything between PETH and tag, PETH.STATUS (R379). -/
structure TxPkt where
  opcode : Nat
  psn : Nat
  plain : Bytes
  status : Nat
  deriving DecidableEq, Repr, Inhabited

/-- A response due on a connection; responses go out in PSN order (R395, R397). -/
structure Due where
  psn : Nat
  /-- Packets ready and not yet sent. -/
  pkts : List TxPkt := []
  /-- No further packet will come. -/
  done : Bool := false
  /-- The connection enters ERROR with this status once it is sent (R396). -/
  fatal : Option Status := none
  deriving DecidableEq, Repr, Inhabited

/-- A connection context (R378, R388, R391). -/
structure Con where
  state : ConnState := .free
  tenant : BitVec 24 := 0
  mgmt : Bool := false
  bind : Option Nat := none
  port : Nat := 0
  /-- Address entry it was reached by, host MAC and IP (R378). -/
  addr : Nat := 0
  hostMac : BitVec 48 := 0
  hostIp : BitVec 128 := 0
  hostQp : BitVec 24 := 0
  mtu : Nat := 1024
  /-- Tenant epoch under which its REQ verified (R457). -/
  tenEpoch : BitVec 32 := 0
  obj : Nat := 0
  /-- The REQ's private data, for the repeated REP (R388). -/
  req : Bytes := []
  rep : Bytes := []
  txEpoch : Nat := 0
  rxEpoch : Nat := 0
  txNctr : Nat := 0
  /-- Highest NCTR accepted under the receive key, plus one (R381). -/
  rxNctr : Nat := 0
  /-- Expected PSN; next PSN to send; NAK sent for the present gap (R395). -/
  epsn : Nat := 0
  npsn : Nat := 0
  gapNak : Bool := false
  msn : Nat := 0
  /-- Parts of READ responses, by PSN and tile: none while awaited, no bytes for POISONED (R397). -/
  tiles : List (Nat × Nat × Option Bytes) := []
  /-- Saved atomic results: PSN and value (R395). -/
  saved : List (Nat × Word) := []
  /-- SEND payload so far; WRITE position: address and bytes left of the message. -/
  msg : Bytes := []
  wrAddr : Nat := 0
  wrLeft : Nat := 0
  wrKey : BitVec 32 := 0
  rxq : List Pkt := []
  /-- Responses due, in PSN order. -/
  due : List Due := []
  /-- A refusal that leads to ERROR is due: no further request is judged (R396). -/
  stopped : Bool := false
  /-- Congestion window (R366 to R368). -/
  win : Nat := 0
  outstanding : Nat := 0
  srtt : Nat := 0
  rounds : Nat := 0
  cnpSeen : Bool := false
  limited : Bool := false
  /-- CNP sent within CNP_INTERVAL_US ends at this device time (R370). -/
  cnpNs : Nat := 0
  /-- Payload of responses sent lately: device time and bytes (R366). -/
  sentResp : List (Nat × Nat) := []
  /-- Unacknowledged request packets: PSN and device time of sending (R367). -/
  stamps : List (Nat × Nat) := []
  deriving DecidableEq, Repr, Inhabited

/-- Memory-key states (R405). -/
inductive KeyState where
  | valid | revoking
  deriving DecidableEq, Repr, Inhabited

/-- A memory key that is not FREE (R404). -/
structure Key where
  state : KeyState
  variant : Byte
  tenant : BitVec 24
  base : Nat
  len : Nat
  rights : BitVec 5
  admitted : Nat := 0
  cq : Nat := 0
  userTag : Word := 0
  deriving DecidableEq, Repr, Inhabited

structure Xpt where
  conns : AMap Con := []
  /-- Highest epoch of an index since the start (R387). -/
  lastEpoch : AMap Nat := []
  /-- On-chip cached contexts, least recent first; fetches in progress (R391, R392). -/
  cache : List Nat := []
  fetching : List Nat := []
  /-- Contexts being written back, still cached, each with the fetch that evicts it (R394). -/
  writing : List (Nat × Nat) := []
  /-- Holding buffer: port, connection, frame, oldest first (R392). -/
  hold : List (Nat × Nat × NetFrame) := []
  /-- Ports whose quota has refused a packet since it last had room (R393). -/
  holdFull : List Nat := []
  /-- Device time until which HOLD_FULL is not posted again, by port (R393). -/
  holdNs : AMap Nat := []
  keys : AMap Key := []
  wrs : List Wr := []
  nextWr : Nat := 0
  deriving DecidableEq, Repr, Inhabited

/-! ## CXL -/

/-- A ring slot (R440, R441); VALID, STATE and QUEUE are in ctl. -/
structure Ring where
  base : Nat := 0
  size : Nat := 0
  ci : Nat := 0
  cons : Nat := 0
  prod : Nat := 0
  /-- Descriptors being read over CXL.io (R442). -/
  asked : Nat := 0
  deriving DecidableEq, Repr, Inhabited

/-- A combining window (R103): writes of one LD to one tile. -/
structure Combine where
  ld : Nat
  tile : Nat
  tags : List Nat
  segs : List Seg
  deriving DecidableEq, Repr

/-- An event record of an LD's event log (R428 to R430, R437). -/
inductive LdEvent where
  | addCapacity (e : Nat) | releaseCapacity (e : Nat) | forcedRelease (e : Nat) | media (tile : Nat)
  deriving DecidableEq, Repr

/-- One logical device (R426 to R443). -/
structure Ld where
  offers : List Nat := []
  withdrawn : List Nat := []
  events : List LdEvent := []
  /-- Authenticated by SPDM for CXL_AUTH (R458). -/
  auth : Bool := false
  planStat : Nat := 0
  /-- Submitted plan addresses whose read has not returned, oldest first (R443). -/
  planAddrs : List Nat := []
  /-- An SPDM secured session is open on this LD (R421). -/
  spdm : Bool := false
  /-- WRITE_REFUSED posted within this µs (R436). -/
  refusedNs : Nat := 0
  deriving DecidableEq, Repr, Inhabited

structure Cxl where
  lds : AMap Ld := []
  rings : AMap Ring := []
  comb : List Combine := []
  /-- Requests waiting in a port's receive buffer for an entry or credit (R325). -/
  rxq : List Instr := []
  /-- PERST asserted, by port (R424). -/
  perst : BitVec 2 := 0
  /-- IDE keys, by port (R421). -/
  ide : List (Nat × Byte × BitVec 256) := []
  deriving DecidableEq, Repr, Inhabited

/-! ## Gatehouse -/

/-- A tenant-table entry (R451). -/
structure Ten where
  enrolled : Bool := false
  hash : BitVec 384 := 0
  epoch : BitVec 32 := 0
  prev : Option (BitVec 32) := none
  cxlAuth : Bool := false
  ecdsaHash : BitVec 384 := 0
  deriving DecidableEq, Repr, Inhabited

/-- What a key slot holds (R459). -/
inductive SlotKey where
  | label (l : BitVec 256) (ten : Option (BitVec 32)) | ide (port : Nat) (stream : Byte)
  deriving DecidableEq, Repr

structure Gth where
  tenants : AMap Ten := []
  /-- Slots holding a key, least recently used first: slot number and key (R460). -/
  slots : List (Nat × SlotKey) := []
  /-- Task counters by slot (R462); unlisted read 0. -/
  counters : AMap Nat := []
  /-- The enrolment request in progress (R453, R455). -/
  req : Bytes := []
  deriving DecidableEq, Repr, Inhabited

/-! ## Core, power, reset, flash, buses, status, pins -/

/-- A stage of lowering the rails (R513, R532): rails that are switched off together, the end of the drain, or the sequencers' states
9 to 15 (R519). -/
inductive OffStep where
  | rails (l : List Nat) | drained | seq
  deriving DecidableEq, Repr, Inhabited

/-- Why the rails go down. -/
inductive OffWhy where
  | shutdown | comeUp (rail cause : Nat) | critical (rail cause : Nat)
  deriving DecidableEq, Repr, Inhabited

structure Pwr where
  /-- Power-on reset still holds (R502). -/
  por : Bool := true
  goGiven : Bool := false
  /-- Stages of lowering the rails that remain, the one in progress first. -/
  off : Option (List OffStep × OffWhy) := none
  /-- A thermal trip latches when the committed shutdown ends (R641). -/
  tripAfter : Bool := false
  /-- Rails whose regulator has been told once to follow OPERATION alone (R506). -/
  onOff : List Nat := []
  /-- FLAGS of the shutdown record written last (R529). -/
  endFlags : Nat := 0
  /-- Rail groups that wait for RESTORE_GROUP, the one in progress first (R518). -/
  restores : List Nat := []
  /-- Issue throttle, in sixteenths below the full rate (R482). -/
  throttle : Nat := 0
  /-- SEQ_SYNC is held low by this device (R519). -/
  seqHeld : Bool := false
  /-- Lowest pace of the present step interval (R478). -/
  lowPace : Option Nat := none
  /-- The last transaction on PWRBUS was a VCORE step's, and the step that waits for another one (R511). -/
  stepLast : Bool := false
  stepHeld : Option Nat := none
  deriving DecidableEq, Repr, Inhabited

structure Sup where
  senior : Bool := false
  seqMode : Bool := false
  /-- SYS_RST_N is held asserted (R540). -/
  sysRst : Bool := false
  /-- A device reset has been committed and waits for its drain; its CAUSE (R540). -/
  resetWait : Option Nat := none
  /-- The reset has been taken and waits for SYS_RST_N (R540). -/
  resetTaken : Bool := false
  bootWarm : Bool := false
  /-- A start of the boot ROM is due. -/
  bootDue : Bool := false
  /-- DEVICE_RESET taken when the setup program runs again (happenings of ch. 16). -/
  resetAfterBoot : Bool := false
  kickNs : Nat := 0
  startNs : Nat := 0
  deriving DecidableEq, Repr, Inhabited

/-- Position in the unlock sequence (R565). -/
inductive FlsSeq where
  | idle | key1 | key2 | cmd (op count : Nat) | addr (op count addr : Nat)
  deriving DecidableEq, Repr, Inhabited

/-- What a flash bank is busy with (R560). -/
inductive FlsJob where
  | program (addr count : Nat) (fw : Bool) | erase (sector tries : Nat) (fw : Bool) | write
  deriving DecidableEq, Repr

/-- A record queued for the record log: kind and its 24 bytes without MAC (R572). -/
inductive LogRec where
  | root (seq top0 top1 : Nat)
  | pair (state : Nat) (term : Nat) (seqHigh : Nat)
  | start (count : Nat)
  deriving DecidableEq, Repr

structure Fls where
  /-- Code words that are not erased: index to 32 bytes (R556). -/
  words : AMap Bytes := []
  seq : FlsSeq := .idle
  job0 : Option FlsJob := none
  job1 : Option FlsJob := none
  suspended : Bool := false
  /-- Sectors half-erased (R564). -/
  half : List Nat := []
  /-- Regions loaded at the FLS reset: FIRST, COUNT, XO, PWD, PASSWORD (R568). -/
  regions : List (Nat × Nat × Bool × Bool × Word) := []
  /-- Wrong tries by region, in the AON domain (R569). -/
  tries : AMap Nat := []
  recq : List LogRec := []
  /-- Fenced after VFL failed (R526). -/
  fenced : Bool := false
  lines : List Nat := []
  branches : List Nat := []
  /-- A configuration sector is to be written by the controller (R577). -/
  autoCfg : Bool := false
  deriving DecidableEq, Repr, Inhabited

/-- An MCTP session (R598). -/
structure Session where
  bothAuth : Bool
  qualifies : Bool
  provision : Bool
  deriving DecidableEq, Repr, Inhabited

structure Twb where
  /-- MCTP packets waiting for MGMTBUS: destination, bytes, device time of its first attempt (R599). -/
  txq : List (BitVec 7 × Bytes × Nat) := []
  s0 : Option Session := none
  s1 : Option Session := none
  deriving DecidableEq, Repr, Inhabited

/-- A completion queue beside its registers (R610 to R615). -/
structure Cq where
  n : Nat := 0
  ci : Nat := 0
  /-- Records produced and not written, oldest first. -/
  waiting : List Bytes := []
  deriving DecidableEq, Repr, Inhabited

/-- An event queue of a page slot (R617 to R619). -/
structure Eq where
  n : Nat := 0
  seq : Nat := 0
  ci : Nat := 0
  written : Nat := 0
  lost : Nat := 0
  /-- Events lost since the last EQ_OVERRUN (R619). -/
  owed : Nat := 0
  deriving DecidableEq, Repr, Inhabited

structure Sta where
  /-- Transfers due on RDMA targets: target, host address, bytes to write, or bytes to read (R607). -/
  xfers : List (Nat × Nat × Bytes × Nat) := []
  cqs : AMap Cq := []
  eqs : AMap Eq := []
  /-- Records that wait for the completion buffer, with the entry that lingers (R615). -/
  overflow : List (Nat × Bytes × Nat) := []
  /-- The global event ring: the newest 32 device events (R622). -/
  ring : List Bytes := []
  devSeq : Nat := 0
  pageSeq : Nat := 0
  /-- Words of the rebuilt pages, by control-space offset (R620). -/
  pages : AMap Word := []
  /-- Per tenant: tasks completed, conflicts, quarantined tiles, CQ overruns, last overrun CQ (R623). -/
  tasks : AMap Nat := []
  conflicts : AMap Nat := []
  overruns : AMap (Nat × Nat) := []
  deriving DecidableEq, Repr, Inhabited

/-- Instructions of the TAP (R644). -/
inductive TapInstr where
  | idcode | bypass | sample | extest | clamp | highz | pulse | train | flsRecover | dbgUnlock
  deriving DecidableEq, Repr, Inhabited

structure Jtag where
  ir : TapInstr := .idcode
  /-- The data register selected by the instruction, bit 0 first shifted out. -/
  dr : List Bool := []
  /-- Boundary cells 0 to 553 (R645). -/
  cells : List Bool := []
  /-- A verified token unlocks DBG from the next start until power-on reset (R646). -/
  unlockNext : Bool := false
  /-- The challenge that DBG_UNLOCK has shifted out (R646). -/
  challenge : Bytes := []
  deriving DecidableEq, Repr, Inhabited

/-- Output pins (R631, R644). -/
structure Pins where
  serving : Bool := false
  twinAliveOut : Bool := false
  /-- HIGHZ holds every output in high impedance. -/
  floating : Bool := false
  deriving DecidableEq, Repr, Inhabited

/-- What the device sends, oldest first: the model's record of its outputs (log entry 8). -/
inductive Out where
  /-- A flit on a media lane: the 320 bytes on the line (R177). -/
  | medFlit (lane : Nat) (line : Bytes)
  /-- An ALIGN flit: 320 bytes of 0x7E (R178). -/
  | medAlign (lane : Nat)
  /-- A Promenade frame: group, TYPE, FSN, NCTR, encrypted payload, tag. -/
  | prm (g typ fsn nctr : Nat) (body : Bytes) (tag : Block)
  /-- A sealed RoCEv2 packet of a connection: BTH, then PETH to tag. -/
  | roce (conn : Nat) (bth : Bytes) (rest : Bytes)
  /-- An unsealed RNR NAK (R383). -/
  | rnrNak (conn : Nat) (psn : Nat) (timer : Nat)
  | cnp (conn : Nat)
  | cmRep (conn : Nat) (psn : Nat) (priv : Bytes)
  | cmRej (qpn : BitVec 24) (status : Status)
  | cmDreq (conn : Nat)
  | cmDrep (conn : Nat)
  | arpReply (port : Nat) (ip : BitVec 128) (mac : BitVec 48)
  | neighborAdv (port : Nat) (ip : BitVec 128) (mac : BitVec 48)
  | pfc (port prio : Nat) (quanta : Nat)
  /-- CXL.mem responses: data or poisoned data, Cmp (R435). -/
  | cxlData (ld tag : Nat) (data : Option Vec)
  | cxlCmp (ld tag : Nat)
  | gpfDone (port : Nat) (st : Status)
  /-- A mailbox return: LD, return code, payload words (R419). -/
  | mailbox (ld code : Nat) (data : List Nat)
  | fmApi (port code : Nat) (data : List Nat)
  | doe (ld : Nat) (code : Nat)
  /-- A CXL.io read the device makes of host memory. -/
  | hostRead (ld addr len : Nat)
  /-- A write into host memory through a target or an LD (R607, R442). -/
  | hostWrite (target addr : Nat) (bytes : Bytes)
  /-- A read of host memory through a target, of a consumer-index word (R614). -/
  | targetRead (target addr len : Nat)
  | ldWrite (ld addr : Nat) (bytes : Bytes)
  /-- An access to control space that completes with Unsupported Request (R36). -/
  | pciUr (ld : Nat)
  | ioData (ld : Nat) (v : Word)
  /-- A PMBus transaction: rail, command code, data (R506). -/
  | pmbus (rail code data : Nat)
  | mctp (dst : BitVec 7) (bytes : Bytes)
  | mgmtRead (status : Nat) (v : Word)
  | mgmtNack
  | busClocks (bus n : Nat)
  | busStop (bus : Nat)
  | electricalIdle (lane : Nat)
  deriving DecidableEq, Repr

/-- Faults of the machine: there are none. The manual gives every command of the table an effect, and an Aelo exception ends its task
and not the block (R280), so that no command raises one. Safe: no run stops. -/
inductive Fault where
  deriving DecidableEq, Repr

/-- Commands without a meaning. Safe. -/
inductive Refusal where
  /-- The command has no meaning yet; raised by `exec` alone. Safe. -/
  | notModelled (mnemonic : String)
  deriving DecidableEq, Repr

/-- The persistent copies in system space that a start reloads (R119, R236, R451, R549). -/
structure Persist where
  ext : AMap Ext := []
  tenants : AMap Ten := []
  maxGib : Nat := 0
  nextEpoch : Nat := 0
  /-- The term in which FORCE_SOLO was taken (R155, R162; log entry 134). -/
  forcedTerm : Option Nat := none
  deriving DecidableEq, Repr, Inhabited

/-! ## Crossings -/

/-- An event channel between two toggles (R487): whether one is unacknowledged, and whether events have merged behind it. -/
structure Chan where
  busy : Bool := false
  again : Bool := false
  deriving DecidableEq, Repr, Inhabited

/-- A data slot that is full: its word, and the channels of its full and its empty indication (R485). -/
structure Slot where
  word : Out
  full : Chan
  empty : Chan := {}
  deriving DecidableEq, Repr

/-- The crossing from the core into an island: its full slots by number, of 64, and the words that find none empty (R485). The words of
the other direction are taken in the step that brings them. -/
structure Xing where
  slots : AMap Slot := []
  wait : List Out := []
  deriving DecidableEq, Repr, Inhabited

/-- The whole state. -/
structure State where
  /-- Control-register fields that are not at their reset value, by `Fld.key` (R16, R20). -/
  ctl : AMap Nat := []
  /-- Extent descriptors that are not FREE and unmarked (R27). -/
  ext : AMap Ext := []
  /-- Generation-table entries that are not ZERO at version 0, by tile key: data tile t, or 2^37 + g (R70). -/
  gen : AMap Gen := []
  persist : Persist := {}
  jnl : Jnl := {}
  prm : Prm := {}
  med : Med := {}
  tier : Tier := {}
  ksk : Ksk := {}
  tst : Tst := {}
  ports : AMap Port := []
  xpt : Xpt := {}
  cxl : Cxl := {}
  gth : Gth := {}
  pwr : Pwr := {}
  sup : Sup := {}
  fls : Fls := {}
  twb : Twb := {}
  sta : Sta := {}
  jtag : Jtag := {}
  pins : Pins := {}
  /-- Device time in ns on the 25 MHz timebase (R244). -/
  timeNs : Nat := 0
  /-- What has been sent, newest last. -/
  out : List Out := []
  /-- The crossings into the islands that hold a word, by island (R483 to R487). -/
  xing : AMap Xing := []
  /-- How many free values have been drawn (log entry 6). -/
  free : Nat := 0
  /-- Commands that wait, first in first out. -/
  pending : List Instr := []
  deriving DecidableEq, Repr

/-- The state when VAON first enters its window: power-on reset (R502, R539), every control register at its Reset column,
nothing held anywhere, no command waiting. -/
def State.reset : State := {}

end Sys2Proof.Machine
end

