-- ==== Sys2Proof/Machine/Ops.lean ====
section
/-! DEFINITION. The operations every meaning is built from: fields of control registers, byte memories, device time, free
values, the record of outputs, and one accessor and one update for each addressed part of the state. -/

namespace Sys2Proof.Machine

/-! ## Control-register fields (R16, R20) -/

/-- What a field reads. -/
def State.fget (s : State) (f : Fld) : Nat := AMap.get f.rst s.ctl f.key

/-- Sets a field; the value is taken modulo its width, so a counter that wraps only adds. -/
def State.fset (s : State) (f : Fld) (v : Nat) : State :=
  { s with ctl := AMap.set f.rst s.ctl f.key (v % 2 ^ f.wid) }

/-- A field of one bit, or any field that is not 0. -/
def State.flag (s : State) (f : Fld) : Bool := s.fget f != 0

/-- Sets a field to 1 or 0. -/
def State.fput (s : State) (f : Fld) (b : Bool) : State := s.fset f b.toNat

/-- Raises a counter that wraps. -/
def State.inc (s : State) (f : Fld) (n : Nat := 1) : State := s.fset f (s.fget f + n)

/-- Raises a counter that saturates at the ones of its width. -/
def State.sat (s : State) (f : Fld) (n : Nat := 1) : State := s.fset f (min (s.fget f + n) (2 ^ f.wid - 1))

/-- Lowers a count, not below 0. -/
def State.dec (s : State) (f : Fld) (n : Nat := 1) : State := s.fset f (s.fget f - n)

/-- Raises a field to a value if it is below it: high-water marks and peaks. -/
def State.peak (s : State) (f : Fld) (v : Nat) : State := s.fset f (max (s.fget f) v)

/-- Sets bit `i` of a field. -/
def State.setBit (s : State) (f : Fld) (i : Nat) (b : Bool) : State :=
  s.fset f (if b then s.fget f ||| 2 ^ i else s.fget f &&& (2 ^ f.wid - 1 - 2 ^ i))

/-- The control fields at offsets in [lo, hi) return to their Reset column: the registers of an island that is reset. -/
def State.resetCtl (s : State) (lo hi : Nat) : State :=
  { s with ctl := s.ctl.filter fun p => !(decide (lo * 64 ≤ p.1 ∧ p.1 < hi * 64)) }

/-! ## Outputs, time, free values -/

/-- The lowest number from `lo` that is no key of a rising map. -/
def firstFree {α : Type} : AMap α → Nat → Nat
  | [], lo => lo
  | (k, _) :: r, lo => if k < lo then firstFree r lo else if k = lo then firstFree r (lo + 1) else lo

/-! ### Crossings (R484 to R487; log entry 95) -/

/-- An event at a channel: the next toggle where the last is acknowledged, else it merges into the one that follows (R487). -/
def Chan.raise (c : Chan) : Chan := if c.busy then { c with again := true } else { c with busy := true }

/-- The receiver acknowledges: a merged event toggles the channel again (R487). -/
def Chan.ack (c : Chan) : Chan := if c.again then { c with again := false } else { c with busy := false }

/-- A slot whose word has been taken and which its sender sees empty again (R485). -/
def Slot.take (x : Slot) : Slot := { x with full := x.full.ack, empty := x.empty.raise.ack }

/-- A word goes into the lowest empty slot, or waits where all 64 are full or others wait (R485). Answers whether it has gone. -/
def Xing.send (x : Xing) (o : Out) : Bool × Xing :=
  let n := firstFree x.slots 0
  if x.wait = [] ∧ n < 64 then (true, { x with slots := AMap.put x.slots n { word := o, full := ({} : Chan).raise } })
  else (false, { x with wait := x.wait ++ [o] })

/-- The receiver takes every full slot, and waiting words follow into the empty ones (R485, R486); answers what has gone into them. -/
def Xing.tick (x : Xing) : List Out × Xing :=
  let left := (x.slots.map fun p => (p.1, p.2.take)).filter fun p => p.2.full.busy || p.2.empty.busy
  x.wait.foldl (fun q o => let r := q.2.send o; (if r.1 then q.1 ++ [o] else q.1, r.2)) ([], ({ slots := left } : Xing))

/-- Island of a network port: its quad, or the first of those it spans (R344, R483). -/
def State.netIsland (s : State) (p : Nat) : Nat := p * 2 ^ s.fget R.NET_MODE.MODE / 4

/-- Island that a word leaves through (R483); none for a write of host memory that goes as packets of a connection. -/
def State.islandOf (s : State) (o : Out) : Option Nat :=
  let net := fun c => some (s.netIsland (AMap.get {} s.xpt.conns c).port)
  match o with
  | .medFlit l _ | .medAlign l | .electricalIdle l => some (26 + l / 8)
  | .prm g _ _ _ _ _ => some (16 + 4 * g)
  | .roce c _ _ | .rnrNak c _ _ | .cnp c | .cmRep c _ _ | .cmDreq c | .cmDrep c => net c
  | .arpReply p _ _ | .neighborAdv p _ _ | .pfc p _ _ => some (s.netIsland p)
  | .cxlData l _ _ | .cxlCmp l _ | .mailbox l _ _ | .doe l _ | .hostRead l _ _ | .ldWrite l _ _ | .pciUr l | .ioData l _ => some (24 + l / 16)
  | .gpfDone p _ | .fmApi p _ _ => some (24 + p)
  | .pmbus _ _ _ => some 47
  | .mctp _ _ | .mgmtRead _ _ | .mgmtNack => some 48
  | .busClocks b _ | .busStop b => some (47 + b)
  | .cmRej _ _ | .hostWrite _ _ _ | .targetRead _ _ _ => none

/-- The crossing into an island. -/
def State.xingOf (s : State) (i : Nat) : Xing := AMap.get {} s.xing i

/-- What is sent now, and the crossings with it, where a word is to leave the device (R485). -/
def State.crossed (s : State) (o : Out) : List Out × AMap Xing :=
  match s.islandOf o with
  | none => ([o], s.xing)
  | some i =>
    let q := (s.xingOf i).send o
    (if q.1 then [o] else [], AMap.set {} s.xing i q.2)

/-- What the device sends goes through the crossing of its island, and into the record of outputs as it takes a slot (R484, R485; log
entries 8 and 95). -/
def State.emit (s : State) (o : Out) : State := { s with out := s.out ++ (s.crossed o).1, xing := (s.crossed o).2 }

/-- The crossing of one island over a period of the timebase: an island whose clock has stopped takes nothing (R486, R495). -/
def State.xingTick (s : State) (i : Nat) : State :=
  if s.fget (R.SUP_ISL_STAT.STATE i) = 2 then s
  else
    let q := (s.xingOf i).tick
    { s with out := s.out ++ q.1, xing := AMap.set {} s.xing i q.2 }

/-- An island and its crossings are reset together: every slot and toggle is discarded (R493, R494). -/
def State.resetIsland (s : State) (i : Nat) : State :=
  { s.sat (R.SUP_ISL_STAT.RESETS i) with xing := AMap.set {} s.xing i {} }

/-- Draws a free word (log entry 6). -/
def State.drawWord (s : State) : Word × State := (Config.freeWord s.free, { s with free := s.free + 1 })

/-- Draws free bytes (log entry 6). -/
def State.drawBytes (s : State) (n : Nat) : Bytes × State :=
  ((List.range n).map fun i => Config.freeByte (s.free + i), { s with free := s.free + n })

/-! ## Byte memories: local stores, scratchpads, the Belvedere's SRAM, staged bytes -/

/-- `n` bytes from `i` of a byte memory whose unlisted bytes read 0, address rising. -/
def loadBytes (m : AMap Byte) (i n : Nat) : Bytes := (List.range n).map fun k => AMap.get 0 m (i + k)

/-- Writes bytes from `i`. -/
def storeBytes (m : AMap Byte) (i : Nat) : Bytes → AMap Byte
  | [] => m
  | b :: r => storeBytes (AMap.set 0 m i b) (i + 1) r

/-- The one canonical form of a byte memory: addresses strictly rising, and no entry equal to what an unlisted byte reads as. -/
abbrev Memory.wf (m : AMap Byte) : Prop := AMap.Wf 0 m

/-! ## Lists in order -/

/-- Puts `x` before the first element it does not come after. -/
def insertBy {α : Type} (le : α → α → Bool) (x : α) : List α → List α
  | [] => [x]
  | y :: r => if le x y then x :: y :: r else y :: insertBy le x r

/-- A list in rising order; equal elements keep theirs. -/
def sortBy {α : Type} (le : α → α → Bool) (l : List α) : List α := l.foldr (insertBy le) []

/-! ## Parts of the state -/

/-- The extent descriptor of extent `e` (R27). -/
def State.extent (s : State) (e : Nat) : Ext := AMap.get {} s.ext e
/-- Replaces it. -/
def State.setExtent (s : State) (e : Nat) (x : Ext) : State := { s with ext := AMap.set {} s.ext e x }
/-- Changes a mark of a descriptor that is kept with it in system space at once: divergence and acceptances (R146, R432). -/
def State.markExt (s : State) (e : Nat) (f : Ext → Ext) : State :=
  let s := s.setExtent e (f (s.extent e))
  { s with persist := { s.persist with ext := AMap.set {} s.persist.ext e (f (AMap.get {} s.persist.ext e)) } }
/-- The generation-table entry of a tile key (R70). -/
def State.genEntry (s : State) (t : Nat) : Gen := AMap.get {} s.gen t
/-- Replaces it. -/
def State.setGen (s : State) (t : Nat) (g : Gen) : State := { s with gen := AMap.set {} s.gen t g }
/-- A task context (R241). -/
def State.ctx (s : State) (c : Nat) : CtxSt := AMap.get {} s.ksk.ctx c
/-- Replaces it. -/
def State.setCtx (s : State) (c : Nat) (x : CtxSt) : State :=
  { s with ksk := { s.ksk with ctx := AMap.set {} s.ksk.ctx c x } }
/-- A connection context (R388). -/
def State.conn (s : State) (n : Nat) : Con := AMap.get {} s.xpt.conns n
/-- Replaces it. -/
def State.setConn (s : State) (n : Nat) (x : Con) : State :=
  { s with xpt := { s.xpt with conns := AMap.set {} s.xpt.conns n x } }
/-- A logical device (R426). -/
def State.ld (s : State) (l : Nat) : Ld := AMap.get {} s.cxl.lds l
/-- Replaces it. -/
def State.setLd (s : State) (l : Nat) (x : Ld) : State :=
  { s with cxl := { s.cxl with lds := AMap.set {} s.cxl.lds l x } }
/-- A network port (R353). -/
def State.port (s : State) (p : Nat) : Port := AMap.get {} s.ports p
/-- Replaces it. -/
def State.setPort (s : State) (p : Nat) (x : Port) : State := { s with ports := AMap.set {} s.ports p x }
/-- A media link (R177). -/
def State.link (s : State) (l : Nat) : Link := AMap.get {} s.med.links l
/-- Replaces it. -/
def State.setLink (s : State) (l : Nat) (x : Link) : State :=
  { s with med := { s.med with links := AMap.set {} s.med.links l x } }
/-- A program (R307). -/
def State.prog (s : State) (p : Nat) : Prog := AMap.get {} s.ksk.progs p
/-- Replaces it. -/
def State.setProg (s : State) (p : Nat) (x : Prog) : State :=
  { s with ksk := { s.ksk with progs := AMap.set {} s.ksk.progs p x } }
/-- A ring slot (R440), by 8 times LD plus slot. -/
def State.ring (s : State) (i : Nat) : Ring := AMap.get {} s.cxl.rings i
/-- Replaces it. -/
def State.setRing (s : State) (i : Nat) (x : Ring) : State :=
  { s with cxl := { s.cxl with rings := AMap.set {} s.cxl.rings i x } }
/-- A completion queue beside its registers (R610). -/
def State.cq (s : State) (c : Nat) : Cq := AMap.get {} s.sta.cqs c
/-- Replaces it. -/
def State.setCq (s : State) (c : Nat) (x : Cq) : State :=
  { s with sta := { s.sta with cqs := AMap.set {} s.sta.cqs c x } }
/-- An event queue (R617), by page slot. -/
def State.eq (s : State) (k : Nat) : Eq := AMap.get {} s.sta.eqs k
/-- Replaces it. -/
def State.setEq (s : State) (k : Nat) (x : Eq) : State :=
  { s with sta := { s.sta with eqs := AMap.set {} s.sta.eqs k x } }
/-- The tenant-table entry of a tenant, if it has one (R451). -/
def State.tenant (s : State) (t : BitVec 24) : Option Ten := AMap.find? s.gth.tenants t.toNat
/-- Replaces a Promenade group: 0 A, 1 B (R137). -/
def State.grp (s : State) (g : Nat) : Grp := if g = 0 then s.prm.a else s.prm.b
/-- Replaces it. -/
def State.setGrp (s : State) (g : Nat) (x : Grp) : State :=
  { s with prm := if g = 0 then { s.prm with a := x } else { s.prm with b := x } }

/-- The registers of an array, by number, in which a field is not at its reset value. -/
def State.listed (s : State) (f : Nat → Fld) (count : Nat) : List Nat :=
  s.ctl.filterMap fun p =>
    let n := (p.1 - (f 0).key) / ((f 1).key - (f 0).key)
    if n < count ∧ (f n).key = p.1 then some n else none

/-- The first page slot that is VALID for a tenant (R626 lets a tenant have one). -/
def State.pageSlot (s : State) (t : BitVec 24) : Option Nat :=
  (s.listed R.STA_TPAGE0.VALID 2048).find? fun k => s.fget (R.STA_TPAGE0.TENANT k) == t.toNat

/-- A unit begins to drain: its drain bound runs (R337). -/
def State.startDrain (s : State) (u : DrainUnit) : State := { s with tst := { s.tst with draining := s.tst.draining ++ [u] } }

/-- A unit has drained: its bound runs no more. -/
def State.endDrain (s : State) (u : DrainUnit) : State := { s with tst := { s.tst with draining := s.tst.draining.filter (· ≠ u) } }

/-! ## Rail groups (R501, R515) -/

/-- The wave that releases a rail group's units. -/
def groupWave (g : Nat) : Nat := if g < 4 then 21 + g / 2 else if g < 6 then 13 + g else if g < 8 then 17 + g else 9 + (g - 8) / 2

/-- A rail group's units are out of reset: its wave has come, both its rails are up and it is not fenced (R515, R517). -/
def State.groupOn (s : State) (g : Nat) : Bool :=
  decide (groupWave g ≤ s.fget R.PWR_STAT.WAVE) && !(s.fget R.PWR_STAT.GROUPS_FENCED).testBit g
    && s.fget (R.PWR_RAIL_STAT.STATE (8 + 2 * g)) == 2 && s.fget (R.PWR_RAIL_STAT.STATE (9 + 2 * g)) == 2

/-! ## Where the device stands, as several units read it -/

/-- JNL_STAT.STATE values (R132). -/
def State.jnlState (s : State) : Nat := s.fget R.JNL_STAT.STATE
/-- PRM_STAT.STATE values (R170). -/
def State.prmState (s : State) : Nat := s.fget R.PRM_STAT.STATE

end Sys2Proof.Machine
end

