-- ==== Sys2Proof/Machine/Flags.lean ====
section
/-! DEFINITION. Predicates and comparisons of Aelo (R243, R257, R259): what CMP and CMPI decide, and the predicate logic. -/

namespace Sys2Proof.Machine

/-- What CMP decides by FN, none where FN is unassigned (R259). -/
def cmpResult (fn : BitVec 8) (a b : Word) : Option Bool :=
  match fn.toNat with
  | 0 => some (a == b)
  | 1 => some (a != b)
  | 2 => some (a.slt b)
  | 3 => some (!a.slt b)
  | 4 => some (a.ult b)
  | 5 => some (!a.ult b)
  | _ => none

/-- What CMPI decides by D[4:3]: EQ, NE, LTS, LTU (R257). -/
def cmpiResult (cond : Nat) (a b : Word) : Bool :=
  match cond with
  | 0 => a == b
  | 1 => a != b
  | 2 => a.slt b
  | _ => a.ult b

/-- PAND, POR, PXOR and PANDN by FN (R259). -/
def predResult (fn : Nat) (a b : Bool) : Bool :=
  match fn with
  | 0 => a && b
  | 1 => a || b
  | 2 => a != b
  | _ => a && !b

end Sys2Proof.Machine
end

