-- ==== Sys2Proof/Machine/Report.lean ====
section
/-! DEFINITION. What the device reports with: Turnstile entries (R323 to R330), completion records (R610 to R616) and event
records (R617 to R619). -/

namespace Sys2Proof.Machine

/-! ## Turnstile entries -/

/-- The sources of R323. -/
inductive Src where
  | net | cxl0 | cxl1 | tasks | prm | maint
  deriving DecidableEq, Repr

/-- Source number. -/
def Src.num : Src → Nat
  | .net => 0 | .cxl0 => 1 | .cxl1 => 2 | .tasks => 3 | .prm => 4 | .maint => 5
/-- First tag of the source's range. -/
def Src.base : Src → Nat
  | .net => 0 | .cxl0 => 0x20000 | .cxl1 => 0x28000 | .tasks => 0x30000 | .prm => 0x3C000 | .maint => 0x3E000
/-- Quota, which is the length of the range. -/
def Src.quota : Src → Nat
  | .net => 131072 | .cxl0 => 32768 | .cxl1 => 32768 | .tasks => 49152 | .prm => 8192 | .maint => 8192
/-- The source that owns a tag. -/
def Src.ofTag (t : Nat) : Src :=
  if t < 0x20000 then .net else if t < 0x28000 then .cxl0 else if t < 0x30000 then .cxl1
  else if t < 0x3C000 then .tasks else if t < 0x3E000 then .prm else .maint
/-- The source of a CXL port. -/
def Src.cxl (port : Nat) : Src := if port = 0 then .cxl0 else .cxl1

/-- Takes an entry of a source for an operation, if the source is below its quota (R323, R325). The tag is the lowest
free one of the range; nothing outside sees tags (log entry 6). -/
def State.takeEntry (s : State) (src : Src) (o : Op) : Option (Nat × State) :=
  let n := s.fget (R.TST_SRC_STAT.IN_USE src.num)
  if n < src.quota then
    let tag := firstFree s.tst.ops src.base
    let s := { s with tst := { s.tst with ops := AMap.put s.tst.ops tag o } }
    let s := ((s.inc R.TST_STAT.IN_USE).inc (R.TST_SRC_STAT.IN_USE src.num)).peak (R.TST_SRC_STAT.HIGH_WATER src.num) (n + 1)
    let s := if n + 1 = src.quota then
        (s.setBit R.TST_STAT.STALLED src.num true).sat (R.TST_SRC_CNT.STALLS src.num) else s
    some (tag, s)
  else none

/-- Work on a duplicate READ stands under a number above every tag: it holds no entry of the Turnstile (R395; log entry 62). -/
def isDup (tag : Nat) : Bool := 262144 ≤ tag

/-- The entry of a tag becomes FREE (R328). -/
def State.freeEntry (s : State) (tag : Nat) : State :=
  match AMap.find? s.tst.ops tag with
  | none => s
  | some o =>
    let src := Src.ofTag tag
    let s := { s with tst := { s.tst with ops := AMap.del s.tst.ops tag } }
    if isDup tag then s
    else
    let s := if o.lingering then s.dec (R.TST_SRC_STAT.LINGERING src.num) else s
    ((s.dec R.TST_STAT.IN_USE).dec (R.TST_SRC_STAT.IN_USE src.num)).setBit R.TST_STAT.STALLED src.num false

/-- Replaces a held entry. -/
def State.setOp (s : State) (tag : Nat) (o : Op) : State :=
  { s with tst := { s.tst with ops := AMap.put s.tst.ops tag o } }

/-- After its resolve step an entry lingers while lower layers still hold its work, and is FREE otherwise (R330). -/
def State.settleEntry (s : State) (tag : Nat) : State :=
  match AMap.find? s.tst.ops tag with
  | none => s
  | some o =>
    if o.lingering then s
    else if o.out = 0 then s.freeEntry tag
    else if isDup tag then s.setOp tag { o with lingering := true }
    else (s.setOp tag { o with lingering := true }).inc (R.TST_SRC_STAT.LINGERING (Src.ofTag tag).num)

/-- `n` more results of lower layers are due at an entry (R330). -/
def State.oweResults (s : State) (tag n : Nat) : State :=
  match AMap.find? s.tst.ops tag with
  | none => s
  | some o => s.setOp tag { o with out := o.out + n }

/-- What an entry was held for is over; a LINGERING one frees with its last hold (R330, R615). -/
def State.holdBack (s : State) (tag : Nat) : State :=
  match AMap.find? s.tst.ops tag with
  | none => s
  | some o =>
    if o.lingering ∧ o.out ≤ 1 then s.freeEntry tag else s.setOp tag { o with out := o.out - 1 }

/-- A lower layer's result returns to an entry; at a LINGERING one it is discarded and counted LATE (R330). -/
def State.resultBack (s : State) (tag : Nat) : State :=
  match AMap.find? s.tst.ops tag with
  | none => s
  | some o => (if o.lingering ∧ !isDup tag then s.sat (R.TST_SRC_CNT.LATE (Src.ofTag tag).num) else s).holdBack tag

/-! ## Completion queues -/

/-- Whether a delivery target carries traffic (R607, R608). -/
def State.targetReady (s : State) (t : Nat) : Bool :=
  s.flag (R.STA_TGT0.VALID t) && s.fget (R.STA_TGT0.STATE t) == 1

/-- A transfer into host memory through a target, or a read of `n` bytes where `b` is empty (R607). On an RDMA target the packets that
carry it are due. -/
def State.hostXfer (s : State) (t addr : Nat) (b : Bytes) (n : Nat := 0) : State :=
  let s := s.emit (if b = [] then .targetRead t addr n else .hostWrite t addr b)
  if s.fget (R.STA_TGT0.PATH t) = 1 then { s with sta := { s.sta with xfers := s.sta.xfers ++ [(t, addr, b, n)] } } else s

/-- R614, modulo 2^32: record `n` of a ring of `size` fits once the consumer index is at least n - size + 1. -/
def ringHasRoom (ci n size : Nat) : Bool := (ci + 2 ^ 33 + size - (n % 2 ^ 32 + 1)) % 2 ^ 32 < 2 ^ 31

/-- The phase bit of record `n` on a ring of 16 << SIZE (R612). -/
def phaseOf (n sz : Nat) : Nat := 1 - (n >>> (sz + 4)) % 2

/-- The 31 bytes of a completion record before PHASE (R611). -/
def complRec (userTag : Word) (id result pc : Nat) (st : Status) (kind cause : Nat) : Bytes :=
  natLe 8 userTag.toNat ++ natLe 8 id ++ natLe 8 result ++ natLe 4 pc ++ natLe 1 st.code ++ natLe 1 kind ++ natLe 1 cause

/-- Ring address of BASE or EQ_BASE (R626). -/
def ringAddr (base n sz : Nat) : Nat := base * 4096 + 32 * (n % (16 * 2 ^ sz))

/-- STATE of a VALID queue that is not OVERRUN, by what waits on it (R615). -/
def State.cqState (s : State) (c : Nat) : State :=
  if s.fget (R.STA_CQ0.STATE c) = 3 then s
  else s.fset (R.STA_CQ0.STATE c)
    (if (s.cq c).waiting ≠ [] then 2 else if s.fget (R.STA_CQ1.BASE c) = 0 then 0 else 1)

/-- The first waiting record of a queue is written, if its target, BASE and room allow (R612, R614). -/
def State.cqWrite (s : State) (c : Nat) : State :=
  let q := s.cq c
  let sz := s.fget (R.STA_CQ0.SIZE c)
  let tg := s.fget (R.STA_CQ0.TARGET c)
  let base := s.fget (R.STA_CQ1.BASE c)
  match q.waiting with
  | [] => s
  | r :: rest =>
    if s.targetReady tg ∧ base ≠ 0 ∧ ringHasRoom q.ci q.n (16 * 2 ^ sz) then
      let s := s.setCq c { q with waiting := rest, n := q.n + 1 }
      ((s.hostXfer tg (ringAddr base q.n sz) (r ++ natLe 1 (phaseOf q.n sz))).inc R.STA_CNT.WRITTEN).dec R.STA_STAT.PENDING
    else s

/-- Writes waiting records in COUNT order while they fit (R613, R614); a record that still waits for room has the consumer
index read again (R614). -/
def State.cqFlush (s : State) (c : Nat) : State :=
  let s := (s.cq c).waiting.foldl (fun s _ => s.cqWrite c) s
  let tg := s.fget (R.STA_CQ0.TARGET c)
  let s := if (s.cq c).waiting ≠ [] ∧ s.targetReady tg ∧ s.fget (R.STA_CQ1.BASE c) ≠ 0 then
      s.hostXfer tg (s.fget (R.STA_CQ2.CI_ADDR c) * 8) [] 8 else s
  s.cqState c

/-- A record enters the completion buffer. -/
def State.cqPush (s : State) (c : Nat) (r : Bytes) : State :=
  ((s.setCq c { s.cq c with waiting := (s.cq c).waiting ++ [r] }).inc R.STA_STAT.PENDING).cqFlush c

/-- Records that found the completion buffer full enter it as room comes, and their entries free (R615). -/
def State.cqAdmitOverflow (s : State) : State :=
  s.sta.overflow.foldl (fun s _ =>
    match s.sta.overflow with
    | (c, r, tag) :: rest =>
      if s.fget R.STA_STAT.PENDING < 65536 then
        (({ s with sta := { s.sta with overflow := rest } }).cqPush c r).holdBack tag
      else s
    | [] => s) s

/-- COUNT gates that watch a queue open when COUNT - GATE_ARG, in 32-bit two's complement, is 0 or more (R412); opened work
requests stand in the order they opened (R413). -/
def gateReached (count arg : Nat) : Bool := (count + 2 ^ 32 - arg % 2 ^ 32) % 2 ^ 32 < 2 ^ 31

/-- Opens the work requests that satisfy `p`, at the current JSN (R412, R413). -/
def State.openGates (s : State) (p : Wr → Bool) : State :=
  let hit := s.xpt.wrs.filter fun w => w.opened.isNone && p w
  let miss := s.xpt.wrs.filter fun w => !(w.opened.isNone && p w)
  { s with xpt := { s.xpt with wrs := miss ++ hit.map fun w => { w with opened := some (s.fget R.JNL_JSN.JSN) } } }

/-- Produces one completion record (R613): misrouted ones are discarded (R616), COUNT rises, COUNT gates open, and the record
is discarded under OVERRUN, enters the buffer, or waits outside it holding its operation's entry `tag` (R615). -/
def State.produce (s : State) (c : Nat) (tenant : BitVec 24) (r : Bytes) (tag : Option Nat := none) : State :=
  if 65536 ≤ c ∨ ¬ s.flag (R.STA_CQ0.VALID c) ∨ s.fget (R.STA_CQ0.TENANT c) ≠ tenant.toNat then
    s.sat R.STA_CNT.MISROUTED
  else
    let s := s.inc (R.STA_CQ3.COUNT c)
    let s := s.openGates fun w => w.gate == 2 && w.gateCq == c && gateReached (s.fget (R.STA_CQ3.COUNT c)) w.gateArg
    if s.fget (R.STA_CQ0.STATE c) = 3 then s.sat (R.STA_CQ3.LOST c)
    else if s.fget R.STA_STAT.PENDING < 65536 then s.cqPush c r
    else
      let s := match tag with | some t => s.oweResults t 1 | none => s
      ({ s with sta := { s.sta with overflow := s.sta.overflow ++ [(c, r, tag.getD 262144)] } }).cqState c

/-! ## Events -/

/-- Severity of an event code (R619). -/
def evSev (code : Nat) : Nat :=
  if [0x0105, 0x0208, 0x0704].contains code then 3
  else if [0x0207, 0x0303, 0x0304, 0x0401, 0x0601].contains code then 0
  else if [0x0101, 0x0201, 0x0301, 0x0602, 0x0603, 0x0604, 0x0701, 0x0703, 0x0801, 0x0901, 0x0A01, 0x0B01, 0x0B02].contains code then 1
  else 2

/-- An event record (R617). -/
def evRec (s : State) (code : Nat) (device : Bool) (phase seq subject detail : Nat) : Bytes :=
  natLe 2 code ++ natLe 1 (evSev code + 4 * device.toNat) ++ natLe 1 phase ++ natLe 4 seq ++ natLe 8 s.timeNs
    ++ natLe 8 subject ++ natLe 8 detail

/-- Whether an event queue has room on its cached consumer index (R619). -/
def State.eqFits (s : State) (k : Nat) : Bool :=
  ringHasRoom (s.eq k).ci (s.eq k).n (16 * 2 ^ s.fget (R.STA_TPAGE0.EQ_SIZE k))

/-- Room for an event: a BASE, a target that is not BROKEN, and the cached consumer index or one read of it (R619). What the
host's word holds is a free value (log entry 6). -/
def State.eqRoom (s : State) (k : Nat) : Bool × State :=
  let tg := s.fget (R.STA_TPAGE0.EQ_TARGET k)
  if s.fget (R.STA_TPAGE1.EQ_BASE k) = 0 ∨ ¬ s.targetReady tg then (false, s)
  else if s.eqFits k then (true, s)
  else
    let (w, s) := (s.hostXfer tg (s.fget (R.STA_TPAGE2.EQ_CI_ADDR k) * 8) [] 8).drawWord
    let s := s.setEq k { s.eq k with ci := w.toNat % 2 ^ 32 }
    (s.eqFits k, s)

/-- Writes one event into an event queue that has room. -/
def State.eqWrite (s : State) (k code : Nat) (device : Bool) (subject detail : Nat) : State :=
  let q := s.eq k
  let sz := s.fget (R.STA_TPAGE0.EQ_SIZE k)
  let r := evRec s code device (phaseOf q.n sz) q.seq subject detail
  (s.setEq k { q with n := q.n + 1, seq := (q.seq + 1) % 2 ^ 32, written := (q.written + 1) % 2 ^ 32 }).hostXfer
    (s.fget (R.STA_TPAGE0.EQ_TARGET k)) (ringAddr (s.fget (R.STA_TPAGE1.EQ_BASE k)) q.n sz) r

/-- An event at the queue of a page slot: EQ_OVERRUN first where events were lost, then the event, or a loss (R619). -/
def State.eqPost (s : State) (k code : Nat) (device : Bool) (subject detail : Nat) : State :=
  let (room, s) := s.eqRoom k
  let drop := fun (s : State) =>
    let q := s.eq k
    s.setEq k { q with seq := (q.seq + 1) % 2 ^ 32, lost := (q.lost + 1) % 2 ^ 32, owed := q.owed + 1 }
  if !room then drop s
  else if (s.eq k).owed = 0 then s.eqWrite k code device subject detail
  else
    let s := s.eqWrite k 0x0C01 false 0 (s.eq k).owed
    let s := s.setEq k { s.eq k with owed := 0 }
    let (room, s) := s.eqRoom k
    if room then s.eqWrite k code device subject detail else drop s

/-- The route of tenant-scope events (R618). -/
def State.postTenant (s : State) (t : BitVec 24) (code : Nat) (device : Bool) (subject detail : Nat) : State :=
  match s.pageSlot t with
  | none => s.sat R.STA_CNT.OVERRUNS
  | some k => s.eqPost k code device subject detail

/-- The route of device-scope events: the log, the global ring, the queue of tenant 0 (R618). -/
def State.postD (s : State) (code subject detail : Nat) : State :=
  let q := s.sta.devSeq
  let r := evRec s code true (Config.logPhase q).toNat q subject detail
  let s := { s with sta := { s.sta with
    devSeq := (q + 1) % 2 ^ 32
    ring := (s.sta.ring ++ [evRec s code true 0 q subject detail]).drop (s.sta.ring.length + 1 - 32) } }
  let s := s.fset R.STA_STAT.EVLOG_SEQ q
  let s := (List.range 4).foldl (fun s w => s.fset (R.STA_EVLOG.WORD (4 * (q % 4096) + w)) (fieldAt r (8 * w) 8)) s
  s.postTenant 0 code true subject detail

/-- Events of scope T. -/
def State.postT (s : State) (t : BitVec 24) (code subject detail : Nat) : State := s.postTenant t code false subject detail

/-- Events of scope T+D take both routes (R618). -/
def State.postTD (s : State) (t : BitVec 24) (code subject detail : Nat) : State :=
  (s.postD code subject detail).postT t code subject detail

end Sys2Proof.Machine
end

