-- ==== Sys2Proof/Machine/Tiles.lean ====
section
/-! DEFINITION. Tiles as they are stored: keys (R448, R449), tag, tweak and seal (R51 to R60), codewords and parity (R53 to
R56), verification and the trials (R78, R83), the generation table as a tree (R68 to R70), and live versions (R61, R62). -/

namespace Sys2Proof.Machine

/-! ## Keys -/

/-- The device root key in bytes (R447). -/
def rootKey : Bytes := natBe 32 Config.deviceRootKey.toNat

/-- A DEVICE key (PURPOSE 0x09) by its OBJECT (R449). -/
def deviceKey (obj : Nat) : Bytes := kdf rootKey (keyLabel 0x09 0 obj 0 0) (if obj = 7 then 512 else 256)

/-- Bits [127:64] of AES-256-CMAC under a DEVICE key: ROOT_SEAL, the MACs of R126, R161, R185 and of the configuration
sector. -/
def deviceMac (obj : Nat) (b : Bytes) : Word := top64 (cmac (deviceKey obj) b)

/-- The 32 bytes of a root record (R75). -/
def rootBytes (q a b : Nat) : Bytes :=
  let d := natLe 4 q ++ natLe 6 a ++ natLe 6 b ++ natLe 8 0
  d ++ natLe 8 (deviceMac 1 d).toNat

/-- The pair secret in bytes; without one nothing is derived from it, and the zero key stands for the absent register. -/
def State.pairSecret (s : State) : Bytes := natBe 32 (s.prm.secret.getD 0).toNat

/-- K_T for a tenant epoch (PURPOSE 0x03, R449). -/
def State.tenantKey (s : State) (t : BitVec 24) (epoch : Nat) : Bytes := kdf s.pairSecret (keyLabel 0x03 t.toNat 0 epoch 0) 256

/-! ## Tile keys of the model -/

/-- System space begins at this key: tile g of the generation table is `sysBase + g` (R69). -/
def sysBase : Nat := 2 ^ 37
/-- A tile of system space. -/
def isSys (t : Nat) : Bool := sysBase ≤ t
/-- Extent of a data tile (R25). -/
def extOf (t : Nat) : Nat := t / 2 ^ 18
/-- The tile index as tweak, mask and tag take it: g in place of the tile index for a system tile (R69). -/
def tileNum (t : Nat) : Nat := if isSys t then t - sysBase else t
/-- First system tile number of levels 1, 2 and 3 (R69). -/
def lvl1 : Nat := 268435456
def lvl2 : Nat := 268959744
def lvl3 : Nat := 268960768
/-- One past the last system tile number (R69). -/
def sysEnd : Nat := 268960770

/-- The table tile that holds the entry of a tile, or none for a level-3 tile, which the root describes (R68). -/
def parentOf (t : Nat) : Option Nat :=
  if isSys t then
    let g := t - sysBase
    if g < lvl1 then some (sysBase + lvl1 + g / 512)
    else if g < lvl2 then some (sysBase + lvl2 + (g - lvl1) / 512)
    else if g < lvl3 then some (sysBase + lvl3 + (g - lvl2) / 512)
    else none
  else some (sysBase + t / 512)

/-- Child `i` of a table tile (R68). -/
def childOf (t i : Nat) : Nat :=
  let g := t - sysBase
  if g < lvl1 then 512 * g + i
  else if g < lvl2 then sysBase + 512 * (g - lvl1) + i
  else if g < lvl3 then sysBase + lvl1 + 512 * (g - lvl2) + i
  else sysBase + lvl2 + 512 * (g - lvl3) + i

/-- The leaf of the generation table that holds a data tile's entry (R68). -/
def leafOf (t : Nat) : Nat := sysBase + t / 512

/-- Leaf `l` is at hand: cached, or not materialised, so that its entries read ZERO but for records (R70, R72). -/
def State.leafHeld (s : State) (l : Nat) : Bool := s.jnl.leaves.contains l || (AMap.get {} s.gen (sysBase + l)).zero

/-- A tile's entry is at hand; those of table tiles are always cached (R72). -/
def State.leafHere (s : State) (t : Nat) : Bool := isSys t || s.leafHeld (t / 512)

/-- A table tile's contents are at hand. -/
def State.tableHeld (s : State) (t : Nat) : Bool := lvl1 ≤ t - sysBase || s.leafHeld (t - sysBase)

/-- Whether `t` lies below table tile `a` (R68): at most four steps up. -/
def isBelow (t a : Nat) : Bool :=
  let up := fun (o : Option Nat) => o.bind parentOf
  let p1 := parentOf t
  let p2 := up p1
  let p3 := up p2
  let p4 := up p3
  [p1, p2, p3, p4].any (· == some a)

/-! ## Tag, tweak, seal -/

/-- Owner, key object and key epoch of a tile (R449, R69). -/
def State.tileLabel (s : State) (t : Nat) : Nat × Nat × Nat :=
  if isSys t then (0, 1, 0)
  else ((s.extent (extOf t)).owner.toNat, extOf t, (s.extent (extOf t)).epoch.toNat)

/-- The 512-bit media key (R52, R449). -/
def State.mediaKey (s : State) (t : Nat) : Bytes :=
  let l := s.tileLabel t
  kdf rootKey (keyLabel 0x01 l.1 l.2.1 l.2.2 0) 512

/-- The seal key K (R57); tenant 0 under the device root key (R59). -/
def State.sealKey (s : State) (t : Nat) : Bytes :=
  let l := s.tileLabel t
  kdf (if l.1 = 0 then rootKey else s.pairSecret) (keyLabel 0x02 l.1 l.2.1 l.2.2 0) 256

/-- The XTS tweak (R52). -/
def tileTweak (t : Nat) (v : Ver) : Bytes := natBe 16 (tileNum t * 2 ^ 91 + v.reloc * 2 ^ 79 + v.gen * 2 ^ 31)

/-- The mask of R57 under seal key `k`. -/
def sealMask (k : Bytes) (t : Nat) (v : Ver) : Word :=
  top64 (aesEnc k (natBe 16 (tileNum t * 2 ^ 88 + v.reloc * 2 ^ 76 + v.gen * 2 ^ 28 + 1)))

/-- SEAL of a plaintext (R58). -/
def State.tileSeal (s : State) (t : Nat) (v : Ver) (plain : Bytes) : Word :=
  let k := s.sealKey t
  let h := beNat (aesEnc k (List.replicate 16 0))
  top64 (natBe 16 (ghash h (chunks 16 256 (slice plain 0 4096)))) ^^^ sealMask k t v

/-- The incremental update of R60, from an old plaintext and seal to a new one. -/
def State.sealUpdate (s : State) (t : Nat) (old : Ver) (oldSeal : Word) (oldPlain : Bytes) (v : Ver) (plain : Bytes) : Word :=
  let k := s.sealKey t
  let h := beNat (aesEnc k (List.replicate 16 0))
  let acc := (List.range 256).foldl (fun acc j =>
    let a := slice oldPlain (16 * j) 16
    let b := slice plain (16 * j) 16
    if a = b then acc else acc ^^^ ghashMul (beNat (xorBytes a b)) (ghashPow h (256 - j))) 0
  oldSeal ^^^ sealMask k t old ^^^ sealMask k t v ^^^ top64 (natBe 16 acc)

/-- The 64-byte tag (R51). -/
def State.tileTag (s : State) (t : Nat) (v : Ver) (seal64 : Word) : Bytes :=
  natLe 8 seal64.toNat ++ natLe 6 v.gen ++ natLe 2 (v.reloc + 4096 * (isSys t).toNat)
    ++ natLe 4 (if isSys t then 1 else extOf t) ++ natLe 4 (if isSys t then t - sysBase else t % 2 ^ 18)
    ++ natLe 4 (s.tileLabel t).2.2 ++ List.replicate 36 0

/-! ## Codewords -/

/-- The 16 data payloads (R53). -/
def dataPayloads (cipher tag : Bytes) : List Bytes :=
  (List.range 16).map fun k => slice cipher (256 * k) 256 ++ slice tag (4 * k) 4

/-- Scales a payload by g^k. -/
def scale (c : Byte) (p : Bytes) : Bytes := p.map (gf8 c)

/-- P over data payloads (R54). -/
def parityP (ds : List Bytes) : Bytes := ds.foldl xorBytes (List.replicate 260 0)
/-- Q over data payloads (R54). -/
def parityQ (ds : List Bytes) : Bytes :=
  (ds.zipIdx.map fun p => scale (gf8Pow p.2) p.1).foldl xorBytes (List.replicate 260 0)

/-- The 18 codewords of a stripe, P as 16 and Q as 17 (R53 to R56). -/
def stripeWords (ds : List Bytes) : List Bytes := (ds ++ [parityP ds, parityQ ds]).map rsEncode

/-- The data payloads where payloads at most two are lost, or none (R56, R83 step 2). -/
def recoverData (pay : List (Option Bytes)) : Option (List Bytes) :=
  let zero := List.replicate 260 (0 : Byte)
  let ds := (List.range 16).map fun k => (pay.getD k none).getD zero
  let lost := (List.range 16).filter fun k => (pay.getD k none).isNone
  match lost, pay.getD 16 none, pay.getD 17 none with
  | [], _, _ => some ds
  | [i], some p, _ => some (ds.set i (xorBytes p (parityP ds)))
  | [i], none, some q => some (ds.set i (scale (gf8Inv (gf8Pow i)) (xorBytes q (parityQ ds))))
  | [i, j], some p, some q =>
    let pp := xorBytes p (parityP ds)
    let qq := xorBytes q (parityQ ds)
    let d := gf8Inv (gf8Pow i ^^^ gf8Pow j)
    let di := scale d (xorBytes (scale (gf8Pow j) pp) qq)
    some ((ds.set i di).set j (xorBytes pp di))
  | _, _, _ => none

/-! ## Verification -/

/-- The tag of a list of data payloads. -/
def payTag (ds : List Bytes) : Bytes := (ds.map fun d => slice d 256 4).flatten
/-- The ciphertext of a list of data payloads. -/
def payCipher (ds : List Bytes) : Bytes := (ds.map fun d => slice d 0 256).flatten

/-- The check of R78 on a stored copy: the tag has exactly the expected fields, and SEAL matches the plaintext. -/
def State.checkCopy (s : State) (t : Nat) (v : Ver) (tag cipher : Bytes) : Option (Bytes × Word) :=
  let seal64 := BitVec.ofNat 64 (fieldAt tag 0 8)
  if slice tag 0 64 ≠ s.tileTag t v seal64 then none
  else
    let plain := xtsDec (s.mediaKey t) (tileTweak t v) (slice cipher 0 4096)
    if s.tileSeal t v plain = seal64 then some (plain, seal64) else none

/-- The same on data payloads. -/
def State.checkData (s : State) (t : Nat) (v : Ver) (ds : List Bytes) : Option (Bytes × Word) :=
  s.checkCopy t v (payTag ds) (payCipher ds)

/-- The version a tag carries. -/
def tagVer (tag : Bytes) : Ver := ⟨fieldAt tag 14 2 % 4096, fieldAt tag 8 6⟩

/-- Order of versions: RELOC first (R62, R85). -/
def Ver.lt (a b : Ver) : Bool := a.reloc < b.reloc || (a.reloc == b.reloc && a.gen < b.gen)
/-- At or below. -/
def Ver.le (a b : Ver) : Bool := !b.lt a

/-- A stale copy: its seal verifies under its own tag version, which lies below the table's (R92). -/
def State.isStale (s : State) (t : Nat) (v : Ver) (ds : List Bytes) : Bool :=
  let w := tagVer (payTag ds)
  w.lt v && (s.checkData t w ds).isSome

/-- The rounds of trials of R83 step 3, each a list of the positions that its trials treat as lost beside those already lost: single data
codewords, and with none lost then pairs. -/
def trialRounds (lost : List Nat) : List (List (List Nat)) :=
  match lost with
  | [] => [(List.range 16).map fun k => [k],
      ((List.range 16).map fun i => ((List.range 16).filter (i < ·)).map fun j => [i, j]).flatten]
  | [l] => [((List.range 16).filter (· ≠ l)).map fun k => [k]]
  | _ => []

/-- The trials of one round that verify. -/
def State.trialHits (s : State) (t : Nat) (v : Ver) (pay : List (Option Bytes)) (round : List (List Nat)) : List (Bytes × Word) :=
  round.filterMap fun ks => (recoverData (pay.zipIdx.map fun p => if ks.contains p.2 then none else p.1)).bind (s.checkData t v)

/-- The trial of R83 step 3 that verifies: of the first round in which any does, and only if no other of it does, for a pair that holds the
one wrong codeword verifies as that codeword alone does. A trial on one data codeword of a stripe with none lost uses P alone. -/
def State.trials (s : State) (t : Nat) (v : Ver) (pay : List (Option Bytes)) : Option (Bytes × Word) :=
  let lost := (List.range 18).filter fun k => (pay.getD k none).isNone
  match (trialRounds lost).find? fun round => s.trialHits t v pay round ≠ [] with
  | some round => (match s.trialHits t v pay round with | [h] => some h | _ => none)
  | none => none

/-- What the first three steps of R83 find on the codewords of a stripe. -/
structure Verified where
  /-- Plaintext and seal, if a step yielded a tile that verifies. -/
  tile : Option (Bytes × Word)
  /-- Codewords corrected by their own code. -/
  corrected : Nat
  /-- Parity or trials were needed. -/
  recon : Bool
  /-- Every codeword decoded and the tile failed. -/
  mismatch : Bool
  stale : Bool
  /-- Positions whose stored codeword was wrong, lost or not in service. -/
  bad : List Nat
  deriving DecidableEq, Repr

/-- Steps 1 to 3 of R83 over the 18 codewords of a tile, `none` where one is lost. -/
def State.verifyStripe (s : State) (t : Nat) (v : Ver) (cws : List (Option Bytes)) : Verified :=
  let dec := cws.map fun c => c.bind rsDecode
  let pay := dec.map fun d => d.map (·.1)
  let fixed := (List.range 18).filter fun k => match dec.getD k none with | some (_, n) => n ≠ 0 | none => false
  let lost := (List.range 18).filter fun k => (pay.getD k none).isNone
  let first := (recoverData pay).bind (s.checkData t v)
  match first with
  | some h => ⟨some h, fixed.length, lost ≠ [], false, false, fixed ++ lost⟩
  | none =>
    let clean := lost = []
    let stale := match recoverData pay with | some ds => s.isStale t v ds | none => false
    match s.trials t v pay with
    | some h => ⟨some h, fixed.length, true, clean, stale, List.range 18⟩
    | none => ⟨none, fixed.length, false, clean, stale, lost⟩

/-- The stripe of a plaintext at a version: its 18 codewords (R81). -/
def State.buildStripe (s : State) (t : Nat) (v : Ver) (plain : Bytes) (seal64 : Word) : List Bytes :=
  stripeWords (dataPayloads (xtsEnc (s.mediaKey t) (tileTweak t v) (slice plain 0 4096)) (s.tileTag t v seal64))

/-! ## Records, the journal index and live versions -/

/-- Tiles a record touches, with what it writes there (R97); a TABLE record touches the table tile (R74), an ATTR or ROOT
record none. -/
def Body.segs : Body → List Seg
  | .data l => l
  | .rmw t off w _ => [⟨t, off, List.replicate w 0⟩]
  | .reloc t => [⟨t, 0, []⟩]
  | .table t _ => match parentOf t with | some p => [⟨p, 0, []⟩] | none => []
  | .attr _ | .root _ _ _ => []

/-- Tiles touched, each once. -/
def Body.tiles (b : Body) : List Nat := (b.segs.map Seg.tile).eraseDups

/-- Whether a record relocates. -/
def Body.isReloc : Body → Bool
  | .reloc _ => true
  | _ => false

/-- Whether a record is one of the journal engine's own that may use the reserves (R94, R96). -/
def Body.isTable : Body → Bool
  | .table _ _ | .root _ _ _ => true
  | _ => false

/-- The pending records of a tile in JSN order (R61): admitted, and not retired past. -/
def State.pendingFor (s : State) (t : Nat) : List Rec :=
  s.jnl.recs.filter fun r => r.body.tiles.contains t && !r.doneTiles.contains t

/-- The live version after records pending for a tile (R61). -/
def liveAfter (g : Gen) (rs : List Rec) : Ver :=
  rs.foldl (fun v r => if r.body.isReloc then ⟨v.reloc + 1, 0⟩ else ⟨v.reloc, v.gen + 1⟩) ⟨g.reloc, g.gen⟩

/-- The records of a tile that raise its version above `v` (R85). -/
def aboveVer (g : Gen) (rs : List Rec) (v : Ver) : List Rec :=
  (rs.zipIdx.filter fun p => !(liveAfter g (rs.take (p.2 + 1))).le v).map (·.1)

/-- The live version of a tile (R61, R62). -/
def State.liveVer (s : State) (t : Nat) : Ver := liveAfter (s.genEntry t) (s.pendingFor t)

/-- The stored version, which the generation table expects (R79). -/
def State.storedVer (s : State) (t : Nat) : Ver := ⟨(s.genEntry t).reloc, (s.genEntry t).gen⟩

/-- Overlays records' bytes on a tile, in JSN order (R45, R118). -/
def overlayRecs (t : Nat) (plain : Bytes) (rs : List Rec) : Bytes :=
  rs.foldl (fun p r => match r.body with
    | .data segs => segs.foldl (fun p g => if g.tile = t then overlay p g.off g.bytes else p) p
    | _ => p) plain

/-- Whether records together cover all 4,096 bytes of a tile (R81, R87, R90). -/
def covers (t : Nat) (rs : List Rec) : Bool :=
  (List.range 4096).all fun i => rs.any fun r => match r.body with
    | .data segs => segs.any fun g => g.tile == t && g.off ≤ i && i < g.off + g.bytes.length
    | _ => false

/-- The 4,096 zero bytes of R67. -/
def zeroTile : Bytes := List.replicate 4096 0

/-- A generation-table entry as its table tile stores it (R70), without ATTN; QUAR stands in leaf entries alone. -/
def Gen.word (g : Gen) : Nat := g.gen + g.reloc * 2 ^ 48 + g.zero.toNat * 2 ^ 60 + g.quar.toNat * 2 ^ 61

/-- The level at which R65 and R70 warn. -/
def genWarn : Nat := 0xFFFF00000000
/-- The last generation (R64). -/
def genMax : Nat := 0xFFFFFFFFFFFF

/-- ATTN of a table tile's entry (R70): a tile below is quarantined or near exhaustion. -/
def State.attn (s : State) (a : Nat) : Bool :=
  s.gen.any fun p => isBelow p.1 a && !isSys p.1 && (p.2.quar || genWarn ≤ (s.liveVer p.1).gen)

/-- The contents of a generation-table tile: the entries of its 512 children (R68, R70). -/
def State.tableTile (s : State) (t : Nat) : Bytes :=
  ((List.range 512).map fun i =>
    let c := childOf t i
    let g := s.genEntry c
    natLe 8 (if isSys c then { g with quar := false }.word + (s.attn c).toNat * 2 ^ 62 else g.word)).flatten

/-- The entry a word of a table tile holds (R70). -/
def genOfWord (w : Nat) : Gen :=
  { quar := w.testBit 61, zero := w.testBit 60, reloc := (w >>> 48) % 4096, gen := w % 2 ^ 48 }

end Sys2Proof.Machine
end

