-- ==== Sys2Proof/Machine/FlashOps.lean ====
section
/-! DEFINITION. The flash as everything but firmware uses it: code words and sector headers (R556 to R564), the record log (R572 to
R575), configuration sectors (R576, R577) and the commit log (R581, R582). -/

namespace Sys2Proof.Machine

/-! ## Code words and headers -/

/-- Bytes 0 to 27 of a header word with its CRC (R562). -/
def withCrc (b : Bytes) : Bytes := slice b 0 28 ++ natLe 4 (crc32c (slice b 0 28)).toNat
/-- An erase seal. -/
def eraseSeal (erases : Nat) : Bytes := withCrc (natLe 4 0xE5EA1ED0 ++ natLe 4 erases)
/-- A data header. -/
def dataHeader (kind seq : Nat) : Bytes := withCrc (natLe 4 0xDA7A0001 ++ natLe 1 kind ++ natLe 3 0 ++ natLe 8 seq)

/-- A valid erase seal. -/
def isSeal (b : Bytes) : Bool := b == eraseSeal (fieldAt b 4 4)
/-- A valid data header. -/
def isHeader (b : Bytes) : Bool := b == dataHeader (fieldAt b 4 1) (fieldAt b 8 8)

/-- The code word at an index, which is sector * 2,048 + word; none where it is erased. Every sector leaves manufacture erased and
sealed once (log entry 41); an erased word 0 of a sector without a seal is held as no bytes. -/
def State.codeWord (s : State) (i : Nat) : Option Bytes :=
  match AMap.find? s.fls.words i with
  | some [] => none
  | some b => some b
  | none => if i % 2048 = 0 then some (eraseSeal 1) else none

/-- Programs an erased code word. -/
def State.putWord (s : State) (i : Nat) (b : Bytes) : State :=
  { s with fls := { s.fls with words := AMap.put s.fls.words i (slice b 0 32) } }

/-- A sector is half-erased: it has no seal, or word 1 is neither erased nor a header (R564). -/
def State.halfErased (s : State) (sec : Nat) : Bool :=
  !((s.codeWord (sec * 2048)).any isSeal) || (s.codeWord (sec * 2048 + 1)).any fun b => !isHeader b

/-- Sectors the last scan found half-erased and that have not been erased since (R564). -/
def State.isHalf (s : State) (sec : Nat) : Bool := s.fls.half.contains sec

/-- Clears a sector and seals it with a count one higher, or leaves it without a seal (R563). -/
def State.clearSector (s : State) (sec : Nat) (ok : Bool) : State :=
  let n := match s.codeWord (sec * 2048) with | some b => if isSeal b then fieldAt b 4 4 + 1 else 1 | none => 1
  let ws := s.fls.words.filter fun p => p.1 / 2048 ≠ sec
  let s := { s with fls := { s.fls with
    words := AMap.put ws (sec * 2048) (if ok then eraseSeal n else [])
    half := if ok then s.fls.half.filter (· ≠ sec) else (if s.fls.half.contains sec then s.fls.half else s.fls.half ++ [sec]) } }
  let s := s.fset R.FLS_HALF.LEFT s.fls.half.length
  if ok then s.sat R.FLS_CNT.ERASES else s

/-- The record bank: the one that does not run (R561). -/
def State.recordBank (s : State) : Nat := 1 - s.fget R.FLS_STAT.RUN_BANK

/-- The kind and SECTOR_SEQ of a sector that carries a data header. -/
def State.sectorHead (s : State) (sec : Nat) : Option (Nat × Nat) :=
  (s.codeWord (sec * 2048 + 1)).bind fun b => if isHeader b then some (fieldAt b 4 1, fieldAt b 8 8) else none

/-- Sectors of a range with a header of a kind: sector and SECTOR_SEQ. -/
def State.headsOf (s : State) (secs : List Nat) (kind : Nat) : List (Nat × Nat) :=
  secs.filterMap fun sec => match s.sectorHead sec with | some (k, q) => if k = kind then some (sec, q) else none | none => none

/-- The larger of two by the second part. -/
def maxSeq : List (Nat × Nat) → Option (Nat × Nat)
  | [] => none
  | p :: r => match maxSeq r with
    | some q => if p.2 < q.2 then some q else some p
    | none => some p

/-- The first erased data word of a sector. -/
def State.nextWord (s : State) (sec : Nat) : Option Nat :=
  let top := (s.fls.words.filter fun p => p.1 / 2048 == sec).foldl (fun m p => max m (p.1 % 2048)) 1
  if top + 1 < 2048 then some (sec * 2048 + top + 1) else none

/-- Words of log sectors, newest first: by SECTOR_SEQ, then by place (R572). -/
def State.logWords (s : State) (secs : List Nat) (kind : Nat) : List Bytes :=
  let heads := sortBy (fun a b => b.2 ≤ a.2) (s.headsOf secs kind)
  (heads.map fun h => ((s.fls.words.filter fun p => p.1 / 2048 == h.1 && 2 ≤ p.1 % 2048).map (·.2)).reverse).flatten

/-! ## The record log -/

/-- Log sectors of a bank (R561). -/
def logSecs (bank : Nat) : List Nat := (List.range 8).map fun i => bank * 2048 + 8 + i
/-- Log sectors of both banks. -/
def allLogSecs : List Nat := logSecs 0 ++ logSecs 1

/-- PAIR_ID (R161). -/
def State.pairId (s : State) : Word :=
  let c := cmac (kdf s.pairSecret (keyLabel 0x08 0 0 0 0) 256) (List.replicate 16 0)
  BitVec.ofNat 64 (beNat (c.drop 8))

/-- The 32 bytes of a log record (R75, R161, R573). -/
def State.logBytes (s : State) (r : LogRec) : Bytes :=
  match r with
  | .root q a b => rootBytes q a b
  | .pair st term hi =>
    let d := natLe 2 0x7E29 ++ natLe 1 st ++ [0] ++ natLe 4 term ++ natLe 8 s.pairId.toNat ++ natLe 8 hi
    d ++ natLe 8 (deviceMac 3 d).toNat
  | .start n =>
    let d := natLe 2 0x5C0A ++ natLe 2 0 ++ natLe 4 n ++ natLe 16 0
    d ++ natLe 8 (deviceMac 1 (0x53 :: d)).toNat

/-- Whether a code word is a valid root, pair-state or start record (R573). -/
def isRootRec (b : Bytes) : Bool := fieldAt b 24 8 == (deviceMac 1 (slice b 0 24)).toNat
def isPairRec (b : Bytes) : Bool := fieldAt b 0 2 == 0x7E29 && fieldAt b 24 8 == (deviceMac 3 (slice b 0 24)).toNat
def isStartRec (b : Bytes) : Bool := fieldAt b 0 2 == 0x5C0A && fieldAt b 24 8 == (deviceMac 1 (0x53 :: slice b 0 24)).toNat

/-- The newest record of a kind (R572). -/
def State.newest (s : State) (p : Bytes → Bool) : Option Bytes := (s.logWords allLogSecs 3).find? p

/-- The newest root in flash: SEQ, GEN_TOP0, GEN_TOP1. -/
def State.flashRoot (s : State) : Option (Nat × Nat × Nat) :=
  (s.newest isRootRec).map fun b => (fieldAt b 0 4, fieldAt b 4 6, fieldAt b 10 6)

/-- The open log sector of the record bank, if it has room. -/
def State.openLog (s : State) : Option Nat :=
  match maxSeq (s.headsOf (logSecs s.recordBank) 3) with
  | some (sec, _) => if s.isHalf sec then none else s.nextWord sec
  | none => none

/-- Erased, sound log sectors of the record bank. -/
def State.spareLogs (s : State) : List Nat :=
  (logSecs s.recordBank).filter fun sec => !s.isHalf sec && (s.codeWord (sec * 2048)).any isSeal && (s.codeWord (sec * 2048 + 1)).isNone

/-- Opens a log sector: header one above the highest, the newest record of each kind, and then the oldest sector of the bank is
erased where fewer than two erased ones are left (R574). -/
def State.openLogSector (s : State) : State :=
  match s.spareLogs with
  | [] => s
  | sec :: _ =>
    let top := match maxSeq (s.headsOf allLogSecs 3) with | some (_, q) => q + 1 | none => 1
    let keep := [s.newest isRootRec, s.newest isPairRec, s.newest isStartRec].filterMap id
    let s := s.putWord (sec * 2048 + 1) (dataHeader 3 top)
    let s := keep.zipIdx.foldl (fun s p => s.putWord (sec * 2048 + 2 + p.2) p.1) s
    if s.spareLogs.length < 2 then
      let olds := (s.headsOf (logSecs s.recordBank) 3).filter fun h => h.1 ≠ sec
      match sortBy (fun (a b : Nat × Nat) => a.2 ≤ b.2) olds with
      | (o, _) :: _ => s.clearSector o true
      | [] => s
    else s

/-- A record is in flash: the journal's root records up to a programmed SEQ retire (R76, R119). -/
def State.rootInFlash (s : State) (q : Nat) : State :=
  { s with jnl := { s.jnl with
    recs := s.jnl.recs.filter fun r => match r.body with | .root p _ _ => q < p | _ => true
    rootDue := s.jnl.rootDue && (match s.jnl.root with | some (p, _, _) => decide (q < p) | none => false) } }

/-- Appends a record to the log (R572, R574). -/
def State.logAppend (s : State) (r : LogRec) : State :=
  let s := if s.openLog.isNone then s.openLogSector else s
  match s.openLog with
  | none => s
  | some i =>
    let s := s.putWord i (s.logBytes r)
    match r with
    | .root q _ _ => s.rootInFlash q
    | _ => s

/-- A record waits for the record writer (R575). -/
def State.logQueue (s : State) (r : LogRec) : State := { s with fls := { s.fls with recq := s.fls.recq ++ [r] } }

/-- STATE of the pair-state record (R161). -/
def State.pairRecState (s : State) : Nat :=
  match s.prmState with
  | 3 | 5 => 2
  | 4 => 3
  | 6 => 4
  | _ => 1

/-- Queues a pair-state record of the state that stands (R161). -/
def State.notePair (s : State) : State := s.logQueue (.pair s.pairRecState (s.fget R.PRM_STAT.TERM) s.prm.seqHigh)

/-! ## Configuration sectors -/

/-- The 65,472 data bytes of a sector. -/
def State.sectorData (s : State) (sec : Nat) : Bytes :=
  ((List.range 2046).map fun i => (s.codeWord (sec * 2048 + 2 + i)).getD (List.replicate 32 0xFF)).flatten

/-- A valid configuration sector: header and MAC (R576). -/
def State.configOk (s : State) (sec : Nat) : Bool :=
  (s.sectorHead sec).any (·.1 == 2) && !s.isHalf sec &&
    (let d := s.sectorData sec
     fieldAt d 65464 8 == (deviceMac 5 (0x46 :: slice d 0 65464)).toNat)

/-- Configuration sectors of a bank. -/
def configSecs (bank : Nat) : List Nat := [bank * 2048 + 2, bank * 2048 + 3]

/-- The current configuration sector: valid, of highest CONFIG_SEQ (R576). -/
def State.configSector (s : State) : Option Nat :=
  (maxSeq (((configSecs 0 ++ configSecs 1).filter s.configOk).map fun sec => (sec, fieldAt (s.sectorData sec) 0 8))).map (·.1)

/-- Its data bytes. -/
def State.config (s : State) : Option Bytes := s.configSector.map s.sectorData

/-- PAIR_WRAP: the pair secret under the wrap key (R149, R576). The nonce is 12 zero bytes, no associated data (log entry 42). -/
def State.pairWrap (s : State) : Bytes :=
  match s.prm.secret with
  | some k => let (c, t) := gcmSeal (deviceKey 4) (List.replicate 12 0) [] (natBe 32 k.toNat); c ++ t
  | none => List.replicate 48 0xFF

/-- Writes a new configuration sector from data bytes, whose controller fields it fills in (R577): the record bank's older or
half-erased sector is erased first. -/
def State.writeConfigSector (s : State) (data : Bytes) : State :=
  let bank := s.recordBank
  let seq := match s.config with | some d => fieldAt d 0 8 + 1 | none => 1
  let pick := match (configSecs bank).filter fun sec => !s.configOk sec with
    | sec :: _ => sec
    | [] => match sortBy (fun (a b : Nat × Nat) => a.2 ≤ b.2) ((configSecs bank).map fun sec => (sec, fieldAt (s.sectorData sec) 0 8)) with
      | (sec, _) :: _ => sec
      | [] => bank * 2048 + 2
  let d := overlay (slice data 0 65472) 0 (natLe 8 seq)
  let d := overlay d 12 (natLe 2 s.prm.joinInc.toNat ++ natLe 2 s.prm.pairInc.toNat)
  let d := overlay d 528 s.pairWrap
  let d := overlay d 65464 (natLe 8 (deviceMac 5 (0x46 :: slice d 0 65464)).toNat)
  let s := if s.isHalf pick ∨ (s.fls.words.any fun p => p.1 / 2048 == pick && p.1 % 2048 ≠ 0) then s.clearSector pick true else s
  let s := s.putWord (pick * 2048 + 1) (dataHeader 2 seq)
  (chunks 32 2046 d).zipIdx.foldl (fun s p => s.putWord (pick * 2048 + 2 + p.2) p.1) s

/-- A region entry of configuration data: FIRST, COUNT, XO, PWD, PASSWORD (R576). -/
def regionOf (d : Bytes) (i : Nat) : Nat × Nat × Bool × Bool × Word :=
  let b := slice d (16 + 32 * i) 32
  (fieldAt b 0 2, fieldAt b 2 2, fieldAt b 4 1 % 2 == 1, fieldAt b 4 1 / 2 % 2 == 1, BitVec.ofNat 64 (fieldAt b 8 8))

/-! ## Commit log -/

/-- A valid commit record (R581). -/
def isCommit (b : Bytes) : Bool := fieldAt b 0 2 == 0xC0A1 && fieldAt b 24 8 == (deviceMac 5 (0x43 :: slice b 0 24)).toNat

/-- Commit-log sectors of a bank. -/
def commitSecs (bank : Nat) : List Nat := [bank * 2048, bank * 2048 + 1]

/-- The current commit record: valid, of highest COMMIT_SEQ in either bank. -/
def State.commitRec (s : State) : Option Bytes :=
  let cs := (s.logWords (commitSecs 0 ++ commitSecs 1) 1).filter isCommit
  cs.foldl (fun (m : Option Bytes) b => match m with
    | some a => if fieldAt a 8 8 < fieldAt b 8 8 then some b else some a
    | none => some b) none

/-- The bytes of a commit record. -/
def commitBytes (st active fallback tries seq ver : Nat) : Bytes :=
  let d := natLe 2 0xC0A1 ++ natLe 1 st ++ natLe 1 (active + 2 * fallback) ++ natLe 4 tries ++ natLe 8 seq ++ natLe 4 ver ++ natLe 4 0
  d ++ natLe 8 (deviceMac 5 (0x43 :: d)).toNat

/-- Appends a commit record to the record bank's commit log, which rotates between its two sectors (R581). -/
def State.commitAppend (s : State) (b : Bytes) : State :=
  let secs := commitSecs s.recordBank
  let put := fun (s : State) (sec : Nat) => match s.nextWord sec with | some i => s.putWord i b | none => s
  match maxSeq (s.headsOf secs 1) with
  | some (sec, q) =>
    if (s.nextWord sec).isSome ∧ !s.isHalf sec then put s sec
    else
      let other := if sec = s.recordBank * 2048 then sec + 1 else sec - 1
      let keep := s.commitRec
      let s := s.clearSector other true
      let s := s.putWord (other * 2048 + 1) (dataHeader 1 (q + 1))
      let s := match keep with | some k => s.putWord (other * 2048 + 2) k | none => s
      put s other
  | none =>
    let sec := s.recordBank * 2048
    let top := match maxSeq (s.headsOf (commitSecs 0 ++ commitSecs 1) 1) with | some (_, q) => q + 1 | none => 1
    let s := if s.isHalf sec then s.clearSector sec true else s
    put (s.putWord (sec * 2048 + 1) (dataHeader 1 top)) sec

/-! ## Images (R579, R580) -/

/-- `n` bytes at `off` of the image of a slot, whose stream lies in words 2 to 2,047 of its sectors (R579). -/
def State.imageBytes (s : State) (img off n : Nat) : Bytes :=
  (List.range n).map fun i =>
    let p := off + i
    let w := p / 32
    ((s.codeWord ((img * 2048 + 64 + w / 2046) * 2048 + 2 + w % 2046)).getD (List.replicate 32 0xFF)).getD (p % 32) 0xFF

/-- SEC_VERSION of an image (R579). -/
def State.imageVersion (s : State) (img : Nat) : Nat := leNat (s.imageBytes img 8 4)

/-- The entry of a management program in the running image's table (R580): offset, length in bytes, and FLAGS: [0] SRAM-resident, [1] SETUP,
[2] PROVISION; a program the table lacks has no bytes. None where the model's flash does not hold the image (log entry 33). -/
def State.progEntry (s : State) (p : Nat) : Option (Nat × Nat × Nat) :=
  let img := s.fget R.SUP_BOOT_STAT.IMAGE
  let word := fun off => leNat (s.imageBytes img off 4)
  let at' := word 24 + 32 * p
  if word 0 ≠ 0x2E1F0A77 then none
  else if word 28 ≤ p then some (0, 0, 2)
  else some (word (at' + 16), word (at' + 20), word (at' + 24))

/-- FLAGS of a management program. -/
def State.progFlags (s : State) (p : Nat) : Option Nat := (s.progEntry p).map (·.2.2)

/-- The word at a pc of a management program: in the image, or in the SRAM section for an SRAM-resident one (R578, R580). -/
def State.progWord (s : State) (p pc : Nat) : Option Nat :=
  (s.progEntry p).map fun e =>
    if e.2.2.testBit 0 then leNat (loadBytes s.ksk.sram (0x80000 + e.1 + pc) 4)
    else leNat (s.imageBytes (s.fget R.SUP_BOOT_STAT.IMAGE) (e.1 + pc) 4)

/-- The setup program: the first that the running image's table marks SETUP (log entry 33). -/
def State.setupProg (s : State) : Nat :=
  ((List.range 256).find? fun p => (s.progEntry p).any fun e => e.2.1 != 0 && e.2.2.testBit 1).getD 0

end Sys2Proof.Machine
end

