-- ==== Sys2Proof/Machine/Lanes.lean ====
section
/-! DEFINITION. The media side: where codewords lie (R174 to R176), commands and their flits (R177 to R183), fences (R191 to
R194), and the trackers that gather a tile's codewords (R186 to R190, R214). -/

namespace Sys2Proof.Machine

/-! ## Placement -/

/-- Lane map of a tile: 0 for system space, else the extent's (R176). -/
def State.mapOf (s : State) (t : Nat) : Nat := if isSys t then 0 else (s.extent (extOf t)).map

/-- Lane of entry `i` of row `r` of map `m` (R175, R203). -/
def State.mapLane (s : State) (m r i : Nat) : Nat := s.fget (R.MED_MAP.LANE m r (i / 8) (i % 8))

/-- The lanes of a row of a map. -/
def State.rowLanes (s : State) (m r : Nat) : List Nat := (List.range 18).map (s.mapLane m r)

/-- Row of a tile in its map (R175, R176). -/
def rowOf (t : Nat) : Nat := tileNum t % 64

/-- Lane of codeword `i` of a tile (R175). -/
def State.laneOf (s : State) (t i : Nat) : Nat := s.mapLane (s.mapOf t) (rowOf t) i

/-- How many rows before `r` of map `m` name a lane (R175). -/
def State.rank (s : State) (m r lane : Nat) : Nat :=
  ((List.range r).filter fun q => (s.rowLanes m q).contains lane).length

/-- Slot of codeword `i` of a tile (R175, R176). -/
def State.slotOf (s : State) (t i : Nat) : Nat :=
  let k := s.rank (s.mapOf t) (rowOf t) (s.laneOf t i)
  if isSys t then 0x480000000 + (tileNum t / 64) * 9 + k
  else extOf t * 36864 + (t % 2 ^ 18) / 64 * 9 + k

/-! ## Lanes -/

/-- Lane states (R203). -/
def State.laneState (s : State) (l : Nat) : Nat := s.fget (R.MED_LANE_STAT.STATE l)
/-- IN_SERVICE or REBUILDING: written by retirements (R189, R195). -/
def State.laneWrites (s : State) (l : Nat) : Bool := s.laneState l == 2 || s.laneState l == 5
/-- Whether a lane is read for a tile: IN_SERVICE, or REBUILDING past the tile's extent (R186). -/
def State.laneReads (s : State) (l t : Nat) : Bool :=
  s.laneState l == 2 || (s.laneState l == 5 &&
    match AMap.find? s.med.rebuild l with
    | some r => if isSys t then !r.system else !r.extents.contains (extOf t)
    | none => false)

/-- Bytes of a command entry (R179). -/
def cmdEntry (tag : Nat) (c : Cmd) : Bytes :=
  natLe 1 c.opcode ++ natLe 1 tag ++ natLe 1 c.count ++ [0] ++ natLe 5 c.slot ++ List.replicate 23 0

/-- The 320 bytes of a flit: header, body, and the CRC-64 of bytes 0 to 311 (R177). -/
def flitImage (ftype : Nat) (fseq ack : BitVec 12) (tag index status ncmd : Nat) (body : Bytes) : Bytes :=
  let b := slice (natLe 8 (ftype + 2 ^ 4 * fseq.toNat + 2 ^ 16 * ack.toNat + 2 ^ 28 * tag + 2 ^ 35 * index + 2 ^ 40 * status + 2 ^ 48 * ncmd)
    ++ body) 0 312
  b ++ natLe 8 (crc64 0 b).toNat

/-- What the scrambler x^58 + x^39 + 1 adds to the next byte: the line bits 58 and 39 before (R177). -/
def scrambleMask (k : BitVec 58) : Byte := (k ^^^ (k >>> 19)).setWidth 8

/-- The last 58 line bits after one more byte. -/
def lineNext (k : BitVec 58) (b : Byte) : BitVec 58 := (k >>> 8) ||| (b.setWidth 58 <<< 50)

/-- Bytes through the scrambler (R177). -/
def scramble (k : BitVec 58) : Bytes → Bytes × BitVec 58
  | [] => ([], k)
  | b :: r =>
    let o := b ^^^ scrambleMask k
    let p := scramble (lineNext k o) r
    (o :: p.1, p.2)

/-- Line bytes through the descrambler (R177). -/
def descramble (k : BitVec 58) : Bytes → Bytes × BitVec 58
  | [] => ([], k)
  | b :: r =>
    let p := descramble (lineNext k b) r
    ((b ^^^ scrambleMask k) :: p.1, p.2)

/-- Puts a flit on the line with the ACK_SEQ of now, after an ALIGN flit where 1,023 flits have gone since the last (R177, R178). -/
def State.putFlit (s : State) (l : Nat) (f : TxFlit) : State :=
  let k := s.link l
  let due := decide (1023 ≤ k.sinceAlign)
  let p := scramble k.tx (flitImage f.ftype f.fseq k.lastGood f.tag f.index 0 f.ncmd f.body)
  let s := if due then s.emit (.medAlign l) else s
  (s.setLink l { k with tx := p.2, sinceAlign := if due then 1 else k.sinceAlign + 1 }).emit (.medFlit l p.1)

/-- Sends a numbered flit: it takes the next FSEQ and is held until acknowledged (R177, R182). -/
def State.sendFlit (s : State) (l : Nat) (f : TxFlit) : State :=
  let k := s.link l
  let f := { f with fseq := k.fseq }
  (s.setLink l { k with fseq := k.fseq + 1, sent := k.sent ++ [f] }).putFlit l f

/-- Whether a lane can take a command now: a free tag, and room among the 512 unacknowledged flits (R172, R182). -/
def State.laneTag (s : State) (l : Nat) (c : Cmd) : Option Nat :=
  let tag := firstFree s.med.cmds (l * 128) - l * 128
  if tag < 128 ∧ (s.link l).sent.length + 1 + c.cws.length ≤ 512 then some tag else none

/-- Issues a module command, or lets it wait for a tag (R179, R180). -/
def State.issueCmd (s : State) (l : Nat) (c : Cmd) : State :=
  match s.laneTag l c with
  | none => { s with med := { s.med with waitq := s.med.waitq ++ [(l, c)] } }
  | some tag =>
    let s := { s with med := { s.med with cmds := AMap.put s.med.cmds (l * 128 + tag) c } }
    let s := s.sendFlit l { ftype := 1, ncmd := 1, body := cmdEntry tag c }
    let s := c.cws.zipIdx.foldl (fun s p => s.sendFlit l { ftype := 2, tag := tag, index := p.2, body := p.1 }) s
    s.inc (R.MED_LANE_STAT.OUTSTANDING l)

/-- Commands of a lane that waited for a tag go out in order while tags last. -/
def State.issueWaiting (s : State) (l : Nat) : State :=
  s.med.waitq.foldl (fun s p =>
    if p.1 = l ∧ (s.laneTag l p.2).isSome ∧ s.laneWrites l then
      ({ s with med := { s.med with waitq := s.med.waitq.erase p } }).issueCmd l p.2
    else s) s

/-! ## Fetch trackers -/

/-- The tracker of a tile (R214). -/
def State.fetchOf (s : State) (t : Nat) : Option Fetch := s.med.fetch.find? (·.tile == t)

/-- Replaces a tracker. -/
def State.setFetch (s : State) (f : Fetch) : State :=
  { s with med := { s.med with fetch := s.med.fetch.map fun g => if g.tile = f.tile then f else g } }

/-- A QUIESCING slice without a miss register in use is QUIESCED (R226). -/
def State.sliceSettle (s : State) (sl : Nat) : State :=
  if s.fget (R.ORG_SLICE_STAT.STATE sl) = 1 ∧ s.fget (R.ORG_SLICE_STAT.MISS_BUSY sl) = 0 then
    let s := { s with tst := { s.tst with draining := s.tst.draining.filter fun u =>
      match u with | .slice m => m.val ≠ sl | _ => true } }
    s.fset (R.ORG_SLICE_STAT.STATE sl) 2
  else s

/-- Slice of a line (R215). -/
def sliceOf (k : Nat) : Nat := (k % 16) ^^^ ((k / 16) % 16)

/-- Lines of a fill that have a miss register (R216, R232). -/
def Fetch.registers (f : Fetch) : List Nat := (f.missLines ++ f.pfLines).eraseDups

/-- Requests on a line's miss register. -/
def Fetch.onLine (f : Fetch) (k : Nat) : Nat := f.missLines.count k + if f.pfLines.contains k then 1 else 0

/-- Miss registers in use of a slice (R216). -/
def State.missBusy (s : State) (sl : Nat) : Nat := (((s.med.fetch.map Fetch.registers).flatten).filter fun k => sliceOf k == sl).length

/-- Keeps MISS_BUSY of every slice (R216). -/
def State.noteMisses (s : State) : State :=
  (List.range 16).foldl (fun s sl => (s.fset (R.ORG_SLICE_STAT.MISS_BUSY sl) (s.missBusy sl)).sliceSettle sl) s

/-- Whether anyone waits, on a fill or for a miss register. -/
def State.anyWaits (s : State) (p : Waiter → Bool) : Bool :=
  (s.med.fetch.any fun f => f.waiters.any p) || s.tier.missq.any fun q => p q.who

/-- A codeword position of a fetch has an outcome: received, or lost (R190). -/
def State.fetchGot (s : State) (t pos : Nat) (cw : Option Bytes) : State :=
  match s.fetchOf t with
  | some f =>
    if f.issued.contains pos ∧ !(f.got.any fun g => g.1 == pos) then s.setFetch { f with got := f.got ++ [(pos, cw)] }
    else s
  | none => s

/-- The reads of a tile's fetch that has ended go on, for nobody (R187). -/
def Cmd.outlive (t : Nat) (c : Cmd) : Cmd :=
  match c.owner with
  | .fetch u _ => if u = t then { c with owner := .late t } else c
  | _ => c

/-- Whether a read of an ended fetch of the tile is still out (R187, R188). -/
def State.readsLeft (s : State) (t : Nat) : Bool :=
  (s.med.cmds.any fun p => p.2.owner == .late t) || s.med.waitq.any fun p => p.2.owner == .late t

/-- Reads codeword positions of a tile (R186, R187); a lane that is not read counts as lost at once. -/
def State.readPositions (s : State) (t : Nat) (ps : List Nat) : State :=
  ps.foldl (fun s i =>
    let s := match s.fetchOf t with
      | some f => s.setFetch { f with issued := f.issued ++ [i] }
      | none => s
    if s.laneReads (s.laneOf t i) t then
      s.issueCmd (s.laneOf t i) { opcode := 1, slot := s.slotOf t i, count := 1, owner := .fetch t i }
    else s.fetchGot t i none) s

/-- The positions a demand fetch issues first: the readable data codewords, P for one that is not, Q for a second (R186). -/
def State.firstReads (s : State) (t : Nat) : List Nat :=
  let up := fun i => s.laneReads (s.laneOf t i) t
  let ds := (List.range 16).filter up
  ds ++ ([16, 17].filter up).take (16 - ds.length)

/-- Whether a retirement write of the tile is in flight (R188). -/
def State.retireWriting (s : State) (t : Nat) : Bool := s.jnl.retiring.any fun r => r.tile == t && !r.reading

/-- Issues the reads of a tracker that is not held. -/
def State.beginFetch (s : State) (f : Fetch) : State :=
  let s := s.setFetch { f with held := false }
  s.readPositions f.tile (if f.all18 then List.range 18 else s.firstReads f.tile)

/-- Trackers in use; 16,384 in all (R214). -/
def State.trackersBusy (s : State) : Nat := (s.med.fetch.filter fun f => !f.held).length

/-- Fetches that waited for a tracker or behind a retirement write begin in arrival order (R188, R214). -/
def State.releaseHeld (s : State) : State :=
  s.med.fetch.foldl (fun s f =>
    if f.held ∧ !s.retireWriting f.tile ∧ s.trackersBusy < 16384 then s.beginFetch f else s) s

/-- A new tracker for a tile. -/
def State.openFetch (s : State) (f : Fetch) : State :=
  let hold := s.retireWriting f.tile || 16384 ≤ s.trackersBusy
  let s := { s with med := { s.med with fetch := s.med.fetch ++ [{ f with held := true }] } }
  if hold then s else s.beginFetch f

/-- Reads the leaf of a data tile for a waiter (R72, R73). -/
def State.askLeaf (s : State) (t : Nat) (w : Waiter) : State :=
  match s.fetchOf (leafOf t) with
  | some f => if f.waiters.contains w then s else s.setFetch { f with waiters := f.waiters ++ [w] }
  | none => s.openFetch { tile := leafOf t, waiters := [w] }

/-- A new tracker for a tile with its first waiter; a leaf that is not at hand is read in parallel (R72). -/
def State.newFetch (s : State) (f : Fetch) : State :=
  let s := s.openFetch f
  if s.leafHere f.tile then s else s.askLeaf f.tile (.leaf f.tile)

/-- The tracker of a tile is free again; codewords that still arrive are late (R187). -/
def State.dropFetch (s : State) (t : Nat) : State :=
  ({ s with med := { s.med with
    fetch := s.med.fetch.filter (·.tile ≠ t)
    cmds := s.med.cmds.map fun (p : Nat × Cmd) => (p.1, p.2.outlive t)
    waitq := s.med.waitq.map fun (p : Nat × Cmd) => (p.1, p.2.outlive t) } }).noteMisses.releaseHeld

/-! ## Ends of commands, fences -/

/-- A lane's codeword of a retirement is acknowledged (R82, R189). -/
def State.ackRetire (s : State) (t l : Nat) : State :=
  { s with jnl := { s.jnl with retiring := s.jnl.retiring.map fun (r : Retire) =>
      if r.tile = t then { r with lanes := r.lanes.erase l } else r } }

/-- The extent bit of the written-extent map of a lane that a write skipped (R194). -/
def State.markSkipped (s : State) (l t : Nat) : State :=
  let e := if isSys t then 524288 else extOf t
  let old := AMap.get [] s.med.written l
  if old.contains e then s
  else { s with med := { s.med with written := AMap.set [] s.med.written l (old ++ [e]) } }

/-- A module command is over. `done` says that it completed; the codewords of a READ that did not are lost (R190), and a WRITE
counts as acknowledged either way (R189), one that did not complete as skipped (R194). -/
def State.endCmd (s : State) (l tag : Nat) (done : Bool) : State :=
  match AMap.find? s.med.cmds (l * 128 + tag) with
  | none => s
  | some c =>
    let s := { s with med := { s.med with cmds := AMap.del s.med.cmds (l * 128 + tag) } }
    let s := s.dec (R.MED_LANE_STAT.OUTSTANDING l)
    let s := match c.owner with
      | .fetch t i => s.fetchGot t i (if done then c.cws.head? else none)
      | .late _ => if done then s.sat R.MED_HEDGE_CNT.LATE else s
      | .retire t => (if done then s else s.markSkipped l t).ackRetire t l
      | .fix _ | .drain _ _ | .system => s
    s.issueWaiting l

/-- A street's FENCED bit: all eight lanes fenced (R203). -/
def State.noteStreet (s : State) (l : Nat) : State :=
  let st := l / 8
  s.setBit R.MED_STREET_STAT.FENCED st ((List.range 8).all fun i => s.laneState (8 * st + i) == 4)

/-- A fence whose commands have all ended is complete: the lane reads FENCED and idles its transmitter (R191). -/
def State.fenceDone (s : State) (l : Nat) : State :=
  if s.laneState l = 3 ∧ s.fget (R.MED_LANE_STAT.OUTSTANDING l) = 0 then
    let s := { s with tst := { s.tst with draining := s.tst.draining.filter fun u =>
      match u with | .lane m => m.val ≠ l | _ => true } }
    ((s.fset (R.MED_LANE_STAT.STATE l) 4).noteStreet l).emit (.electricalIdle l)
  else s

/-- Tiles that have a stripe: every non-ZERO tile, and the two level-3 tiles, which no entry covers (R70, R130). -/
def State.storedKeys (s : State) : List Nat :=
  let ks := (s.gen.filter fun p => !p.2.zero).map (·.1)
  ks ++ [sysBase + lvl3, sysBase + lvl3 + 1].filter fun t => !ks.contains t

/-- Whether a lane out of service lacks its codeword of a tile: a REBUILDING lane lacks what it has not rebuilt (R193, R195). -/
def State.lacks (s : State) (l t : Nat) : Bool :=
  match AMap.find? s.med.rebuild l with
  | some r => r.todo.contains t || r.busy.contains t
  | none => true

/-- Stored stripes whose codewords on both of two lanes out of service are lost (R193). -/
def State.stripesOn (s : State) (a b : Nat) : Nat :=
  (s.storedKeys.filter fun t =>
    (s.rowLanes (s.mapOf t) (rowOf t)).contains a && (s.rowLanes (s.mapOf t) (rowOf t)).contains b && s.lacks a t && s.lacks b t).length

/-- A lane that has left service and is not back: draining, fenced, rebuilding, or in the training before its rebuild (R193, R194). -/
def State.laneOut (s : State) (l : Nat) : Bool :=
  s.laneState l == 3 || s.laneState l == 4 || s.laneState l == 5 || (s.laneState l == 1 && (s.link l).back)

/-- REDUNDANCY_ZERO for each other lane out of service that shares stripes with a lane just fenced (R193). -/
def State.postRedundancy (s : State) (l : Nat) : State :=
  (List.range 128).foldl (fun s m =>
    if m ≠ l ∧ s.laneOut m then
      let n := s.stripesOn l m
      if n = 0 then s else s.postD 0x0302 (min l m + 256 * max l m) n
    else s) s

/-- A command that waited for its lane, which is fenced now: a read has nothing to bring, a write is skipped there (R191, R194). -/
def State.cmdLost (s : State) (l : Nat) : CmdOwner → State
  | .fetch t i => s.fetchGot t i none
  | .retire t => (s.markSkipped l t).ackRetire t l
  | .fix _ | .late _ | .drain _ _ | .system => s

/-- Fences a lane with a cause (R191): no new command; commands in flight complete or end at the drain bound. The
written-extent map starts empty (R194); where the lane was on its way back, the map its rebuild works from is kept (log entry 52). -/
def State.fenceLane (s : State) (l cause : Nat) : State :=
  if s.laneState l = 3 ∨ s.laneState l = 4 then s
  else
    let again := s.laneState l == 5 || (s.laneState l == 1 && (s.link l).back)
    let part := (cause == 1 || cause == 3 || cause == 6) && (!again || s.flag (R.MED_LANE_STAT.PARTIAL l))
    let s := ((s.fset (R.MED_LANE_STAT.STATE l) 3).fset (R.MED_LANE_STAT.CAUSE l) cause).fput (R.MED_LANE_STAT.PARTIAL l) part
    let s := s.setLink l { s.link l with stage := .none, quick := false, waive := false }
    let mine := s.med.waitq.filter fun p => p.1 = l
    let s := { s with med := { s.med with
      waitq := s.med.waitq.filter fun p => p.1 ≠ l
      written := if again then s.med.written else AMap.set [] s.med.written l []
      owe := if s.med.owe.contains l then s.med.owe else s.med.owe ++ [l]
      rebuild := AMap.del s.med.rebuild l } }
    let s := mine.foldl (fun s p => s.cmdLost l p.2.owner) s
    let s := if l < 128 then s.startDrain (.lane (Fin.ofNat 128 l)) else s
    ((s.postD 0x0301 l cause).postRedundancy l).fenceDone l

/-- Writes codewords of a tile's stripe, each to its lane (R189); answers the lanes whose acknowledgement is due. A retirement
marks the lanes it skips (R194). -/
def State.writeStripe (s : State) (t : Nat) (own : CmdOwner) (words : List (Nat × Bytes)) : List Nat × State :=
  words.foldl (fun (p : List Nat × State) w =>
    let s := p.2
    let l := s.laneOf t w.1
    if s.laneWrites l then
      (p.1 ++ [l], s.issueCmd l { opcode := 2, slot := s.slotOf t w.1, count := 1, owner := own, cws := [w.2] })
    else (p.1, s.markSkipped l t)) ([], s)

/-! ## Rebuild (R194, R195) -/

/-- Codewords of a stripe that cannot be read (R186). -/
def State.lostOn (s : State) (t : Nat) : Nat := ((List.range 18).filter fun i => !s.laneReads (s.laneOf t i) t).length

/-- Keeps MED_REBUILD_STAT (R203). -/
def State.noteRebuild (s : State) : State :=
  let rs := s.med.rebuild.map (·.2)
  let two := ((rs.map Rebuild.todo).flatten.eraseDups.filter fun (t : Nat) => decide (2 ≤ s.lostOn t)).length
  ((s.fset R.MED_REBUILD_STAT.LANES ((List.range 128).filter fun l => s.laneState l == 5).length).fset R.MED_REBUILD_STAT.EXTENTS_LEFT
    (rs.foldl (fun n r => n + r.extents.length) 0)).fset R.MED_REBUILD_STAT.CRITICAL (min two 0x1FFFFFFF)

/-- Extents whose stripes are all done leave a lane's rebuild; with the last the lane is IN_SERVICE and its written-extent map ends
(R195). -/
def State.rebuildStep (s : State) (l : Nat) : State :=
  match AMap.find? s.med.rebuild l with
  | none => s
  | some r =>
    let left := r.todo ++ r.busy
    let r := { r with
      extents := r.extents.filter fun e => left.any fun t => !isSys t && extOf t == e
      system := r.system && left.any isSys }
    if left ≠ [] then ({ s with med := { s.med with rebuild := AMap.put s.med.rebuild l r } }).noteRebuild
    else
      let s := { s with med := { s.med with
        rebuild := AMap.del s.med.rebuild l, written := AMap.set [] s.med.written l [], owe := s.med.owe.filter (· ≠ l) } }
      let s := ((s.fset (R.MED_LANE_STAT.STATE l) 2).fset (R.MED_LANE_STAT.CAUSE l) 0).fput (R.MED_LANE_STAT.PARTIAL l) false
      s.noteRebuild.postD 0x0303 l r.total

/-- A lane goes to REBUILDING (R194, R195): the marked extents alone where PARTIAL allows it, else every ASSIGNED extent and all of
system space, extents in order. -/
def State.beginRebuild (s : State) (l : Nat) : State :=
  let marks := AMap.get [] s.med.written l
  let part := s.flag (R.MED_LANE_STAT.PARTIAL l)
  let all := (s.ext.filter fun p => p.2.state == .assigned).map (·.1)
  let es := if part then all.filter marks.contains else all
  let sys := !part || marks.contains 524288
  let s := s.fset (R.MED_LANE_STAT.STATE l) 5
  let ts := s.storedKeys.filter fun t =>
    (if isSys t then sys else es.contains (extOf t)) && (s.rowLanes (s.mapOf t) (rowOf t)).contains l
  let r : Rebuild := { extents := es, system := sys, total := es.length, todo := ts }
  ({ s with med := { s.med with rebuild := AMap.put s.med.rebuild l r } }).rebuildStep l

end Sys2Proof.Machine
end

