-- ==== Sys2Proof/Machine/Wire.lean ====
section
/-! DEFINITION. What leaves on the Promenade (R137 to R145) and on RoCEv2 connections (R373 to R383, R395 to R397): record
images, frames and their protection, sealed packets, responses in PSN order, and a connection's way into ERROR. -/

namespace Sys2Proof.Machine

/-! ## Record images -/

/-- TYPE of a record (R97). -/
def Body.typ : Body → Nat
  | .data _ | .rmw _ _ _ _ => 1
  | .attr _ => 2
  | .reloc _ => 3
  | .table _ _ => 4
  | .root _ _ _ => 5

/-- Payload of an ATTR record; it is internal to the device, and its form is the model's own (log entry 25). -/
def attrBytes : Attr → Bytes
  | .assign e o f c m => natLe 1 0 ++ natLe 4 e ++ natLe 3 o.toNat ++ natLe 1 f.toNat ++ natLe 1 (match c with | .pinned => 0 | .normal => 1 | .stream => 2 | .cold => 3) ++ natLe 2 m
  | .mode e f => natLe 1 1 ++ natLe 4 e ++ natLe 1 f.toNat
  | .cls e c => natLe 1 2 ++ natLe 4 e ++ natLe 1 (match c with | .pinned => 0 | .normal => 1 | .stream => 2 | .cold => 3)
  | .release e => natLe 1 3 ++ natLe 4 e
  | .freed e => natLe 1 4 ++ natLe 4 e
  | .tenantCreate t h e => natLe 1 5 ++ natLe 3 t.toNat ++ natLe 48 h.toNat ++ natLe 4 e.toNat
  | .tenantDestroy t => natLe 1 6 ++ natLe 3 t.toNat
  | .tenantEnrol t r x h => natLe 1 7 ++ natLe 3 t.toNat ++ natLe 1 r.isSome.toNat ++ natLe 4 (r.getD 0).toNat ++ natLe 1 x.toNat ++ natLe 48 h.toNat
  | .maxGib n => natLe 1 8 ++ natLe 1 n

/-- Placement class by its code in an ATTR payload. -/
def placeOf (n : Nat) : Place := if n = 0 then .pinned else if n = 1 then .normal else if n = 2 then .stream else .cold

/-- The change an ATTR payload names. -/
def attrOf (b : Bytes) : Option Attr :=
  let ten := BitVec.ofNat 24 (fieldAt b 1 3)
  match fieldAt b 0 1 with
  | 0 => some (.assign (fieldAt b 1 4) (BitVec.ofNat 24 (fieldAt b 5 3)) (fieldAt b 8 1 = 1) (placeOf (fieldAt b 9 1)) (fieldAt b 10 2))
  | 1 => some (.mode (fieldAt b 1 4) (fieldAt b 5 1 = 1))
  | 2 => some (.cls (fieldAt b 1 4) (placeOf (fieldAt b 5 1)))
  | 3 => some (.release (fieldAt b 1 4))
  | 4 => some (.freed (fieldAt b 1 4))
  | 5 => some (.tenantCreate ten (BitVec.ofNat 384 (fieldAt b 4 48)) (BitVec.ofNat 32 (fieldAt b 52 4)))
  | 6 => some (.tenantDestroy ten)
  | 7 => some (.tenantEnrol ten (if fieldAt b 4 1 = 1 then some (BitVec.ofNat 32 (fieldAt b 5 4)) else none) (fieldAt b 9 1 = 1) (BitVec.ofNat 384 (fieldAt b 10 48)))
  | 8 => some (.maxGib (fieldAt b 1 1))
  | _ => none

/-- Segments of a record as they stand in its image (R97). A record of the journal engine's own or of management has one, in the system tile
that it concerns; its bytes there are internal (log entry 25). -/
def Body.imageSegs : Body → List Seg
  | .data l => l
  | .rmw t off w (.cas _ n) | .rmw t off w (.add n) | .rmw t off w (.write n) => [⟨t, off, natLe w n⟩]
  | .reloc t => [⟨t, 0, [0]⟩]
  | .table t g => [⟨(parentOf t).getD t, 8 * (t % 512), natLe 8 g.word⟩]
  | .root q a b => [⟨sysBase + lvl3, 0, rootBytes q a b⟩]
  | .attr a => [⟨sysBase, 0, attrBytes a⟩]

/-- Payload bytes before those of the segments: what a forwarded compare compares with (log entry 27). -/
def Body.lead : Body → Bytes
  | .rmw _ _ w (.cas e _) => natLe w e
  | _ => []

/-- Payload bytes after those of the segments, by which a forwarded addition is told from a write (log entry 27). -/
def Body.trail : Body → Bytes
  | .rmw _ _ w (.add _) => natLe w 0
  | _ => []

/-- OP_TAG of the operation a record answers to (R97). -/
def Owner.tag : Owner → Nat
  | .ops (t :: _) | .read t _ => t
  | _ => 0

/-- OP_TAG as a record's image has it: the twin's own for a record whose operation is the twin's (R97). -/
def Rec.tag (r : Rec) : Nat := if r.origin = 5 then r.opTag else r.owner.tag % 2 ^ 18

/-- Granules a record occupies (R97; log entry 25 for internal payloads). -/
def Body.granules (b : Body) : Nat :=
  match b with
  | .data l => (64 + 16 * l.length + ((l.map fun g => g.bytes.length).foldl (· + ·) 0) + 255) / 256
  | _ => 1

/-- Segment descriptors and payload, from payload offset `off` on (R97, R98). -/
def imageTail : Nat → List Seg → Bytes × Bytes
  | _, [] => ([], [])
  | off, g :: r =>
    let (d, p) := imageTail (off + g.bytes.length) r
    (natLe 8 (g.tile % 2 ^ 37 + g.off * 2 ^ 37 + g.bytes.length * 2 ^ 49) ++ natLe 4 off ++ natLe 4 (crc32c g.bytes).toNat ++ d,
     g.bytes ++ p)

/-- The image of a record without granule padding (R97, R145). -/
def recImage (r : Rec) : Bytes :=
  let segs := r.body.imageSegs
  let (desc, pay) := imageTail r.body.lead.length segs
  let pay := r.body.lead ++ pay ++ r.body.trail
  let hdr := natLe 2 0x6A4E ++ natLe 1 r.body.typ ++ natLe 1 (r.mirror.toNat + 2 * r.sync.toNat + 4 * r.twin.toNat)
    ++ natLe 4 r.body.granules ++ natLe 8 r.jsn ++ natLe 8 r.pairSeq ++ natLe 3 r.tenant.toNat ++ natLe 1 r.origin
    ++ natLe 2 segs.length ++ natLe 2 0 ++ natLe 4 pay.length ++ natLe 4 0 ++ natLe 8 r.tag ++ natLe 8 0
  hdr ++ natLe 8 (crc64 0 (hdr ++ desc)).toNat ++ desc ++ pay

/-- What the only segment of a DATA record says: a write, or with a payload of twice its length a forwarded atomic, the compare before its new
value (log entry 27). -/
def dataBody (g : Seg) (pay : Bytes) (off : Nat) : Body :=
  let w := g.bytes.length
  if w = 0 ∨ pay.length ≠ 2 * w then .data [g]
  else .rmw g.tile g.off w (if off = 0 then .add (leNat g.bytes) else .cas (fieldAt pay 0 w) (leNat g.bytes))

/-- What a record of a TYPE carries, by its segments and its payload (R97). -/
def bodyOf (typ : Nat) (segs : List Seg) (pay : Bytes) (off : Nat) : Option Body :=
  match typ, segs with
  | 1, [g] => some (dataBody g pay off)
  | 1, _ => some (.data segs)
  | 2, [_] => (attrOf pay).map .attr
  | 3, [g] => some (.reloc g.tile)
  | 4, [g] => some (.table (childOf (sysBase + g.tile) (g.off / 8)) (genOfWord (fieldAt pay 0 8)))
  | 5, [_] => some (.root (fieldAt pay 0 4) (fieldAt pay 4 6) (fieldAt pay 10 6))
  | _, _ => none

/-- Reads a record image; `none` where a check of R98 fails or the form is not that of R97. -/
def recOfImage (b : Bytes) (id : Nat) (owner : Owner) : Option Rec :=
  let n := fieldAt b 28 2
  let desc := slice b 64 (16 * n)
  let pay := (b.drop (64 + 16 * n))
  let segs := (List.range n).map fun i =>
    let d := fieldAt desc (16 * i) 8
    let off := fieldAt desc (16 * i + 8) 4 % 2 ^ 20
    let len := (d >>> 49) % 2 ^ 13
    (({ tile := d % 2 ^ 37, off := (d >>> 37) % 2 ^ 12, bytes := slice pay off len } : Seg), fieldAt desc (16 * i + 12) 4)
  let ok := fieldAt b 0 2 == 0x6A4E && decide (1 ≤ n) && b.length == 64 + 16 * n + fieldAt b 32 4 &&
    fieldAt b 56 8 == (crc64 0 (slice b 0 56 ++ desc)).toNat && segs.all fun p => (crc32c p.1.bytes).toNat == p.2
  let body := bodyOf (fieldAt b 2 1) (segs.map (·.1)) pay (fieldAt desc 8 4 % 2 ^ 20)
  match ok, body with
  | true, some bd => some { id := id, body := bd, mirror := fieldAt b 3 1 % 2 = 1, sync := fieldAt b 3 1 / 2 % 2 = 1, jsn := fieldAt b 8 8
                            pairSeq := fieldAt b 16 8, opTag := fieldAt b 40 8 % 2 ^ 18, tenant := BitVec.ofNat 24 (fieldAt b 24 3), origin := fieldAt b 27 1, owner := owner }
  | _, _ => none

/-! ## Promenade frames -/

/-- Whether this device is the senior twin (R134). -/
def State.isSenior (s : State) : Bool := s.flag R.PRM_STAT.SENIOR

/-- Whether a group is up. -/
def State.grpUp (s : State) (g : Nat) : Bool := s.flag (if g = 0 then R.PRM_STAT.GRP_A_UP else R.PRM_STAT.GRP_B_UP)

/-- The Promenade key of a sender on a group (R138, R449). -/
def State.prmKey (s : State) (fromSenior : Bool) (g epoch : Nat) : Bytes :=
  kdf s.pairSecret (keyLabel 0x07 0 (2 * fromSenior.toNat + g) epoch 0) 256

/-- The nonce of R138. -/
def prmNonce (fromSenior : Bool) (g nctr : Nat) : Bytes :=
  natBe 4 (0xFFFFFF00 + 2 * fromSenior.toNat + g) ++ natBe 5 nctr ++ [0, 0, 0]

/-- The 32-byte header of R137. -/
def prmHeader (typ g : Nat) (fromSenior last keySel : Bool) (len fsn ack credit nctr : Nat) : Bytes :=
  natLe 2 0x50A7 ++ natLe 1 typ ++ natLe 1 (g + 2 * fromSenior.toNat + 4 * last.toNat + 8 * keySel.toNat) ++ natLe 2 len
    ++ natLe 2 0 ++ natLe 6 fsn ++ natLe 6 ack ++ natLe 4 credit ++ natLe 5 nctr ++ natLe 3 0

/-- Frames that take no FSN and no credit (R141, R143). -/
def unnumbered (typ : Nat) : Bool := [0x02, 0x05, 0x0A, 0x0E].contains typ

/-- Credits of a frame (R143). -/
def credits (typ len : Nat) : Nat := if unnumbered typ then 0 else (48 + len + 255) / 256

/-- Puts one frame on the lanes with a new NCTR (R138, R141); REKEY and the new key follow at the limit (R139). -/
def State.putFrame0 (s : State) (g typ fsn : Nat) (last : Bool) (payload : Bytes) : State :=
  let k := s.grp g
  let sr := s.isSenior
  let hdr := prmHeader typ g sr last k.keySel payload.length fsn ((k.rxNext + 2 ^ 48 - 1) % 2 ^ 48) (k.creditGiven % 2 ^ 32) k.nctr
  let enc := if typ = 0x0C then (payload, List.replicate 16 (0 : Byte))
    else gcmSeal (s.prmKey sr g k.epoch) (prmNonce sr g k.nctr) hdr payload
  (s.setGrp g { k with nctr := k.nctr + 1 }).emit
    (.prm g typ fsn k.nctr enc.1 (BitVec.ofNat 128 (beNat enc.2)))

/-- Whether a sender's credit reaches for a frame (R143). -/
def Grp.mayUse (k : Grp) (n : Nat) : Bool := decide (k.creditUsed + n ≤ k.creditLimit)

/-- The key change of R139; REKEY waits for credit as any numbered frame does (R143). -/
def State.rekeyIfDue (s : State) (g : Nat) : State :=
  let k := s.grp g
  if 0x8000000000 ≤ k.nctr ∧ k.mayUse (credits 0x0B 8) then
    let f : TxFrame := { typ := 0x0B, fsn := k.fsn, last := false, payload := natLe 4 (k.epoch + 1) ++ natLe 4 0, sends := 0 }
    let s := s.setGrp g { k with fsn := k.fsn + 1, rtx := k.rtx ++ [f], creditUsed := k.creditUsed + credits 0x0B 8 }
    let s := s.putFrame0 g 0x0B f.fsn false f.payload
    s.setGrp g { s.grp g with epoch := k.epoch + 1, keySel := !k.keySel, nctr := 0 }
  else s

/-- Sends a frame on a group that is up; a numbered one is held until acknowledged and waits where credit does not reach
(R141, R143). -/
def State.sendOn (s : State) (g typ : Nat) (last : Bool) (payload : Bytes) : State :=
  let k := s.grp g
  if unnumbered typ then (s.putFrame0 g typ k.fsn last payload).rekeyIfDue g
  else if k.txq ≠ [] ∨ !k.mayUse (credits typ payload.length) then
    s.setGrp g { k with txq := k.txq ++ [{ typ := typ, fsn := 0, last := last, payload := payload, sends := 0 }] }
  else
    let f : TxFrame := { typ := typ, fsn := k.fsn, last := last, payload := payload, sends := 0 }
    let s := s.setGrp g { k with fsn := (k.fsn + 1) % 2 ^ 48, rtx := k.rtx ++ [f], creditUsed := k.creditUsed + credits typ payload.length }
    (s.putFrame0 g typ f.fsn last payload).rekeyIfDue g

/-- The group a frame goes to: A where it is up, else B; the choice is the device's own (log entry 6). -/
def State.sendGrp (s : State) : Option Nat :=
  if s.grpUp 0 then some 0 else if s.grpUp 1 then some 1 else none

/-- Sends a frame to the twin, if a group is up. -/
def State.sendTwin (s : State) (typ : Nat) (payload : Bytes) (last : Bool := false) : State :=
  match s.sendGrp with
  | some g => s.sendOn g typ last payload
  | none => s

/-- Frames that waited for credit go out while it lasts, a due REKEY first (R139, R143). -/
def State.pumpCredit (s : State) (g : Nat) : State :=
  (s.grp g).txq.foldl (fun s f =>
    let k := s.grp g
    if k.mayUse (credits f.typ f.payload.length) then
      (s.setGrp g { k with txq := k.txq.drop 1 }) |> fun s =>
        let q := (s.grp g).txq
        let s := (s.setGrp g { s.grp g with txq := [] }).sendOn g f.typ f.last f.payload
        s.setGrp g { s.grp g with txq := q }
    else s) (s.rekeyIfDue g)

/-- The fragments of an image as RECORD or FORWARD frames (R145, R147). `key` is PAIR_SEQ or the forward reference. -/
def State.sendImage (s : State) (typ key : Nat) (img : Bytes) : State :=
  let parts := chunks 4080 ((img.length + 4079) / 4080) img
  (parts.zipIdx).foldl (fun s p =>
    s.sendTwin typ (natLe 8 key ++ natLe 4 (4080 * p.2) ++ natLe 4 img.length ++ p.1) (p.2 + 1 = parts.length)) s

/-- A version as frames carry it (R137). -/
def Ver.word (v : Ver) : Nat := v.gen + v.reloc * 2 ^ 48
/-- The version a frame carries. -/
def verOfWord (w : Nat) : Ver := ⟨(w >>> 48) % 4096, w % 2 ^ 48⟩

/-! ## RoCEv2 -/

/-- Queue-pair number of a connection (R376). -/
def qpn (c : Nat) : Nat := 0x400000 + c

/-- Status that OK is reported as now: OK_SOLO while solo or a resync source or target (R112, R165, R396). -/
def State.okNow (s : State) : Status :=
  if s.prmState = 3 ∨ s.prmState = 5 ∨ s.prmState = 6 then .okSolo else .ok

/-- PETH.STATUS and completions carry OK_SOLO where they would carry OK (R112, R396). -/
def State.say (s : State) (st : Status) : Status := if st = .ok then s.okNow else st

/-- The key of one direction of a connection (R380, R449). -/
def State.netKey (s : State) (c : Con) (tx : Bool) (epoch : Nat) : Bytes :=
  kdf (s.tenantKey c.tenant c.tenEpoch.toNat)
    (keyLabel (if tx then 0x06 else 0x05) c.tenant.toNat c.obj epoch (s.isSenior.toNat * 2 ^ 151 + s.prm.joinInc.toNat * 2 ^ 128)) 256

/-- The nonce of R380. -/
def netNonce (c nctr : Nat) : Bytes := natBe 4 (qpn c) ++ natBe 5 nctr ++ [0, 0, 0]

/-- BTH of 12 bytes (R373). -/
def bthBytes (opcode pad dqp : Nat) (ackReq : Bool) (psn : Nat) : Bytes :=
  natBe 1 opcode ++ natBe 1 (16 * pad) ++ natBe 2 0xFFFF ++ [0] ++ natBe 3 dqp ++ natBe 1 (128 * ackReq.toNat) ++ natBe 3 (psn % 2 ^ 24)

/-- PETH (R379). -/
def pethBytes (epoch nctr dir status : Nat) : Bytes :=
  natLe 4 epoch ++ natLe 5 nctr ++ natLe 1 dir ++ natLe 1 status ++ natLe 5 0

/-- A frame leaves on a port (R372). -/
def State.emitNet (s : State) (p : Nat) (o : Out) : State := (s.emit o).inc (R.NET_PORT_CNT0.TX_FRAMES p)

/-- An island's clock has stopped (R496). -/
def State.clkStopped (s : State) (i : Nat) : Bool := s.fget (R.SUP_ISL_STAT.STATE i) == 2

/-- A fenced port's link still holds, or the port is UP (R358, R363). -/
def State.netLink (s : State) (p : Nat) : Bool :=
  s.fget (R.NET_PORT_STAT.STATE p) == 2 || (s.fget (R.NET_PORT_STAT.STATE p) == 3 && s.flag (R.NET_PORT_STAT.LOCKED p))

/-- Frames can be sent: the link is there and no clock of the port's quads has stopped (R495). -/
def State.netSends (s : State) (p : Nat) : Bool :=
  let n := 2 ^ s.fget R.NET_MODE.MODE
  s.netLink p && !((List.range ((n + 3) / 4)).any fun i => s.clkStopped (n * p / 4 + i))

/-- A fenced port whose link is down: the resolve step emits no response (R341). -/
def State.netMute (s : State) (p : Nat) : Bool := 3 ≤ s.fget (R.NET_PORT_STAT.STATE p) && !s.netLink p

/-- Priority of a connection's packets (R378). -/
def State.prioOf (s : State) (k : Con) : Nat := s.fget (R.XPT_ADDR0.PCP k.addr)

/-- The partner has paused a priority, and the watchdog does not ignore it (R355, R357). -/
def State.prioPaused (s : State) (p i : Nat) : Bool := (s.port p).paused.getLsbD i && !(s.port p).storm.getLsbD i

/-- Outstanding bytes of a connection: requests' unacknowledged payload, and responses' of the last SRTT (R366). -/
def State.outBytes (s : State) (k : Con) : Nat :=
  k.outstanding + (k.sentResp.filter fun p => s.timeNs < p.1 + k.srtt).foldl (fun n p => n + p.2) 0

/-- The port and the priority let a packet go, and the window has room for its payload (R355, R361, R366). -/
def State.mayGo (s : State) (c n : Nat) : Bool :=
  let k := s.conn c
  s.netSends k.port && !s.prioPaused k.port (s.prioOf k) && (n == 0 || s.outBytes k + n ≤ k.win)

/-- Targets of an endpoint turn BROKEN (R608). -/
def State.breakTargets (s : State) (path endpoint : Nat) : State :=
  (s.listed R.STA_TGT0.VALID 4096).foldl (fun s t =>
    if s.fget (R.STA_TGT0.PATH t) = path ∧ s.fget (R.STA_TGT0.ENDPOINT t) = endpoint then s.fset (R.STA_TGT0.STATE t) 2 else s) s

/-- A work request leaves the pool with a status; a completion record where SIGNALED or not OK (R415). -/
def State.wrFinish (s : State) (w : Wr) (st : Status) : State :=
  let s := { s with xpt := { s.xpt with wrs := s.xpt.wrs.filter fun v => v.id ≠ w.id } }
  let s := s.dec R.XPT_WR_STAT.POOL_USED
  let st := s.say st
  if w.signaled ∨ ¬ (st = .ok ∨ st = .okSolo) then
    s.produce w.cq w.tenant (complRec w.userTag (qpn w.conn) (if st = .ok ∨ st = .okSolo then w.len else w.done) 0 st 0x05 0)
      (w.issued.map (·.1))
  else s

/-- A connection enters ERROR (R388, R389, R396): one DREQ, CONN_ERROR, targets BROKEN, waiting work requests end. -/
def State.connError (s : State) (c : Nat) (st : Status) (psn : Nat) (wrSt : Status := .aborted) : State :=
  let k := s.conn c
  if k.state = .error ∨ k.state = .free then s
  else
    let s := s.setConn c { k with state := .error, due := [], rxq := [], stopped := true }
    let s := (s.emitNet k.port (.cmDreq c)).postT k.tenant 0x0701 (qpn c) (st.code * 2 ^ 24 + psn % 2 ^ 24)
    let s := s.breakTargets 1 (qpn c)
    let s := { s with xpt := { s.xpt with wrs := s.xpt.wrs.filter fun (w : Wr) => !(w.conn == c && w.target.isSome) } }
    (s.xpt.wrs.filter fun w => w.conn = c ∧ w.issued.isNone).foldl (fun s w => s.wrFinish w wrSt) s

/-- The epoch move of R382, or its end at the last epoch. -/
def State.txAdvance (s : State) (c : Nat) : State :=
  let k := s.conn c
  if k.txNctr < 2 ^ 39 then s
  else if k.txEpoch < 0xFFFFFFFF then
    (s.setConn c { k with txEpoch := k.txEpoch + 1, txNctr := 0 }).sat R.XPT_CNT3.EPOCH_MOVES
  else if 2 ^ 40 - 1 ≤ k.txNctr then
    ((s.xpt.wrs.filter fun w => w.conn = c ∧ w.target.isNone).foldl (fun s w => s.wrFinish w .exhausted) s).connError c .exhausted k.npsn .exhausted
      |>.postT k.tenant 0x0702 (qpn c) 0
  else s

/-- Sends one sealed packet (R379 to R382). -/
def State.sendRoce (s : State) (c : Nat) (p : TxPkt) (ackReq : Bool := false) : State :=
  let s := s.txAdvance c
  let k := s.conn c
  if k.state = .error ∨ k.state = .free then s
  else
    let pad := (4 - p.plain.length % 4) % 4
    let bth := bthBytes p.opcode pad k.hostQp.toNat ackReq p.psn
    let peth := pethBytes k.txEpoch k.txNctr 1 p.status
    let enc := gcmSeal (s.netKey k true k.txEpoch) (netNonce c k.txNctr) (bth ++ peth) (p.plain ++ List.replicate pad 0)
    (s.setConn c { k with txNctr := k.txNctr + 1 }).emitNet k.port (.roce c bth (peth ++ enc.1 ++ enc.2))

/-- AETH: syndrome and MSN. -/
def aeth (syndrome msn : Nat) : Bytes := natBe 1 syndrome ++ natBe 3 (msn % 2 ^ 24)

/-- Payload of a READ response packet, 0 for others (R366). -/
def TxPkt.load (p : TxPkt) : Nat :=
  if p.opcode = 0x0E then p.plain.length else if [0x0D, 0x0F, 0x10].contains p.opcode then p.plain.length - 4 else 0

/-- The head of a connection's responses: its next packet goes if it may, and it leaves once its last has gone; a refusal then
takes the connection to ERROR (R395, R396). -/
def State.flushStep (s : State) (c : Nat) : State :=
  let k := s.conn c
  match k.due with
  | [] => s
  | d :: rest =>
    match d.pkts with
    | p :: ps =>
      if s.mayGo c p.load then
        let k := { k with
          due := { d with pkts := ps } :: rest
          sentResp := if p.load = 0 then k.sentResp else (k.sentResp.filter fun q => s.timeNs < q.1 + k.srtt) ++ [(s.timeNs, p.load)] }
        (s.setConn c k).sendRoce c p
      else s.setConn c { k with limited := k.limited || decide (k.win < s.outBytes k + p.load ∧ 0 < p.load) }
    | [] =>
      if d.done then
        let s := s.setConn c { k with due := rest }
        match d.fatal with
        | some st => s.connError c st d.psn
        | none => s
      else s

/-- Responses of a connection go out in order while they may (R395, R366). -/
def State.flushDue (s : State) (c : Nat) : State :=
  ((s.conn c).due.map fun (d : Due) => d.pkts.length + 1).foldl (fun s n => (List.range n).foldl (fun s _ => s.flushStep c) s) s

/-- Changes the first unfinished response due for a PSN. -/
def onDue (psn : Nat) (f : Due → Due) : List Due → List Due
  | [] => []
  | d :: r => if d.psn = psn ∧ !d.done then f d :: r else d :: onDue psn f r

/-- Adds packets to the response due for a PSN, and sends what can go (R397). -/
def State.respond (s : State) (c psn : Nat) (pkts : List TxPkt) (done : Bool) (fatal : Option Status := none) : State :=
  let k := s.conn c
  (s.setConn c { k with due := onDue psn (fun d => { d with pkts := d.pkts ++ pkts, done := done, fatal := fatal }) k.due }).flushDue c

/-- The packets of a response that have not been sent. -/
def State.unsent (s : State) (c psn : Nat) : Nat :=
  match (s.conn c).due.find? fun (d : Due) => d.psn = psn ∧ !d.done with
  | some d => d.pkts.length
  | none => 0

/-- Drops them. -/
def State.dropUnsent (s : State) (c psn : Nat) : State :=
  let k := s.conn c
  s.setConn c { k with due := onDue psn (fun d => { d with pkts := [] }) k.due }

/-- Response packets of a READ. -/
def readPkts (len mtu : Nat) : Nat := max 1 ((len + mtu - 1) / mtu)

/-- The NAK syndrome of a refusal (R396). -/
def nakCode (st : Status) : Nat :=
  match st with
  | .access | .revoked => 0x62
  | .malformed => 0x61
  | _ => 0x63

/-- A NAK as a packet. -/
def State.nakPkt (s : State) (c psn syndrome : Nat) (st : Status) : TxPkt :=
  { opcode := 0x11, psn := psn, plain := aeth syndrome (s.conn c).msn, status := st.code }

/-- A response becomes due, in PSN order, for a request just taken. -/
def State.expect (s : State) (c psn : Nat) : State :=
  let k := s.conn c
  s.setConn c { k with due := k.due ++ [{ psn := psn }] }

/-- A request is refused: its NAK goes out in its turn, and the connection then enters ERROR (R396). -/
def State.refuseReq (s : State) (c psn : Nat) (st : Status) : State :=
  let s := s.expect c psn
  let s := s.setConn c { s.conn c with stopped := true }
  s.respond c psn [s.nakPkt c psn (nakCode st) st] true (some st)

/-- An ACK with a status (R373, R396). -/
def State.ackPkt (s : State) (c psn : Nat) (st : Status) : TxPkt :=
  { opcode := 0x11, psn := psn, plain := aeth 0x1F (s.conn c).msn, status := (s.say st).code }

end Sys2Proof.Machine
end

