-- ==== Sys2Proof/Machine/Tier.lean ====
section
/-! DEFINITION. The tiers: the Terrace tile directory (R210 to R213), Orangery lines and the Loggia (R215 to R227), the lookup
order of R205, walk plans (R228 to R233), and invalidation (R43, R238). -/

namespace Sys2Proof.Machine

/-! ## Terrace frames -/

/-- The directory entry of a tile. -/
def State.frame (s : State) (t : Nat) : Option Frame := AMap.find? s.tier.dir t

/-- Keeps FRAMES_USED (R240). -/
def State.noteFrames (s : State) : State := s.fset R.TER_STAT.FRAMES_USED s.tier.dir.length

/-- Puts a frame into the directory, most recently used. -/
def State.putFrame (s : State) (t : Nat) (f : Frame) : State :=
  ({ s with tier := { s.tier with dir := AMap.put s.tier.dir t f, lru := s.tier.lru.erase t ++ [t] } }).noteFrames

/-- Changes a frame in place. -/
def State.setFrame (s : State) (t : Nat) (f : Frame) : State :=
  { s with tier := { s.tier with dir := AMap.put s.tier.dir t f } }

/-- Frees a frame. -/
def State.dropFrame (s : State) (t : Nat) : State :=
  ({ s with tier := { s.tier with dir := AMap.del s.tier.dir t, lru := s.tier.lru.erase t } }).noteFrames

/-- Marks a frame used. -/
def State.touchFrame (s : State) (t : Nat) : State :=
  { s with tier := { s.tier with lru := s.tier.lru.erase t ++ [t] } }

/-- Frames whose space the sub-maps of dirty extents take, two to a frame (R164, R207). -/
def State.mapFrames (s : State) : Nat := (((s.prm.dirty.map (· / 16384)).eraseDups).length + 1) / 2

/-- Frames the tile cache has, less those that staging and sub-maps have taken (R207, R164, R252). -/
def State.frameLimit (s : State) : Nat := 39321600 - s.tier.subFrames - s.mapFrames

/-- A frame in MOVING: skipped by eviction (R212). -/
def State.isMoving (s : State) (t : Nat) : Bool :=
  match s.frame t with | some f => (match f.state with | .moving _ _ => true | _ => false) | none => false

/-- The victim of R212: the least recently used VALID frame of a NORMAL tile, then the least recently used BASE frame; never
one of a PINNED extent. -/
def State.frameVictim (s : State) : Option Nat :=
  let unpinned := s.tier.lru.filter fun t => (s.extent (extOf t)).cls ≠ .pinned
  match unpinned.find? fun t => (s.frame t).any fun f => f.state == .valid with
  | some t => some t
  | none => unpinned.find? fun t => (s.frame t).any fun f => f.state == .base

/-- Makes room for one frame: free space or an eviction; MOVING frames before the victim are counted as skips (R212). None
where nothing can be evicted (R213). -/
def State.frameRoom (s : State) : Option State :=
  if s.tier.dir.length < s.frameLimit then some s
  else match s.frameVictim with
    | some v =>
      let skips := ((s.tier.lru.takeWhile (· ≠ v)).filter s.isMoving).length
      some ((s.sat R.TER_CNT.MOVING_SKIPS skips).dropFrame v)
    | none => none

/-- Space that sub-maps have taken is no longer a frame's: one frame goes where there are too many (R164). -/
def State.yieldFrame (s : State) : State :=
  if s.frameLimit < s.tier.dir.length then s.frameRoom.getD s else s

/-- A frame for a fill or for new contents, or the count of R213. -/
def State.allocFrame (s : State) (t : Nat) (f : Frame) : State :=
  match s.frame t with
  | some _ => s.putFrame t f
  | none => match s.frameRoom with
    | some s => s.putFrame t f
    | none => s.sat R.TER_CNT.NO_VICTIM

/-- A copy-out begins from a VALID frame, or joins others (R211). -/
def State.copyOut (s : State) (t : Nat) : State :=
  match s.frame t with
  | some f => match f.state with
    | .valid => (s.setFrame t { f with state := .moving 1 false }).touchFrame t
    | .moving n w => (s.setFrame t { f with state := .moving (n + 1) w }).touchFrame t
    | _ => s
  | none => s

/-- Classes that install tiles in the Terrace and lines in the Orangery (R234). -/
def Place.caches : Place → Bool
  | .pinned | .normal => true
  | .stream | .cold => false

/-- A plan's CLASS demotes the extent's class (R235). -/
def Place.underPlan (p : Place) (cls : Nat) : Place :=
  if cls = 2 then .cold
  else if cls = 1 ∧ p ≠ .cold then .stream
  else p

/-! ## Lines -/

/-- The line of byte `off` of a tile: DPA[48:8] (R215). -/
def lineOf (t off : Nat) : Nat := t * 16 + off / 256
/-- Set of a line (R215). -/
def setOf (k : Nat) : Nat := (k / 16) % 4096
/-- Set of a line in its Loggia slice (R227). -/
def loggiaSetOf (k : Nat) : Nat := (k / 16) % 256

/-- Whether a slice is in service (R226). -/
def State.sliceUp (s : State) (sl : Nat) : Bool := s.fget (R.ORG_SLICE_STAT.STATE sl) == 0

/-- The line, if it is valid in the Orangery. -/
def State.orgLine (s : State) (k : Nat) : Option Line := (AMap.find? s.tier.lines k).filter (·.valid)

/-- Lines of a line's set in its slice. -/
def State.setLines (s : State) (k : Nat) : List (Nat × Line) :=
  s.tier.lines.filter fun p => sliceOf p.1 == sliceOf k && setOf p.1 == setOf k

/-- Marks a line used. -/
def State.touchLine (s : State) (k : Nat) : State :=
  { s with tier := { s.tier with lineLru := s.tier.lineLru.erase k ++ [k] } }

/-- Puts a line into a way. -/
def State.putLine (s : State) (k : Nat) (l : Line) : State :=
  ({ s with tier := { s.tier with lines := AMap.put s.tier.lines k l } }).touchLine k

/-- Drops a line's tag (R218). -/
def State.dropLine (s : State) (k : Nat) : State :=
  { s with tier := { s.tier with lines := AMap.del s.tier.lines k, lineLru := s.tier.lineLru.erase k } }

/-- Ways that are cache, below the scratchpad (R219). -/
def State.cacheWays (s : State) : Nat := 16 - s.fget R.ORG_WAYMODE.SCRATCH_WAYS

/-- Installs a line (R217): a locked way reserved to it, an invalid way (the lowest), or the least recently used line that is
not locked; nothing where there is none or the slice is fenced. -/
def State.installLine (s : State) (k : Nat) (b : Bytes) : State :=
  if !s.sliceUp (sliceOf k) then s
  else match AMap.find? s.tier.lines k with
    | some l => s.putLine k { l with valid := true, bytes := b }
    | none =>
      let set := s.setLines k
      match (List.range s.cacheWays).find? fun w => !(set.any fun p => p.2.way == w) with
      | some w => s.putLine k { way := w, bytes := b }
      | none =>
        match s.tier.lineLru.find? fun j => set.any fun p => p.1 == j && !p.2.locked with
        | some v =>
          let w := (AMap.get {way := 0} s.tier.lines v).way
          (s.dropLine v).putLine k { way := w, bytes := b }
        | none => s

/-! ## Loggia -/

/-- The line in the Loggia. -/
def State.loggiaLine (s : State) (k : Nat) : Option LoggiaLine := s.tier.loggia.find? (·.line == k)

/-- Takes a line out of the Loggia. -/
def State.loggiaDrop (s : State) (k : Nat) : State :=
  { s with tier := { s.tier with loggia := s.tier.loggia.filter (·.line ≠ k) } }

/-- Makes room in the Loggia set of a line: in a full set of 16 the oldest line goes, and counts as wasted (R227). -/
def State.loggiaRoom (s : State) (k : Nat) : State :=
  let set := s.tier.loggia.filter fun p => sliceOf p.line == sliceOf k && loggiaSetOf p.line == loggiaSetOf k
  match set with
  | v :: _ => if 16 ≤ set.length then (s.loggiaDrop v.line).inc R.ORG_CNT1.PF_WASTED else s
  | [] => s

/-- Places a line in the Loggia with the class of its fetch (R227, R235); a fenced slice takes none (R226). -/
def State.loggiaPut (s : State) (k : Nat) (cls : Place) (b : Bytes) : State :=
  if !s.sliceUp (sliceOf k) then s
  else
    let s := (s.loggiaDrop k).loggiaRoom k
    ({ s with tier := { s.tier with loggia := s.tier.loggia ++ [({ line := k, cls := cls, bytes := b } : LoggiaLine)] } }).inc R.ORG_CNT1.PF_LINES

/-- A line that a demand fill brings goes where its class puts it: the Orangery, the Loggia, or nowhere (R217, R234). -/
def State.placeLine (s : State) (k : Nat) (cls : Place) (b : Bytes) : State :=
  match cls with
  | .pinned | .normal => s.installLine k b
  | .stream => s.loggiaPut k cls b
  | .cold => s

/-- Whether a line is in the Orangery or the Loggia (R231). -/
def State.lineHeld (s : State) (k : Nat) : Bool := (s.orgLine k).isSome || (s.loggiaLine k).isSome

/-! ## Lookup -/

/-- What a read finds (R205): its bytes, POISONED, or nothing but media. -/
inductive Look where
  | data (b : Bytes) | poison | miss
  deriving DecidableEq, Repr

/-- After FORCE_SOLO, a tile whose stored copy has not been looked at: its entry may be older than the copy (R155). -/
def State.unanchored (s : State) (t : Nat) : Bool := s.prm.forced && !s.prm.anchored.contains t

/-- The verified stored plaintext of a tile that the device holds: a Terrace frame in any state but FILLING, or the zero
tile (R67). -/
def State.baseOf (s : State) (t : Nat) : Option Bytes :=
  match s.frame t with
  | some f => if f.state = .filling then none else some (slice f.bytes 0 4096)
  | none => if (s.genEntry t).zero ∧ !s.unanchored t then some zeroTile else none

/-- A tile this device does not hold in its current form: of a diverged extent while PAIRED (R146), or of a granule that a resync
target has not accepted (R166). Reads are served by on-demand repair fetches. -/
def State.remote (s : State) (t : Nat) : Bool :=
  !isSys t && (s.extent (extOf t)).state == .assigned &&
  ((s.prmState == 2 && (s.extent (extOf t)).diverged) ||
   (s.prmState == 6 && match s.prm.resync with | some r => !r.mapsIn || r.granules.contains (t / 16) | none => false))

/-- A tile as a probe sees it now where that needs no media: overlay of its pending records over a base or over nothing where
they cover it (R45, R90), or the base itself; POISONED under quarantine (R87, R89). -/
def State.tileNow (s : State) (t : Nat) : Look :=
  let rs := s.pendingFor t
  if s.remote t ∨ rs.any (·.bad.contains t) then .miss
  else if rs ≠ [] ∧ covers t rs then .data (overlayRecs t zeroTile rs)
  else if (s.genEntry t).quar then .poison
  else match s.baseOf t with
    | some b => .data (overlayRecs t b rs)
    | none => .miss

/-- One line of a tile without pending records: Orangery, Loggia, Terrace frame, zero tile (R205, R227). `cls` is the class in
force. -/
def State.readLine (s : State) (t k : Nat) (cls : Place) : Option Bytes × State :=
  match s.orgLine k with
  | some l => (some (slice l.bytes 0 256), (s.inc R.ORG_CNT0.HITS).touchLine k)
  | none => match s.loggiaLine k with
    | some b =>
      let s := (s.inc R.ORG_CNT0.HITS).loggiaDrop k
      (some (slice b.bytes 0 256), if cls.caches ∧ b.cls.caches then s.installLine k b.bytes else s)
    | none => match s.frame t with
      | some f =>
        let ok := match f.state with | .valid => true | .moving _ w => !w | _ => false
        if ok then
          let b := slice f.bytes (k % 16 * 256) 256
          let s := (s.inc R.ORG_CNT0.MISSES).copyOut t
          (some b, s.placeLine k cls b)
        else (none, s)
      | none =>
        if (s.genEntry t).zero then (some (List.replicate 256 0), s.inc R.ORG_CNT0.MISSES) else (none, s)

/-- Lines of `n` bytes at `off`. -/
def linesOf (t off n : Nat) : List Nat :=
  (List.range 16).filterMap fun j => if off < 256 * (j + 1) ∧ 256 * j < off + n then some (t * 16 + j) else none

/-- A read of `n` bytes at `off` of a tile, by the order of R205. -/
def State.readSpan (s : State) (t off n : Nat) (cls : Place) : Look × State :=
  if s.remote t then (.miss, s)
  else if s.pendingFor t ≠ [] ∨ (s.genEntry t).quar then
    match s.tileNow t with
    | .data b => (.data (slice b off n), s)
    | .poison => (.poison, s)
    | .miss => (.miss, s)
  else
    let ks := linesOf t off n
    let held := ks.all fun k => s.lineHeld k ||
      (match s.frame t with
       | some f => (match f.state with | .valid => true | .moving _ w => !w | _ => false)
       | none => (s.genEntry t).zero)
    if held then
      let r := ks.foldl (fun (p : Bytes × State) k =>
        let (b, s) := p.2.readLine t k cls
        (p.1 ++ b.getD [], s)) ([], s)
      (.data (slice r.1 (off % 256) n), r.2)
    else (.miss, s)

/-- Requests that a fill already has on a line. -/
def State.onLine (s : State) (t k : Nat) : Nat :=
  match s.fetchOf t with
  | some f => f.onLine k
  | none => 0

/-- A line needs a miss register and its slice, in service, has none of its 512 left (R216). -/
def State.noRegister (s : State) (t k : Nat) : Bool := s.sliceUp (sliceOf k) && s.onLine t k == 0 && decide (512 ≤ s.missBusy (sliceOf k))

/-- One line of a read that goes to media (R216, R226, R233): it takes a miss register, merges onto the line's, or finds that full with
32 requests; a fenced slice allocates none. -/
def State.missLine (s : State) (t k : Nat) : State :=
  match s.fetchOf t with
  | none => s
  | some f =>
    if !s.sliceUp (sliceOf k) then s
    else if f.onLine k = 0 then (s.setFetch { f with missLines := f.missLines ++ [k] }).inc R.ORG_CNT0.MISSES
    else if f.onLine k < 32 then (s.setFetch { f with missLines := f.missLines ++ [k] }).inc R.ORG_CNT2.MERGED
    else s.setFetch { f with full := f.full ++ [k] }

/-- REPAIR_REQ for a tile (R85, R168). -/
def State.sendRepairReq (s : State) (t : Nat) : State :=
  s.sendTwin 0x06 (natLe 8 t ++ natLe 8 (s.storedVer t).word ++ natLe 8 (s.liveVer t).word)

/-- Repair requests outstanding (R169). -/
def State.repairsOut (s : State) : Nat := (s.prm.repairs.filter fun r => r.step ≠ .queued).length

/-- Asks the twin for a tile, or queues the request at the Promenade's bound (R169). -/
def State.askRepair (s : State) (t : Nat) (onDemand : Bool) : State :=
  if s.repairsOut < 1024 then
    ({ s with prm := { s.prm with repairs := s.prm.repairs ++ [({ tile := t, step := .asked, onDemand := onDemand } : Repair)] } }).sendRepairReq t
  else { s with prm := { s.prm with repairs := s.prm.repairs ++ [({ tile := t, step := .queued, onDemand := onDemand } : Repair)] } }

/-- A repair is over; the oldest queued request goes out. -/
def State.dropRepair (s : State) (t : Nat) : State :=
  let s := { s with prm := { s.prm with repairs := s.prm.repairs.filter (·.tile ≠ t) } }
  match s.prm.repairs.find? fun r => r.step = .queued with
  | some r =>
    if s.repairsOut < 1024 then
      ({ s with prm := { s.prm with repairs := s.prm.repairs.map fun (q : Repair) => if q.tile = r.tile then { q with step := .asked } else q } }).sendRepairReq r.tile
    else s
  | none => s

/-- Sends a requester to media: it joins the tile's tracker or opens one, with a FILLING frame where the class installs tiles
(R210, R214). A tile held by the twin alone goes to the twin (R146, R166). -/
def State.fetchFor (s : State) (t : Nat) (w : Waiter) (cls : Place) : State :=
  match s.fetchOf t with
  | some f =>
    let s := if cls.caches ∧ !isSys t ∧ (s.frame t).isNone ∧ !f.repairing then
        s.allocFrame t { state := .filling, ver := s.storedVer t, seal64 := 0, bytes := [] } else s
    s.setFetch { f with waiters := f.waiters ++ [w] }
  | none =>
    if s.remote t then
      ({ s with med := { s.med with fetch := s.med.fetch ++ [({ tile := t, waiters := [w], repairing := true } : Fetch)] } }).askRepair t true
    else
      let s := if cls.caches ∧ !isSys t ∧ (s.frame t).isNone then
          s.allocFrame t { state := .filling, ver := s.storedVer t, seal64 := 0, bytes := [] } else s
      s.newFetch { tile := t, waiters := [w] }

/-- The same for a Turnstile operation, which the result is owed to (R330). -/
def State.fetchOp (s : State) (t : Nat) (w : Waiter) (cls : Place) (tag : Nat) : State :=
  (s.fetchFor t w cls).oweResults tag 1

/-- A read that misses goes to media for its lines, or waits until every one of them can have a miss register (R214, R216; log entry
138). -/
def State.missFor (s : State) (t off n : Nat) (w : Waiter) (cls : Place) : State :=
  let ks := linesOf t off n
  if ks.any (s.noRegister t) then { s with tier := { s.tier with missq := s.tier.missq ++ [({ tile := t, off := off, len := n, who := w, cls := cls } : MissReq)] } }
  else (ks.foldl (fun s k => s.missLine t k) (s.fetchFor t w cls)).noteMisses

/-- The same for a Turnstile operation, which the result is owed to (R330). -/
def State.missOp (s : State) (t off n : Nat) (w : Waiter) (cls : Place) (tag : Nat) : State :=
  (s.missFor t off n w cls).oweResults tag 1

/-- The extent's placement class (R234). -/
def State.clsOf (s : State) (t : Nat) : Place := (s.extent (extOf t)).cls

/-! ## Invalidation -/

/-- An Orangery line is invalidated: a locked one keeps its way (R224). -/
def State.killLine (s : State) (k : Nat) : State :=
  match AMap.find? s.tier.lines k with
  | some l => if l.locked then { s with tier := { s.tier with lines := AMap.put s.tier.lines k { l with valid := false, bytes := [] } } }
              else s.dropLine k
  | none => s

/-- Marks a fill of the tile stale (R102). -/
def State.staleFetch (s : State) (t : Nat) : State :=
  match s.fetchOf t with
  | some f => s.setFetch { f with stale := true }
  | none => s

/-- Step 4 of R100 at one tile: every cached copy goes, fills in flight are stale, the Terrace copy becomes the retirement
base (R43, R80, R211). -/
def State.invalidateTile (s : State) (t : Nat) : State :=
  let s := (List.range 16).foldl (fun s j => (s.killLine (t * 16 + j)).loggiaDrop (t * 16 + j)) s
  let s := s.staleFetch t
  match s.frame t with
  | some f => match f.state with
    | .valid => s.setFrame t { f with state := .base }
    | .moving n _ => s.setFrame t { f with state := .moving n true }
    | _ => s
  | none => s

/-- Ends a line's lock (R225). -/
def State.unlockLine (s : State) (k : Nat) : State :=
  match AMap.find? s.tier.lines k with
  | some l =>
    if l.locked then
      let s := s.dec R.ORG_LOCK_STAT.LOCKED
      if l.valid then { s with tier := { s.tier with lines := AMap.put s.tier.lines k { l with locked := false } } }
      else s.dropLine k
    else s
  | none => s

/-- The sweep of a range invalidation over extents [lo, hi) (R238). -/
def State.invalidateRange (s : State) (lo hi : Nat) (release : Bool) : State :=
  let inR := fun (t : Nat) => !isSys t && lo ≤ extOf t && extOf t < hi
  let ks := (s.tier.lines.map (·.1)).filter fun k => inR (k / 16)
  let s := if release then ks.foldl State.unlockLine s else s
  let s := ks.foldl State.killLine s
  let s := { s with tier := { s.tier with loggia := s.tier.loggia.filter fun p => !inR (p.line / 16) } }
  let s := ((s.med.fetch.map Fetch.tile).filter inR).foldl State.staleFetch s
  let s := ((s.tier.dir.filter fun p => inR p.1 && (p.2.state == .valid || p.2.state == .base)).map (·.1)).foldl State.dropFrame s
  s.inc R.ORG_INVAL_STAT.DONE

/-- Keeps LOAD_LEFT: stored tiles of PINNED extents that the Terrace does not hold (R236, R237). -/
def State.notePins (s : State) : State :=
  s.fset R.TER_PIN_STAT.LOAD_LEFT
    (s.gen.filter fun p => !isSys p.1 && !p.2.zero && (s.extent (extOf p.1)).state == .assigned && (s.clsOf p.1) == .pinned
      && (match s.frame p.1 with | some f => f.state == .filling | none => true)).length

/-! ## Walk plans -/

/-- The plan of a reader (R229). -/
def State.planOf (s : State) (r : PlanReader) : Option Plan := (s.tier.plans.find? (·.1 == r)).map (·.2)
/-- Replaces it. -/
def State.setPlan (s : State) (r : PlanReader) (p : Plan) : State :=
  { s with tier := { s.tier with plans := s.tier.plans.map fun q => if q.1 == r then (r, p) else q } }
/-- A plan ends; its skipped entries are reported once, where it has any (R230, R231; log entry 22). -/
def State.endPlan (s : State) (r : PlanReader) : State :=
  match s.planOf r with
  | none => s
  | some p =>
    let s := { s with tier := { s.tier with plans := s.tier.plans.filter (·.1 ≠ r) } }
    if p.skipped = 0 then s else s.postT p.tenant 0x0401 p.id.toNat p.skipped

/-- Reads a plan in the format of R228; `none` is MALFORMED (R229). -/
def parsePlan (b : Bytes) (tenant : BitVec 24) (now : Nat) : Option Plan :=
  let count := fieldAt b 4 2
  let cls := fieldAt b 3 1
  let dist := fieldAt b 6 1
  let flags := fieldAt b 7 1
  let ents := (List.range count).map fun i => fieldAt b (32 + 16 * i) 16
  let okEnt := fun (e : Nat) =>
    let kind := (e >>> 64) % 4
    (e >>> 37) % 2 ^ 11 == 0 && kind ≤ 1 && (e >>> 66) % 2 ^ 14 == 0 && (e >>> 92) == 0 &&
    (if kind = 0 then (e >>> 80) % 2 ^ 12 % 8 == 0 else e % 2 ^ 37 == 0 && (e >>> 80) % 2 ^ 12 % 8 == 0)
  if fieldAt b 0 2 = 0x57A1 ∧ fieldAt b 2 1 = 1 ∧ cls ≤ 2 ∧ 1 ≤ count ∧ count ≤ 4096 ∧ 1 ≤ dist ∧ dist ≤ 64 ∧ flags ≤ 1
      ∧ fieldAt b 16 16 = 0 ∧ ents.all okEnt ∧ (ents.headD 0 >>> 64) % 4 = 0 then
    some { id := BitVec.ofNat 64 (fieldAt b 8 8), cls := cls, distance := dist, strict := flags = 1, tenant := tenant, moveNs := now
           entries := ents.map fun e =>
             (if (e >>> 64) % 4 = 0 then e % 2 ^ 37 else (e >>> 80) % 2 ^ 12, (e >>> 64) % 4, (e >>> 48) % 2 ^ 16) }
  else none

/-- Lines an entry selects (R228). -/
def planLines (t mask : Nat) : List Nat :=
  ((List.range 16).filter fun j => mask == 0 || mask.testBit j).map (t * 16 + ·)

/-- Fetches in flight for prefetch alone (R232). -/
def State.prefetches (s : State) : Nat :=
  (s.med.fetch.filter fun f => f.waiters.all fun w => match w with | .prefetch _ _ _ _ _ => true | _ => false).length

/-- Miss registers of a slice in use by prefetch (R232). -/
def State.prefetchLines (s : State) (sl : Nat) : Nat := (((s.med.fetch.map Fetch.pfLines).flatten).filter fun k => sliceOf k == sl).length

/-- A line of a prefetch must wait: it needs a miss register, and prefetch has PF_MISS of its slice's or none is left (R232). -/
def State.prefetchFull (s : State) (t k : Nat) : Bool :=
  s.sliceUp (sliceOf k) && s.onLine t k == 0 &&
    (decide (s.fget R.ORG_PF_CTL.PF_MISS ≤ s.prefetchLines (sliceOf k)) || decide (512 ≤ s.missBusy (sliceOf k)))

/-- The lines of a prefetch that have no miss register yet take one (R232). -/
def State.prefetchTake (s : State) (t mask : Nat) : State :=
  match s.fetchOf t with
  | none => s
  | some f =>
    let ks := (planLines t mask).filter fun k => s.sliceUp (sliceOf k) && f.onLine k == 0
    (s.setFetch { f with pfLines := f.pfLines ++ ks }).noteMisses

/-- The pointer at an offset of a tile the device holds verified, as a tile (R228, R230). -/
def State.pointerAt (s : State) (t off : Nat) : Option Nat :=
  match s.baseOf t with
  | some b => some (fieldAt b off 8 / 4096 % 2 ^ 37)
  | none => ((s.orgLine (lineOf t off)).map fun l => fieldAt l.bytes (off % 256) 8 / 4096 % 2 ^ 37)

/-- Takes one entry of a plan: skips it, or fetches its tile for the Loggia (R231, R232). `false` where it must wait. A PTR entry whose
pointer is not known, the entry before it having been skipped or having failed, is skipped and counted (log entry 138). -/
def State.planTake (s : State) (r : PlanReader) (p : Plan) : Bool × State :=
  let i := p.taken.length
  match p.entries[i]? with
  | none => (false, s)
  | some (v, kind, mask) =>
    let nextPtr := match p.entries[i + 1]? with | some (o, 1, _) => some o | _ => none
    let tile : Option (Option Nat) := if kind = 0 then some (some v) else p.ptr
    match tile with
    | none => (false, s)
    | some tl =>
      let skip := fun (s : State) (q : Option (Option Nat)) =>
        (true, (s.setPlan r { p with taken := p.taken ++ [tl], skipped := p.skipped + 1, ptr := q }).sat R.ORG_CNT2.PF_SKIPPED)
      match tl with
      | none => skip s (some none)
      | some t =>
        let x := s.extent (extOf t)
        let cls := x.cls.underPlan p.cls
        if x.state ≠ .assigned ∨ x.owner ≠ p.tenant ∨ cls = .cold ∨ s.pendingFor t ≠ [] then skip s (some none)
        else if (planLines t mask).all s.lineHeld then
          skip s (nextPtr.map fun o => s.pointerAt t o)
        else if s.fget R.ORG_PF_CTL.PF_TRACKERS ≤ s.prefetches ∨
            (planLines t mask).any (s.prefetchFull t) then (false, s)
        else
          let q := { p with taken := p.taken ++ [some t], ptr := none }
          match s.baseOf t with
          | some b =>
            let s := (planLines t mask).foldl (fun s k => s.loggiaPut k cls (slice b (k % 16 * 256) 256)) (s.copyOut t)
            (true, s.setPlan r { q with ptr := nextPtr.map fun o => some (fieldAt b o 8 / 4096 % 2 ^ 37) })
          | none => (true, ((s.setPlan r q).fetchFor t (.prefetch r p.id mask cls nextPtr) cls).prefetchTake t mask)

/-- Keeps entries position to position + DISTANCE - 1 issued (R230). -/
def State.planPump (s : State) (r : PlanReader) : State :=
  (List.range 65).foldl (fun s _ =>
    match s.planOf r with
    | some p => if p.taken.length < p.pos + p.distance then (s.planTake r p).2 else s
    | none => s) s

/-- A read by the plan's reader advances its position (R230). -/
def State.planRead (s : State) (r : PlanReader) (t : Nat) : State :=
  match s.planOf r with
  | none => s
  | some p =>
    let tileAt := fun i => match p.taken[i]? with
      | some o => o
      | none => match p.entries[i]? with | some (v, 0, _) => some v | _ => none
    let hit := if p.strict then (if tileAt p.pos = some t then some p.pos else none)
      else ((List.range p.entries.length).drop p.pos).find? fun i => tileAt i == some t
    match hit with
    | none => s
    | some i =>
      let fill := (List.range (i + 1 - p.taken.length)).map fun _ => none
      let ptr := if fill = [] then p.ptr else match p.entries[i + 1]? with
        | some (o, 1, _) => some (s.pointerAt t o)
        | _ => none
      let s := s.setPlan r { p with pos := i + 1, taken := p.taken ++ fill, ptr := ptr, moveNs := s.timeNs }
      if i + 1 = p.entries.length then s.endPlan r else s.planPump r

/-- Every plan goes on as its bounds allow (R230, R232). -/
def State.pumpPlans (s : State) : State := s.tier.plans.foldl (fun s q => s.planPump q.1) s

/-- Declares a plan; a new one replaces the reader's old one (R229). -/
def State.declarePlan (s : State) (r : PlanReader) (p : Plan) : State :=
  let s := s.endPlan r
  ({ s with tier := { s.tier with plans := s.tier.plans ++ [(r, p)] } }).planPump r

/-- Host plans in force, of 4,096 slots (R229). -/
def State.hostPlans (s : State) : Nat :=
  (s.tier.plans.filter fun q => match q.1 with | .ctx _ => false | _ => true).length

end Sys2Proof.Machine
end

