-- ==== Sys2Proof/Machine/Resolve.lean ====
section
/-! DEFINITION. The resolve step (R329) and what each kind of operation reports at it: CXL responses (R435, R436), RDMA
responses (R396 to R403), work requests (R415), tasks (R292, R277, R280), LOADs (R309), keys' admitted-counts (R406, R407). -/

namespace Sys2Proof.Machine

/-! ## Memory keys -/

/-- A REVOKING key whose admitted-count is 0 becomes FREE and its revocation completion is written (R407). -/
def State.keySettle (s : State) (i : Nat) : State :=
  match AMap.find? s.xpt.keys i with
  | some k =>
    if k.state = .revoking ∧ k.admitted = 0 then
      let s := { s with xpt := { s.xpt with keys := AMap.del s.xpt.keys i } }
      (s.dec R.XPT_KEY_STAT.REVOKING).produce k.cq k.tenant
        (complRec k.userTag (i * 256 + k.variant.toNat) 0 0 .ok 0x06 0)
    else s
  | none => s

/-- Changes a key's admitted-count (R406). -/
def State.keyCount (s : State) (i : Nat) (up : Bool) : State :=
  match AMap.find? s.xpt.keys i with
  | some k =>
    let k := { k with admitted := if up then k.admitted + 1 else k.admitted - 1 }
    ({ s with xpt := { s.xpt with keys := AMap.put s.xpt.keys i k } }).keySettle i
  | none => s

/-! ## Connections -/

/-- A connection becomes FREE; the highest epoch of its index is kept (R387, R389). -/
def State.connFree (s : State) (c : Nat) : State :=
  let k := s.conn c
  if k.state = .free then s
  else
    let top := max (max k.txEpoch k.rxEpoch) ((AMap.find? s.xpt.lastEpoch c).getD 0)
    let s := s.breakTargets 1 (qpn c)
    let s := { s with
      xpt := { s.xpt with
        conns := AMap.del s.xpt.conns c
        lastEpoch := AMap.put s.xpt.lastEpoch c top
        cache := s.xpt.cache.filter (· ≠ c)
        fetching := s.xpt.fetching.filter (· ≠ c)
        hold := s.xpt.hold.filter fun h => h.2.1 ≠ c
        wrs := s.xpt.wrs.filter fun (w : Wr) => !(w.conn == c && w.target.isSome) } }
    (s.fset R.XPT_STAT.CACHED s.xpt.cache.length).dec R.XPT_STAT.CONNECTIONS

/-- Turnstile entries of a connection (R391). -/
def OpKind.onConn (c : Nat) : OpKind → Bool
  | .netWrite n _ _ | .netAtomic n _ | .netRead n _ _ _ _ | .netFlush n _ | .netSend n _ | .netReq n _ => n == c
  | _ => false

/-- In CLOSING, a connection whose admitted operations have all responded sends DREP and is FREE (R388, R389). -/
def State.connClosing (s : State) (c : Nat) : State :=
  if (s.conn c).state = .closing ∧ !(s.tst.ops.any fun p => p.2.kind.onConn c && !p.2.lingering) then
    (s.emitNet (s.conn c).port (.cmDrep c)).connFree c
  else s

/-- A gate message opens every MSG gate of the tenant that waits on its name; one that finds none is counted (R412). -/
def State.gateMessage (s : State) (t : BitVec 24) (name : Nat) : State :=
  let p := fun (w : Wr) => w.tenant == t && w.gate == 1 && w.gateArg == name
  if s.xpt.wrs.any fun w => w.opened.isNone && p w then s.openGates p else s.sat R.XPT_CNT2.GATE_MISS

/-- A work request completes; statuses but OK, OK_SOLO, REVOKED and POISONED take the target connection to ERROR (R415). -/
def State.wrDone (s : State) (id : Nat) (st : Status) : State :=
  match s.xpt.wrs.find? fun w => w.id = id with
  | none => s
  | some w =>
    let s := s.wrFinish w st
    let s := if w.issued.isSome ∧ w.opcode ≠ 6 then s.keyCount (w.localKey.toNat / 256) false else s
    if st = .ok ∨ st = .okSolo ∨ st = .revoked ∨ st = .poisoned then s
    else s.connError w.conn st (w.issued.map (·.2) |>.getD 0)

/-! ## Tasks -/

/-- The context that runs a task, by its number. -/
def State.ctxOfTask (s : State) (num : Nat) : Option Nat :=
  (List.find? (fun (p : Nat × CtxSt) => (p.2.task.any fun t => t.num == num) && p.1 ≠ 4096) s.ksk.ctx).map (·.1)

/-- Messages an inbox holds (R242, R275). -/
def inboxSize : Nat := 16

/-- A task's completion (R292): its record, or its parent's counter and message (R277), or an orphan (R306). -/
def State.taskDone (s : State) (t : Task) (tag : Option Nat) (st : Status) (result pc cause : Nat) : State :=
  let st := s.say st
  let ten := t.tenant.toNat
  let s := match st with
    | .conflict =>
      let s := s.inc R.KSK_CNT0.CONFLICTS
      { s with sta := { s.sta with conflicts := AMap.set 0 s.sta.conflicts ten ((AMap.get 0 s.sta.conflicts ten + 1) % 2 ^ 32) } }
    | .disabled => s.sat R.KSK_CNT1.DISABLED
    | .limit => s.sat R.KSK_CNT1.LIMITS
    | .fault => s.sat R.KSK_CNT1.FAULTS
    | _ => s
  let s := { s with sta := { s.sta with tasks := AMap.set 0 s.sta.tasks ten ((AMap.get 0 s.sta.tasks ten + 1) % 2 ^ 32) } }
  match t.parent with
  | none =>
    s.produce (s.fget (R.KSK_QCFG3.CQ t.queue)) t.tenant (complRec t.userTag t.num result pc st 0x01 cause) tag
  | some (num, ctr) =>
    match s.ctxOfTask num with
    | none => s.sat R.KSK_CNT1.ORPHANS
    | some c =>
      let x := s.ctx c
      let msg : Word := BitVec.ofNat 64 ((t.num % 2 ^ 32) * 2 ^ 32 + st.code * 2 ^ 24 + result % 2 ^ 24)
      let x := { x with
        gc := AMap.set 0 x.gc ctr (AMap.get 0 x.gc ctr + 1)
        children := x.children - 1
        inbox := if x.held = [] ∧ x.inbox.length < inboxSize then x.inbox ++ [msg] else x.inbox
        held := if x.held = [] ∧ x.inbox.length < inboxSize then x.held else x.held ++ [msg] }
      s.setCtx c x

/-- Bits of the Kiosk and Square status when a context starts or ends (R322). -/
def State.ctxBusy (s : State) (c : Nat) (b : Bool) : State :=
  let k := c / 8
  let s := s.setBit (R.KSK_KIOSK_STAT.CTX_BUSY k) (c % 8) b
  if b then s.inc (R.KSK_SQUARE_STAT.CTX_BUSY (k / 32)) else s.dec (R.KSK_SQUARE_STAT.CTX_BUSY (k / 32))

/-- A Kiosk that is QUIESCING and has no context in use reports QUIESCED (R319). -/
def State.kioskSettle (s : State) (k : Nat) : State :=
  if s.fget (R.KSK_KIOSK_STAT.STATE k) = 1 ∧ s.fget (R.KSK_KIOSK_STAT.CTX_BUSY k) = 0 then
    let s := { s with tst := { s.tst with draining := s.tst.draining.filter fun u =>
      match u with | .kiosk m => m.val ≠ k | _ => true } }
    s.fset (R.KSK_KIOSK_STAT.STATE k) 2
  else s

/-- A queue that is QUIESCING and has nothing running or queued reads QUIESCED (R321). -/
def State.queueSettle (s : State) (q : Nat) : State :=
  if s.fget (R.KSK_QSTAT.STATE q) = 2 ∧ s.fget (R.KSK_QSTAT.RUNNING q) = 0 ∧ s.fget (R.KSK_QSTAT.QUEUED q) = 0 then
    let s := { s with tst := { s.tst with draining := s.tst.draining.filter fun u =>
      match u with | .queue m => m.val ≠ q | _ => true } }
    s.fset (R.KSK_QSTAT.STATE q) 3
  else s

/-- Tiles into which a context has staged bytes (R252). -/
def CtxSt.stagedTiles (x : CtxSt) : List Nat := (x.staged.map fun p => p.1 / 4096).eraseDups

/-- The staging frames of a context return to the tile cache (R281). -/
def State.stageBack (s : State) (x : CtxSt) : State :=
  { s with tier := { s.tier with subFrames := s.tier.subFrames - x.stagedTiles.length } }

/-- A context becomes free (R281, R300): its plan ends, its staging frames return, messages held for it are discarded. -/
def State.ctxFree (s : State) (c : Nat) : State :=
  let x := s.ctx c
  match x.task with
  | none => s
  | some t =>
    let s := if h : c < 4097 then s.endPlan (.ctx ⟨c, h⟩) else s
    let s := s.stageBack x
    let cur := s.fget (R.KSK_PROG0.SLOT t.prog)
    let s := s.dec (if t.slot = cur then R.KSK_PROG1.RUN_CUR t.prog else R.KSK_PROG1.RUN_OLD t.prog)
    let s := (s.setCtx c {}).ctxBusy c false
    ((s.dec (R.KSK_QSTAT.RUNNING t.queue)).kioskSettle (c / 8)).queueSettle t.queue

/-- A running task ends other than by a commit (R280, R281): completion, free context, its entry settled. -/
def State.endTask (s : State) (c : Nat) (st : Status) (cause result : Nat) : State :=
  let x := s.ctx c
  match x.task with
  | none => s
  | some t =>
    let pc := if cause = 0 then 0 else x.pc.toNat
    ((s.taskDone t (some x.tag) st result pc cause).ctxFree c).settleEntry x.tag

/-- A LOAD ends: completion, and STATE by the outcome (R309). The device's own reload at start answers to no descriptor: a program that
failed it is MISSING and the device says so (R311). -/
def State.loadEnd (s : State) (p : Nat) (st : Status) : State :=
  let g := s.prog p
  match g.job with
  | none => s
  | some j =>
    let s := s.setProg p { g with job := none }
    let s := if st = .ok then s else s.fset (R.KSK_PROG0.STATE p) (if j.reload then 4 else j.back)
    let s := if !j.reload then
        s.produce (s.fget (R.KSK_QCFG3.CQ j.task.queue)) j.task.tenant (complRec j.task.userTag j.task.num 0 0 (s.say st) 0x02 0) (some j.tag)
      else if st = .ok then s else s.postTD (BitVec.ofNat 24 (s.fget (R.KSK_PROG0.OWNER p))) 0x0501 p 0
    s.settleEntry j.tag

/-! ## CXL -/

/-- Port of a logical device. -/
def portOf (ld : Nat) : Nat := ld / 16
/-- Whether a CXL port can still answer (R341): UP or QUIESCING. -/
def State.cxlUp (s : State) (p : Nat) : Bool :=
  s.fget (R.CXL_PORT_STAT.STATE p) == 2 || s.fget (R.CXL_PORT_STAT.STATE p) == 3

/-- A refused CXL write is counted before its Cmp and reported at most once per µs (R436, R624). -/
def State.writeRefused (s : State) (ld dpa : Nat) (st : Status) : State :=
  let s := s.inc (R.CXL_LD_CNT.WR_REFUSED ld)
  let l := s.ld ld
  if l.refusedNs ≤ s.timeNs then
    (s.setLd ld { l with refusedNs := s.timeNs + 1000 }).postT (BitVec.ofNat 24 (s.fget (R.CXL_LD_CFG.TENANT ld))) 0x0802 ld
      (st.code * 2 ^ 56 + dpa % 2 ^ 49)
  else s

/-- Data or poisoned data of a MemRd (R435). -/
def State.cxlAnswer (s : State) (ld tag : Nat) (d : Option Bytes) : State :=
  let s := if d.isNone then s.sat (R.CXL_LD_CNT.RD_POISON ld) else s
  if s.cxlUp (portOf ld) then s.emit (.cxlData ld tag (d.map fun b => BitVec.ofNat 512 (fieldAt b 0 64))) else s

/-! ## The resolve step -/

/-- The response of a request on a connection (R396 to R403); in ERROR, and on a fenced port whose link is down, none (R389, R341). -/
def State.netAnswer (s : State) (c psn : Nat) (st : Status) (good : TxPkt) : State :=
  if (s.conn c).state = .error then s
  else if s.netMute (s.conn c).port then s.respond c psn [] true
  else if st = .ok ∨ st = .okSolo then s.respond c psn [good] true
  else s.respond c psn [s.nakPkt c psn (nakCode st) st] true (some st)

/-- What each kind of operation reports at its resolve step (R329). `data` is the 64 bytes of a MemRd or the old bytes of an
atomic. -/
def State.report (s : State) (tag : Nat) (k : OpKind) (st : Status) (data : Bytes) : State :=
  match k with
  | .cxlRd ld t _ => s.cxlAnswer ld t (if st = .ok ∨ st = .okSolo then some data else none)
  | .cxlWr ld t dpa =>
    let s := if st = .ok ∨ st = .okSolo then s else s.writeRefused ld dpa st
    if s.cxlUp (portOf ld) then s.emit (.cxlCmp ld t) else s
  | .netWrite c psn imm =>
    let s := s.netAnswer c psn st (s.ackPkt c psn st)
    match imm with
    | some i => if st = .ok ∨ st = .okSolo then s.gateMessage (s.conn c).tenant i.toNat else s
    | none => s
  | .netAtomic c psn =>
    s.netAnswer c psn st (if data = [] then s.ackPkt c psn st
      else { opcode := 0x12, psn := psn, plain := aeth 0x1F (s.conn c).msn ++ data.reverse, status := (s.say st).code })
  | .netRead c psn _ _ sent =>
    let s := s.setConn c { s.conn c with tiles := (s.conn c).tiles.filter (·.1 ≠ psn) }
    if st = .ok ∨ st = .okSolo then s.respond c psn [] true
    else if (s.conn c).state = .error then s
    else if s.netMute (s.conn c).port then (s.dropUnsent c psn).respond c psn [] true
    else
      let at' := psn + sent - s.unsent c psn
      (s.dropUnsent c psn).respond c psn [s.nakPkt c at' (nakCode st) st] true (some st)
  | .netFlush c psn =>
    s.netAnswer c psn st { opcode := 0x10, psn := psn, plain := aeth 0x1F (s.conn c).msn, status := (s.say st).code }
  | .netSend c psn =>
    if [Status.ok, .okSolo, .malformed, .access, .nospace].contains st then s.respond c psn [s.ackPkt c psn st] true
    else s.netAnswer c psn st (s.ackPkt c psn st)
  | .netReq _ w => s.wrDone w st
  | .task t result => s.taskDone t (some tag) st (if st = .ok ∨ st = .okSolo then result.toNat else 0) 0 0
  | .load p => s.loadEnd p st
  | .prm _ | .maint _ => s

/-- The connection of an operation, if it has one. -/
def OpKind.conn? : OpKind → Option Nat
  | .netWrite n _ _ | .netAtomic n _ | .netRead n _ _ _ _ | .netFlush n _ | .netSend n _ | .netReq n _ => some n
  | _ => none

/-- The one resolve step of an entry (R329): the first to claim it reports, a later result is discarded and counted LATE. A
running task gives up its context. -/
def State.resolveOne (s : State) (tag : Nat) (st : Status) (data : Bytes := []) : State :=
  match AMap.find? s.tst.ops tag with
  | none => s
  | some o =>
    if o.lingering then if isDup tag then s else s.sat (R.TST_SRC_CNT.LATE (Src.ofTag tag).num)
    else
      match o.kind, List.find? (fun (p : Nat × CtxSt) => p.2.tag == tag && p.2.task.isSome && p.1 ≠ 4096) s.ksk.ctx with
      | .task _ _, some (c, _) => s.endTask c st 0 0
      | _, _ =>
        let s := match o.key with | some i => s.keyCount i false | none => s
        (s.report tag o.kind st data).settleEntry tag

/-- A READ whose last response packet has been handed to the port, in its turn (R397). -/
def State.readSent (s : State) (c : Nat) : Option Nat :=
  match (s.conn c).due with
  | d :: _ =>
    if d.pkts = [] ∧ !d.done then
      (List.find? (fun (p : Nat × Op) => !p.2.lingering && match p.2.kind with
        | .netRead n psn _ len sent => n == c && psn == d.psn && sent == readPkts len (s.conn c).mtu
        | _ => false) s.tst.ops).map (·.1)
    else none
  | [] => none

/-- READs whose last packet has gone resolve, one after another (R397). -/
def State.readsDone (s : State) (c : Nat) : State :=
  (s.conn c).due.foldl (fun s _ => match s.readSent c with | some t => s.resolveOne t .ok | none => s) s

/-- A fenced port with nothing in flight reports QUIESCED and idles its transmitters; what still waits to be sent is dropped
(R337, R363). -/
def State.portSettle (s : State) (p : Nat) : State :=
  let busy := s.tst.ops.any fun q => !q.2.lingering && match q.2.kind.conn? with | some c => (s.conn c).port == p | none => false
  if s.fget (R.NET_PORT_STAT.STATE p) = 3 ∧ !busy then
    let s := (s.xpt.conns.filter fun q => q.2.port = p).foldl (fun (s : State) q => s.setConn q.1 { s.conn q.1 with due := [] }) s
    let s := { s with tst := { s.tst with draining := s.tst.draining.filter fun u => match u with | .netPort m => m.val ≠ p | _ => true } }
    (s.fset (R.NET_PORT_STAT.STATE p) 4).fset (R.NET_PORT_STAT.LOCKED p) 0
  else s

/-- CXL operations of a port that have not resolved. -/
def OpKind.onCxl (p : Nat) : OpKind → Bool
  | .cxlRd ld _ _ | .cxlWr ld _ _ => portOf ld == p
  | _ => false

/-- A fenced CXL port with nothing in flight reports QUIESCED (R337). -/
def State.cxlSettle (s : State) (p : Nat) : State :=
  if s.fget (R.CXL_PORT_STAT.STATE p) = 3 ∧ !(s.tst.ops.any fun q => !q.2.lingering && q.2.kind.onCxl p) then
    let s := { s with tst := { s.tst with draining := s.tst.draining.filter fun u => match u with | .cxlPort m => m.val ≠ p | _ => true } }
    s.fset (R.CXL_PORT_STAT.STATE p) 4
  else s

/-- The resolve step of an entry (R329) and what follows it on its connection and its port. -/
def State.resolve (s : State) (tag : Nat) (st : Status) (data : Bytes := []) : State :=
  match AMap.find? s.tst.ops tag with
  | none => s
  | some o =>
    let s := s.resolveOne tag st data
    match o.kind with
    | .cxlRd ld _ _ | .cxlWr ld _ _ => s.cxlSettle (portOf ld)
    | k => match k.conn? with
      | some c => let p := (s.conn c).port; ((s.readsDone c).connClosing c).portSettle p
      | none => s

end Sys2Proof.Machine
end

