-- ==== Sys2Proof/Machine/Records.lean ====
section
/-! DEFINITION. The journal (R93 to R119): forming records, the checks of R100 step 1, space and index entries, the sequencer
step, outcomes at their response points, mirroring and lag (R105 to R112, R145, R148), and what ATTR records do (R27, R31,
R236, R451). -/

namespace Sys2Proof.Machine

/-- A record is formed and awaits RECORD_SUBMIT (R103); answers its name. -/
def State.formRec (s : State) (r : Rec) : Nat × State :=
  let id := s.jnl.nextId
  (id, { s with jnl := { s.jnl with nextId := id + 1, formed := s.jnl.formed ++ [{ r with id := id }] } })

/-! ## Homes (R104) -/

/-- Whether this device is the home of extent `e` now: by parity PAIRED and READONLY, always while it is alone, never as the target of a
resync. -/
def State.homeHere (s : State) (e : Nat) : Bool :=
  match s.prmState with
  | 2 | 4 => if e % 2 = 0 then s.isSenior else !s.isSenior
  | 6 => false
  | _ => true

/-- Whether it is the home of changes that name no extent. -/
def State.homeAny (s : State) : Bool :=
  match s.prmState with
  | 2 => s.isSenior
  | 6 => false
  | _ => true

/-- The extent an attribute change names. -/
def Attr.ext? : Attr → Option Nat
  | .assign e _ _ _ _ | .mode e _ | .cls e _ | .release e | .freed e => some e
  | _ => none

/-- Extents a record touches. -/
def Body.exts (b : Body) : List Nat :=
  match b with
  | .attr a => a.ext?.toList
  | .data _ | .rmw _ _ _ _ | .reloc _ => (b.tiles.map extOf).eraseDups
  | _ => []

/-- Whether this device admits a record first (R104, R105). A record that touches extents with different homes is away from both twins: it
is forwarded whole to the twin, which admits it (log entry 27: the manual names no home for it). -/
def State.homeOf (s : State) (b : Body) : Bool :=
  match b with
  | .table _ _ | .root _ _ _ => true
  | .attr a => match a.ext? with | some e => s.homeHere e | none => s.homeAny
  | _ => b.exts.all s.homeHere

/-! ## Checks (R100 step 1) -/

/-- PINNED extents, in GiB (R236). -/
def State.pinned (s : State) : Nat := s.fget R.TER_PIN_STAT.PINNED_GIB

/-- What a tenant still holds (R452): extents, queues, key ranges, LDs, programs, scratchpad, page slots, completion queues,
targets. -/
def State.tenantHolds (s : State) (t : BitVec 24) : Bool :=
  let n := t.toNat
  (s.ext.any fun p => p.2.state ≠ .free && p.2.owner == t)
  || ((s.listed R.KSK_QCFG0.TENANT 1024).any fun q => s.fget (R.KSK_QCFG0.TENANT q) == n)
  || ((s.listed R.XPT_KRANGE0.TENANT 4096).any fun q => s.flag (R.XPT_KRANGE0.VALID q) && s.fget (R.XPT_KRANGE0.TENANT q) == n)
  || ((s.listed R.CXL_LD_CFG.TENANT 32).any fun q => s.flag (R.CXL_LD_CFG.VALID q) && s.fget (R.CXL_LD_CFG.TENANT q) == n)
  || ((s.listed R.KSK_PROG0.OWNER 1024).any fun q => s.fget (R.KSK_PROG0.OWNER q) == n)
  || ((s.listed R.ORG_SCR_OWNER.TENANT 192).any fun q => s.fget (R.ORG_SCR_OWNER.TENANT q) == n)
  || ((s.listed R.STA_TPAGE0.VALID 2048).any fun q => s.fget (R.STA_TPAGE0.TENANT q) == n)
  || ((s.listed R.STA_CQ0.VALID 65536).any fun q => s.fget (R.STA_CQ0.TENANT q) == n)
  || ((s.listed R.STA_TGT0.VALID 4096).any fun q => s.fget (R.STA_TGT0.TENANT q) == n)

/-- The checks of an ATTR record: its fit, its fields, its limits (R100). -/
def State.attrCheck (s : State) (a : Attr) : Option Status :=
  let assigned := fun e => (s.extent e).state == .assigned
  let full := decide (s.fget R.TER_PIN_CTL.MAX_GIB < s.pinned + 1)
  match a with
  | .assign e o _ c m =>
    if (s.extent e).state ≠ .free ∨ (s.tenant o).isNone ∨ o = 0 then some .access
    else if m = 0 ∨ 256 ≤ m then some .malformed
    else if c = .pinned ∧ full then some .nospace
    else none
  | .mode e _ => if assigned e then none else some .access
  | .cls e c =>
    if !assigned e then some .access
    else if c = .pinned ∧ (s.extent e).cls ≠ .pinned ∧ full then some .nospace
    else none
  | .release e => if assigned e then none else some .access
  | .freed e => if (s.extent e).state = .reclaiming then none else some .access
  | .tenantCreate t _ _ =>
    if (s.tenant t).isSome ∨ s.fget R.GTH_TEN_STAT.NEXT_EPOCH = 0xFFFFFFFF then some .access
    else if 65536 ≤ s.gth.tenants.length then some .nospace
    else none
  | .tenantDestroy t => if (s.tenant t).isNone ∨ t = 0 ∨ s.tenantHolds t then some .access else none
  | .tenantEnrol t r _ _ =>
    if (s.tenant t).isNone then some .access
    else if r.isSome ∧ s.fget R.GTH_TEN_STAT.NEXT_EPOCH = 0xFFFFFFFF then some .exhausted
    else none
  | .maxGib n => if 120 < n then some .malformed else none

/-- Whether a record by itself covers all of a tile (R87). -/
def Rec.coversTile (r : Rec) (t : Nat) : Bool := covers t [r]

/-- Step 1 of R100: the status a record is refused with, or none. -/
def State.recCheck (s : State) (r : Rec) : Option Status :=
  if r.body.isTable then none
  else if !r.twin ∧ s.prmState = 4 then some .readonly
  else
    let tiles := r.body.tiles
    let first := match r.body with
      | .attr a => s.attrCheck a
      | .reloc t =>
        if (s.extent (extOf t)).state ≠ .assigned then some .access
        else if (s.liveVer t).reloc = 0xFFF then some .exhausted
        else none
      | _ =>
        if tiles.all fun t => (s.extent (extOf t)).state == .assigned && (s.extent (extOf t)).owner == r.tenant then none
        else some .access
    match first with
    | some st => some st
    | none =>
      if tiles.any fun t => (s.genEntry t).quar && !r.coversTile t then some .poisoned
      else if !r.body.isReloc ∧ tiles.any fun t => (s.liveVer t).gen == genMax then some .exhausted
      else none

/-! ## Space (R93 to R96) -/

/-- Granules of the PAD record at the end of the region, while a record of the pass that it ended stands (R93, R95; log entry 129). -/
def State.padUsed (s : State) : Nat := if (s.jnl.reserved ++ s.jnl.recs).any fun r => decide (s.jnl.head ≤ r.pos) then s.jnl.pad else 0

/-- Granules occupied: reserved and admitted records, and the PAD record. -/
def State.granulesUsed (s : State) : Nat :=
  (s.jnl.reserved ++ s.jnl.recs).foldl (fun n r => n + r.body.granules) s.padUsed

/-- Index entries in use: those of tiles not retired past (R82); ATTR and ROOT records have none (R96, R119). -/
def State.indexUsed (s : State) : Nat :=
  (s.jnl.reserved ++ s.jnl.recs).foldl (fun n r => n + (r.body.segs.filter fun g => !r.doneTiles.contains g.tile).length) 0

/-- Keeps OCC_KIB (R132). -/
def State.noteOcc (s : State) : State := s.fset R.JNL_STAT.OCC_KIB (s.granulesUsed / 4)

/-- DRAIN_LIMIT in granules (R132: units of 256 MiB). -/
def State.drainLimit (s : State) : Nat := 1048576 * s.fget R.JNL_LIMIT_CTL.DRAIN_LIMIT

/-- Granules of the ring. -/
def ringGranules : Nat := 67108864

/-- Where the next record of `n` granules goes: after the newest, or at the start where it would pass the end (R93). -/
def State.placeFor (s : State) (n : Nat) : Nat := if ringGranules < s.jnl.head + n then 0 else s.jnl.head

/-- Granules that a PAD record fills before the next record of `n` granules (R93). -/
def State.padFor (s : State) (n : Nat) : Nat := if ringGranules < s.jnl.head + n then ringGranules - s.jnl.head else 0

/-- Whether a place is free of records. -/
def State.placeFree (s : State) (pos n : Nat) : Bool :=
  n == 0 || (s.jnl.reserved ++ s.jnl.recs).all fun r => pos + n ≤ r.pos || r.pos + r.body.granules ≤ pos

/-- Whether a record has journal space, with the PAD record before it (R93, R94, R95). -/
def State.spaceFor (s : State) (b : Body) : Bool :=
  let lim := if b.isTable then s.drainLimit else s.drainLimit - 1048576
  let pad := s.padFor b.granules
  decide (s.granulesUsed + pad + b.granules ≤ lim) && s.placeFree s.jnl.head pad && s.placeFree (s.placeFor b.granules) b.granules

/-- The ring goes on after a record of `n` granules, over a PAD record where it did not fit (R93). -/
def State.takePlace (s : State) (n : Nat) : State :=
  { s with jnl := { s.jnl with
    head := s.placeFor n + n
    pad := if ringGranules < s.jnl.head + n then s.padFor n else s.jnl.pad } }

/-- Whether a record has index entries (R96). -/
def State.indexFor (s : State) (b : Body) : Bool :=
  decide (s.indexUsed + b.segs.length ≤ if b.isTable then 67108864 else 67108864 - 1048576)

/-- Keeps FULL and INDEX_FULL: some record waits for space or for index entries (R94, R96). -/
def State.noteWaiting (s : State) : State :=
  (s.fput R.JNL_STAT.FULL (s.jnl.waiting.any fun r => !s.spaceFor r.body)).fput R.JNL_STAT.INDEX_FULL
    (s.jnl.waiting.any fun r => !s.indexFor r.body)

/-- Mirror lag holds a record back: one from this device's own interfaces (R109). -/
def State.lagHolds (s : State) (r : Rec) : Bool :=
  s.jnl.lagPaused && !r.twin && !r.body.isTable && match r.owner with | .forward _ _ => false | _ => true

/-- A record has granules and index entries, and no lag holds it (R94, R96, R109). -/
def State.recRoom (s : State) (r : Rec) : Bool := s.spaceFor r.body && s.indexFor r.body && !s.lagHolds r

/-- A record waits, and its wait is counted (R94, R96). -/
def State.letWait (s : State) (r : Rec) : State :=
  let s := if !s.spaceFor r.body then s.sat R.JNL_STALL_CNT.SPACE else s
  let s := if !s.indexFor r.body then s.sat R.JNL_STALL_CNT.INDEX else s
  ({ s with jnl := { s.jnl with waiting := s.jnl.waiting ++ [r] } }).noteWaiting

/-- Reserves space for a record (R100 step 2), or lets it wait. -/
def State.reserveRec (s : State) (r : Rec) : State :=
  if s.recRoom r then
    let t := s.takePlace r.body.granules
    ({ t with jnl := { t.jnl with reserved := t.jnl.reserved ++ [{ r with pos := s.placeFor r.body.granules }] } }).noteOcc
  else s.letWait r

/-- A record leaves every list that holds it before admission. -/
def State.dropRec (s : State) (id : Nat) : State :=
  ({ s with jnl := { s.jnl with
    formed := s.jnl.formed.filter (·.id ≠ id)
    waiting := s.jnl.waiting.filter (·.id ≠ id)
    reserved := s.jnl.reserved.filter (·.id ≠ id)
    bases := s.jnl.bases.filter (·.1 ≠ id) } }).noteOcc.noteWaiting

/-- Everything of an operation that has not been sequenced is withdrawn (R331): its record, its forwarded write, its fence, its
combining window. -/
def State.withdraw (s : State) (tag : Nat) : State :=
  let mine := fun (r : Rec) => match r.owner with | .ops ts => ts.contains tag | .read t _ => t == tag | _ => false
  let s := (((s.jnl.formed ++ s.jnl.waiting ++ s.jnl.reserved).filter mine).map Rec.id).foldl State.dropRec s
  { s with
    prm := { s.prm with fwd := s.prm.fwd.filter fun p => !mine p.2 }
    jnl := { s.jnl with fences := s.jnl.fences.filter fun f => f.owner != .flush tag }
    cxl := { s.cxl with comb := s.cxl.comb.filter fun w => !w.tags.contains tag } }

/-- The resolve step is claimed by a timeout, a drain bound, a shutdown or a change of role (R329, R331). -/
def State.cut (s : State) (tag : Nat) (st : Status) : State := (s.withdraw tag).resolve tag st

/-- Cuts every operation that satisfies `p`, but those whose record has been sequenced (R331, R338). -/
def State.cutAll (s : State) (p : Op → Bool) (st : Status) : State :=
  (s.tst.ops.filter fun q => !q.2.lingering && q.2.jsn.isNone && p q.2).foldl (fun s q => s.cut q.1 st) s

/-- A running task is ended from outside before its COMMIT's sequencer step: what it had submitted is withdrawn (R269, R303,
R331). -/
def State.stopTask (s : State) (c : Nat) (st : Status) (cause : Nat) : State :=
  let x := s.ctx c
  let mine := fun (r : Rec) => match r.owner with | .atomic d _ => d == c | _ => false
  let s := (((s.jnl.formed ++ s.jnl.waiting ++ s.jnl.reserved).filter mine).map Rec.id).foldl State.dropRec s
  let s := { s with jnl := { s.jnl with fences := s.jnl.fences.filter fun f => match f.owner with | .task d _ => d != c | _ => true } }
  if x.task.isNone then s else (s.withdraw x.tag).endTask c st cause 0

/-! ## Management completions -/

/-- An MCTP packet waits for MGMTBUS, which it takes in the next idle period unless the bus is stuck or another controller wins it (R590, R599,
R604). -/
def State.sendMctp (s : State) (dst : BitVec 7) (b : Bytes) : State :=
  { s with twb := { s.twb with txq := s.twb.txq ++ [(dst, b, s.timeNs)] } }

/-- The packets that wait for MGMTBUS go out. -/
def State.flushMctp (s : State) : State :=
  if s.flag (R.TWB_STAT.BUS_STUCK 1) then s
  else s.twb.txq.foldl (fun s m => s.emit (.mctp m.1 m.2.1)) { s with twb := { s.twb with txq := [] } }

/-- A management descriptor's completion goes where it came from, into its session if that still stands (R616, R598). -/
def State.mgmtDone (s : State) (t : Task) (src : MgmtSrc) (st : Status) : State :=
  let r := complRec t.userTag t.num 0 0 (s.say st) 0x04 0
  match src with
  | .rdma _ => s.produce (s.fget R.STA_CTL.MGMT_CQ) 0 r
  | .mctp n a => if (if n = 0 then s.twb.s0 else s.twb.s1).isSome then s.sendMctp a (r ++ [1]) else s

/-- A pending management outcome (R649) is delivered. -/
def State.mgmtOutcome (s : State) (num : Nat) (st : Status) : State :=
  match s.ksk.mgmtWait with
  | some (t, src) =>
    if t.num = num then ({ s with ksk := { s.ksk with mgmtWait := none } }).mgmtDone t src st else s
  | none => s

/-! ## Outcomes -/

/-- An Aelo atomic's result: the old value in a[D] (and a[D+1] for 128 bits), and the context goes on (R270). -/
def State.atomicDone (s : State) (c d w old : Nat) : State :=
  let x := s.ctx c
  let a := AMap.set 0 x.a d (BitVec.ofNat 64 old)
  let a := if w = 16 then AMap.set 0 a (d + 1) (BitVec.ofNat 64 (old / 2 ^ 64)) else a
  let a := AMap.set 0 a 0 0
  s.setCtx c { x with a := a, pc := x.pc + 4, wait := .none, charged := false }

/-- Whoever waits at this device for a record's outcome hears it. -/
def State.tellOwner (s : State) (o : Owner) (st : Status) : State :=
  match o with
  | .ops tags => tags.foldl (fun s t => s.resolve t st) s
  | .read t _ => s.resolve t st
  | .mgmt n => s.mgmtOutcome n st
  | .enrol => s.fset R.GTH_ENROL_STAT.STATUS st.code
  | .atomic _ _ | .twin _ | .forward _ _ | .engine => s

/-- A record of the twin's returns a forwarded write: the same change, or the same operation by OP_TAG (R97, R106; log entry 27). -/
def Rec.returnOf (r f : Rec) : Bool :=
  match f.body, r.body with
  | .attr a, .attr b => (attrBytes a).take 4 == (attrBytes b).take 4
  | .reloc t, .reloc u => t == u
  | .data _, .data _ | .rmw _ _ _ _, .data _ => f.owner.tag == r.opTag
  | _, _ => false

/-- The forwarded write that a record of the twin's returns (R106). -/
def State.forwardOf (s : State) (r : Rec) : Option (Nat × Rec) := if r.returns then s.prm.fwd.find? fun p => r.returnOf p.2 else none

/-- A forwarded write is over. -/
def State.dropForward (s : State) (k : Nat) : State := { s with prm := { s.prm with fwd := s.prm.fwd.filter (·.1 ≠ k) } }

/-- A record is refused: its owner hears the status (R100, R146, R147, R272, R649). -/
def State.refuseRec (s : State) (r : Rec) (st : Status) : State :=
  let s := if st = .exhausted then s.sat R.JNL_GEN_CNT.EXHAUSTED else s
  match r.owner with
  | .atomic c _ => s.endTask c st 0x0D 0
  | .twin tag =>
    let s := (s.sat R.PRM_CNT1.REFUSED).resolve tag st
    let es := r.body.exts
    let s := es.foldl (fun s e => (s.markExt e fun x => { x with diverged := true }).postD 0x0204 e r.pairSeq) s
    match s.forwardOf r with
    | some (k, f) => (s.dropForward k).tellOwner f.owner .timeout
    | none => s
  | .forward ref tag => (s.resolve tag st).sendTwin 0x04 (natLe 8 ref ++ natLe 1 st.code ++ natLe 7 0)
  | .ops _ | .read _ _ | .mgmt _ | .enrol | .engine => s.tellOwner r.owner st

/-- The owner of an admitted record hears OK at its response point (R110). -/
def State.acceptRec (s : State) (o : Owner) : State :=
  match o with
  | .read _ _ => s
  | o => s.tellOwner o .ok

/-- A READ work request has all its response packets and every record of them is admitted: it completes, or waits for its last
record to be mirror-durable (R413). -/
def State.readWrDone (s : State) (tag wr : Nat) : State :=
  match s.xpt.wrs.find? fun w => w.id = wr with
  | none => s
  | some w =>
    if w.recs ≠ 0 ∨ w.acked < readPkts w.len (s.conn w.conn).mtu then s
    else if w.durable then
      { s with jnl := { s.jnl with
        fences := s.jnl.fences ++ [{ id := s.jnl.nextId, jsn := s.fget R.JNL_JSN.JSN, owner := .wr wr }], nextId := s.jnl.nextId + 1 } }
    else s.resolve tag .ok

/-- One record of a READ work request has been admitted (R413). -/
def State.readAdmitted (s : State) (tag wr : Nat) : State :=
  ({ s with xpt := { s.xpt with wrs := s.xpt.wrs.map fun (w : Wr) => if w.id = wr then { w with recs := w.recs - 1 } else w } }).readWrDone tag wr

/-- Whether records are mirrored to the twin now: PAIRED, or the source of a resync (R105, R165). -/
def State.mirrors (s : State) : Bool := s.prmState == 2 || s.prmState == 5

/-- Pair states in which records, repairs and resync frames are taken. -/
def State.linked (s : State) : Bool := s.prmState == 2 || s.prmState == 5 || s.prmState == 6

/-- Whether an owner answers at mirror-durable (R110, R165 step 2): CXL writes and task commits in SYNC extents, attribute changes and
relocations always; RDMA writes and atomics never. -/
def State.waitsMirror (s : State) (r : Rec) : Bool :=
  s.mirrors && match r.owner with
    | .ops tags => r.sync && tags.any fun t => match AMap.find? s.tst.ops t with
        | some o => (match o.kind with | .cxlWr _ _ _ | .task _ _ => true | _ => false)
        | none => false
    | .mgmt _ | .enrol => true
    | _ => false

/-- Whether the Turnstile entry of an operation that answers sooner is held until its record is mirror-durable (R111). -/
def State.holdsEntry (s : State) (r : Rec) : Bool :=
  r.sync && !s.waitsMirror r && match r.owner with | .ops _ | .read _ _ => true | _ => false

/-- Turnstile entries of a record's owner. -/
def Owner.tags : Owner → List Nat
  | .ops tags => tags
  | .read t _ => [t]
  | _ => []

/-! ## Mirror lag and the watermark (R107, R148) -/

/-- Bytes of unacknowledged local-origin MIRROR records. -/
def State.lagBytes (s : State) : Nat := s.jnl.unacked.foldl (fun n u => n + u.bytes) 0

/-- The highest JSN at or below which every local-origin MIRROR record is mirror-durable (R107). -/
def State.watermark (s : State) : Nat :=
  let w := match s.jnl.unacked with | u :: _ => u.jsn - 1 | [] => s.fget R.JNL_JSN.JSN
  match s.jnl.durTo with | some j => min j w | none => w

/-- The watermark may not pass JSN `j` until a resync has taken the place of what follows it (R107, R112). -/
def State.stopMark (s : State) (j : Nat) : State :=
  { s with jnl := { s.jnl with durTo := some (match s.jnl.durTo with | some i => min i j | none => j) } }

/-- Acknowledgements still due can no longer come: the watermark stays before them (R107). -/
def State.giveUpAcks (s : State) : State :=
  let s := match s.jnl.unacked with | u :: _ => s.stopMark (u.jsn - 1) | [] => s
  { s with jnl := { s.jnl with unacked := [] } }

/-- Keeps PRM_LAG_STAT and JNL_MIRROR_JSN. -/
def State.noteLag (s : State) : State :=
  let s := s.fset R.PRM_LAG_STAT.BYTES_KIB (s.lagBytes / 1024)
  let age := match s.jnl.unacked with | u :: _ => s.timeNs - u.admitNs | [] => 0
  (s.fset R.PRM_LAG_STAT.AGE_NS age).fset R.JNL_MIRROR_JSN.JSN s.watermark

/-- A record needs no acknowledgement any more: an operation that waited answers, an entry that was held is released (R110, R111). -/
def State.acksDone (s : State) (u : Unacked) : State :=
  if u.wait then s.acceptRec u.owner
  else if u.hold then u.owner.tags.foldl State.holdBack s
  else s

/-- Whether a lag value is at its bound; the age counts where its timer is due (R148). -/
def State.lagReached (s : State) : Bool :=
  decide (1048576 * s.fget R.PRM_LAG_CTL.LAG_MIB ≤ s.lagBytes) ||
  (match s.jnl.unacked with
   | u :: _ => decide (s.fget R.PRM_LAG_CTL.LAG_US * 1000 ≤ s.timeNs - u.admitNs)
   | [] => false)

/-- Pauses or resumes admission from local interfaces (R109, R148). -/
def State.lagPause (s : State) (p : Bool) : State :=
  if p = s.jnl.lagPaused then s
  else
    let s := { s with jnl := { s.jnl with lagPaused := p } }
    let s := s.fput R.JNL_STAT.THROTTLED p
    if p then s.sat R.PRM_CNT1.THROTTLE else s

/-- The twin has acknowledged PAIR_SEQ up to `q` (R107): records turn mirror-durable, operations that waited answer. -/
def State.ackPair (s : State) (q : Nat) : State :=
  let hit := s.jnl.unacked.filter fun u => u.pairSeq ≤ q
  let s := { s with
    jnl := { s.jnl with
      unacked := s.jnl.unacked.filter fun u => q < u.pairSeq
      recs := s.jnl.recs.map fun (r : Rec) => if r.mirror && !r.twin && r.pairSeq ≤ q then { r with acked := true } else r }
    prm := { s.prm with pairAcked := max s.prm.pairAcked q } }
  let s := hit.foldl State.acksDone s.noteLag
  s.lagPause s.lagReached

/-! ## Attribute changes -/

/-- Non-ZERO tiles of an extent, from the generation table. -/
def State.storedTiles (s : State) (e : Nat) : List Nat :=
  (s.gen.filter fun p => !isSys p.1 && extOf p.1 == e && !p.2.zero).map (·.1)

/-- Retirements that are dropped give back their entries (R328). -/
def State.dropRetires (s : State) (p : Retire → Bool) : State :=
  (s.jnl.retiring.filter p).foldl (fun s r => (s.holdBack r.tag).settleEntry r.tag)
    { s with jnl := { s.jnl with retiring := s.jnl.retiring.filter fun r => !p r } }

/-- Removes an extent's records at its release: they are discarded (R31); a relocation among them is not one that retired (R92). -/
def State.discardExtent (s : State) (e : Nat) : State :=
  let s := s.dropRetires fun r => !isSys r.tile && extOf r.tile == e
  let here := fun (t : Nat) => !isSys t && extOf t == e
  ({ s with jnl := { s.jnl with
    recs := (s.jnl.recs.filter fun (r : Rec) => !(r.body.isReloc && r.body.tiles.any here)).map fun (r : Rec) =>
      { r with doneTiles := r.doneTiles ++ r.body.tiles.filter fun t => here t && !r.doneTiles.contains t } } }).noteOcc

/-- Ends an extent's acceptances at once, with a Forced Capacity Release record for each LD (R430). -/
def State.forceOut (s : State) (e : Nat) : State :=
  let m := (s.extent e).accepted
  let s := (List.range 32).foldl (fun s l =>
    if m.getLsbD l then
      (s.setLd l { s.ld l with events := (s.ld l).events ++ [.forcedRelease e], withdrawn := (s.ld l).withdrawn.filter (· ≠ e) }).dec
        (R.CXL_LD_STAT.ACCEPTED l)
    else s) s
  s.markExt e fun x => { x with accepted := 0 }

/-- The descriptor an attribute change leaves (R27, R31). -/
def Attr.onExt (a : Attr) (x : Ext) : Ext :=
  match a with
  | .assign _ o f c m => { x with state := .assigned, owner := o, fenced := f, cls := c, map := m }
  | .mode _ f => { x with fenced := f }
  | .cls _ c => { x with cls := c }
  | .release _ => { x with state := .reclaiming, accepted := 0 }
  | .freed _ => { epoch := x.epoch + 1 }
  | .tenantCreate _ _ _ | .tenantDestroy _ | .tenantEnrol _ _ _ _ | .maxGib _ => x

/-- The tenant table an attribute change leaves (R451, R452, R454). -/
def Attr.onTenants (a : Attr) (m : AMap Ten) : AMap Ten :=
  match a with
  | .tenantCreate t h ep => AMap.put m t.toNat { hash := h, epoch := ep }
  | .tenantDestroy t => AMap.del m t.toNat
  | .tenantEnrol t rot x h =>
    match AMap.find? m t.toNat with
    | none => m
    | some n =>
      let n := { n with enrolled := true, cxlAuth := x, ecdsaHash := h }
      AMap.put m t.toNat (match rot with | some ep => { n with prev := some n.epoch, epoch := ep } | none => n)
  | .assign _ _ _ _ _ | .mode _ _ | .cls _ _ | .release _ | .freed _ | .maxGib _ => m

/-- NEXT_EPOCH once a change has taken an epoch (R452, R454). -/
def Attr.nextEpoch (a : Attr) (n : Nat) : Nat :=
  match a with
  | .tenantCreate _ _ ep => max n (ep.toNat + 1)
  | .tenantEnrol _ (some ep) _ _ => max n (ep.toNat + 1)
  | _ => n

/-- A CREATE or ROTATE takes the epoch that stands at its sequencer step (R451, R452, R454). -/
def Attr.atStep (a : Attr) (ep : BitVec 32) : Attr :=
  match a with
  | .tenantCreate t h _ => .tenantCreate t h ep
  | .tenantEnrol t (some _) x h => .tenantEnrol t (some ep) x h
  | a => a

/-- The persistent copy takes an attribute change (R119). -/
def Persist.take (p : Persist) (a : Attr) : Persist :=
  { ext := match a.ext? with | some e => AMap.set {} p.ext e (a.onExt (AMap.get {} p.ext e)) | none => p.ext
    tenants := a.onTenants p.tenants
    maxGib := match a with | .maxGib n => n | _ => p.maxGib
    nextEpoch := a.nextEpoch p.nextEpoch }

/-- What an ATTR record does at its sequencer step, on each twin alike (R27, R31, R119, R236, R451). -/
def State.applyAttr (s : State) (a : Attr) : State :=
  let put := fun (s : State) (e : Nat) => s.setExtent e (a.onExt (s.extent e))
  match a with
  | .assign e _ _ c _ =>
    let s := put s e
    if c = .pinned then s.inc R.TER_PIN_STAT.PINNED_GIB else s
  | .mode e _ => put s e
  | .cls e c =>
    let was := (s.extent e).cls
    let s := put s e
    let s := if was = .pinned ∧ c ≠ .pinned then s.dec R.TER_PIN_STAT.PINNED_GIB else s
    let s := (if was ≠ .pinned ∧ c = .pinned then s.inc R.TER_PIN_STAT.PINNED_GIB else s).notePins
    if c.caches then s else s.invalidateRange e (e + 1) true
  | .release e =>
    let s := if (s.extent e).cls = .pinned then s.dec R.TER_PIN_STAT.PINNED_GIB else s
    ((put (s.forceOut e) e).invalidateRange e (e + 1) true).notePins
  | .freed e =>
    let s := put (s.discardExtent e) e
    { s with gen := s.gen.filter fun p =>
        if isSys p.1 then !(decide (p.1 - sysBase < lvl1 ∧ (p.1 - sysBase) / 512 = e)) else extOf p.1 ≠ e }
  | .tenantCreate _ _ _ | .tenantDestroy _ | .tenantEnrol _ _ _ _ =>
    let s := { s with gth := { s.gth with tenants := a.onTenants s.gth.tenants } }
    (s.fset R.GTH_TEN_STAT.TENANTS s.gth.tenants.length).fset R.GTH_TEN_STAT.NEXT_EPOCH (a.nextEpoch (s.fget R.GTH_TEN_STAT.NEXT_EPOCH))
  | .maxGib n => s.fset R.TER_PIN_CTL.MAX_GIB n

/-! ## The sequencer step (R100 step 4) -/

/-- Insertion into a rising list without repeats. -/
def insertRising (x : Nat) : List Nat → List Nat
  | [] => [x]
  | y :: r => if x < y then x :: y :: r else if x = y then y :: r else y :: insertRising x r

/-- Marks the granules of tiles dirty while solo; their sub-maps take space of the tile cache (R164). -/
def State.markDirty (s : State) (ts : List Nat) : State :=
  if s.prmState = 3 ∨ s.prmState = 5 then
    (ts.filter fun t => !isSys t).foldl (fun (s : State) t =>
      ({ s with prm := { s.prm with dirty := insertRising (t / 16) s.prm.dirty } }).yieldFrame) s
  else s

/-- One GEN_NEAR_EXHAUSTED event when a tile's live GEN reaches the warning level, and again only after its RELOC changed
(R65). -/
def State.warnGen (s : State) (t : Nat) : State :=
  let v := s.liveVer t
  if genWarn ≤ v.gen ∧ !isSys t ∧ AMap.find? s.jnl.near t ≠ some v.reloc then
    ({ s with jnl := { s.jnl with near := AMap.put s.jnl.near t v.reloc } }).postD 0x0101 t v.gen
  else s

/-- Whether a read set still holds (R47). -/
def State.readSetOk (s : State) (rs : List (Nat × Ver)) : Bool := rs.all fun p => s.liveVer p.1 == p.2

/-- Admission of a record that passed its checks: JSN, invalidation, index entries, live generations, effects of ATTR, PAIR_SEQ
and RECORD frames (R100, R105, R145). `r` is in no other list. -/
def State.enter (s : State) (r : Rec) : State :=
  let jsn := s.fget R.JNL_JSN.JSN + 1
  let send := r.mirror && !r.twin && s.mirrors
  let sync := r.body.exts.any fun e => !(s.extent e).fenced
  let ps := if r.twin then r.pairSeq else if send then s.prm.pairGiven + 1 else 0
  let r := { r with jsn := jsn, pairSeq := ps, sync := sync, admitNs := s.timeNs, acked := !send }
  let u : Unacked := { jsn := jsn, pairSeq := ps, bytes := (recImage r).length, admitNs := s.timeNs, owner := r.owner,
                       wait := s.waitsMirror r, hold := s.holdsEntry r, exts := r.body.exts }
  let s := if r.mirror ∧ !r.twin ∧ !send then s.stopMark (jsn - 1) else s
  let s := (s.fset R.JNL_JSN.JSN jsn).inc R.JNL_ADMIT_CNT.RECORDS
  let s := (r.body.tiles.filter fun t => !isSys t).foldl State.invalidateTile s
  let s := { s with
    jnl := { s.jnl with
      recs := s.jnl.recs ++ [r]
      unacked := if send then s.jnl.unacked ++ [u] else s.jnl.unacked }
    prm := { s.prm with pairGiven := if send then ps else s.prm.pairGiven } }
  let s := match r.body with
    | .attr a => s.applyAttr a
    | .root q _ _ => s.fset R.JNL_GEN_STAT.ROOT_SEQ q
    | _ => s
  let s := (r.body.tiles.foldl State.warnGen s).markDirty r.body.tiles
  let s := if send then s.sendImage 0x01 ps (recImage r) else s
  let s := s.noteOcc.noteLag
  if send then s.lagPause (s.jnl.lagPaused || decide (1048576 * s.fget R.PRM_LAG_CTL.LAG_MIB ≤ s.lagBytes)) else s

/-- The old bytes an atomic finds, and its record's bytes (R270, R398): the write happens whatever the comparison finds, so that
the record is one DATA record. -/
def rmwResult (op : Rmw) (w old : Nat) : Nat :=
  match op with
  | .cas e n => if old = e then n else old
  | .add n => (old + n) % 2 ^ (8 * w)
  | .write n => n

/-- The current bytes of a tile for an atomic: what a probe sees now, or the verified stored copy that was fetched for the
record, if the stored version is still that copy's (R398). -/
def State.atomBytes (s : State) (r : Rec) (t : Nat) : Look :=
  match s.tileNow t with
  | .miss =>
    match s.jnl.bases.find? fun b => b.1 = r.id ∧ b.2.1 = t ∧ b.2.2.1 = s.storedVer t with
    | some (_, _, _, b) => .data (overlayRecs t b (s.pendingFor t))
    | none => .miss
  | l => l

/-- An operation of an admitted record answers OK, an RDMA atomic with the bytes it found (R398). -/
def State.opDone (s : State) (t : Nat) (b : Body) (old w : Nat) : State :=
  let bare := match b with | .rmw _ _ _ (.write _) => true | _ => w == 0
  match (AMap.find? s.tst.ops t).map Op.kind with
  | some (.netAtomic c psn) =>
    if bare then s.resolve t .ok
    else
      let rest := (s.conn c).saved ++ [(psn, BitVec.ofNat 64 old)]
      let keep := s.fget R.XPT_CONN_CTL.RESP_RES
      (s.setConn c { s.conn c with saved := rest.drop (rest.length - keep) }).resolve t .ok (natLe 8 old)
  | _ => s.resolve t .ok

/-- Entries that stay held until the record of a JSN is mirror-durable (R111). -/
def State.holdEntries (s : State) (o : Owner) (jsn : Nat) : State :=
  if s.jnl.unacked.any fun u => u.jsn = jsn ∧ u.hold then o.tags.foldl (fun s t => s.oweResults t 1) s else s

/-- The owner's side of an admission: JSN in the Turnstile entries, a task's context freed after its commit (R300, R331),
OK at local-durable where that is the response point (R110), and an atomic's own change to the recorded version, or STALE_READ
(R271). -/
def State.ownerAdmitted (s : State) (r : Rec) (old : Nat) (w : Nat) : State :=
  let jsn := s.fget R.JNL_JSN.JSN
  match r.owner with
  | .ops tags =>
    let s := tags.foldl (fun s t =>
      match AMap.find? s.tst.ops t with
      | none => s
      | some o =>
        let s := s.setOp t { o with jsn := some jsn }
        match List.find? (fun (p : Nat × CtxSt) => p.2.tag == t && p.2.task.isSome && p.1 ≠ 4096) s.ksk.ctx with
        | some (c, _) => (match o.kind with | .task _ _ => (s.inc R.KSK_CNT0.COMMITS).ctxFree c | _ => s)
        | none => s) s
    if s.jnl.unacked.any fun u => u.jsn = jsn ∧ u.wait then s
    else tags.foldl (fun s t => s.opDone t r.body old w) (s.holdEntries r.owner jsn)
  | .atomic c d =>
    let x := s.ctx c
    let bad := r.body.tiles.any fun t => match AMap.find? x.readSet t with
      | some v => s.liveVer t != ⟨v.reloc, v.gen + 1⟩
      | none => false
    if bad then s.endTask c .conflict 0x14 0
    else
      let rs := r.body.tiles.foldl (fun (m : AMap Ver) t =>
        if (AMap.find? m t).isSome then AMap.put m t (s.liveVer t) else m) x.readSet
      (s.setCtx c { x with readSet := rs }).atomicDone c d w old
  | .mgmt _ | .enrol => if s.jnl.unacked.any fun u => u.jsn = jsn ∧ u.wait then s else s.acceptRec r.owner
  | .twin tag | .forward _ tag => s.resolve tag .ok
  | .read t w => (s.holdEntries r.owner jsn).readAdmitted t w
  | .engine => s

/-- An admitted record of the twin's that returns a forwarded write completes it, an atomic with the bytes it found here (R106). -/
def State.fwdReturned (s : State) (r : Rec) (old w : Nat) : State :=
  match s.forwardOf r with
  | none => s
  | some (k, f) =>
    let s := s.dropForward k
    match f.owner with
    | .ops tags => tags.foldl (fun s t => s.opDone t f.body old w) s
    | .read t w => s.readAdmitted t w
    | o => s.acceptRec o

/-- Where a returned forwarded atomic finds its old value: tile, offset, width (R106, R398). -/
def State.oldWanted (s : State) (r : Rec) : Option (Nat × Nat × Nat) :=
  match s.forwardOf r with
  | some (_, f) => (match f.body with
    | .rmw _ _ _ (.write _) => none
    | .rmw t off w _ => some (t, off, w)
    | _ => none)
  | none => none

/-- A record of the journal engine's own: admitted at once in the granules it takes, or waiting for room (R74, R76, R94, R96). -/
def State.admitOwn (s : State) (b : Body) (mirror : Bool := false) : State :=
  let r : Rec := { id := s.jnl.nextId, body := b, mirror := mirror, tenant := 0, origin := 6, owner := .engine }
  let s := { s with jnl := { s.jnl with nextId := r.id + 1 } }
  if s.recRoom r then (s.takePlace b.granules).enter { r with pos := s.placeFor b.granules } else s.letWait r

/-- A generation-table entry changes: the record of R74, or for a level-3 tile the root record of R76. -/
def State.changeEntry (s : State) (t : Nat) (g : Gen) : State :=
  let s := s.setGen t g
  match parentOf t with
  | some _ => s.admitOwn (.table t g)
  | none =>
    let q := match s.jnl.root with | some (q, _, _) => q + 1 | none => 1
    let tops := fun i => (s.genEntry (sysBase + lvl3 + i)).gen
    let s := { s with jnl := { s.jnl with root := some (q, tops 0, tops 1), rootDue := true } }
    s.admitOwn (.root q (tops 0) (tops 1))

/-- Whether the record that an entry's change makes has room at once. -/
def State.entryFits (s : State) (t : Nat) : Bool :=
  let b : Body := if (parentOf t).isSome then .table t {} else .root 0 0 0
  s.spaceFor b && s.indexFor b

/-- The level-1 table tile of an extent that has moved to FREE is written with every entry ZERO (R67): its entries read so already, and the
record brings it to its retirement. -/
def State.zeroLeaves (s : State) (a : Attr) : State :=
  match a with
  | .freed e => s.admitOwn (.table (childOf (sysBase + lvl1 + e) 0) {})
  | _ => s

/-- A record received from the twin has been judged: PAIR_SEQ advances and is acknowledged (R105, R145, R146). -/
def State.rackTwin (s : State) (q : Nat) : State :=
  ({ s with prm := { s.prm with seqHigh := max s.prm.seqHigh q } }).sendTwin 0x02 (natLe 8 q ++ natLe 8 0)

/-- A record leaves the lists before admission and is admitted with its body (R100 step 4). -/
def State.take (s : State) (r : Rec) (b : Body) : State := (s.dropRec r.id).enter { r with body := b }

/-- What follows a record's admission: its owner, a forwarded write that it returns, the acknowledgement to the twin. -/
def State.outcome (s : State) (r : Rec) (old w : Nat) : State :=
  let s := s.ownerAdmitted r old w
  if r.twin then (s.fwdReturned r old w).rackTwin r.pairSeq else s

/-- A record waits for the stored copy of a tile. -/
def State.askBase (s : State) (r : Rec) (t : Nat) : State :=
  if s.med.fetch.any fun f => f.tile = t ∧ f.waiters.contains (.atomic r.id) then s else s.fetchFor t (.atomic r.id) (s.clsOf t)

/-- Admits the record that returns a forwarded atomic once the bytes it replaces are at hand; where they cannot be read the atomic ends with
POISONED (R106; log entry 27). -/
def State.takeReturned (s : State) (r : Rec) (t off w : Nat) : State :=
  match s.atomBytes r t with
  | .data b => (s.take r r.body).outcome r (fieldAt b off w) w
  | .poison =>
    let s := match s.forwardOf r with
      | some (k, f) => (s.dropForward k).tellOwner f.owner .poisoned
      | none => s
    (s.take r r.body).outcome r 0 0
  | .miss => s.askBase r t

/-- A tile of a record whose entry the checks need and whose leaf is not at hand: ATTN of its level-1 entry is set, or the record relocates
it (R66, R73). -/
def State.leafNeeded (s : State) (r : Rec) : Option Nat :=
  r.body.tiles.find? fun t => !s.leafHere t && (r.body.isReloc || s.attn (leafOf t))

/-- Step 4 of R100 for a record that holds its reservation. It waits for a leaf that its checks need (R73), and an atomic whose tile is
nowhere at hand waits for a fetch. -/
def State.sequence (s : State) (r : Rec) : State :=
  match s.leafNeeded r, s.recCheck r with
  | some t, _ => s.askLeaf t (.recLeaf r.id)
  | none, some st =>
    let s := (s.dropRec r.id).refuseRec r st
    if r.twin then s.rackTwin r.pairSeq else s
  | none, none =>
    if !s.readSetOk r.readSet then (s.dropRec r.id).refuseRec r .conflict
    else
      match r.body with
      | .rmw t off w op =>
        match s.atomBytes r t with
        | .data b =>
          let old := fieldAt b off w
          (s.take r (.data [⟨t, off, natLe w (rmwResult op w old)⟩])).outcome r old w
        | .poison => (s.dropRec r.id).refuseRec r .poisoned
        | .miss => s.askBase r t
      | .attr a =>
        let a := if r.twin then a else a.atStep (BitVec.ofNat 32 (s.fget R.GTH_TEN_STAT.NEXT_EPOCH))
        ((s.take r (.attr a)).zeroLeaves a).outcome r 0 0
      | b => (match s.oldWanted r with
        | some (t, off, w) => s.takeReturned r t off w
        | none => (s.take r b).outcome r 0 0)

/-! ## Retirement of records (R119) -/

/-- A record has retired when every tile it touches has been retired past it; ATTR and ROOT records go by their own events. -/
def Rec.retired (r : Rec) : Bool :=
  match r.body with
  | .attr _ | .root _ _ _ => false
  | b => b.tiles.all fun t => r.doneTiles.contains t

/-- Frees the granules of retired records (R95, R119). -/
def State.sweepRecs (s : State) : State :=
  let gone := s.jnl.recs.filter (·.retired)
  let s := s.sat R.JNL_GEN_CNT.RELOCATIONS (gone.filter fun r => r.body.isReloc).length
  ({ s with jnl := { s.jnl with recs := s.jnl.recs.filter fun r => !r.retired } }).noteOcc

end Sys2Proof.Machine
end

