-- ==== Sys2Proof/Machine/Operands.lean ====
section
/-! DEFINITION. The operands of Aelo: registers (R241), how an instruction is issued (R243, R256, R258, R282) and ends its task
by an exception (R280), task addresses (R245 to R248, R316, R317, R648), reads with the read set (R249 to R251) and staged
writes (R252 to R254), and the control-space read (R16, R32). -/

namespace Sys2Proof.Machine

/-! ## Registers -/

/-- An a register; a0 reads 0. -/
def CtxSt.ra (x : CtxSt) (n : BitVec 5) : Word := if n = 0 then 0 else AMap.get 0 x.a n.toNat
/-- Writes an a register; a0 discards. -/
def CtxSt.wa (x : CtxSt) (n : BitVec 5) (v : Word) : CtxSt := if n = 0 then x else { x with a := AMap.set 0 x.a n.toNat v }
/-- A v register. -/
def CtxSt.rv (x : CtxSt) (n : BitVec 5) : Vec := AMap.get 0 x.v n.toNat
/-- Writes a v register. -/
def CtxSt.wv (x : CtxSt) (n : BitVec 5) (v : Vec) : CtxSt := { x with v := AMap.set 0 x.v n.toNat v }
/-- A predicate; p0 reads 1. -/
def CtxSt.rp (x : CtxSt) (n : Nat) : Bool := n == 0 || x.p.getLsbD n
/-- Writes a predicate; p0 discards. -/
def CtxSt.wp (x : CtxSt) (n : Nat) (b : Bool) : CtxSt :=
  if n = 0 then x
  else { x with p := if b then x.p ||| (1#8 <<< n) else x.p &&& ~~~(1#8 <<< n) }
/-- A gate counter. -/
def CtxSt.rg (x : CtxSt) (n : Nat) : Word := AMap.get 0 x.gc n
/-- Writes a gate counter. -/
def CtxSt.wg (x : CtxSt) (n : Nat) (v : Word) : CtxSt := { x with gc := AMap.set 0 x.gc n v }

/-- The tenant of the task a context runs; 0 for the Belvedere's programs (R316). -/
def CtxSt.tenant (x : CtxSt) : BitVec 24 := match x.task with | some t => t.tenant | none => 0

/-- A field that names a v register (R256). -/
def vOk (n : BitVec 5) : Bool := n.toNat < 16
/-- A field that names a p register (R256). -/
def pOk (n : BitVec 5) : Bool := n.toNat < 8

/-! ## End causes (R280) -/

/-- The causes of R280 by which a task ends other than by its own choice. -/
inductive Cause where
  | illegal | align | range | unmapped | readOnly | access | poisoned | notHome | atomicStaged | cipherPurpose | program
  | sliceFenced | insnBudget | tileBudget | timeBudget | writeTiles | staleRead
  deriving DecidableEq, Repr

/-- Cause code. -/
def Cause.code : Cause → Nat
  | .illegal => 0x01 | .align => 0x02 | .range => 0x03 | .unmapped => 0x04 | .readOnly => 0x05 | .access => 0x06
  | .poisoned => 0x07 | .notHome => 0x08 | .atomicStaged => 0x09 | .cipherPurpose => 0x0A | .program => 0x0B
  | .sliceFenced => 0x0C | .insnBudget => 0x10 | .tileBudget => 0x11 | .timeBudget => 0x12 | .writeTiles => 0x13
  | .staleRead => 0x14

/-- Status a task completes with. -/
def Cause.status : Cause → Status
  | .access | .cipherPurpose => .access
  | .poisoned => .poisoned
  | .sliceFenced => .disabled
  | .insnBudget | .tileBudget | .timeBudget | .writeTiles => .limit
  | .staleRead => .conflict
  | _ => .fault

/-- The Belvedere's program ends: its staged stores go, and a management descriptor completes (R292, R317, R616); the end of the
setup program leaves the Belvedere running tasks alone (R555). -/
def State.belvEnd (s : State) (st : Status) : State :=
  let x := s.ctx 4096
  match x.task with
  | none => s
  | some t =>
    let s := (s.endPlan (.ctx 4096)).setCtx 4096 {}
    let src := s.ksk.mgmtSrc
    let s := { s with ksk := { s.ksk with stores := [], mgmtSrc := none } }
    match src with
    | some m => s.mgmtDone t m st
    | none => if s.fget R.SUP_BOOT_STAT.STATE = 1 then s.fset R.SUP_BOOT_STAT.STATE 2 else s

/-- The program of a context ends with a status, a cause and a result word. -/
def State.endProgram (s : State) (c : Ctx) (st : Status) (cause result : Nat) : State :=
  if c.val = 4096 then s.belvEnd st else s.endTask c.val st cause result

/-- A precise exception (R280, R281). -/
def State.raise (s : State) (c : Ctx) (k : Cause) : State := s.endProgram c k.status k.code 0

/-! ## Issue -/

/-- The image a task of a Kiosk runs (R307, R310). -/
def State.taskImage (s : State) (t : Task) : Bytes := if t.slot = 0 then (s.prog t.prog).img0 else (s.prog t.prog).img1

/-- The length of the program of a context: a Kiosk's image (R307), or what the program table of the firmware image gives (R580). None
where the model's flash does not hold that image (log entry 33). -/
def State.codeLen (s : State) (c : Ctx) (t : Task) : Option Nat :=
  if c.val = 4096 then (s.progEntry t.prog).map (·.2.1) else some (s.taskImage t).length

/-- The word of the program at a pc. -/
def State.codeAt (s : State) (c : Ctx) (t : Task) (pc : Nat) : Option Nat :=
  if c.val = 4096 then s.progWord t.prog pc else some (leNat (slice (s.taskImage t) pc 4))

/-- Whether pc lies outside the program's image (R258). -/
def State.pcOutside (s : State) (c : Ctx) (x : CtxSt) : Bool :=
  match x.task with
  | some t => (s.codeLen c t).any fun n => decide (n ≤ x.pc.toNat)
  | none => true

/-- Whether the word at pc is no instruction: its MAJ or its FN is unassigned (R256). -/
def State.noWord (s : State) (c : Ctx) (x : CtxSt) : Bool :=
  x.task.any fun t => (s.codeAt c t x.pc.toNat).any fun w => (decodeAelo c w).isNone

/-- The task's image has an uncorrectable error (R208, R280). -/
def State.imageBad (s : State) (x : CtxSt) : Bool :=
  x.task.any fun t => (s.prog t.prog).bad.contains t.slot

/-- The instruction completes and the next one follows. -/
def State.advance (s : State) (c : Ctx) (x : CtxSt) : State :=
  s.setCtx c.val { x with pc := x.pc + 4, charged := false, fills := [] }

/-- The context goes on at another pc. -/
def State.jump (s : State) (c : Ctx) (x : CtxSt) (pc : Word) : State :=
  s.setCtx c.val { x with pc := pc, charged := false, fills := [] }

/-- Issues an instruction of a running task: the program store (R208), fetch range (R258), ILLEGAL (R256), the instruction budget (R282), once also for an
instruction that is issued again after a wait. `body` takes the context with the instruction counted. An instruction
presented to a context that runs nothing, or that waits, changes nothing (log entry 4); that it is the one at pc is the sender's part
(log entry 2). -/
def State.issueAny (s : State) (c : Ctx) (bad : Bool) (body : CtxSt → State) : State :=
  let x := s.ctx c.val
  if x.task.isNone ∨ x.wait ≠ .none then s
  else if c.val ≠ 4096 ∧ s.imageBad x then s.raise c .program
  else if s.pcOutside c x then s.raise c .range
  else if bad || s.noWord c x then s.raise c .illegal
  else if !x.charged ∧ c.val ≠ 4096 ∧ x.insnLeft = 0 then s.raise c .insnBudget
  else body (if x.charged then x else { x with insnLeft := x.insnLeft - 1, charged := true })

/-- The same under a guard: where it reads 0 the instruction only counts and advances (R243). -/
def State.issue (s : State) (c : Ctx) (gp : BitVec 3) (bad : Bool) (body : CtxSt → State) : State :=
  s.issueAny c bad fun x => if x.rp gp.toNat then body x else s.advance c x

/-! ## Control space -/

/-- DBG region: no chapter defines an offset in it, so that all of it reads 0 and ignores writes, locked or not (R32, R646). -/
def isDbg (off : Nat) : Bool := 0x03F00000 ≤ off && off < 0x04000000

/-- DBG is unlocked since this start (R646). -/
def State.dbgOpen (s : State) : Bool := s.flag R.GTH_STAT.DEBUG

/-- A session that carries management work now: the custodian's, or a provisioning one while the device is UNPAIRED without a tenant
0x00_0000 (R598). -/
def State.sessionOk (s : State) (x : Session) : Bool := x.qualifies || (x.provision && s.prmState == 0 && (s.tenant 0).isNone)

/-- A field as a read sees it. Live are the age of the mirror lag (R148), whether an LD has a plan (R444), the mode VCORE is
in (R480) and whether a session qualifies (R605). -/
def State.fieldNow (s : State) (f : Fld) : Nat :=
  if f = R.PRM_LAG_STAT.AGE_NS then
    match s.jnl.unacked with | u :: _ => min (s.timeNs - u.admitNs) (2 ^ f.wid - 1) | [] => 0
  else if f = R.PWR_VCORE_STAT.MODE then if s.flag R.PWR_STAT.SEQ_MODE then 0 else s.fget R.PWR_VCORE_CTL.MODE
  else if 0x02C00200 ≤ f.off ∧ f = R.CXL_LD_STAT.PLAN ((f.off - 0x02C00200) / 8) then
    (s.planOf (.ld (Fin.ofNat 32 ((f.off - 0x02C00200) / 8)))).isSome.toNat
  else if f = R.TWB_MCTP_STAT.MGMT_SESSION then ((s.twb.s0.toList ++ s.twb.s1.toList).any s.sessionOk).toNat
  else s.fget f

/-- WR_REFUSED[i] of a tenant's page: live, and 0 for LDs of other tenants (R623). -/
def State.refusedWord (s : State) (t i : Nat) : Word :=
  if s.flag (R.CXL_LD_CFG.VALID i) ∧ s.fget (R.CXL_LD_CFG.TENANT i) = t then BitVec.ofNat 64 (s.fget (R.CXL_LD_CNT.WR_REFUSED i)) else 0

/-- A word of the status pages (R620, R621): what the last rebuild left, or the live words of a tenant page or its alias. -/
def State.pageWord (s : State) (off : Nat) : Word :=
  let w := off % 4096
  let k := (off - 0x3600000) / 4096
  let l := (off - 0x3001000) / 4096
  if 0x100 ≤ w ∧ w < 0x200 ∧ w % 8 = 0 then
    if 0x3600000 ≤ off ∧ k < 2048 then
      (if s.flag (R.STA_TPAGE0.VALID k) then s.refusedWord (s.fget (R.STA_TPAGE0.TENANT k)) ((w - 0x100) / 8) else 0)
    else if 0x3001000 ≤ off ∧ l < 32 then
      (if s.flag (R.CXL_LD_CFG.VALID l) ∧ (s.pageSlot (BitVec.ofNat 24 (s.fget (R.CXL_LD_CFG.TENANT l)))).isSome then
        s.refusedWord (s.fget (R.CXL_LD_CFG.TENANT l)) ((w - 0x100) / 8) else 0)
    else AMap.get 0 s.sta.pages off
  else AMap.get 0 s.sta.pages off

/-- A register of a network port number that the port mode does not use (R344). -/
def State.noPort (s : State) (off : Nat) : Bool :=
  let ports := 64 >>> s.fget R.NET_MODE.MODE
  decide ((0x02400100 + 8 * ports ≤ off ∧ off < 0x02400300) ∨ (0x02400500 + 8 * ports ≤ off ∧ off < 0x02400700)
    ∨ (0x02401000 + 32 * ports ≤ off ∧ off < 0x02401800))

/-- A control register as it reads: WO fields and reserved bits read 0, an undefined offset reads 0 (R16, R32), so do DBG while
locked (R646) and a port number not in use (R344), and the status pages are those last built (R620). -/
def State.regRead (s : State) (off : Nat) : Word :=
  if isDbg off ∨ s.noPort off then 0
  else match fieldsAt off with
    | [] => s.pageWord off
    | fs => BitVec.ofNat 64 (fs.foldl (fun n p => if p.1 = .wo then n else n + s.fieldNow p.2 * 2 ^ p.2.lo) 0)

/-! ## Task addresses -/

/-- Where a task address leads. -/
inductive Loc where
  | ls (off : Nat) | sram (off : Nat) | ctl (off : Nat) | dpa (a : Nat) | scr (a : Nat)
  deriving DecidableEq, Repr

/-- A location of the local store, or of the Belvedere's SRAM. -/
def Loc.isLocal : Loc → Bool
  | .ls _ | .sram _ => true
  | .ctl _ | .dpa _ | .scr _ => false

/-- Bytes a window covers. -/
def Win.len : Win → Nat
  | .dpa _ n _ => n * 4096
  | .scratch _ n => 1048576 * n
/-- A read-only window. -/
def Win.ro : Win → Bool
  | .dpa _ _ r => r
  | .scratch _ _ => false
/-- The location at an offset. -/
def Win.at (w : Win) (off : Nat) : Loc :=
  match w with
  | .dpa b _ _ => .dpa (b + off)
  | .scratch b _ => .scr (b + off)

/-- Resolves an access of `n` bytes that must be aligned to `al`, in the order of R648: space, mapping, alignment, range,
read-only window. Control space takes LD64 and ST64 alone (R317), and DBG while unlocked only from setup programs (R34; log
entry 34). -/
def State.locate (s : State) (c : Ctx) (x : CtxSt) (addr : Word) (n al : Nat) (wr : Bool) : Except Cause Loc :=
  let sp := addr.toNat / 2 ^ 32 % 16
  let off := addr.toNat % 2 ^ 32
  let skew := decide (off % al ≠ 0)
  if addr.toNat / 2 ^ 36 ≠ 0 then .error .range
  else if sp = 0 then
    if skew then .error .align
    else if (if c.val = 4096 then 524288 else x.lsSize) < off + n then .error .range
    else .ok (if c.val = 4096 then .sram off else .ls off)
  else if sp ≤ 8 then
    match AMap.find? x.wins (sp - 1) with
    | none => .error .unmapped
    | some w =>
      if skew then .error .align
      else if w.len < off + n then .error .range
      else if wr && w.ro then .error .readOnly
      else .ok (w.at off)
  else if sp = 15 ∧ c.val = 4096 then
    if n ≠ 8 ∨ al ≠ 8 ∨ skew then .error .align
    else if 0x04000000 < off + n ∨ (isDbg off ∧ s.dbgOpen ∧ s.ksk.mgmtSrc.isSome) then .error .range
    else .ok (.ctl off)
  else .error .range

/-- Splits a run of `n` bytes at a DPA into its parts by tile: tile, offset, length. -/
def spans (a n : Nat) : List (Nat × Nat × Nat) :=
  (List.range (n / 4096 + 2)).filterMap fun i =>
    let t := a / 4096 + i
    let lo := max a (t * 4096)
    let hi := min (a + n) (t * 4096 + 4096)
    if lo < hi then some (t, lo % 4096, hi - lo) else none

/-! ## Checks of the extent and of the scratchpad -/

/-- The extent's checks at an access: ASSIGNED to the tenant (R29), and at home for a write (R254). -/
def State.extentCheck (s : State) (x : CtxSt) (t : Nat) (wr : Bool) : Option Cause :=
  let e := s.extent (extOf t)
  if e.state ≠ .assigned ∨ (x.task.any fun k => k.tenant != e.owner) then some .access
  else if wr ∧ !s.homeHere (extOf t) then some .notHome
  else none

/-- Touches a tile: it counts once against the budget (R249). -/
def CtxSt.touch (x : CtxSt) (t : Nat) : Option CtxSt :=
  if x.touched.contains t then some x
  else if x.tilesLeft = 0 then none
  else some { x with touched := x.touched ++ [t], tilesLeft := x.tilesLeft - 1 }

/-- A scratchpad block is the task's: its owner is the task's tenant, and tenant 0 owns nothing (R28, R221, R248). -/
def State.ownsBlock (s : State) (x : CtxSt) (b : Nat) : Bool :=
  x.tenant != 0 && s.fget (R.ORG_SCR_OWNER.TENANT b) == x.tenant.toNat

/-- The scratchpad's checks (R221, R226): every block owned by the tenant, every slice in service. -/
def State.scratchCheck (s : State) (x : CtxSt) (a n : Nat) : Option Cause :=
  let blocks := (List.range (n / 1048576 + 2)).map (a / 1048576 + ·) |>.filter fun b => 1048576 * b < a + n
  let slices := (List.range (min (n / 256 + 2) 17)).filterMap fun i =>
    if (a / 256 + i) * 256 < a + n then some ((a / 256 + i) % 16) else none
  if 16777216 * s.fget R.ORG_WAYMODE.SCRATCH_WAYS < a + n ∨ blocks.any (fun b => !s.ownsBlock x b) then
    some .access
  else if slices.any fun sl => !s.sliceUp sl then some .sliceFenced
  else none

/-! ## Reads (R249 to R251) -/

/-- What a read of a context comes to: the context with the bytes, or nothing where the task has ended or waits. -/
abbrev Got := Option (CtxSt × Bytes) × State

/-- A tile that is touched counts against the budget before anything is made of it (R249). -/
def State.countTile (s : State) (c : Ctx) (x : CtxSt) (t : Nat) (f : CtxSt → Got) : Got :=
  match x.touch t with
  | some x => f x
  | none => (none, s.raise c .tileBudget)

/-- Bytes of a tile at a version, under the bytes `mine` that the task has staged: the version enters the read set, or is stale (R250). -/
def State.useTile (s : State) (c : Ctx) (x : CtxSt) (t : Nat) (mine : List (Option Byte)) (b : Bytes) (v : Ver) : Got :=
  s.countTile c x t fun x =>
    if (AMap.find? x.readSet t).any (· != v) then (none, s.raise c .staleRead)
    else (some ({ x with readSet := AMap.put x.readSet t v }, List.zipWith (fun m b => m.getD b) mine b), s.planRead (.ctx c) t)

/-- A read of bytes of one tile: the extent's checks, POISONED where it is known, and then the tile's count against the budget (R648,
in the order of R280). A tile that is missed counts once it has arrived. -/
def State.readTile (s : State) (c : Ctx) (x : CtxSt) (t off n : Nat) : Got :=
  match s.extentCheck x t false with
  | some k => (none, s.raise c k)
  | none =>
    let mine := (List.range n).map fun i => AMap.find? x.staged (t * 4096 + off + i)
    if mine.all (·.isSome) then s.countTile c x t fun x => (some (x, mine.map (·.getD 0)), s)
    else
      match x.fills.find? (·.1 == t) with
      | some (_, b, v) => s.useTile c x t mine (slice b off n) v
      | none =>
        match s.readSpan t off n (s.clsOf t) with
        | (.data b, s) => s.useTile c x t mine b (s.liveVer t)
        | (.poison, s) => (none, s.raise c .poisoned)
        | (.miss, s) =>
          let s := s.setCtx c.val { x with wait := .tile t }
          (none, s.missOp t off n (.ctx c.val x.tag (s.fget R.JNL_JSN.JSN)) (s.clsOf t) x.tag)

/-- A read carries on from part to part while it brings bytes. -/
def readPart (c : Ctx) (g : Got) (p : Nat × Nat × Nat) : Got :=
  match g with
  | (some (x, b), s) =>
    (match s.readTile c x p.1 p.2.1 p.2.2 with
     | (some (x, d), s) => (some (x, b ++ d), s)
     | r => r)
  | r => r

/-- A read of `n` bytes at a resolved location. Control-space bytes are the program's own staged value, or the register (R317). -/
def State.readLoc (s : State) (c : Ctx) (x : CtxSt) (l : Loc) (n : Nat) : Got :=
  match l with
  | .ls off => (some (x, loadBytes x.ls off n), s)
  | .sram off => (some (x, loadBytes s.ksk.sram off n), s)
  | .ctl off =>
    let v := match s.ksk.stores.reverse.find? (·.1 == off) with
      | some (_, v) => if isDbg off then 0 else v
      | none => s.regRead off
    (some (x, natLe 8 v.toNat), s)
  | .scr a =>
    match s.scratchCheck x a n with
    | some k => (none, s.raise c k)
    | none => (some (x, loadBytes s.tier.scratch a n), s)
  | .dpa a =>
    (spans a n).foldl (readPart c) (some (x, []), s)

/-- A read at a task address. -/
def State.readAt (s : State) (c : Ctx) (x : CtxSt) (addr : Word) (n al : Nat) : Got :=
  match s.locate c x addr n al false with
  | .error k => (none, s.raise c k)
  | .ok l => s.readLoc c x l n

/-! ## Writes (R252 to R254) -/

/-- A staging frame from the tile cache; none where no frame can be evicted (R252). -/
def State.stageFrame (s : State) : Option State :=
  (s.frameRoom).map fun s => { s with tier := { s.tier with subFrames := s.tier.subFrames + 1 } }

/-- What a write comes to: the context, or nothing where the task has ended or waits. -/
abbrev Put := Option CtxSt × State

/-- Checks and touches the tiles of a write, and takes the frames it needs (R249, R252, R254). -/
def State.stageTiles (s : State) (c : Ctx) (x : CtxSt) (ts : List Nat) : Put :=
  match ts.findSome? fun t => s.extentCheck x t true with
  | some k => (none, s.raise c k)
  | none =>
    match ts.foldl (fun (o : Option CtxSt) t => o.bind (·.touch t)) (some x) with
    | none => (none, s.raise c .tileBudget)
    | some x =>
      let fresh := ts.filter fun t => !x.stagedTiles.contains t
      let wrote := (x.wrote ++ ts).eraseDups
      if 1024 < wrote.length then (none, s.raise c .writeTiles)
      else match fresh.foldl (fun (o : Option State) _ => o.bind (·.stageFrame)) (some s) with
        | some s => (some { x with wrote := wrote }, s)
        | none => (none, s.setCtx c.val { x with wait := .frame })

/-- Stages bytes at a DPA. -/
def stageBytes (m : AMap Byte) (a : Nat) : Bytes → AMap Byte
  | [] => m
  | b :: r => stageBytes (AMap.put m a b) (a + 1) r

/-- A write at a resolved location: at once into the local store, SRAM and scratchpad, staged for device memory and control
space. -/
def State.writeLoc (s : State) (c : Ctx) (x : CtxSt) (l : Loc) (b : Bytes) : Put :=
  match l with
  | .ls off => (some { x with ls := storeBytes x.ls off b }, s)
  | .sram off => (some x, { s with ksk := { s.ksk with sram := storeBytes s.ksk.sram off b } })
  | .ctl off => (some x, { s with ksk := { s.ksk with stores := s.ksk.stores ++ [(off, BitVec.ofNat 64 (leNat b))] } })
  | .scr a =>
    match s.scratchCheck x a b.length with
    | some k => (none, s.raise c k)
    | none => (some x, { s with tier := { s.tier with scratch := storeBytes s.tier.scratch a b } })
  | .dpa a =>
    match s.stageTiles c x ((spans a b.length).map (·.1)) with
    | (some x, s) => (some { x with staged := stageBytes x.staged a b }, s)
    | r => r

/-- A write at a task address. -/
def State.writeAt (s : State) (c : Ctx) (x : CtxSt) (addr : Word) (al : Nat) (b : Bytes) : Put :=
  match s.locate c x addr b.length al true with
  | .error k => (none, s.raise c k)
  | .ok l => s.writeLoc c x l b

/-- The segments staged bytes would form: maximal runs within a tile, in tile and offset order (R253). -/
def stagedSegs : AMap Byte → List Seg
  | [] => []
  | (a, b) :: r =>
    match stagedSegs r with
    | g :: gs =>
      if g.tile = a / 4096 ∧ g.off = a % 4096 + 1 then { g with off := a % 4096, bytes := b :: g.bytes } :: gs
      else ⟨a / 4096, a % 4096, [b]⟩ :: g :: gs
    | [] => [⟨a / 4096, a % 4096, [b]⟩]

end Sys2Proof.Machine
end

