-- ==== Sys2Proof/Machine/AeloAtomic.lean ====
section
/-! DEFINITION. Aelo's atomics (R270 to R272). -/

namespace Sys2Proof.Machine

/-- Old value in a[D], and a[D+1] for 128 bits. -/
def CtxSt.waWide (x : CtxSt) (d : BitVec 5) (w old : Nat) : CtxSt :=
  let x := x.wa d (BitVec.ofNat 64 old)
  if w = 16 then x.wa (d + 1) (BitVec.ofNat 64 (old / 2 ^ 64)) else x

/-- An atomic of `w` bytes at a[A]: on the scratchpad at once, on device memory as one DATA record (R270), RANGE on the local
store (R246), ATOMIC_STAGED on staged bytes (R271). -/
def State.atomicOp (s : State) (c : Ctx) (x : CtxSt) (d : BitVec 5) (addr : Word) (w : Nat) (op : Rmw) : State :=
  match s.locate c x addr w w true with
  | .error k => s.raise c k
  | .ok (.scr a) =>
    (match s.scratchCheck x a w with
     | some k => s.raise c k
     | none =>
       let old := leNat (loadBytes s.tier.scratch a w)
       let s := { s with tier := { s.tier with scratch := storeBytes s.tier.scratch a (natLe w (rmwResult op w old)) } }
       s.advance c (x.waWide d w old))
  | .ok (.dpa a) =>
    (match s.extentCheck x (a / 4096) true with
     | some k => s.raise c k
     | none =>
       if (List.range w).any fun i => (AMap.find? x.staged (a + i)).isSome then s.raise c .atomicStaged
       else match x.touch (a / 4096) with
         | none => s.raise c .tileBudget
         | some x =>
           let (id, s) := s.formRec { id := 0, body := .rmw (a / 4096) (a % 4096) w op, mirror := true, tenant := x.tenant
                                      origin := 3, owner := .atomic c.val d.toNat }
           s.setCtx c.val { x with wait := .record id })
  | .ok _ => s.raise c .range

/-- The pair of registers from `n`, low half first. -/
def CtxSt.raWide (x : CtxSt) (n : BitVec 5) (w : Nat) : Nat :=
  if w = 16 then (x.ra n).toNat + (x.ra (n + 1)).toNat * 2 ^ 64 else (x.ra n).toNat

/-- CAS64 (R270). -/
def execCas64 (c : Ctx) (gp : BitVec 3) (d a b : BitVec 5) (s : State) : Host.Outcome State Fault Refusal :=
  .next (s.issue c gp false fun x => s.atomicOp c x d (x.ra a) 8 (.cas (x.raWide d 8) (x.raWide b 8)))

/-- CAS128 (R270); D and B even (log entry 36). -/
def execCas128 (c : Ctx) (gp : BitVec 3) (d a b : BitVec 5) (s : State) : Host.Outcome State Fault Refusal :=
  .next (s.issue c gp (d.toNat % 2 != 0 || b.toNat % 2 != 0) fun x =>
    s.atomicOp c x d (x.ra a) 16 (.cas (x.raWide d 16) (x.raWide b 16)))

/-- FADD64 (R270). -/
def execFadd64 (c : Ctx) (gp : BitVec 3) (d a b : BitVec 5) (s : State) : Host.Outcome State Fault Refusal :=
  .next (s.issue c gp false fun x => s.atomicOp c x d (x.ra a) 8 (.add (x.raWide b 8)))

/-- FADD128 (R270); D and B even (log entry 36). -/
def execFadd128 (c : Ctx) (gp : BitVec 3) (d a b : BitVec 5) (s : State) : Host.Outcome State Fault Refusal :=
  .next (s.issue c gp (d.toNat % 2 != 0 || b.toNat % 2 != 0) fun x =>
    s.atomicOp c x d (x.ra a) 16 (.add (x.raWide b 16)))

end Sys2Proof.Machine
end

