-- ==== Sys2Proof/Machine/AeloCipher.lean ====
section
/-! DEFINITION. Cipher calls (R273, R274) with their keys (R448 to R450, R466), key slots (R459, R460) and nonces (R461,
R462). -/

namespace Sys2Proof.Machine

/-- The functions of R273. -/
inductive CiphFn where
  | gcmEnc | gcmDec | xtsEnc | xtsDec | cmac
  deriving DecidableEq, Repr

/-- The purposes R449 allows a function. -/
def CiphFn.purposes : CiphFn → List Nat
  | .gcmEnc | .gcmDec => [0x10, 0x18]
  | .xtsEnc | .xtsDec => [0x11, 0x19]
  | .cmac => [0x12, 0x1A]

/-- GCM functions. -/
def CiphFn.gcm (f : CiphFn) : Bool := f == .gcmEnc || f == .gcmDec

/-- Bytes of derived key: 512 bits for XTS (R449). -/
def CiphFn.keyBits : CiphFn → Nat
  | .xtsEnc | .xtsDec => 512
  | _ => 256

/-- Root of a task purpose: K_T of the tenant's current epoch for 0x18 to 0x1A, else the pair secret (R449). -/
def State.taskRoot (s : State) (ten : BitVec 24) (purpose : Nat) : Bytes × Option (BitVec 32) :=
  if 0x18 ≤ purpose then
    match s.tenant ten with
    | some e => (s.tenantKey ten e.epoch.toNat, some e.epoch)
    | none => (s.tenantKey ten 0, some 0)
  else (s.pairSecret, none)

/-- Highest counter value that encrypts, plus one (R461). -/
def nonceEnd : Nat := 2 ^ 40 - 1

/-- The wave that powers a core: one half of the AES cores and of the GHASH units each (R501, R515). -/
def coreWave (i : Nat) : Nat := if i < 32 ∨ (64 ≤ i ∧ i < 80) then 2 else 3

/-- A core works: its wave has come and it is not fenced. -/
def State.coreUp (s : State) (i : Nat) : Bool :=
  decide (coreWave i ≤ s.fget R.PWR_STAT.WAVE) && s.fget (R.GTH_CORE_STAT.STATE i) == 0

/-- AES_UP and GHASH_UP follow the cores. -/
def State.noteCores (s : State) : State :=
  (s.fset R.GTH_STAT.AES_UP ((List.range 64).filter s.coreUp).length).fset R.GTH_STAT.GHASH_UP
    ((List.range 32).filter fun i => s.coreUp (64 + i)).length

/-- A core leaves the schedule; its queued blocks go to the others (R464). -/
def State.fenceCore (s : State) (i cause : Nat) : State :=
  let s := (s.fset (R.GTH_CORE_STAT.STATE i) 2).fset (R.GTH_CORE_STAT.CAUSE i) cause
  s.noteCores.postD 0x0901 i cause

/-- The comparison that ends a derivation done twice (R466; log entry 72): a free value says whether a third core was needed, and whether two
of the three then agreed against one, and which. -/
def State.compareCores (s : State) : State :=
  let (w, s) := s.drawWord
  if !w.getLsbD 0 then s
  else
    let s := s.sat R.GTH_CNT1.KDF_DISAGREE
    let cores := (List.range 64).filter s.coreUp
    match cores[(w >>> 2).toNat % cores.length]? with
    | none => s
    | some i =>
      if !w.getLsbD 1 then s
      else
        let s := s.sat (R.GTH_CORE_STAT.DISAGREE i)
        if 16 ≤ s.fget (R.GTH_CORE_STAT.DISAGREE i) then s.fenceCore i 3 else s

/-- The slot that holds a key, or one it is derived into: a free one, or the least recently used that is neither pinned nor
withdrawn (R460, R462). IDE keys are pinned. Which free slot is the device's own choice (log entry 6). -/
def State.keySlot (s : State) (k : SlotKey) : Nat × State :=
  let put := fun (n : Nat) (s : State) =>
    let s := { s with gth := { s.gth with slots := s.gth.slots.filter (fun (p : Nat × SlotKey) => p.1 ≠ n) ++ [(n, k)] } }
    (n, s.fset R.GTH_STAT.SLOTS_USED s.gth.slots.length)
  match s.gth.slots.find? fun (p : Nat × SlotKey) => p.2 == k with
  | some (n, _) => put n s
  | none =>
    let s := match k with | .label _ _ => (s.inc R.GTH_CNT0.DERIVATIONS).compareCores | .ide _ _ => s
    let ok := fun (n : Nat) => AMap.get 0 s.gth.counters n != nonceEnd
    match (List.range 4096).find? fun n => ok n && !(s.gth.slots.any fun (p : Nat × SlotKey) => p.1 == n) with
    | some n => put n s
    | none =>
      match s.gth.slots.find? fun (p : Nat × SlotKey) => ok p.1 && (match p.2 with | .label _ _ => true | .ide _ _ => false) with
      | some (n, _) => put n (s.inc R.GTH_CNT0.EVICTIONS)
      | none => (0, s)

/-- Slots that are zeroed (R459). -/
def State.dropSlots (s : State) (p : Nat × SlotKey → Bool) : State :=
  let s := { s with gth := { s.gth with slots := s.gth.slots.filter fun (k : Nat × SlotKey) => !p k } }
  s.fset R.GTH_STAT.SLOTS_USED s.gth.slots.length

/-- The nonce of a task's GCM_ENC (R461, R462). -/
def State.taskNonce (s : State) (slot : Nat) : Bytes :=
  natBe 4 (0x80000000 + s.isSenior.toNat * 2 ^ 30 + s.fget R.XPT_START.COUNT * 4096 + slot)
    ++ natBe 5 (AMap.get 0 s.gth.counters slot) ++ natBe 3 s.prm.joinInc.toNat

/-- The call block's lengths and reserved fields (R273). -/
def ciphBad (f : CiphFn) (b : Bytes) : Bool :=
  let len := fieldAt b 12 4
  len == 0 || 65536 < len || 4096 < fieldAt b 40 4 || fieldAt b 6 2 != 0 || fieldAt b 44 4 != 0
    || (f.gcm && fieldAt b 60 4 != 0) || ((f == .xtsEnc || f == .xtsDec) && len % 16 != 0)

/-- The buffers a call block names: address and length of SRC, of DST and, for GCM, of AAD (R273). An out-of-range length counts as the
largest one (log entry 112). -/
def CiphFn.buffers (f : CiphFn) (b : Bytes) : List (Nat × Nat) :=
  let len := min (fieldAt b 12 4) 65536
  [(fieldAt b 16 8, if f = .gcmDec then len + 16 else len),
   (fieldAt b 24 8, match f with | .gcmEnc => len + 16 | .cmac => 16 | _ => len)]
    ++ if f.gcm then [(fieldAt b 32 8, min (fieldAt b 40 4) 4096)] else []

/-- Touches every tile of device memory that a call names (R249). -/
def State.touchNamed (s : State) (c : Ctx) (x : CtxSt) (l : List (Nat × Nat)) : Option CtxSt :=
  l.foldl (fun o p =>
    match s.locate c x (BitVec.ofNat 64 p.1) p.2 1 false with
    | .ok (.dpa a) => (spans a p.2).foldl (fun o q => o.bind (·.touch q.1)) o
    | _ => o) (some x)

/-- A call answers in a[D]; every buffer it names is touched (R249, R274). -/
def State.answerCall (s : State) (c : Ctx) (x : CtxSt) (f : CiphFn) (b : Bytes) (d : BitVec 5) (v : Nat) : State :=
  match s.touchNamed c x (f.buffers b) with
  | some x => s.advance c (x.wa d (BitVec.ofNat 64 v))
  | none => s.raise c .tileBudget

/-- What a call computes from its input, its associated data and the nonce or tweak; none where a GCM_DEC tag fails (R273). -/
def ciphRun (f : CiphFn) (key iv aad inp : Bytes) (len : Nat) : Option Bytes :=
  match f with
  | .gcmEnc => let e := gcmSeal key iv aad inp; some (e.1 ++ e.2)
  | .gcmDec => gcmOpen key (iv.take 12) aad (inp.take len) (inp.drop len)
  | .xtsEnc => some (xtsEnc key iv inp)
  | .xtsDec => some (xtsDec key iv inp)
  | .cmac => some (cmac key inp)

/-- A cipher call that passed its checks: SRC and AAD are read, DST is written, and only then does the key take its slot, so that an
exception of a buffer changes nothing (R280). -/
def State.cipherRun (s : State) (c : Ctx) (x : CtxSt) (f : CiphFn) (d : BitVec 5) (l : Loc) (b key : Bytes) (k : SlotKey) : State :=
  let len := fieldAt b 12 4
  let slot := (s.keySlot k).1
  if f = .gcmEnc ∧ AMap.get 0 s.gth.counters slot = nonceEnd then
    ((s.keySlot k).2.dropSlots fun (p : Nat × SlotKey) => p.1 == slot).answerCall c x f b d Status.exhausted.code
  else match s.readAt c x (BitVec.ofNat 64 (fieldAt b 16 8)) (if f = .gcmDec then len + 16 else len) 1 with
    | (none, s) => s
    | (some (x, inp), s) =>
      match (if f.gcm ∧ 0 < fieldAt b 40 4 then s.readAt c x (BitVec.ofNat 64 (fieldAt b 32 8)) (fieldAt b 40 4) 1
             else (some (x, []), s)) with
      | (none, s) => s
      | (some (x, aad), s) =>
        let iv := if f = .gcmEnc then s.taskNonce slot else slice b 48 16
        match ciphRun f key iv aad inp len with
        | none => (s.keySlot k).2.answerCall c x f b d 0x100
        | some out =>
          match s.writeAt c x (BitVec.ofNat 64 (fieldAt b 24 8)) 1 out with
          | (none, s) => s
          | (some x, s) =>
            let s := (s.keySlot k).2
            if f = .gcmEnc then
              let s := { s with gth := { s.gth with counters := AMap.set 0 s.gth.counters slot (AMap.get 0 s.gth.counters slot + 1) } }
              match s.writeLoc c x (match l with | .ls o => .ls (o + 48) | .sram o => .sram (o + 48) | o => o) iv with
              | (some x, s) => s.advance c (x.wa d 0)
              | (none, s) => s
            else s.advance c (x.wa d 0)

/-- A cipher call on the 64-byte block at a[A] (R273, R274): CIPHER_PURPOSE, then MALFORMED, then the function. A block that is not in the
local store raises RANGE (log entry 112). -/
def State.cipherCall (s : State) (c : Ctx) (x : CtxSt) (f : CiphFn) (d : BitVec 5) (blk : Word) : State :=
  match s.locate c x blk 64 64 false with
  | .error k => s.raise c k
  | .ok l =>
    if !l.isLocal then s.raise c .range
    else match s.readLoc c x l 64 with
      | (none, s) => s
      | (some (x, b), s) =>
        let ten := x.tenant
        let purpose := fieldAt b 0 1
        if !f.purposes.contains purpose ∨ s.dbgOpen then (s.sat R.GTH_CNT1.PURPOSE_REFUSED).raise c .cipherPurpose
        else if ciphBad f b then s.answerCall c x f b d Status.malformed.code
        else
          let lbl := keyLabel purpose ten.toNat (fieldAt b 1 5) (fieldAt b 8 4) 0
          let root := s.taskRoot ten purpose
          s.cipherRun c x f d l b (kdf root.1 lbl f.keyBits) (.label (BitVec.ofNat 256 (beNat lbl)) root.2)

/-- GCM_ENC (R273). -/
def execGcmEnc (c : Ctx) (gp : BitVec 3) (d a b : BitVec 5) (fnHi : BitVec 4) (s : State) : Host.Outcome State Fault Refusal :=
  .next (s.issue c gp (fnHi != 0 || b != 0) fun x => s.cipherCall c x .gcmEnc d (x.ra a))

/-- GCM_DEC (R273). -/
def execGcmDec (c : Ctx) (gp : BitVec 3) (d a b : BitVec 5) (fnHi : BitVec 4) (s : State) : Host.Outcome State Fault Refusal :=
  .next (s.issue c gp (fnHi != 0 || b != 0) fun x => s.cipherCall c x .gcmDec d (x.ra a))

/-- XTS_ENC (R273). -/
def execXtsEnc (c : Ctx) (gp : BitVec 3) (d a b : BitVec 5) (fnHi : BitVec 4) (s : State) : Host.Outcome State Fault Refusal :=
  .next (s.issue c gp (fnHi != 0 || b != 0) fun x => s.cipherCall c x .xtsEnc d (x.ra a))

/-- XTS_DEC (R273). -/
def execXtsDec (c : Ctx) (gp : BitVec 3) (d a b : BitVec 5) (fnHi : BitVec 4) (s : State) : Host.Outcome State Fault Refusal :=
  .next (s.issue c gp (fnHi != 0 || b != 0) fun x => s.cipherCall c x .xtsDec d (x.ra a))

/-- CMAC (R273). -/
def execCmac (c : Ctx) (gp : BitVec 3) (d a b : BitVec 5) (fnHi : BitVec 4) (s : State) : Host.Outcome State Fault Refusal :=
  .next (s.issue c gp (fnHi != 0 || b != 0) fun x => s.cipherCall c x .cmac d (x.ra a))

end Sys2Proof.Machine
end

