-- ==== Sys2Proof/Machine/Queues.lean ====
section
/-! DEFINITION. Task queues: descriptors and their checks (R290, R291, R293), acceptance (R289, R297), queued tasks that end
without running (R303, R321), and the dispatcher's choice (R298). -/

namespace Sys2Proof.Machine

/-- A task descriptor (R290). -/
structure Desc where
  kind : Nat
  prog : Nat
  insn : Nat
  tiles : Nat
  timeUs : Nat
  userTag : Word
  target : Nat
  bytes : Nat
  crc : Word
  args : List Word
  deriving DecidableEq, Repr

/-- Reads the 128 bytes of a descriptor. -/
def descOf (b : Bytes) : Desc :=
  { kind := fieldAt b 3 1, prog := fieldAt b 4 2, insn := fieldAt b 8 4, tiles := fieldAt b 12 2, timeUs := fieldAt b 14 2
    userTag := BitVec.ofNat 64 (fieldAt b 16 8), target := fieldAt b 32 8, bytes := fieldAt b 40 4
    crc := BitVec.ofNat 64 (fieldAt b 48 8), args := (List.range 8).map fun i => BitVec.ofNat 64 (fieldAt b (64 + 8 * i) 8) }

/-- The checks of R291 that need no queue. -/
def descForm (b : Bytes) : Bool :=
  let d := descOf b
  fieldAt b 0 2 == 0x7A5C && fieldAt b 2 1 == 1 && d.kind ≤ 2 && fieldAt b 6 2 == 0 && fieldAt b 24 8 == 0 && fieldAt b 44 4 == 0
    && fieldAt b 56 8 == 0 && d.prog < 1024
    && (d.kind != 2 || d.prog == 0) && (d.kind != 0 || d.target == 0)
    && (d.kind == 1 || (d.bytes == 0 && d.crc == 0)) && (d.kind == 0 || d.args.all (· == 0))
    && (d.kind != 1 || (d.target % 4096 == 0 && d.bytes % 4 == 0 && 4 ≤ d.bytes && d.bytes ≤ 524288))

/-- The checks of R291 on a queue, its maxima among them. -/
def State.descOk (s : State) (q : Nat) (b : Bytes) : Bool :=
  let d := descOf b
  descForm b && d.insn ≤ s.fget (R.KSK_QCFG2.INSN_MAX q) && d.tiles ≤ s.fget (R.KSK_QCFG2.TILES_MAX q)
    && d.timeUs ≤ s.fget (R.KSK_QCFG2.TIME_MAX_US q)

/-- Whether a queue accepts `n` more descriptors: ENABLED, and room for them (R289, R321). -/
def State.queueRoom (s : State) (q n : Nat) : Bool :=
  s.fget (R.KSK_QSTAT.STATE q) == 1 && s.fget (R.KSK_QSTAT.QUEUED q) + n ≤ s.fget (R.KSK_QCFG3.POOL_MAX q)
    && s.fget R.KSK_STAT.POOL_USED + n ≤ 32768

/-- The next task number of a queue (R293). -/
def State.nextTask (s : State) (q : Nat) : Nat × State :=
  let n := AMap.get 1 s.ksk.seq q
  (q * 2 ^ 54 + n, { s with ksk := { s.ksk with seq := AMap.set 1 s.ksk.seq q (n + 1) } })

/-- A pool entry is taken or given back. -/
def State.poolUp (s : State) (q : Nat) : State := (s.inc R.KSK_STAT.POOL_USED).inc (R.KSK_QSTAT.QUEUED q)
def State.poolDown (s : State) (q : Nat) : State := (s.dec R.KSK_STAT.POOL_USED).dec (R.KSK_QSTAT.QUEUED q)

/-- The task of a descriptor. -/
def Desc.task (d : Desc) (num q : Nat) (ten : BitVec 24) (parent : Option (Nat × Nat)) : Task :=
  { num := num, queue := q, tenant := ten, prog := d.prog, userTag := d.userTag, parent := parent, insn := d.insn
    tiles := d.tiles, timeUs := d.timeUs, args := d.args }

/-- KIND of a queued descriptor's completion record (R611). -/
def recKind (kind : Nat) : Nat := if kind = 1 then 0x02 else if kind = 2 then 0x03 else 0x01

/-- Completes a LOAD or CANCEL descriptor, or one that ran nothing. -/
def State.descDone (s : State) (t : Task) (kind : Nat) (st : Status) : State :=
  s.produce (s.fget (R.KSK_QCFG3.CQ t.queue)) t.tenant (complRec t.userTag t.num 0 0 (s.say st) kind 0)

/-- Accepts a host's descriptor into a queue (R291, R293, R297): a malformed one completes at once. -/
def State.acceptDesc (s : State) (q : Nat) (b : Bytes) : State :=
  let d := descOf b
  let (num, s) := s.nextTask q
  let t := d.task num q (BitVec.ofNat 24 (s.fget (R.KSK_QCFG0.TENANT q))) none
  if !s.descOk q b then s.descDone t (recKind d.kind) .malformed
  else
    let s := s.poolUp q
    match d.kind with
    | 0 => { s with ksk := { s.ksk with pool := s.ksk.pool ++ [t] } }
    | 1 => { s with ksk := { s.ksk with loads := s.ksk.loads ++ [(t, d.target, d.bytes, d.crc)] } }
    | _ => { s with ksk := { s.ksk with cancels := s.ksk.cancels ++ [(q, d.target, t)] } }

/-- A queued task leaves the pool and completes without running (R303, R321). -/
def State.dropQueued (s : State) (t : Task) (st : Status) : State :=
  (({ s with ksk := { s.ksk with pool := s.ksk.pool.filter fun u => u.num ≠ t.num } }).poolDown t.queue).taskDone t none st 0 0 0

/-! ## The dispatcher (R298) -/

/-- Contexts a queue holds for host-submitted tasks, and for children. -/
def State.queueRuns (s : State) (q : Nat) (child : Bool) : Nat :=
  (s.ksk.ctx.filter fun p => p.1 != 4096 && p.2.task.any fun t => t.queue == q && t.parent.isSome == child).length

/-- The task of a queue that starts next under its share: a child first (R297, R298, R305). -/
def State.nextOf (s : State) (q : Nat) : Option Task :=
  let kids := s.queueRuns q true
  let hosts := s.queueRuns q false
  let cap := s.fget (R.KSK_QCFG0.MAX_CTX q)
  if cap ≤ kids + hosts then none
  else
    match s.ksk.pool.find? fun t => t.queue == q && t.parent.isSome with
    | some t => some t
    | none =>
      if hosts + s.fget (R.KSK_QCFG0.CHILD_CTX q) < cap then s.ksk.pool.find? fun t => t.queue == q && t.parent.isNone
      else none

/-- Bytes of a local-store partition. -/
def lsBytes (n : Nat) : Nat := 4096 * 2 ^ n

/-- A context and a partition on a Kiosk, if both are free (R298): the lowest of each. -/
def State.placeOn (s : State) (k sz : Nat) : Option (Nat × Nat) :=
  let used := (List.range 8).filterMap fun i =>
    let x := s.ctx (8 * k + i)
    if x.task.isSome then some (x.lsBase, x.lsSize) else none
  let free := (List.range 8).find? fun i => (s.ctx (8 * k + i)).task.isNone
  let part := ((List.range (65536 / sz)).map (· * sz)).find? fun b => used.all fun u => b + sz ≤ u.1 || u.1 + u.2 ≤ b
  match s.fget (R.KSK_KIOSK_STAT.STATE k), free, part with
  | 0, some i, some b => some (8 * k + i, b)
  | _, _, _ => none

/-- The lowest-numbered Kiosk of a Square with a place (R298). -/
def State.placeIn (s : State) (sq sz : Nat) : Option (Nat × Nat) :=
  (List.range 32).findSome? fun i => s.placeOn (32 * sq + i) sz

/-- A queue of the Square with a startable task, and the place it would take. -/
def State.startable (s : State) (sq q : Nat) : Option (Task × Nat × Nat) :=
  if s.fget (R.KSK_QSTAT.STATE q) = 1 ∧ s.fget (R.KSK_QCFG0.SQUARE q) = sq then
    match s.nextOf q, s.placeIn sq (lsBytes (s.fget (R.KSK_QCFG0.LS_SIZE q))) with
    | some t, some (c, b) => some (t, c, b)
    | _, _ => none
  else none

/-- The queues that have queued tasks, in number order. -/
def State.busyQueues (s : State) : List Nat := sortBy (· ≤ ·) (s.ksk.pool.map (·.queue)).eraseDups

/-- The queue that takes the next turn: the present one while it has turns left, else the next in number order (R298). -/
def State.pickQueue (s : State) (sq : Nat) : Option (Nat × Nat) :=
  let cur := AMap.get (0, 0) s.ksk.rr sq
  let ready := s.busyQueues.filter fun q => (s.startable sq q).isSome
  if ready.contains cur.1 ∧ cur.2 < s.fget (R.KSK_QCFG0.WEIGHT cur.1) then some (cur.1, cur.2 + 1)
  else
    match ready.find? (cur.1 < ·) with
    | some q => some (q, 1)
    | none => ready.head?.map (·, 1)

end Sys2Proof.Machine
end

