-- ==== Sys2Proof/Machine/AeloGate.lean ====
section
/-! DEFINITION. Aelo's gates, messages and task control (R275 to R279), the end of waits (R276, R285) and budgets (R301). -/

namespace Sys2Proof.Machine

/-- The oldest message with a tag, or the oldest at all for tag 0, taken out of an inbox (R275). -/
def takeMsg (inbox : List Word) (tag : Nat) : Option (Word × List Word) :=
  match inbox.find? fun m => tag == 0 || m.toNat / 2 ^ 32 == tag with
  | some m => some (m, inbox.erase m)
  | none => none

/-- GWAIT (R275): waits until gc[B] ≥ a[A]; a[D] := gc[B]. -/
def execGwait (c : Ctx) (gp : BitVec 3) (d a b : BitVec 5) (s : State) : Host.Outcome State Fault Refusal :=
  .next (s.issue c gp (4 ≤ b.toNat) fun x =>
    if (x.ra a).toNat ≤ (x.rg b.toNat).toNat then s.advance c (x.wa d (x.rg b.toNat))
    else s.setCtx c.val { x with wait := .gate b.toNat (x.ra a) d.toNat })

/-- GPOLL (R275): a[D] := gc[B]; A 0. -/
def execGpoll (c : Ctx) (gp : BitVec 3) (d a b : BitVec 5) (s : State) : Host.Outcome State Fault Refusal :=
  .next (s.issue c gp (4 ≤ b.toNat || a != 0) fun x => s.advance c (x.wa d (x.rg b.toNat)))

/-- GADD (R275): gc[B] := gc[B] + a[A]; D 0. -/
def execGadd (c : Ctx) (gp : BitVec 3) (d a b : BitVec 5) (s : State) : Host.Outcome State Fault Refusal :=
  .next (s.issue c gp (4 ≤ b.toNat || d != 0) fun x => s.advance c (x.wg b.toNat (x.rg b.toNat + x.ra a)))

/-- GRECV (R275): takes a message, or waits for one; B 0. -/
def execGrecv (c : Ctx) (gp : BitVec 3) (d a b : BitVec 5) (s : State) : Host.Outcome State Fault Refusal :=
  .next (s.issue c gp (b != 0) fun x =>
    let tag := (x.ra a).toNat % 2 ^ 32
    match takeMsg x.inbox tag with
    | some (m, r) => s.advance c (({ x with inbox := r }).wa d m)
    | none => s.setCtx c.val { x with wait := .msg tag d.toNat })

/-- GPOST (R275, R276): to a running task of the same tenant; a[D] := OK, NOSPACE or ACCESS. -/
def execGpost (c : Ctx) (gp : BitVec 3) (d a b : BitVec 5) (s : State) : Host.Outcome State Fault Refusal :=
  .next (s.issue c gp false fun x =>
    let dst := (s.ctxOfTask (x.ra a).toNat).filter fun e => ((s.ctx e).task.map (·.tenant)) == x.task.map (·.tenant)
    match dst with
    | none => s.advance c (x.wa d (BitVec.ofNat 64 Status.access.code))
    | some e =>
      let y := if e = c.val then x else s.ctx e
      if inboxSize ≤ y.inbox.length then s.advance c (x.wa d (BitVec.ofNat 64 Status.nospace.code))
      else
        let y := { y with inbox := y.inbox ++ [x.ra b] }
        if e = c.val then s.advance c (y.wa d 0) else (s.setCtx e y).advance c (x.wa d 0))

/-- SPAWN (R277, R278, R296): queues a child, or writes 0. -/
def execSpawn (c : Ctx) (gp : BitVec 3) (d a b : BitVec 5) (s : State) : Host.Outcome State Fault Refusal :=
  .next (s.issue c gp (4 ≤ b.toNat) fun x =>
    match x.task with
    | none => s
    | some t =>
      match s.readAt c x (x.ra a) 128 1 with
      | (none, s) => s
      | (some (x, bytes), s) =>
        if c.val = 4096 ∨ 16 ≤ x.children ∨ (descOf bytes).kind ≠ 0 ∨ !s.descOk t.queue bytes ∨ !s.queueRoom t.queue 1 then
          s.advance c (x.wa d 0)
        else
          let (num, s) := s.nextTask t.queue
          let kid := (descOf bytes).task num t.queue t.tenant (some (t.num, b.toNat))
          let s := (s.poolUp t.queue)
          let s := { s with ksk := { s.ksk with pool := s.ksk.pool ++ [kid] } }
          s.advance c (({ x with children := x.children + 1 }).wa d (BitVec.ofNat 64 num)))

/-- ABORT (R279): ends with ABORTED and the result word a[A]. -/
def execAbort (c : Ctx) (gp : BitVec 3) (_d a _b : BitVec 5) (s : State) : Host.Outcome State Fault Refusal :=
  .next (s.issue c gp false fun x => s.endProgram c .aborted 0 (x.ra a).toNat)

/-- TASK_WAIT_END (R276, R285): a gate reached, a message there, a frame to be had, or the fetch it waited on gone. -/
def execTaskWaitEnd (c : Ctx) (s : State) : Host.Outcome State Fault Refusal :=
  let x := s.ctx c.val
  .next (match x.wait with
    | .gate i v d =>
      if v.toNat ≤ (x.rg i).toNat then s.advance c (({ x with wait := .none }).wa (BitVec.ofNat 5 d) (x.rg i)) else s
    | .msg tag d =>
      (match takeMsg x.inbox tag with
       | some (m, r) => s.advance c (({ x with inbox := r, wait := .none }).wa (BitVec.ofNat 5 d) m)
       | none => s)
    | .frame => if s.frameRoom.isSome then s.setCtx c.val { x with wait := .none } else s
    | .tile _ =>
      if s.anyWaits fun w => match w with | .ctx e g _ => e == c.val && g == x.tag | _ => false then s
      else s.setCtx c.val { x with wait := .none }
    | _ => s)

/-- INSN_BUDGET (R301): a task with no instruction left, ready to issue, ends with LIMIT. -/
def execInsnBudget (c : Ctx) (s : State) : Host.Outcome State Fault Refusal :=
  let x := s.ctx c.val
  .next (if c.val ≠ 4096 ∧ x.task.isSome ∧ x.wait = .none ∧ !x.charged ∧ x.insnLeft = 0 then s.raise c .insnBudget else s)

/-- TIME_BUDGET (R301): the run time is over; a COMMIT that has not been sequenced is withdrawn (R269). -/
def execTimeBudget (c : Ctx) (s : State) : Host.Outcome State Fault Refusal :=
  .next (if c.val = 4096 then s else s.stopTask c.val .limit Cause.timeBudget.code)

/-- CHILD_MSG_DELIVER (R277): the oldest held message enters an inbox with room. -/
def execChildMsgDeliver (c : Ctx) (s : State) : Host.Outcome State Fault Refusal :=
  let x := s.ctx c.val
  .next (match x.held with
    | m :: r => if x.inbox.length < inboxSize then s.setCtx c.val { x with inbox := x.inbox ++ [m], held := r } else s
    | [] => s)

end Sys2Proof.Machine
end

