-- ==== Sys2Proof/Machine/Retire.lean ====
section
/-! DEFINITION. Retirement of tiles (R117 to R119): the forms of R81, the stripe's writing, and the indivisible step of R82. -/

namespace Sys2Proof.Machine

/-- JSN of the oldest pending record of a tile. -/
def State.oldestJsn (s : State) (t : Nat) : Option Nat := ((s.pendingFor t).head?).map Rec.jsn

/-- Tiles with pending records and no retirement under way. -/
def State.retirable (s : State) : List Nat :=
  ((s.jnl.recs.map fun (r : Rec) => r.body.tiles.filter fun t => !r.doneTiles.contains t).flatten.eraseDups).filter fun t =>
    !(s.jnl.retiring.any fun r => r.tile == t)

/-- Whether a tile's turn has come: no other tile waits with an older record (R117). -/
def State.retireTurn (s : State) (t : Nat) : Bool :=
  match s.oldestJsn t with
  | none => false
  | some j => s.retirable.contains t && s.retirable.all fun u => match s.oldestJsn u with | some k => j ≤ k | none => true

/-- Whether a tile is eligible for retirement: its oldest pending record has been held for HOLD_US, or the journal is fuller than HIGH_WATER
percent of DRAIN_LIMIT (R117). -/
def State.retireDue (s : State) (t : Nat) : Bool :=
  match s.pendingFor t with
  | [] => false
  | r :: _ => decide (1000 * s.fget R.JNL_LIMIT_CTL.HOLD_US ≤ s.timeNs - r.admitNs)
      || decide (s.fget R.JNL_LIMIT_CTL.HIGH_WATER * s.drainLimit < 100 * s.granulesUsed)

/-- Replaces a retirement. -/
def State.setRetire (s : State) (r : Retire) : State :=
  { s with jnl := { s.jnl with retiring := s.jnl.retiring.map fun q => if q.tile = r.tile then r else q } }

/-- The retirement of a tile. -/
def State.retireOf (s : State) (t : Nat) : Option Retire := s.jnl.retiring.find? (·.tile == t)

/-- The records a retirement takes (R118). -/
def State.retireRecs (s : State) (r : Retire) : List Rec := (s.pendingFor r.tile).filter fun q => q.jsn ≤ r.jsn

/-- Writes the stripe of a retirement: its plaintext and seal are known, the frame is RETIRING, and the 18 codewords go out
(R81, R189, R211). -/
def State.writeRetire (s : State) (r : Retire) (plain : Bytes) (seal64 : Word) : State :=
  let s := match s.frame r.tile with
    | some f => (match f.state with | .base => s.setFrame r.tile { f with state := .retiring } | _ => s)
    | none => s
  let words := (s.buildStripe r.tile r.ver plain seal64).zipIdx.map fun p => (p.2, p.1)
  let s := s.setRetire { r with reading := false, bytes := plain, seal64 := seal64 }
  let (lanes, s) := s.writeStripe r.tile (.retire r.tile) words
  match s.retireOf r.tile with
  | some q => s.setRetire { q with lanes := lanes }
  | none => s

/-- A retirement on a verified base: incremental seal (R60, R81). -/
def State.retireOnBase (s : State) (r : Retire) (base : Bytes) (v : Ver) (seal64 : Word) : State :=
  let plain := if isSys r.tile then s.tableTile r.tile else overlayRecs r.tile (slice base 0 4096) (s.retireRecs r)
  s.writeRetire r plain (s.sealUpdate r.tile v seal64 (slice base 0 4096) r.ver plain)

/-- The full form: the records cover the tile, or it is a table tile that the cache holds, whose seal so taken is the one that the
incremental form gives (R58, R60, R72, R81). -/
def State.retireWhole (s : State) (r : Retire) : State :=
  let plain := if isSys r.tile then s.tableTile r.tile else overlayRecs r.tile zeroTile (s.retireRecs r)
  s.writeRetire r plain (s.tileSeal r.tile r.ver plain)

/-- A retirement of a quarantined tile whose records do not cover it discards them: no write, no acknowledgement due (R89). -/
def State.retireDiscard (s : State) (r : Retire) : State := s.setRetire { r with reading := false, discard := true, lanes := [] }

/-- A retirement that must read the tile first (R81). -/
def State.retireRead (s : State) (r : Retire) : State := (s.setRetire { r with rmw := true }).fetchFor r.tile .retire .cold

/-- Begins the retirement of a tile with an entry taken: picks the form of R81. -/
def State.beginRetire (s : State) (t tag : Nat) : State :=
  let rs := s.pendingFor t
  let jsn := match rs.getLast? with | some q => q.jsn | none => 0
  let r : Retire := { tile := t, tag := tag, jsn := jsn, ver := s.liveVer t, reading := true }
  let s := { s with jnl := { s.jnl with retiring := s.jnl.retiring ++ [r] } }.oweResults tag 1
  let lost := rs.any (·.bad.contains t)
  if isSys t then (if s.tableHeld t then s.retireWhole r else s.retireRead r)
  else if covers t rs ∧ !lost then s.retireWhole r
  else if (s.genEntry t).quar then s.retireDiscard r
  else if lost then s.retireRead r
  else if (s.genEntry t).zero ∧ !s.unanchored t then
    s.retireOnBase r zeroTile (s.storedVer t) (sealMask (s.sealKey t) t (s.storedVer t))
  else match s.frame t with
    | some f => if f.state = .base then s.retireOnBase r f.bytes f.ver f.seal64 else s.retireRead r
    | none => s.retireRead r

/-- A leaf of the generation table enters the cache, or is the most recent there (R72). -/
def State.cacheLeaf (s : State) (l : Nat) : State :=
  let ls := ((l :: s.jnl.leaves.erase l)).take 1571838
  ({ s with jnl := { s.jnl with leaves := ls } }).fset R.JNL_GEN_STAT.LEAVES ls.length

/-- An entry of a leaf that is at hand is used (R72). -/
def State.touchLeaf (s : State) (t : Nat) : State := if isSys t ∨ !s.leafHere t then s else s.cacheLeaf (t / 512)

/-- The tile that was stored stays in a frame, where one can be had. -/
def State.keepFrame (s : State) (t : Nat) (r : Retire) : State :=
  match s.frameRoom with
  | some s => s.putFrame t { state := if s.pendingFor t = [] then .valid else .base, ver := r.ver, seal64 := r.seal64, bytes := r.bytes }
  | none => s

/-- The indivisible step of R82: the table entry, the records' parts in this tile, the directory (R119, R211). -/
def State.finishRetire (s : State) (r : Retire) : State :=
  let t := r.tile
  let s := s.inc R.JNL_RET_CNT.TILES
  let s := if r.rmw then s.inc R.JNL_RMW_CNT.TILES else s
  let s := { s with jnl := { s.jnl with
    retiring := s.jnl.retiring.filter (·.tile ≠ t)
    recs := s.jnl.recs.map fun (q : Rec) =>
      if q.jsn ≤ r.jsn ∧ q.body.tiles.contains t ∧ !q.doneTiles.contains t then { q with doneTiles := q.doneTiles ++ [t] } else q } }
  let s := match s.frame t with
    | some f => (match f.state with | .retiring => s.dropFrame t | _ => s)
    | none => s
  let s := if r.discard ∨ isSys t ∨ !(s.clsOf t).caches then s
    else s.keepFrame t r
  let s := s.changeEntry t { quar := r.discard, zero := false, reloc := r.ver.reloc, gen := r.ver.gen }
  (((s.sweepRecs.touchLeaf t).holdBack r.tag).settleEntry r.tag).releaseHeld.noteWaiting

end Sys2Proof.Machine
end

