-- ==== Sys2Proof/Machine/Deliver.lean ====
section
/-! DEFINITION. What becomes of a tile that has arrived: each waiter's view of it (R42, R45, R90, R102) and what each kind of
requester does with it: CXL reads (R435), READ responses (R397), tasks (R250), LOADs (R309), work requests (R413), the twin
(R165, R168), retirement (R81), atomics (R398), locked lines (R223), plans (R230), PINNED loads (R236), the Sweeper (R198) and
rebuilds (R195). -/

namespace Sys2Proof.Machine

/-- What a requester that probed at `probe` sees of a tile whose verified copy is `base`, or none for POISONED: its bytes and
version. A copy of the twin's may stand above records, whose bytes it then holds (R85). -/
def State.viewAt (s : State) (t : Nat) (base : Option (Bytes × Ver)) (probe : Nat) : Option (Bytes × Ver) :=
  let rs := (s.pendingFor t).filter fun r => r.jsn ≤ probe
  let live := liveAfter (s.genEntry t) rs
  let lost := rs.any (·.bad.contains t)
  if rs ≠ [] ∧ !lost ∧ covers t rs then some (overlayRecs t zeroTile rs, live)
  else match base with
    | none => none
    | some (b, v) =>
      if lost then none else some (overlayRecs t (slice b 0 4096) (aboveVer (s.genEntry t) rs v), if live.lt v then v else live)

/-- A result of an operation's fetch returns to its entry: discarded at a LINGERING one, its status and data otherwise (R330). -/
def State.deliverOp (s : State) (tag : Nat) (st : Status) (data : Bytes) : State :=
  match AMap.find? s.tst.ops tag with
  | none => s
  | some o => if o.lingering then s.resultBack tag else (s.setOp tag { o with out := o.out - 1 }).resolve tag st data

/-! ## READ responses (R397) -/

/-- The part of a READ of `len` bytes at `dpa` that lies in tile `t`: offset and length. -/
def partOf (dpa len t : Nat) : Nat × Nat :=
  match (spans dpa len).find? (·.1 == t) with
  | some (_, o, n) => (o, n)
  | none => (0, 0)

/-- One response packet of a READ (R373): AETH in the first, the last and the only one. -/
def State.readPkt (s : State) (c psn len i : Nat) (b : Bytes) : TxPkt :=
  let n := readPkts len (s.conn c).mtu
  let op := if n = 1 then 0x10 else if i = 0 then 0x0D else if i + 1 = n then 0x0F else 0x0E
  { opcode := op, psn := psn + i, status := s.okNow.code
    plain := (if op = 0x0E then [] else aeth 0x1F (s.conn c).msn) ++ b }

/-- The bytes of a READ that are at hand from its start, and whether a POISONED tile follows them (R397). -/
def readyBytes (parts : List (Option Bytes)) : Bytes × Bool :=
  match parts with
  | [] => ([], false)
  | none :: _ => ([], false)
  | some [] :: _ => ([], true)
  | some b :: r => let (x, p) := readyBytes r; (b ++ x, p)

/-- READs whose last packet has gone resolve, and their connection and port go on. -/
def State.readSettle (s : State) (c : Nat) : State :=
  let p := (s.conn c).port
  ((s.readsDone c).connClosing c).portSettle p

/-- Sends the response packets of a READ that are at hand, in PSN order, and resolves it with the last, or with POISONED
(R397). -/
def State.readPump (s : State) (tag : Nat) : State :=
  match AMap.find? s.tst.ops tag with
  | none => s
  | some o =>
    match o.kind with
    | .netRead c psn dpa len sent =>
      let k := s.conn c
      let n := readPkts len k.mtu
      let parts := (spans dpa len).map fun p => ((k.tiles.find? fun q => q.1 == psn && q.2.1 == p.1).bind (·.2.2))
      let (bytes, bad) := readyBytes parts
      let upto := if bytes.length = len then n else bytes.length / k.mtu
      let s := ((List.range n).filter fun i => sent ≤ i && i < upto).foldl (fun s i =>
        if (s.conn c).state = .error ∨ s.netMute k.port then s
        else s.respond c psn [s.readPkt c psn len i (slice bytes (i * k.mtu) (min k.mtu (len - i * k.mtu)))] false) s
      let s := s.setOp tag { o with kind := .netRead c psn dpa len (max sent upto) }
      if upto = n then (if (s.conn c).state = .error ∨ s.netMute k.port then s.resolve tag .ok else s.readSettle c)
      else if bad then s.resolve tag .poisoned else s
    | _ => s

/-- A tile of a READ arrives. -/
def State.deliverNet (s : State) (tag t : Nat) (v : Option (Bytes × Ver)) : State :=
  match AMap.find? s.tst.ops tag with
  | none => s
  | some o =>
    if o.lingering then s.resultBack tag
    else
      let s := s.setOp tag { o with out := o.out - 1 }
      match o.kind with
      | .netRead c psn dpa len _ =>
        let (off, n) := partOf dpa len t
        let k := s.conn c
        (s.setConn c { k with tiles := k.tiles.map fun q =>
          if q.1 = psn ∧ q.2.1 = t then (psn, t, some (match v with | some (b, _) => slice b off n | none => [])) else q }).readPump tag
      | _ => s

/-! ## Tasks -/

/-- A tile that a load waits for arrives; POISONED ends the task (R251, R280). -/
def State.deliverCtx (s : State) (c tag t : Nat) (v : Option (Bytes × Ver)) : State :=
  let s := s.resultBack tag
  let x := s.ctx c
  if x.tag ≠ tag ∨ x.task.isNone ∨ x.wait ≠ .tile t then s
  else match v with
    | some (b, w) => s.setCtx c { x with wait := .none, fills := x.fills ++ [(t, b, w)] }
    | none => if c = 4096 then s.belvEnd .poisoned else s.endTask c .poisoned Cause.poisoned.code 0

/-! ## LOADs (R309) -/

/-- One step of the load of a program: the next tile of its image (R309). -/
def State.loadStep (s : State) (p : Nat) : State :=
  let g := s.prog p
  match g.job with
  | none => s
  | some j =>
    let a := j.dpa + j.got.length
    let t := a / 4096
    if j.waiting ∨ j.status.isSome ∨ j.len ≤ j.got.length then s
    else if s.anyWaits fun w => match w with | .loadImg q g _ => q == p && g == j.tag | _ => false then s
    else if (s.extent (extOf t)).state ≠ .assigned ∨ (!j.reload ∧ (s.extent (extOf t)).owner ≠ j.task.tenant) then
      s.setProg p { g with job := some { j with status := some .access } }
    else
      let n := min 4096 (j.len - j.got.length)
      match s.readSpan t 0 n (s.clsOf t) with
      | (.data b, s) => s.setProg p { s.prog p with job := some { j with got := j.got ++ b } }
      | (.poison, s) => s.setProg p { s.prog p with job := some { j with status := some .poisoned } }
      | (.miss, s) => s.missOp t 0 n (.loadImg p j.tag (s.fget R.JNL_JSN.JSN)) (s.clsOf t) j.tag

/-- Reads a program image on, tile by tile, until it waits for media, meets POISONED or an extent that is not the owner's, or has
all of it. -/
def State.loadPump (s : State) (p : Nat) : State := (List.range 130).foldl (fun s _ => s.loadStep p) s

/-- A tile of an image arrives. -/
def State.deliverLoad (s : State) (p tag : Nat) (v : Option (Bytes × Ver)) : State :=
  let s := s.resultBack tag
  let g := s.prog p
  match g.job with
  | none => s
  | some j =>
    if j.tag ≠ tag then s
    else match v with
      | some (b, _) => (s.setProg p { g with job := some { j with got := j.got ++ slice b 0 (min 4096 (j.len - j.got.length)) } }).loadPump p
      | none => s.setProg p { g with job := some { j with status := some .poisoned } }

/-! ## Work requests (R413) -/

/-- Replaces a work request. -/
def State.setWr (s : State) (w : Wr) : State :=
  { s with xpt := { s.xpt with wrs := s.xpt.wrs.map fun v => if v.id = w.id then w else v } }

/-- Packets of a work request's message. -/
def wrPkts (w : Wr) (mtu : Nat) : Nat := if w.opcode = 5 then 1 else readPkts w.len mtu
/-- PSNs it takes: a READ takes one for each response packet. -/
def wrPsns (w : Wr) (mtu : Nat) : Nat := readPkts w.len mtu

/-- RETH. -/
def reth (va : Word) (key : BitVec 32) (len : Nat) : Bytes := natBe 8 va.toNat ++ natBe 4 key.toNat ++ natBe 4 len

/-- Packet `i` of a work request: BTH opcode and everything between PETH and tag (R373, R409). -/
def wrPkt (w : Wr) (mtu i : Nat) : Nat × Bytes :=
  if w.opcode = 5 then (0x0C, reth w.remoteVa w.remoteKey w.len)
  else
    let n := wrPkts w mtu
    let isWrite := decide (w.opcode ≤ 2)
    let imm := decide (w.opcode = 2 ∨ w.opcode = 4)
    let pos := if n = 1 then 4 else if i = 0 then 0 else if i + 1 < n then 1 else 2
    let last := decide (i + 1 = n)
    ((if isWrite then 6 else 0) + pos + (imm && last).toNat,
     (if isWrite ∧ i = 0 then reth w.remoteVa w.remoteKey w.len else []) ++ (if imm ∧ last then natBe 4 w.imm.toNat else [])
       ++ slice w.buf (i * mtu) (min mtu (w.len - i * mtu)))

/-- Payload of packet `i`, for the window (R366). -/
def wrLoad (w : Wr) (mtu i : Nat) : Nat := if w.opcode = 5 then 0 else min mtu (w.len - i * mtu)

/-- Sends packets of an issued work request while the window has room (R366). -/
def State.wrSend (s : State) (id : Nat) : State :=
  match s.xpt.wrs.find? (·.id == id) with
  | none => s
  | some w =>
    let mtu := (s.conn w.conn).mtu
    (List.range (wrPkts w mtu)).foldl (fun s i =>
      match s.xpt.wrs.find? (·.id == id) with
      | some w =>
        let k := s.conn w.conn
        let n := wrLoad w mtu i
        (match w.issued with
         | some (_, psn) =>
           if i ≠ w.sent ∨ w.rnr then s
           else if !s.mayGo w.conn n then s.setConn w.conn { k with limited := k.limited || decide (0 < n ∧ k.win < s.outBytes k + n) }
           else
             let (op, b) := wrPkt w mtu i
             let k := { k with outstanding := k.outstanding + n, stamps := k.stamps.filter (·.1 ≠ psn + i) ++ [(psn + i, s.timeNs)] }
             let s := s.setConn w.conn k
             (s.sendRoce w.conn { opcode := op, psn := psn + i, plain := b, status := s.okNow.code } true).setWr { w with sent := i + 1 }
         | none => s)
      | none => s) s

/-- Issued work requests of a connection in PSN order. -/
def State.issuedOf (s : State) (c : Nat) : List Wr :=
  let at' := fun (w : Wr) => ((w.issued.map (·.2)).getD 0 + 2 ^ 24 - (s.conn c).npsn % 2 ^ 24) % 2 ^ 24
  sortBy (fun a b => at' a ≤ at' b) (s.xpt.wrs.filter fun w => w.conn = c ∧ w.issued.isSome)

/-- A message whose packets have all been sent. -/
def Wr.allSent (w : Wr) (mtu : Nat) : Bool := wrPkts w mtu ≤ w.sent

/-- Sends what issued work requests may send, in PSN order: none passes one whose bytes are not at hand or that waits (R366, R413). -/
def State.sendIssued (s : State) (c : Nat) : State :=
  ((s.issuedOf c).foldl (fun (p : Bool × State) (w : Wr) =>
    if p.1 ∨ w.rnr ∨ (w.opcode ≠ 5 ∧ w.buf.length ≠ w.len) then (true, p.2)
    else
      let s := p.2.wrSend w.id
      (!((s.xpt.wrs.find? (·.id == w.id)).all fun v => v.allSent (s.conn c).mtu), s)) (false, s)).2

/-- Reads the local bytes of a WRITE or SEND on, and sends the message once all are at hand (R413). -/
def State.wrPump (s : State) (id : Nat) : State :=
  match s.xpt.wrs.find? (·.id == id) with
  | none => s
  | some w0 =>
    let s := (List.range (w0.len / 4096 + 2)).foldl (fun s _ =>
      match s.xpt.wrs.find? (·.id == id) with
      | none => s
      | some w =>
        match w.issued with
        | none => s
        | some (tag, _) =>
          let a := w.localAddr + w.buf.length
          let t := a / 4096
          let n := min (4096 - a % 4096) (w.len - w.buf.length)
          if w.len ≤ w.buf.length then s
          else if s.anyWaits fun x => match x with | .wr i _ _ => i == id | _ => false then s
          else if (s.extent (extOf t)).state ≠ .assigned ∨ (s.extent (extOf t)).owner ≠ w.tenant then s.resolve tag .access
          else match s.readSpan t (a % 4096) n (s.clsOf t) with
            | (.data b, s) => s.setWr { w with buf := w.buf ++ b }
            | (.poison, s) => s.resolve tag .poisoned
            | (.miss, s) => s.missOp t (a % 4096) n (.wr id tag (s.fget R.JNL_JSN.JSN)) (s.clsOf t) tag) s
    match s.xpt.wrs.find? (·.id == id) with
    | some w => if w.buf.length = w.len then s.sendIssued w.conn else s
    | none => s

/-- A local tile of a work request arrives. -/
def State.deliverWr (s : State) (id tag : Nat) (v : Option (Bytes × Ver)) : State :=
  match v with
  | none => s.deliverOp tag .poisoned []
  | some (b, _) =>
    let s := s.resultBack tag
    match s.xpt.wrs.find? (·.id == id) with
    | none => s
    | some w =>
      let a := w.localAddr + w.buf.length
      (s.setWr { w with buf := w.buf ++ slice b (a % 4096) (min (4096 - a % 4096) (w.len - w.buf.length)) }).wrPump id

/-! ## The twin -/

/-- A tile as REPAIR_DATA and RESYNC_DATA carry it (R137, R168): contents at the live version, sealed under it. `seq` is READ_SEQ,
none in REPAIR_DATA; `zero` sends the ZERO status, whose code the manual does not give (log entry 39). -/
def State.tileFrame (s : State) (t : Nat) (v : Option (Bytes × Ver)) (zero : Bool) (seq : Option Nat) : Bytes :=
  let live := s.liveVer t
  let tail := match seq with | some q => natLe 8 q | none => []
  if zero then natLe 8 t ++ [Config.zeroStatus] ++ natLe 7 0 ++ natLe 8 live.word ++ tail
  else match v with
    | none => natLe 8 t ++ natLe 1 Status.poisoned.code ++ natLe 7 0 ++ natLe 8 live.word ++ tail
    | some (b, _) =>
      let b := slice b 0 4096
      natLe 8 t ++ natLe 1 0 ++ natLe 7 0 ++ natLe 8 live.word ++ b
        ++ overlay (s.tileTag t live (s.tileSeal t live b)) 56 (natLe 8 (seq.getD 0))

/-- The answer to a repair request (R168). -/
def State.answerRepair (s : State) (tag t : Nat) (v : Option (Bytes × Ver)) : State :=
  (s.sendTwin 0x07 (s.tileFrame t v false none)).deliverOp tag .ok []

/-- One tile of a resync (R165 step 3). -/
def State.answerResync (s : State) (tag t : Nat) (v : Option (Bytes × Ver)) : State :=
  (s.sendTwin 0x09 (s.tileFrame t v false (some s.prm.pairGiven))).deliverOp tag .ok []

/-! ## Plans -/

/-- A prefetched tile arrives: its lines go to the Loggia, but those a demand miss merged onto, and a PTR entry that follows learns
its pointer (R227, R230, R231, R233). -/
def State.deliverPrefetch (s : State) (t : Nat) (r : PlanReader) (id : Word) (mask : Nat) (cls : Place) (po : Option Nat) (merged : List Nat)
    (cacheable : Bool) (v : Option Bytes) : State :=
  let s := match v with
    | some b => if cacheable then
        (planLines t mask).foldl (fun (s : State) k => if merged.contains k then s else s.loggiaPut k cls (slice b (k % 16 * 256) 256)) s else s
    | none => s
  match s.planOf r, po with
  | some p, some o =>
    if p.id = id ∧ p.taken.getLast? = some (some t) ∧ p.ptr = none then
      (s.setPlan r { p with ptr := some (v.map fun b => fieldAt b o 8 / 4096 % 2 ^ 37) }).planPump r
    else s.planPump r
  | some _, none => s.planPump r
  | none, _ => s

/-! ## Locks, the Sweeper, rebuilds -/

/-- A line whose lock waits for its fill (R223, R224). -/
def State.deliverLock (s : State) (k : Nat) (ok : Bool) (b : Option Bytes) : State :=
  match AMap.find? s.tier.lines k, b with
  | some l, some b => if l.locked ∧ ok then s.putLine k { l with valid := true, bytes := slice b (k % 16 * 256) 256 } else s
  | _, _ => s

/-- The codewords read of a tile's stripe, and those corrected, counted by lane (R200). -/
def State.countLanes (s : State) (t : Nat) (got fixed : List Nat) : State :=
  got.foldl (fun s i =>
    let l := s.laneOf t i
    let m := s.med
    { s with med := { m with
      sweepRead := AMap.set 0 m.sweepRead l (AMap.get 0 m.sweepRead l + 1)
      sweepFix := if fixed.contains i then AMap.set 0 m.sweepFix l (AMap.get 0 m.sweepFix l + 1) else m.sweepFix } }) s

/-- Writes codewords of a tile's existing contents back, each to a lane that takes writes; dropped where the tile is retiring (R38,
R39, R84). -/
def State.writeBack (s : State) (t : Nat) (v : Ver) (plain : Bytes) (seal64 : Word) (ps : List Nat) : State :=
  if s.retireWriting t ∨ s.storedVer t ≠ v then s
  else
    let words := s.buildStripe t v plain seal64
    ps.foldl (fun s i =>
      let l := s.laneOf t i
      if s.laneWrites l then
        s.issueCmd l { opcode := 2, slot := s.slotOf t i, count := 1, owner := .fix t, cws := [words.getD i []] }
      else s) s

/-- A rebuild's stripe arrives: the missing codeword goes to the lane (R195). -/
def State.deliverRebuild (s : State) (t lane tag : Nat) (base : Option (Bytes × Ver × Word)) : State :=
  let s := match base with
    | some (b, v, q) => s.writeBack t v b q ((List.range 18).filter fun i => s.laneOf t i == lane)
    | none => s
  let s := match AMap.find? s.med.rebuild lane with
    | some r => { s with med := { s.med with rebuild := AMap.put s.med.rebuild lane { r with busy := r.busy.filter (· ≠ t) } } }
    | none => s
  (s.rebuildStep lane).deliverOp tag (if base.isSome then .ok else .poisoned) []

/-! ## Every waiter -/

/-- Gives a tile's outcome to one waiter. `base` is the verified stored copy with its version and seal, none for POISONED; a copy
taken on demand goes out as it is (R146, R166). `keep` says that lines may be kept: the fill is not stale and nothing is pending. -/
def State.deliver (s : State) (t : Nat) (base : Option (Bytes × Ver × Word)) (raw keep : Bool) (merged : List Nat) (w : Waiter) : State :=
  let bv := base.map fun b => (b.1, b.2.1)
  let view := fun (s : State) (probe : Nat) => if raw then bv else s.viewAt t bv probe
  match w with
  | .cxl tag probe =>
    match AMap.find? s.tst.ops tag, view s probe with
    | some { kind := .cxlRd _ _ dpa, .. }, some (b, _) => s.deliverOp tag .ok (slice b (dpa % 4096 / 64 * 64) 64)
    | _, _ => s.deliverOp tag .poisoned []
  | .net tag probe => s.deliverNet tag t (view s probe)
  | .ctx c tag probe => s.deliverCtx c tag t (view s probe)
  | .loadImg p tag probe => s.deliverLoad p tag (view s probe)
  | .wr id tag probe => s.deliverWr id tag (view s probe)
  | .twin tag => s.answerRepair tag t (view s (s.fget R.JNL_JSN.JSN))
  | .resync tag => s.answerResync tag t (view s (s.fget R.JNL_JSN.JSN))
  | .retire =>
    match s.retireOf t, base with
    | some r, some (b, v, q) => if (s.retireRecs r).any (·.bad.contains t) then s.retireDiscard r else s.retireOnBase r b v q
    | some r, none => s.retireDiscard r
    | none, _ => s
  | .atomic id =>
    match s.jnl.reserved.find? (·.id == id), base with
    | some r, some (b, v, _) => ({ s with jnl := { s.jnl with bases := s.jnl.bases ++ [(id, t, v, b)] } }).sequence r
    | some r, none => (match s.tileNow t with
        | .data _ => s.sequence r
        | _ => (s.dropRec id).refuseRec r .poisoned)
    | none, _ => s
  | .line k => s.deliverLock k keep (base.map (·.1))
  | .prefetch r id mask cls po => s.deliverPrefetch t r id mask cls po merged keep (base.map (·.1))
  | .pin tag => s.notePins.deliverOp tag (if base.isSome then .ok else .poisoned) []
  | .sweep tag => s.deliverOp tag (if base.isSome then .ok else .poisoned) []
  | .rebuild lane tag => s.deliverRebuild t lane tag base
  | .leaf _ => if base.isSome then s.cacheLeaf (t - sysBase) else s
  | .recLeaf id =>
    let s := if base.isSome then s.cacheLeaf (t - sysBase) else s
    (match s.jnl.reserved.find? (·.id == id) with
     | some r => s.sequence r
     | none => s)
  | .relearn => s

/-- A read that waited for miss registers goes on: from the tile's Terrace frame where that has come meanwhile, else to media (R216). -/
def State.retryMiss (s : State) (q : MissReq) : State :=
  let s := { s with tier := { s.tier with missq := s.tier.missq.erase q } }
  let there := !s.remote q.tile && !(s.genEntry q.tile).quar
  match (s.frame q.tile).filter fun f => there && f.state != .filling with
  | some f => (s.copyOut q.tile).deliver q.tile (some (f.bytes, f.ver, f.seal64)) false false [] q.who
  | none => s.missFor q.tile q.off q.len q.who q.cls

/-- Reads that waited for miss registers go on in arrival order, as far as registers last (R216). -/
def State.retryMisses (s : State) : State :=
  s.tier.missq.foldl (fun s q => if (linesOf q.tile q.off q.len).any (s.noRegister q.tile) then s else s.retryMiss q) s

/-- Ends a fetch: its tracker is free and every waiter hears the one outcome (R86, R214); what waited for its registers goes on. -/
def State.endFetch (s : State) (f : Fetch) (base : Option (Bytes × Ver × Word)) (raw keep : Bool) : State :=
  (f.waiters.foldl (fun s w => s.deliver f.tile base raw keep f.missLines w) (s.dropFetch f.tile)).retryMisses.pumpPlans

end Sys2Proof.Machine
end

