-- ==== Sys2Proof/Machine/Fill.lean ====
section
/-! DEFINITION. The resolution of a fetch (R78 to R92): verification, parity and trials, the repair fetch, quarantine, what is
installed and written back, and the outcomes of Terrace errors (R208, R209). -/

namespace Sys2Proof.Machine

/-- Serving, as the register and the pin show it (R548). -/
def State.setServing (s : State) (b : Bool) : State :=
  { s.fput R.SUP_START_STAT.SERVING b with pins := { s.pins with serving := b } }

/-- The journal enters a state in which TWIN_ALIVE_OUT is held low (R158). -/
def State.jnlStop (s : State) (v : Nat) : State :=
  { s.fset R.JNL_STAT.STATE v with pins := { s.pins with twinAliveOut := false } }

/-! ## Terrace errors -/

/-- A Terrace halt (R209). -/
def State.haltDevice (s : State) (stack : Nat) : State :=
  let s := (((s.jnlStop 4).fset R.TER_STAT.STATE 3).fset R.SUP_START_STAT.PHASE 8).setServing false
  let s := (s.tst.ops.map (·.1)).foldl (fun s tag => s.cut tag .internal) s
  s.postD 0x0105 stack 0

/-- Running tasks whose program image is lost fault (R208, R280). -/
def State.storeError (s : State) (p : Nat) : State :=
  let g := s.prog p
  let slot := s.fget (R.KSK_PROG0.SLOT p)
  let s := s.setProg p { g with bad := if g.bad.contains slot then g.bad else g.bad ++ [slot] }
  (s.ksk.ctx.map (·.1)).foldl (fun s c =>
    match (s.ctx c).task with
    | some t => if h : c < 4097 then
        (if c ≠ 4096 ∧ t.prog = p ∧ t.slot = slot ∧ (s.ctx c).wait = .none then s.raise ⟨c, h⟩ .program else s) else s
    | none => s) s

/-- What the Terrace reports while a fill runs (R208). -/
def State.terraceError (s : State) (e : TerErr) : State :=
  let un := s.sat R.TER_ECC_CNT.UNCORRECTABLE
  match e with
  | .none => s
  | .corrected => s.sat R.TER_ECC_CNT.CORRECTED
  | .frame t =>
    (match s.frame t with
     | some _ => un.dropFrame t
     | none => un)
  | .payload t =>
    { un with jnl := { un.jnl with
      recs := un.jnl.recs.map fun (r : Rec) =>
        if r.body.tiles.contains t ∧ !r.bad.contains t then { r with bad := r.bad ++ [t] } else r } }
  | .halt k => un.haltDevice k.val
  | .table l =>
    let ls := un.jnl.leaves.filter (· ≠ l.val)
    ({ un with jnl := { un.jnl with leaves := ls } }).fset R.JNL_GEN_STAT.LEAVES ls.length
  | .backing c => un.connError c.val .internal 0
  | .store p => un.storeError p.val

/-! ## Quarantine (R83 step 5, R89) -/

/-- Pending records of a tile that a quarantine discards. -/
def State.discardedFor (s : State) (t : Nat) : Nat :=
  if covers t (s.pendingFor t) then 0 else (s.pendingFor t).length

/-- QUAR is set, the event posted, and each LD that accepted the extent gains a media record (R83, R437). -/
def State.quarantine (s : State) (t : Nat) : State :=
  let g := s.genEntry t
  let x := s.extent (extOf t)
  let n := s.discardedFor t
  let s := (s.changeEntry t { g with quar := true }).sat R.MED_VFY_CNT1.POISONED
  let s := match s.frame t with
    | some f => (match f.state with | .filling => s.dropFrame t | _ => s)
    | none => s
  let s := (List.range 32).foldl (fun s l =>
    if x.accepted.getLsbD l then s.setLd l { s.ld l with events := (s.ld l).events ++ [.media t] } else s) s
  s.postTD x.owner 0x0102 t n

/-- A lost leaf whose tiles have all been fetched from the twin is rebuilt from their entries and written, and its waiters go on (R86). -/
def State.relearnDone (s : State) (l : Nat) : State :=
  if s.med.fetch.any fun f => leafOf f.tile == l && !isSys f.tile && f.waiters.contains .relearn then s
  else match s.fetchOf l with
    | some f =>
      if f.repairing then
        let v := s.storedVer l
        let plain := s.tableTile l
        let q := s.tileSeal l v plain
        (((s.sat R.MED_VFY_CNT1.REPAIRED).cacheLeaf (l - sysBase)).writeBack l v plain q (List.range 18)).endFetch f (some (plain, v, q)) false false
      else s
    | none => s

/-- Ends a fetch; the rebuild of a lost leaf that waited for it goes on. -/
def State.closeFetch (s : State) (f : Fetch) (base : Option (Bytes × Ver × Word)) (raw keep : Bool) : State :=
  let s := s.endFetch f base raw keep
  if f.waiters.contains .relearn then s.relearnDone (leafOf f.tile) else s

/-- Step 5 of R83: quarantine, and POISONED to every waiter. -/
def State.failFetch (s : State) (f : Fetch) : State :=
  if isSys f.tile then s.endFetch f none false false else (s.quarantine f.tile).closeFetch f none false false

/-- A tile of a lost leaf is fetched from the twin (R86). -/
def State.relearnTile (s : State) (u : Nat) : State :=
  match s.fetchOf u with
  | some g =>
    let s := s.setFetch { g with repairing := true, waiters := g.waiters ++ [.relearn] }
    if g.repairing then s else s.askRepair u false
  | none =>
    ({ s with med := { s.med with fetch := s.med.fetch ++ [({ tile := u, waiters := [.relearn], repairing := true } : Fetch)] } }).askRepair u false

/-- A leaf that cannot be recovered: the tiles it describes are fetched from the twin with their versions, and it is rebuilt from them
(R86; log entry 110). -/
def State.relearnLeaf (s : State) (f : Fetch) : State :=
  let kids := ((List.range 512).map (childOf f.tile)).filter fun u =>
    (s.extent (extOf u)).state == .assigned && !(s.genEntry u).zero
  (kids.foldl State.relearnTile (s.setFetch { f with repairing := true })).relearnDone f.tile

/-! ## What a verified tile becomes -/

/-- Requests that waited at a full miss register hit the line that its fill has brought (R216). -/
def State.hitFull (s : State) (f : Fetch) : State := s.inc R.ORG_CNT0.HITS (f.full.filter s.lineHeld).length

/-- Installs a verified tile (R102, R210, R211, R217, R234): the FILLING frame, and the lines that reads asked for. `held` says that a
resolution held it, so that a record admitted meanwhile finds its base (R88). -/
def State.installFill (s : State) (f : Fetch) (plain : Bytes) (seal64 : Word) (held : Bool) : State :=
  let t := f.tile
  let pend := s.pendingFor t ≠ []
  let s := match s.frame t with
    | some g =>
      if g.state ≠ .filling then s
      else if (f.stale ∧ !(held ∧ pend)) ∨ !(s.clsOf t).caches then s.dropFrame t
      else s.putFrame t { state := if pend then .base else .valid, ver := s.storedVer t, seal64 := seal64, bytes := plain }
    | none => s
  if f.stale ∨ pend then s
  else (f.missLines.eraseDups.foldl (fun s k => s.placeLine k (s.clsOf t) (slice plain (k % 16 * 256) 256)) s).hitFull f

/-- Only prefetches wait (R232). -/
def Fetch.prefetchOnly (f : Fetch) : Bool :=
  f.waiters.all fun w => match w with | .prefetch _ _ _ _ _ => true | _ => false

/-- The Sweeper waits on it. -/
def Fetch.sweeping (f : Fetch) : Bool := f.waiters.any fun w => match w with | .sweep _ => true | _ => false

/-- The twin waits on it, so that no repair fetch answers it (R168). -/
def Fetch.forTwin (f : Fetch) : Bool := f.waiters.any fun w => match w with | .twin _ => true | _ => false

/-- The codeword received at a position. -/
def Fetch.at (f : Fetch) (i : Nat) : Option Bytes := (f.got.find? fun g => g.1 == i).bind (·.2)

/-- A codeword of a fetch could not be decoded, or a data codeword was lost (R83 step 2, R86). -/
def Fetch.undecodable (f : Fetch) : Bool :=
  ((List.range 16).any fun i => ((f.at i).bind rsDecode).isNone) || ((List.range 18).any fun i => (f.at i).any fun w => (rsDecode w).isNone)

/-- A tile verified by steps 1 to 3 of R83: counts, corrections written back, installation, and every waiter served (R84). -/
def State.fillOk (s : State) (f : Fetch) (v : Ver) (r : Verified) (plain : Bytes) (seal64 : Word) : State :=
  let t := f.tile
  let words := s.buildStripe t v plain seal64
  let lost := f.undecodable
  let fixed := (List.range 18).filter fun i => match (f.at i).bind rsDecode with | some (_, n) => n != 0 | none => false
  let wrong := f.issued.filter fun i => s.laneReads (s.laneOf t i) t && f.at i != some (words.getD i [])
  let s := s.sat R.MED_VFY_CNT0.CORRECTED fixed.length
  let s := if lost ∨ r.mismatch then s.sat R.MED_VFY_CNT0.RECON else s
  let s := if r.mismatch then s.sat R.MED_VFY_CNT2.SEAL_MISMATCH else s
  let s := if r.stale then s.sat R.MED_VFY_CNT2.STALE else s
  let s := if f.sweeping then s.countLanes t ((List.range 18).filter fun i => (f.at i).isSome) fixed else s
  let s := (s.writeBack t v plain seal64 wrong).touchLeaf t
  let s := s.installFill f plain seal64 (r.mismatch || lost)
  let keep := !f.stale && (s.pendingFor t).isEmpty
  s.endFetch f (some (plain, v, seal64)) false keep

/-- The twin can be asked: paired or resyncing, with a group up. -/
def State.twinThere (s : State) : Bool :=
  (s.prmState == 2 || s.prmState == 5 || s.prmState == 6) && s.sendGrp.isSome

/-- The data tiles of ASSIGNED extents that a table tile covers (R68). -/
def State.dataUnder (s : State) (a : Nat) : List Nat :=
  let g := a - sysBase
  let es := List.filter (fun e => (s.extent e).state == .assigned) (s.ext.map (·.1))
  if g < lvl1 then ((List.range 512).map (childOf a)).filter fun u => es.contains (extOf u)
  else
    let mine := es.filter fun e => if g < lvl2 then e == g - lvl1 else if g < lvl3 then e / 512 == g - lvl2 else e / 262144 == g - lvl3
    (mine.map fun e => (List.range 262144).map (e * 262144 + ·)).flatten

/-- Steps 1 to 3 have failed: the repair fetch, or step 5 (R83, R86, R168). A table tile that the cache holds is written again from it; a
leaf it does not hold is rebuilt from the twin's tiles, and without the twin every tile it covers is quarantined. -/
def State.fillFail (s : State) (f : Fetch) : State :=
  let t := f.tile
  if f.prefetchOnly then (s.dropFrame t).endFetch f none false false
  else if isSys t then
    let v := s.storedVer t
    let plain := s.tableTile t
    let q := s.tileSeal t v plain
    if s.tableHeld t then
      ((s.sat R.MED_VFY_CNT1.REPAIRED).writeBack t v plain q (List.range 18)).endFetch f (some (plain, v, q)) false false
    else if s.twinThere then s.relearnLeaf f
    else
      (((s.dataUnder t).foldl State.quarantine s).cacheLeaf (t - sysBase)).endFetch f none false false
  else if s.twinThere ∧ !f.forTwin then (s.setFetch { f with repairing := true }).askRepair t false
  else s.failFetch f

/-- The version a fill verifies under: the table's, or after FORCE_SOLO a tile's own tag version, which its entry then takes (R79,
R155). -/
def State.fillVer (s : State) (t : Nat) (cws : List (Option Bytes)) : Ver × State :=
  if s.unanchored t then
    let own := match recoverData (cws.map fun c => (c.bind rsDecode).map (·.1)) with
      | some ds => if (s.checkData t (tagVer (payTag ds)) ds).isSome then some (tagVer (payTag ds)) else none
      | none => none
    let s := { s with prm := { s.prm with anchored := s.prm.anchored ++ [t] } }
    match own with
    | some w => (w, s.changeEntry t { s.genEntry t with zero := false, reloc := w.reloc, gen := w.gen })
    | none => (s.storedVer t, s)
  else (s.storedVer t, s)

/-- Judges a fetch whose codewords have arrived (R72, R78, R83, R187): it waits for its leaf; verification comes as soon as the set is
complete, or with at most two missing once hedged; positions not read yet are read before the trials, which a prefetch does not run
(R232). A tile that was quarantined with its leaf is POISONED, and one whose entry is ZERO and that has no copy of its own reads as zeros
(R67, R155). -/
def State.fillOne (s : State) (t : Nat) : State :=
  match s.fetchOf t with
  | none => s
  | some f =>
    if f.held ∨ f.repairing ∨ !s.leafHere t then s
    else if (s.genEntry t).quar ∧ !f.sweeping ∧ !isSys t then s.endFetch f none false false
    else
      let due := f.issued.filter fun i => !(f.got.any fun g => g.1 == i)
      let cws := (List.range 18).map f.at
      if due ≠ [] ∧ !f.hedged then s
      else
        let (v, s) := if due = [] then s.fillVer t cws else (s.storedVer t, s)
        let pay := cws.map fun c => (c.bind rsDecode).map (·.1)
        let lost := (s.pendingFor t).any (·.bad.contains t)
        if (s.genEntry t).zero ∧ !isSys t ∧ due = [] then s.endFetch f (some (zeroTile, v, sealMask (s.sealKey t) t v)) false false
        else match (recoverData pay).bind (s.checkData t v) with
        | some (plain, q) =>
          if lost then s.fillFail f
          else s.fillOk f v ⟨some (plain, q), 0, false, false, false, []⟩ plain q
        | none =>
          if due ≠ [] then s
          else
            let rest := (List.range 18).filter fun i => !f.issued.contains i
            if f.prefetchOnly then s.fillFail f
            else if rest ≠ [] then s.readPositions t rest
            else
              let r := s.verifyStripe t v cws
              (match r.tile with
               | some (plain, q) => if lost then s.fillFail f else s.fillOk f v r plain q
               | none =>
                 let s := if r.mismatch then s.sat R.MED_VFY_CNT2.SEAL_MISMATCH else s
                 let s := if r.stale then s.sat R.MED_VFY_CNT2.STALE else s
                 (s.sat R.MED_VFY_CNT0.CORRECTED r.corrected).fillFail f)

/-- The same, and on the fills that wait for the tile where it is a leaf (R72). -/
def State.fillStep (s : State) (t : Nat) : State :=
  let kids := ((s.fetchOf t).map Fetch.waiters).getD []
  let s := s.fillOne t
  if (s.fetchOf t).isSome then s
  else kids.foldl (fun (s : State) w => match w with | .leaf u => s.fillOne u | _ => s) s

/-! ## Repair fetches (R85, R169) -/

/-- Records at or below a copy's version whose bytes cannot be read back take the copy's bytes, which hold their effect (R85, R99; log
entry 40). -/
def State.healRecs (s : State) (t : Nat) (v : Ver) (copy : Bytes) : State :=
  let ps := s.pendingFor t
  let below := (ps.zipIdx.filter fun p => (liveAfter (s.genEntry t) (ps.take (p.2 + 1))).le v).map fun p => p.1.id
  { s with jnl := { s.jnl with
    recs := s.jnl.recs.map fun (r : Rec) =>
      if below.contains r.id ∧ r.bad.contains t then
        { r with
          bad := r.bad.filter (· ≠ t)
          body := match r.body with
            | .data segs => .data (segs.map fun g => if g.tile = t then { g with bytes := slice copy g.off g.bytes.length } else g)
            | b => b }
      else r } }

/-- A repair copy is accepted: installed under the stored version, written back where nothing is pending, and served (R84, R85, R88).
A copy taken on demand is served alone (R146, R166). -/
def State.repairAccept (s : State) (t : Nat) (copy : Bytes) (v : Ver) (onDemand : Bool) : State :=
  let s := s.dropRepair t
  match s.fetchOf t with
  | none => s
  | some f =>
    let copy := slice copy 0 4096
    if onDemand then s.closeFetch f (some (copy, v, s.tileSeal t v copy)) true false
    else
      let s := (s.healRecs t v copy).sat R.MED_VFY_CNT1.REPAIRED
      let sv := s.storedVer t
      let q := s.tileSeal t sv copy
      let s := if s.pendingFor t = [] then s.writeBack t sv copy q (List.range 18) else s
      let s := s.installFill f copy q true
      s.closeFetch f (some (copy, v, s.tileSeal t v copy)) false (!f.stale && (s.pendingFor t).isEmpty)

/-- A repair fails: step 5 of R83; on-demand reads complete with POISONED (R85, R160). -/
def State.repairFail (s : State) (t : Nat) : State :=
  match s.prm.repairs.find? (·.tile == t) with
  | none => s
  | some r =>
    let s := s.dropRepair t
    match s.fetchOf t with
    | none => s
    | some f => if r.onDemand then s.closeFetch f none true false else s.failFetch f

/-- Judges a copy that verified against the version window (R85): accepted between the stored and the live version, deferred above,
asked again below, failed when below a second time. -/
def State.judgeCopy (s : State) (r : Repair) (copy : Bytes) (v : Ver) : State :=
  let t := r.tile
  let put := fun (s : State) (st : RepairStep) =>
    { s with prm := { s.prm with repairs := s.prm.repairs.map fun (q : Repair) => if q.tile = t then { q with step := st } else q } }
  if r.onDemand then s.repairAccept t copy v true
  else if (s.liveVer t).lt v then put s (.deferred copy v)
  else if (s.storedVer t).le v then s.repairAccept t copy v false
  else match r.step with
    | .askedAgain => s.repairFail t
    | _ => put s (.again (s.fget R.JNL_JSN.JSN))

end Sys2Proof.Machine
end

