-- ==== Sys2Proof/Machine/Drain.lean ====
section
/-! DEFINITION. The committed shutdown (R120 to R126, R201, R202): admission closes, the drain image is formed, encrypted, sealed and
written with its spill, and the shutdown record ends it; and the image read back at a start (R127, R128). -/

namespace Sys2Proof.Machine

/-! ## Commitment (R120) -/

/-- Records that have not been sequenced when admission closes: their owners hear ABORTED; the twin's and the engine's are dropped. -/
def State.abortUnadmitted (s : State) : State :=
  (s.jnl.formed ++ s.jnl.waiting ++ s.jnl.reserved).foldl (fun s r =>
    let s := s.dropRec r.id
    match r.owner with
    | .ops tags => tags.foldl (fun s t => s.cut t .aborted) s
    | .read t _ => s.cut t .aborted
    | o => s.tellOwner o .aborted) s

/-- Forwarded records that no operation stands for, a management change's or an enrolment's: they have not been admitted here (R106, R120). -/
def State.abortForwards (s : State) : State :=
  let mine := s.prm.fwd
  mine.foldl (fun s p => s.tellOwner p.2.owner .aborted) { s with prm := { s.prm with fwd := [] } }

/-- A CXL request that waits for its entry or for a flush's turn is refused (R120, R435). -/
def State.abortCxl (s : State) (i : Instr) : State :=
  match i with
  | .memRd l _ tag => s.cxlAnswer l.val tag.toNat none
  | .memWr l a tag _ _ _ =>
    let s := s.writeRefused l.val (a.toNat / 64 * 64) .aborted
    if s.cxlUp (portOf l.val) then s.emit (.cxlCmp l.val tag.toNat) else s
  | .globalPersistentFlush p => if s.cxlUp p.val then s.emit (.gpfDone p.val .aborted) else s
  | _ => s

/-- CXL requests and flushes that wait when admission closes (R120). -/
def State.abortCxlAll (s : State) : State :=
  let (q, fs) := (s.cxl.rxq, s.jnl.fences)
  let s := { s with jnl := { s.jnl with fences := [] }, cxl := { s.cxl with comb := [], rxq := [] } }
  let s := q.foldl State.abortCxl s
  fs.foldl (fun s f => match f.owner with
    | .gpf p => if s.cxlUp p then s.emit (.gpfDone p .aborted) else s
    | _ => s) s

/-- Tasks end at a committed shutdown: running ones that have not committed, and queued ones, with ABORTED and no effect (R120, R292). -/
def State.abortTasks (s : State) : State :=
  let s := ((s.ksk.ctx.map (·.1)).filter (· ≠ 4096)).foldl (fun s c => s.stopTask c .aborted 0) s
  let s := s.ksk.pool.foldl (fun s t => s.dropQueued t .aborted) s
  let (ls, cs) := (s.ksk.loads, s.ksk.cancels)
  let s := { s with ksk := { s.ksk with loads := [], cancels := [] } }
  let s := ls.foldl (fun s l => (s.poolDown l.1.queue).descDone l.1 0x02 .aborted) s
  cs.foldl (fun s c => (s.poolDown c.1).descDone c.2.2 0x03 .aborted) s

/-- Work requests of the pool that have not been issued end with ABORTED. -/
def State.abortWrs (s : State) : State :=
  (s.xpt.wrs.filter fun w => w.issued.isNone).foldl (fun s w => s.wrFinish w .aborted) s

/-! ## The image (R121) -/

/-- A record as the drain writes it: what has been retired past is no longer in it. -/
def Rec.unretired (r : Rec) : Rec :=
  match r.body with
  | .data segs => { r with body := .data (segs.filter fun g => !r.doneTiles.contains g.tile) }
  | _ => r

/-- The drain stripe images: the unretired records in JSN order, cut into 4,160 bytes, the last one filled with zeros. -/
def State.drainImages (s : State) : List Bytes :=
  let b := (s.jnl.recs.map fun (r : Rec) => recImage r.unretired).flatten
  (chunks 4160 ((b.length + 4159) / 4160) b).map fun c => slice c 0 4160

/-- Tweak of a drain stripe. -/
def drainTweak (d seq : Nat) : Bytes := natBe 4 d ++ natBe 4 seq ++ List.replicate 8 0

/-- A drain stripe's ciphertext (R121). -/
def drainEnc (d seq : Nat) (img : Bytes) : Bytes := xtsEnc (deviceKey 7) (drainTweak d seq) img
/-- A drain stripe's plaintext. -/
def drainDec (d seq : Nat) (c : Bytes) : Bytes := xtsDec (deviceKey 7) (drainTweak d seq) c

/-- DRAIN_SEAL over the ciphertext of every drain stripe in stripe order (R121). -/
def drainSeal (seq : Nat) (cs : List Bytes) : Word :=
  if cs = [] then 0
  else
    let k := deviceKey 8
    let h := beNat (aesEnc k (List.replicate 16 0))
    top64 (natBe 16 (ghash h ((cs.map fun c => chunks 16 260 c).flatten)))
      ^^^ top64 (aesEnc k (natBe 4 seq ++ natBe 4 cs.length ++ List.replicate 8 0))

/-- The 18 codewords of a drain stripe. -/
def drainWords (cipher : Bytes) : List Bytes := stripeWords ((List.range 16).map fun k => slice cipher (260 * k) 260)

/-! ## Placement and spill (R201) -/

/-- A street that failed during the drain (R122). -/
def State.streetDown (s : State) (st : Nat) : Bool := s.jnl.streetFail.testBit st

/-- The lane that takes a spilled codeword of stripe `d`: IN_SERVICE, in a street that stands and holds fewer than two codewords of the
stripe, with the fewest spill slots used, the lowest number on a tie (R201). -/
def State.spillLane (s : State) (d : Nat) : Option Nat :=
  let homes := ((s.rowLanes 0 (d % 64)).filter fun l => !s.streetDown (l / 8)) ++
    (s.jnl.spill.map fun p => (p.2.filter fun q => q.1 == d).map fun _ => p.1).flatten
  let used := fun l => (AMap.get [] s.jnl.spill l).length
  let ok := (List.range 128).filter fun l => s.laneState l == 2 && !s.streetDown (l / 8) && decide ((homes.filter (· / 8 == l / 8)).length < 2)
  ok.foldl (fun (m : Option Nat) l => match m with | some k => if used l < used k then some l else some k | none => some l) none

/-- A codeword of a spill list: up to 31 entries with a CRC-64 after them (R201); ones stand where no entry is (log entry 130). -/
def spillList (es : List (Nat × Nat)) : Bytes :=
  let b := (es.map fun e => natLe 8 (e.1 + e.2 * 2 ^ 32)).flatten
  let b := b ++ List.replicate (248 - b.length) 0xFF
  rsEncode (slice (b ++ natLe 8 (crc64 0 b).toNat) 0 260)

/-- First slot of a lane's spill data and of its spill lists (R173, R201). -/
def spillBase : Nat := 0x484100000
def listBase : Nat := 0x4841349D0

/-- Writes a spilled codeword and the list codeword that names it. -/
def State.spillWord (s : State) (d i : Nat) (w : Bytes) : State :=
  match s.spillLane d with
  | none => s
  | some l =>
    let es := AMap.get [] s.jnl.spill l
    let k := es.length
    let es := es ++ [(d, i)]
    let s := { s with jnl := { s.jnl with spill := AMap.put s.jnl.spill l es } }
    let s := s.issueCmd l { opcode := 2, slot := spillBase + k, count := 1, owner := .drain d i, cws := [w] }
    s.issueCmd l { opcode := 2, slot := listBase + k / 31, count := 1, owner := .drain d 18, cws := [spillList ((es.drop (k / 31 * 31)).take 31)] }

/-- Slot of a drain stripe's codeword on its lane (R201). -/
def State.drainSlot (s : State) (d l : Nat) : Nat := 0x484000000 + d / 64 * 9 + s.rank 0 (d % 64) l

/-- Writes the codewords of a drain stripe; those of a failed street spill, and a lane that takes no writes loses its own (R121, R122). -/
def State.writeDrain (s : State) (d : Nat) (cipher : Bytes) : State :=
  (drainWords cipher).zipIdx.foldl (fun s p =>
    let l := s.mapLane 0 (d % 64) p.2
    if s.streetDown (l / 8) then s.spillWord d p.2 p.1
    else if s.laneWrites l then
      s.issueCmd l { opcode := 2, slot := s.drainSlot d l, count := 1, owner := .drain d p.2, cws := [p.1] }
    else s) s

/-- The drain's commands that are still out or waiting. -/
def State.drainCmds (s : State) : List (Nat × Cmd) :=
  ((s.med.cmds.map fun (p : Nat × Cmd) => (p.1 / 128, p.2)) ++ s.med.waitq).filter fun (p : Nat × Cmd) => match p.2.owner with | .drain _ _ => true | _ => false

/-- A street's rail fails during the drain: codewords bound for it that have not been acknowledged spill, and STREET_FAIL of the shutdown record
names it; a street whose rail failed before the drain it does not name (R122, R126; log entry 131). -/
def State.spillStreet (s : State) (st : Nat) : State :=
  if s.jnlState = 3 then
    let mine := s.drainCmds.filter fun p => p.1 / 8 = st
    let s := { s with jnl := { s.jnl with streetFail := s.jnl.streetFail ||| 2 ^ st } }
    mine.foldl (fun s p => match p.2.owner with
      | .drain d i => if i < 18 then s.spillWord d i (p.2.cws.headD []) else s
      | _ => s) s
  else s

/-! ## Start of the drain -/

/-- Once no retirement writes, the image is formed and its stripes go out (R121; log entry 43). -/
def State.tryDrain (s : State) : State :=
  if s.jnlState = 3 ∧ s.jnl.drain.isNone ∧ s.jnl.retiring = [] then
    let seq := s.jnl.shutSeq + 1
    let cs := s.drainImages.zipIdx.map fun p => drainEnc p.2 seq p.1
    let high := s.fget R.JNL_JSN.JSN
    let sh : Shut :=
      { jsnLow := match s.jnl.recs.head? with | some r => r.jsn | none => high + 1
        jsnHigh := high, mirrorJsn := s.jnl.commitMirror, stripes := cs.length, seq := seq, drainSeal := drainSeal seq cs }
    let s := { s with jnl := { s.jnl with drain := some sh } }
    cs.zipIdx.foldl (fun s p => s.writeDrain p.2 p.1) s
  else s

/-- Commits a shutdown (R120): SERVING falls, admission closes, what has not been admitted ends with ABORTED, and the drain begins. A
journal that does not run has nothing to drain (R533, R541). -/
def State.commitShutdown (s : State) : State :=
  let s := s.setServing false
  if s.jnlState ≠ 2 then s
  else
    let s := { s.fset R.JNL_STAT.STATE 3 with jnl := { s.jnl with closed := true, commitMirror := s.fget R.JNL_MIRROR_JSN.JSN } }
    let s := s.abortUnadmitted.abortTasks.abortWrs
    let s := s.cutAll (fun o => match o.kind with | .maint _ => false | _ => true) .aborted
    let s := (s.dropRetires fun r => r.reading).abortForwards.abortCxlAll
    ({ s with prm := { s.prm with rxRecs := [] } }).tryDrain

/-! ## The shutdown record (R126, R202) -/

/-- The 64 bytes of a shutdown record. -/
def shutBytes (x : Shut) : Bytes :=
  let d := natLe 4 0x5D0E7A11 ++ natLe 4 x.flags ++ natLe 8 x.jsnLow ++ natLe 8 x.jsnHigh ++ natLe 8 x.mirrorJsn ++ natLe 4 x.stripes
    ++ natLe 2 x.streetFail ++ natLe 6 0 ++ natLe 4 x.seq ++ natLe 8 x.drainSeal.toNat
  d ++ natLe 8 (deviceMac 2 d).toNat

/-- Reads a shutdown record that verifies. -/
def shutOf (b : Bytes) : Option Shut :=
  if b.length = 64 ∧ fieldAt b 0 4 = 0x5D0E7A11 ∧ fieldAt b 56 8 = (deviceMac 2 (slice b 0 56)).toNat then
    some { flags := fieldAt b 4 4, jsnLow := fieldAt b 8 8, jsnHigh := fieldAt b 16 8, mirrorJsn := fieldAt b 24 8, stripes := fieldAt b 32 4
           streetFail := fieldAt b 36 2, seq := fieldAt b 44 4, drainSeal := BitVec.ofNat 64 (fieldAt b 48 8) }
  else none

/-- The lowest IN_SERVICE lane of a street that has not failed. -/
def State.shutLane (s : State) (st : Nat) : Option Nat :=
  if s.streetDown st then none else ((List.range 8).map (8 * st + ·)).find? fun l => s.laneState l == 2

/-- The lanes of the four copies: streets 0, 5, 10 and 15, and for one without a lane the next street that has one and holds no copy
(R202). -/
def State.shutLanes (s : State) : List Nat :=
  let streets := [0, 5, 10, 15].foldl (fun (got : List Nat) st =>
    let want := (List.range 16).map fun i => (st + i) % 16
    match want.find? fun t => (s.shutLane t).isSome && !got.contains t && (t == st || !([0, 5, 10, 15].contains t && (s.shutLane t).isSome)) with
    | some t => got ++ [t]
    | none => got) []
  streets.filterMap s.shutLane

/-- Writes a shutdown record. -/
def State.writeShut (s : State) (x : Shut) : State :=
  let s := { s with jnl := { s.jnl with shutSeq := x.seq } }
  s.shutLanes.foldl (fun s l =>
    s.issueCmd l { opcode := 2, slot := 0x484200000 + x.seq % 16, count := 1, owner := .system, cws := [rsEncode (slice (shutBytes x) 0 260)] }) s

/-- The root record, the pair-state record and those that wait go to flash, unless its rail has failed (R76, R123, R161, R534). -/
def State.drainFlash (s : State) : State :=
  if s.fls.fenced then s
  else
    let s := match s.jnl.root with
      | some (q, a, b) => if s.jnl.rootDue then s.logAppend (.root q a b) else s
      | none => s
    let s := s.fls.recq.foldl (fun s r => s.logAppend r) s
    let s := s.logAppend (.pair s.pairRecState (s.fget R.PRM_STAT.TERM) s.prm.seqHigh)
    { s with fls := { s.fls with recq := [] }, jnl := { s.jnl with rootDue := false, rootNs := s.timeNs } }

/-- Ends a drain: root record, shutdown record with COMPLETE or without, and the journal is OFF (R123, R126). -/
def State.finishDrain (s : State) (complete : Bool) : State :=
  let s := s.drainFlash
  let x : Shut := s.jnl.drain.getD { seq := s.jnl.shutSeq + 1, jsnHigh := s.fget R.JNL_JSN.JSN, mirrorJsn := s.jnl.commitMirror }
  let flags := complete.toNat + 2 * (if s.jnl.spill = [] then 0 else 1) + 4 * (!s.fls.fenced).toNat
  let s := s.writeShut { x with flags := flags, streetFail := s.jnl.streetFail }
  let s := s.dropRetires fun _ => true
  { s.jnlStop 0 with jnl := { s.jnl with drain := none }, pwr := { s.pwr with endFlags := flags } }

/-! ## The image at a start (R127, R128) -/

/-- What a lane's slot returned. -/
def wordAt (img : RecoveryImage) (l slot : Nat) : Option Bytes := (img.words.find? fun w => w.1 == l && w.2.1 == slot).map (·.2.2)

/-- The codewords of the shutdown areas of lanes that identified (R202). -/
def State.shutWords (s : State) (img : RecoveryImage) : List Bytes :=
  (img.words.filter fun w => (s.link w.1).ident.isSome && decide (0x484200000 ≤ w.2.1 ∧ w.2.1 < 0x484200010)).map (·.2.2)

/-- Entries of a spill list whose checks hold: the place they list, and the spill slot they stand for (R201). -/
def listEntries (k : Nat) (w : Bytes) : List ((Nat × Nat) × Nat) :=
  match rsDecode w with
  | some (b, _) =>
    if fieldAt b 248 8 = (crc64 0 (slice b 0 248)).toNat then
      ((List.range 31).map fun j => (j, fieldAt b (8 * j) 8)).filterMap fun e =>
        if e.2 = 0xFFFFFFFFFFFFFFFF then none else some ((e.2 % 2 ^ 32, e.2 / 2 ^ 32 % 32), spillBase + 31 * k + e.1)
    else []
  | none => []

/-- The spill lists of every healthy lane: a stripe's position, its lane and its spill slot (R202). -/
def State.spills (s : State) (img : RecoveryImage) : List ((Nat × Nat) × Nat × Nat) :=
  (img.words.map fun w =>
    if s.laneState w.1 = 2 ∧ listBase ≤ w.2.1 ∧ w.2.1 < listBase + 6952 then (listEntries (w.2.1 - listBase) w.2.2).map fun e => (e.1, w.1, e.2)
    else []).flatten

/-- The codeword of a drain stripe: from its spill slot where a list names it, else from its own place (R202). -/
def State.drainWord (s : State) (img : RecoveryImage) (sp : List ((Nat × Nat) × Nat × Nat)) (d i : Nat) : Option Bytes :=
  match sp.find? fun e => e.1 == (d, i) with
  | some (_, l, k) => wordAt img l k
  | none => let l := s.mapLane 0 (d % 64) i; wordAt img l (s.drainSlot d l)

/-- A drain stripe read back, decoded, and rebuilt from P and Q where at most two codewords are lost (R127 step 1, R128). -/
def State.drainStripe (s : State) (img : RecoveryImage) (sp : List ((Nat × Nat) × Nat × Nat)) (d : Nat) : Option Bytes :=
  (recoverData ((List.range 18).map fun i => ((s.drainWord img sp d i).bind rsDecode).map (·.1))).map List.flatten

/-- The drain stripes of a shutdown record, or none where one cannot be had. -/
def State.drainStripes (s : State) (img : RecoveryImage) (x : Shut) : Option (List Bytes) :=
  let sp := if x.flags.testBit 1 then s.spills img else []
  ((List.range x.stripes).foldr (fun d m => match s.drainStripe img sp d, m with | some b, some l => some (b :: l) | _, _ => none) (some []))

/-- Record images one after another, with less than a stripe of zeros after the last. None where a record fails its checks, or other bytes follow. -/
def parseRecs : Nat → Nat → Bytes → Option (List Rec)
  | 0, _, _ => none
  | fuel + 1, id, b =>
    if fieldAt b 0 2 ≠ 0x6A4E then (if b.length < 4160 ∧ b.all (· == 0) then some [] else none)
    else
      let n := 64 + 16 * fieldAt b 28 2 + fieldAt b 32 4
      match recOfImage (slice b 0 n) id .engine with
      | none => none
      | some r => (parseRecs fuel (id + 1) (b.drop n)).map fun rs => { r with twin := fieldAt b 3 1 / 4 % 2 == 1 } :: rs

/-- The copy of highest SHUT_SEQ whose MAC verifies (R127). -/
def bestShut (copies : List Bytes) : Option Shut :=
  (copies.filterMap shutOf).foldl (fun (m : Option Shut) x => match m with
    | some y => if y.seq < x.seq then some x else some y
    | none => some x) none

/-- The records of a drain image, or none in a case of R128. The first of them has JSN_LOW, and their JSNs rise up to JSN_HIGH. -/
def drainRecs (x : Shut) (cs : List Bytes) : Option (List Rec) :=
  if x.flags % 2 = 0 ∨ cs.length ≠ x.stripes ∨ drainSeal x.seq cs ≠ x.drainSeal then none
  else
    let b := (cs.zipIdx.map fun p => drainDec p.2 x.seq p.1).flatten
    match parseRecs (b.length / 64 + 1) 0 b with
    | none => none
    | some rs =>
      let js := rs.map Rec.jsn
      if (js.headD x.jsnLow == x.jsnLow) && js.all (fun j => decide (j ≤ x.jsnHigh)) && (js.zip (js.drop 1)).all (fun p => decide (p.1 < p.2)) then some rs
      else none

/-! ## The module table (R185) -/

/-- The image of the module table, in four slots of 300 bytes: MAC at byte 1,040, after eight bytes that no field takes (log entry 54). -/
def State.moduleTable (s : State) : Bytes :=
  let d := natLe 8 s.med.mtSeq ++ ((List.range 128).map fun l => natLe 8 (s.fget (R.MED_MODULE_ID.SERIAL l))).flatten ++ natLe 8 0
  slice (d ++ natLe 8 (deviceMac 6 (0x4D :: d)).toNat) 0 1200

/-- A change of the table: MT_SEQ rises, from 0 where no copy was read (log entry 137), and every IN_SERVICE lane gets the new copy. -/
def State.writeModuleTable (s : State) : State :=
  let s := { s with med := { s.med with mtSeq := s.med.mtSeq + 1 } }
  let img := chunks 300 4 s.moduleTable
  ((List.range 128).filter fun l => s.laneState l == 2).foldl (fun s l =>
    s.issueCmd l { opcode := 2, slot := 0x484200010 + 4 * (s.med.mtSeq % 4), count := 4, owner := .system, cws := img }) s

/-- Enters every identified serial in the table. -/
def State.enterSerials (s : State) : State :=
  ((List.range 128).foldl (fun s l => match (s.link l).ident with
    | some i => s.fset (R.MED_MODULE_ID.SERIAL l) i.serial.toNat
    | none => s) s).writeModuleTable

end Sys2Proof.Machine
end

