-- ==== Sys2Proof/Machine/Tasks.lean ====
section
/-! DEFINITION. Tasks on the Kiosks (R284 to R322): dispatch, LOAD and CANCEL descriptors, programs, Kiosk and queue fences, and
management tasks on the Belvedere. -/

namespace Sys2Proof.Machine

/-! ## Starting a task (R298, R299) -/

/-- A budget of a descriptor, or the queue's default where it holds 0 (R301). -/
def budget (asked dflt : Nat) : Nat := if asked = 0 then dflt else asked

/-- The context at a task's start (R242). -/
def State.startCtx (s : State) (t : Task) (tag base : Nat) : CtxSt :=
  let q := t.queue
  let time := budget t.timeUs (s.fget (R.KSK_QCFG1.TIME_DEF_US q))
  { task := some { t with slot := s.fget (R.KSK_PROG0.SLOT t.prog) }
    tag := tag
    a := t.args.zipIdx.foldl (fun (m : AMap Word) p => AMap.set 0 m (p.2 + 1) p.1) []
    lsBase := base
    lsSize := lsBytes (s.fget (R.KSK_QCFG0.LS_SIZE q))
    insnLeft := budget t.insn (s.fget (R.KSK_QCFG1.INSN_DEF q))
    tilesLeft := budget t.tiles (s.fget (R.KSK_QCFG1.TILES_DEF q))
    endNs := s.timeNs + time * 1000 }

/-- A task leaves the pool for a context, or completes with ACCESS where its program is not ACTIVE or UPDATING or not its tenant's
(R299). It holds Turnstile entry `tag`. -/
def State.startTask (s : State) (t : Task) (tag c base : Nat) : State :=
  let s := ({ s with ksk := { s.ksk with pool := s.ksk.pool.filter fun u => u.num ≠ t.num } }).poolDown t.queue
  let st := s.fget (R.KSK_PROG0.STATE t.prog)
  if (st = 2 ∨ st = 3) ∧ s.fget (R.KSK_PROG0.OWNER t.prog) = t.tenant.toNat then
    let s := s.setCtx c (s.startCtx t tag base)
    ((s.inc (R.KSK_PROG1.RUN_CUR t.prog)).inc (R.KSK_QSTAT.RUNNING t.queue)).ctxBusy c true
  else (s.taskDone t (some tag) .access 0 0 Cause.access.code).settleEntry tag

/-- TASK_START (R298): the dispatcher of a Square starts the task whose turn it is; without a startable task or a free entry of the
task quota nothing starts. -/
def execTaskStart (sq : Fin 16) (s : State) : Host.Outcome State Fault Refusal :=
  .next (match s.pickQueue sq.val with
    | none => s
    | some (q, turn) =>
      match s.startable sq.val q with
      | none => s
      | some (t, c, base) =>
        match s.takeEntry .tasks { kind := .task t 0 } with
        | none => s
        | some (tag, s) =>
          ({ s with ksk := { s.ksk with rr := AMap.set (0, 0) s.ksk.rr sq.val (q, turn) } }).startTask t tag c base)

/-! ## LOAD (R309, R310) -/

/-- STATE while a LOAD runs: UPDATING over a current image, LOADING without one (R309). -/
def loadState (back : Nat) : Nat := if back = 2 then 3 else 1

/-- A LOAD begins: its image goes to the other slot, once no task runs the image there (R310). -/
def State.beginLoad (s : State) (p : Nat) (t : Task) (tag dpa len : Nat) (crc : Word) (reload : Bool := false) : State :=
  let back := s.fget (R.KSK_PROG0.STATE p)
  let job : LoadJob := { task := t, tag := tag, dpa := dpa, len := len, crc := crc, back := back, reload := reload
                         waiting := s.fget (R.KSK_PROG1.RUN_OLD p) != 0 }
  ((s.setProg p { s.prog p with job := some job }).fset (R.KSK_PROG0.STATE p) (loadState back)).loadPump p

/-- LOAD_DESCRIPTOR (R309): the oldest LOAD of a program starts with an entry of the task quota; a queue whose tenant does not own the
program gets ACCESS (R308). A second LOAD waits for the first. -/
def execLoadDescriptor (p : Fin 1024) (s : State) : Host.Outcome State Fault Refusal :=
  .next (match s.ksk.loads.find? fun l => l.1.prog == p.val, (s.prog p.val).job with
    | some (t, dpa, len, crc), none =>
      let rest := s.ksk.loads.erase (t, dpa, len, crc)
      if s.fget (R.KSK_PROG0.OWNER p.val) ≠ t.tenant.toNat then
        ((({ s with ksk := { s.ksk with loads := rest } }).poolDown t.queue).descDone t 0x02 .access).queueSettle t.queue
      else match s.takeEntry .tasks { kind := .load p.val } with
        | none => s
        | some (tag, s) =>
          ((({ s with ksk := { s.ksk with loads := rest } }).poolDown t.queue).queueSettle t.queue).beginLoad p.val t tag dpa len crc
    | _, _ => s)

/-- The other slot becomes current in one step (R309); tasks that run keep the old image (R310). -/
def State.flipProg (s : State) (p : Nat) (j : LoadJob) : State :=
  let g := s.prog p
  let cur := s.fget (R.KSK_PROG0.SLOT p)
  let other := 1 - cur
  let g := { g with
    img0 := if other = 0 then j.got else g.img0
    img1 := if other = 1 then j.got else g.img1
    bad := g.bad.filter (· ≠ other)
    dpa := j.dpa
    len := j.len
    crc := j.crc }
  let s := ((s.setProg p g).fset (R.KSK_PROG0.SLOT p) other).fset (R.KSK_PROG0.STATE p) 2
  let s := (s.fset (R.KSK_PROG1.RUN_OLD p) (s.fget (R.KSK_PROG1.RUN_CUR p))).fset (R.KSK_PROG1.RUN_CUR p) 0
  s.fset (R.KSK_PROG1.LEN_WORDS p) (j.len / 4)

/-- LOAD_COMPLETE (R309): the read has failed, or the image is there and its CRC decides. -/
def execLoadComplete (p : Fin 1024) (s : State) : Host.Outcome State Fault Refusal :=
  .next (match (s.prog p.val).job with
    | none => s
    | some j =>
      match j.status with
      | some st => s.loadEnd p.val st
      | none =>
        if j.got.length < j.len then s
        else if crc64 0 j.got = j.crc then (s.flipProg p.val j).loadEnd p.val .ok
        else s.loadEnd p.val .malformed)

/-- LOAD_OLD_IMAGE_FREED (R310): a LOAD that waited for tasks on the old image reads on once they have ended. -/
def execLoadOldImageFreed (p : Fin 1024) (s : State) : Host.Outcome State Fault Refusal :=
  .next (match (s.prog p.val).job with
    | some j =>
      if j.waiting ∧ s.fget (R.KSK_PROG1.RUN_OLD p.val) = 0 then
        (s.setProg p.val { s.prog p.val with job := some { j with waiting := false } }).loadPump p.val
      else s
    | none => s)

/-! ## CANCEL (R303, R304) -/

/-- Ends the task of a queue that a CANCEL names, if it is queued or runs; a task whose commit has been sequenced holds no context and
is not found (R304). -/
def State.cancelTask (s : State) (q num : Nat) : Status × State :=
  match s.ksk.pool.find? fun t => t.num == num && t.queue == q with
  | some t => (.ok, s.dropQueued t .aborted)
  | none =>
    match (s.ctxOfTask num).filter fun c => (s.ctx c).task.any fun t => t.queue == q with
    | some c => (.ok, s.stopTask c .aborted 0)
    | none => (.access, s)

/-- CANCEL_DESCRIPTOR (R303): the oldest CANCEL of a queue takes effect and completes. -/
def execCancelDescriptor (q : Fin 1024) (s : State) : Host.Outcome State Fault Refusal :=
  .next (match s.ksk.cancels.find? fun c => c.1 == q.val with
    | none => s
    | some (k, num, t) =>
      let s := { s with ksk := { s.ksk with cancels := s.ksk.cancels.erase (k, num, t) } }
      let (st, s) := s.cancelTask q.val num
      ((s.poolDown q.val).descDone t 0x03 st).queueSettle q.val)

/-! ## Programs, Kiosks, queues -/

/-- CLEAR (R313): an ACTIVE or MISSING program becomes EMPTY; in any other STATE the action does not fit (R322). -/
def State.clearProgram (s : State) (p : Nat) : State :=
  let st := s.fget (R.KSK_PROG0.STATE p)
  if st = 2 ∨ st = 4 then
    ((s.fset (R.KSK_PROG0.STATE p) 0).fset (R.KSK_PROG1.LEN_WORDS p) 0).setProg p { s.prog p with dpa := 0, len := 0, crc := 0 }
  else s.fput R.KSK_STAT.CMD_REFUSED true

/-- PROGRAM_CLEAR (R313). -/
def execProgramClear (p : Fin 1024) (s : State) : Host.Outcome State Fault Refusal := .next (s.clearProgram p.val)

/-- Kiosks of a Square that are IN_SERVICE. -/
def State.kiosksUp (s : State) (sq : Nat) : Nat :=
  ((List.range 32).filter fun i => s.fget (R.KSK_KIOSK_STAT.STATE (32 * sq + i)) == 0).length

/-- FENCE of a Kiosk (R319): no task starts on it; it is QUIESCED once its contexts are free. With it the last of a Square goes
(R320). -/
def State.fenceKiosk (s : State) (k : Fin 512) : State :=
  if s.fget (R.KSK_KIOSK_STAT.STATE k.val) = 0 then
    let s := (s.fset (R.KSK_KIOSK_STAT.STATE k.val) 1).startDrain (.kiosk k)
    let sq := k.val / 32
    let s := s.fset (R.KSK_SQUARE_STAT.KIOSKS_UP sq) (s.kiosksUp sq)
    let s := if s.kiosksUp sq = 0 then s.postD 0x0502 sq 0 else s
    s.kioskSettle k.val
  else s.fput R.KSK_STAT.CMD_REFUSED true

/-- RESTORE of a Kiosk (R319). Its local store holds nothing: a free context has none. -/
def State.restoreKiosk (s : State) (k : Fin 512) : State :=
  if s.fget (R.KSK_KIOSK_STAT.STATE k.val) = 2 then
    let s := s.fset (R.KSK_KIOSK_STAT.STATE k.val) 0
    s.fset (R.KSK_SQUARE_STAT.KIOSKS_UP (k.val / 32)) (s.kiosksUp (k.val / 32))
  else s.fput R.KSK_STAT.CMD_REFUSED true

/-- KIOSK_FENCE (R319). -/
def execKioskFence (k : Fin 512) (s : State) : Host.Outcome State Fault Refusal := .next (s.fenceKiosk k)

/-- KIOSK_RESTORE (R319). -/
def execKioskRestore (k : Fin 512) (s : State) : Host.Outcome State Fault Refusal := .next (s.restoreKiosk k)

/-- ENABLE = 0 (R321): acceptance stops, queued tasks and children and LOADs that have not started complete with DISABLED, running
tasks end within the drain bound. -/
def State.disableQueue (s : State) (q : Fin 1024) : State :=
  let s := s.fput (R.KSK_QCFG0.ENABLE q.val) false
  if s.fget (R.KSK_QSTAT.STATE q.val) = 1 then
    let s := (s.fset (R.KSK_QSTAT.STATE q.val) 2).startDrain (.queue q)
    let s := (s.ksk.pool.filter fun t => t.queue == q.val).foldl (fun s t => s.dropQueued t .disabled) s
    let mine := s.ksk.loads.filter fun l => l.1.queue == q.val
    let s := { s with ksk := { s.ksk with loads := s.ksk.loads.filter fun l => l.1.queue != q.val } }
    (mine.foldl (fun s l => (s.poolDown q.val).descDone l.1 0x02 .disabled) s).queueSettle q.val
  else s

/-- ENABLE = 1: the queue accepts again and task numbers start at 1 (R293). -/
def State.enableQueue (s : State) (q : Nat) : State :=
  let s := s.fput (R.KSK_QCFG0.ENABLE q) true
  let st := s.fget (R.KSK_QSTAT.STATE q)
  if st = 0 ∨ st = 3 then
    { s.fset (R.KSK_QSTAT.STATE q) 1 with ksk := { s.ksk with seq := AMap.set 1 s.ksk.seq q 1 } }
  else s

/-- QUEUE_DISABLE (R321). -/
def execQueueDisable (q : Fin 1024) (s : State) : Host.Outcome State Fault Refusal := .next (s.disableQueue q)

/-! ## The Belvedere's management tasks (R314, R315) -/

/-- MGMT_TASK_START (R314): in arrival order, one program at a time, while the Belvedere runs; a program that the library does not hold,
or a SETUP program, completes with ACCESS (R315, R580). -/
def execMgmtTaskStart (s : State) : Host.Outcome State Fault Refusal :=
  .next (if s.fget R.SUP_BOOT_STAT.STATE ≠ 2 ∨ (s.ctx 4096).task.isSome ∨ s.ksk.mgmtWait.isSome then s
    else match s.ksk.mgmt with
      | [] => s
      | (t, src) :: rest =>
        let s := { s with ksk := { s.ksk with mgmt := rest } }
        if 256 ≤ t.prog ∨ (s.progFlags t.prog).any (fun f => f.testBit 1) then s.mgmtDone t src .access
        else
          let a := t.args.zipIdx.foldl (fun (m : AMap Word) p => AMap.set 0 m (p.2 + 1) p.1) []
          ({ s with ksk := { s.ksk with mgmtSrc := some src, stores := [] } }).setCtx 4096 { task := some t, a := a })

end Sys2Proof.Machine
end

