-- ==== Sys2Proof/Machine/Journal.lean ====
section
/-! DEFINITION. The journal's commands (R93 to R132): submission and the sequencer, lag, releases, fences, retirement, persistence, the
root, the drain, and recovery at a start; and the commands of fetches and repairs (R78 to R92, R187, R211). -/

namespace Sys2Proof.Machine

/-! ## Submission and the sequencer -/

/-- The journal takes in what comes from this device's interfaces. -/
def State.jnlOpen (s : State) : Bool := s.jnlState == 2 && !s.jnl.closed

/-- A record whose home is the twin: a task's ends with CONFLICT (R254), any other is forwarded (R106, R147). The forward reference that
FWD_RESP names stands in the PAIR_SEQ field of the fragment header (log entry 27). -/
def State.routeAway (s : State) (r : Rec) : State :=
  let s := s.dropRec r.id
  let task := match r.owner with
    | .atomic _ _ => true
    | .ops tags => tags.any fun t => (AMap.find? s.tst.ops t).any fun (o : Op) => match o.kind with | .task _ _ => true | _ => false
    | _ => false
  if task then s.refuseRec r .conflict
  else
    let ref := s.prm.nextRef
    let s := { s with prm := { s.prm with nextRef := ref + 1, fwd := s.prm.fwd ++ [(ref, r)] } }
    let s := match r.owner with
      | .ops tags => tags.foldl (fun (s : State) t => match AMap.find? s.tst.ops t with | some o => s.setOp t { o with fwd := true } | none => s) s
      | _ => s
    s.sendImage 0x03 ref (recImage r)

/-- Whether a record is to be admitted first at the twin (R104, R106). -/
def State.awayFrom (s : State) (r : Rec) : Bool :=
  let fwd := match r.owner with | .forward _ _ | .engine => true | _ => false
  !r.twin && !fwd && !s.homeOf r.body && s.prmState != 4

/-- RECORD_SUBMIT (R100 steps 1 and 2): early checks, then space and index entries; after commitment ABORTED (R120). A check that needs a
leaf is left to step 4 (R73). -/
def State.submitRec (s : State) (r : Rec) : State :=
  if s.jnl.closed then (s.dropRec r.id).refuseRec r .aborted
  else if s.jnlState ≠ 2 then s
  else if s.awayFrom r then s.routeAway r
  else match s.recCheck r with
    | some st =>
      if (s.leafNeeded r).isSome then (s.dropRec r.id).reserveRec r
      else if r.twin then s.sequence r else (s.dropRec r.id).refuseRec r st
    | none => (s.dropRec r.id).reserveRec r

/-- The record body of a management program's change (R27, R31, R66). -/
def changeBody : ExtChange → Body
  | .assign e o f c m => .attr (.assign e.val o f (placeOf c.val) m.toNat)
  | .setMode e f => .attr (.mode e.val f)
  | .setClass e c => .attr (.cls e.val (placeOf c.val))
  | .release e => .attr (.release e.val)
  | .relocate t => .reloc t.toNat

/-- The management program that runs on the Belvedere ends with a change of an extent; it completes with the record's outcome (R649; log
entry 68). With none running nothing is submitted. -/
def State.submitChange (s : State) (c : ExtChange) : State :=
  match (s.ctx 4096).task, s.ksk.mgmtSrc with
  | some t, some src =>
    let s := (s.endPlan (.ctx ⟨4096, by decide⟩)).setCtx 4096 {}
    let s := { s with ksk := { s.ksk with stores := [], mgmtSrc := none, mgmtWait := some (t, src) } }
    let r : Rec := { id := 0, body := changeBody c, mirror := true, tenant := 0, origin := 4, owner := .mgmt t.num }
    let (id, s) := s.formRec r
    s.submitRec { r with id := id }
  | _, _ => s

/-- RECORD_SUBMIT (R100). -/
def execRecordSubmit (w : Submitted) (s : State) : Host.Outcome State Fault Refusal :=
  .next (match w with
    | .formed id => (match s.jnl.formed.find? (·.id == id) with
      | some r => s.submitRec r
      | none => s)
    | .change c => s.submitChange c)

/-- RECORD_SPACE_GRANTED (R94, R96): a record that waited gets its granules and index entries. -/
def execRecordSpaceGranted (id : Nat) (s : State) : Host.Outcome State Fault Refusal :=
  .next (match s.jnl.waiting.find? (·.id == id) with
    | some r => if s.recRoom r then (s.dropRec id).reserveRec r else s
    | none => s)

/-- RECORD_SEQUENCER_STEP (R100 step 4). The twin's records go strictly in PAIR_SEQ order (R105); mirror lag holds those of this device's
interfaces (R109). -/
def execRecordSequencerStep (id : Nat) (s : State) : Host.Outcome State Fault Refusal :=
  .next (match s.jnl.reserved.find? (·.id == id) with
    | some r =>
      if s.jnlState ≠ 2 ∨ s.jnl.closed ∨ s.lagHolds r then s
      else if r.twin ∧ (s.jnl.formed ++ s.jnl.waiting ++ s.jnl.reserved).any fun q => q.twin && q.pairSeq < r.pairSeq then s
      else if s.awayFrom r then s.routeAway r
      else s.sequence r
    | none => s)

/-- LAG_AGE_BOUND (R148): the oldest unacknowledged record has reached LAG_US (log entry 5). -/
def execLagAgeBound (s : State) : Host.Outcome State Fault Refusal :=
  .next (if s.jnl.unacked ≠ [] ∧ s.mirrors then s.noteLag.lagPause true else s)

/-! ## The end of a release (R31) -/

/-- A record of an operation that is still held touches extent `e`. -/
def State.recHolds (s : State) (e : Nat) (r : Rec) : Bool :=
  r.body.exts.contains e && match r.owner with
    | .ops tags => tags.any fun t => (AMap.find? s.tst.ops t).any fun o => !o.lingering
    | .atomic _ _ => true
    | _ => false

/-- A byte range reaches into extent `e`. -/
def inExtent (e a n : Nat) : Bool := extOf (a / 4096) ≤ e && e ≤ extOf ((a + n - 1) / 4096)

/-- An operation on extent `e` that has been admitted has not resolved (R31): an access or a repair read of the twin's, a work request that reads
or writes there, a record of its own on its way, sequenced or waiting for the twin, a fetch. -/
def State.extentBusy (s : State) (e : Nat) : Bool :=
  (s.tst.ops.any fun p => !p.2.lingering && match p.2.kind with
    | .cxlRd _ _ a | .cxlWr _ _ a => extOf (a / 4096) == e
    | .netRead _ _ a n _ => inExtent e a n
    | .prm t => !isSys t && extOf t == e
    | _ => false)
  || (s.xpt.wrs.any fun w => w.issued.isSome && w.opcode != 6 && w.len != 0 && inExtent e w.localAddr w.len)
  || (s.jnl.unacked.any fun u => u.exts.contains e && (u.hold || (u.wait && !u.owner.tags.isEmpty)))
  || (s.jnl.formed ++ s.jnl.waiting ++ s.jnl.reserved ++ s.jnl.recs).any (s.recHolds e)
  || (s.tier.missq.any fun q => !isSys q.tile && extOf q.tile == e)
  || s.med.fetch.any fun f => !isSys f.tile && extOf f.tile == e && f.waiters.any fun w => match w with
      | .ctx _ _ _ | .loadImg _ _ _ | .wr _ _ _ | .net _ _ | .cxl _ _ | .twin _ => true
      | _ => false

/-- The record that frees an extent waits for room. -/
def State.freeing (s : State) (e : Nat) : Bool := (s.jnl.waiting ++ s.jnl.reserved).any fun r => r.body == .attr (.freed e)

/-- RELEASE_FINISH (R31): the home admits the record that frees a released extent; its level-1 table tile follows (R67). Without room, or while
mirror lag holds admission, the record waits (R94, R109). -/
def execReleaseFinish (e : Fin 524288) (s : State) : Host.Outcome State Fault Refusal :=
  .next (if s.jnlOpen ∧ s.homeHere e.val ∧ s.prmState ≠ 4 ∧ (s.extent e.val).state = .reclaiming ∧ !s.extentBusy e.val ∧ !s.freeing e.val then
      let t := s.admitOwn (.attr (.freed e.val)) true
      if t.freeing e.val then t else t.zeroLeaves (.freed e.val)
    else s)

/-! ## Fences (R114 to R116) -/

/-- A fence ends with a status (R114, R160). -/
def State.fenceEnd (s : State) (f : Fence) (st : Status) : State :=
  let s := { s with jnl := { s.jnl with fences := s.jnl.fences.filter (·.id ≠ f.id) } }
  match f.owner with
  | .flush tag => s.resolve tag st
  | .gpf p => s.emit (.gpfDone p (s.say st))
  | .task c d =>
    let x := s.ctx c
    if x.wait = .fence f.id then
      let a := if d = 0 then x.a else AMap.set 0 x.a d (BitVec.ofNat 64 (s.say st).code)
      s.setCtx c { x with a := a, pc := x.pc + 4, wait := .none, charged := false, fills := [] }
    else s
  | .wr id => match s.xpt.wrs.find? (·.id == id) with
    | some w => (match w.issued with | some (tag, _) => s.resolve tag st | none => s)
    | none => s

/-- Whether a fence has been reached: by the watermark while the device mirrors or is the target of a resync, at once otherwise (R112, R114, R165
step 2; log entry 69). -/
def State.fenceReached (s : State) (f : Fence) : Bool := !s.linked || f.jsn ≤ s.fget R.JNL_MIRROR_JSN.JSN

/-- FENCE_COMPLETE (R114). -/
def execFenceComplete (id : Nat) (s : State) : Host.Outcome State Fault Refusal :=
  .next (match s.jnl.fences.find? (·.id == id) with
    | some f => if s.fenceReached f then s.fenceEnd f .ok else s
    | none => s)

/-! ## Retirement -/

/-- RETIREMENT_START (R117, R118): the tile whose turn it is, once it is eligible, when neither a read of it (R188) nor a
copy-out of its frame (R211) is under way; from SERVING on (R131). -/
def execRetirementStart (t : Nat) (s : State) : Host.Outcome State Fault Refusal :=
  .next (if !s.jnlOpen ∨ !s.flag R.SUP_START_STAT.SERVING ∨ !s.retireTurn t ∨ !s.retireDue t ∨ s.remote t ∨ s.isMoving t ∨ (s.fetchOf t).isSome ∨ s.readsLeft t then s
    else match s.takeEntry .maint { kind := .maint t } with
      | some (tag, s) => s.beginRetire t tag
      | none => s)

/-- RETIREMENT_COMPLETE (R82): every codeword is acknowledged, and the TABLE record has room (R94). A drain that waited for it begins (log
entry 43). -/
def execRetirementComplete (t : Nat) (s : State) : Host.Outcome State Fault Refusal :=
  .next (match s.retireOf t with
    | some r => if r.reading ∨ r.lanes ≠ [] ∨ !s.entryFits t then s else (s.finishRetire r).tryDrain
    | none => s)

/-- ATTR_PERSIST_DONE (R119): the oldest ATTR record's changes are in system space and the record retires. -/
def execAttrPersistDone (s : State) : Host.Outcome State Fault Refusal :=
  .next (match s.jnl.recs.find? fun (r : Rec) => match r.body with | .attr _ => true | _ => false with
    | some r => (match r.body with
      | .attr a => ({ s with persist := s.persist.take a, jnl := { s.jnl with recs := s.jnl.recs.filter (·.id ≠ r.id) } }).noteOcc.noteWaiting
      | _ => s)
    | none => s)

/-- ROOT_RECORD_PROGRAM (R76): the newest root record goes to flash, unless its rail has failed (R526). -/
def execRootRecordProgram (s : State) : Host.Outcome State Fault Refusal :=
  .next (match s.jnl.root with
    | some (q, a, b) =>
      if s.jnl.rootDue ∧ !s.fls.fenced then
        (({ s with jnl := { s.jnl with rootNs := s.timeNs } }).logAppend (.root q a b)).noteOcc
      else s
    | none => s)

/-! ## Recovery (R127 to R130) -/

/-- The current configuration sector holds a PAIR_WRAP (R130). -/
def State.hasWrap (s : State) : Bool := s.config.any fun d => slice d 528 48 != List.replicate 48 0xFF

/-- No copy of the module table verifies at a later start (R185). -/
def State.rebuildTable (s : State) : State :=
  let s := s.enterSerials
  s.postD 0x0306 0 s.med.mtSeq

/-- First start (R130): an empty journal, the level-3 tiles with every entry ZERO, root record 1, every serial in the module table. -/
def State.firstStart (s : State) : State :=
  let s := { s with jnl := { s.jnl with root := some (1, 0, 0), firstStart := true, recs := [] } }
  let s := [0, 1].foldl (fun s i =>
    let t := sysBase + lvl3 + i
    let plain := s.tableTile t
    let words := (s.buildStripe t ⟨0, 0⟩ plain (s.tileSeal t ⟨0, 0⟩ plain)).zipIdx.map fun p => (p.2, p.1)
    (s.writeStripe t .system words).2) s
  let s := (s.fset R.JNL_GEN_STAT.ROOT_SEQ 1).logAppend (.root 1 0 0)
  s.enterSerials

/-- JOURNAL_LOST (R128): the local journal is discarded. -/
def State.loseJournal (s : State) (flags : Nat) : State :=
  let s := { s with jnl := { s.jnl with recs := [], unacked := [], root := s.flashRoot }, prm := { s.prm with lost := true } }
  let s := (s.fput R.JNL_SHUT_STAT.JOURNAL_LOST true).jnlStop 4
  (s.fset R.JNL_GEN_STAT.ROOT_SEQ (match s.jnl.root with | some (q, _, _) => q | none => 0)).postD 0x0104 0 flags

/-- One recovered record enters the journal region and the index, an ATTR record's change is applied again (R119, R127). -/
def State.recoverRec (s : State) (mirrorJsn : Nat) (r : Rec) : State :=
  let id := s.jnl.nextId
  let late := r.mirror && !r.twin && decide (mirrorJsn < r.jsn)
  let r := { r with id := id, pos := s.placeFor r.body.granules, admitNs := s.timeNs, acked := !late }
  let u : Unacked := { jsn := r.jsn, pairSeq := r.pairSeq, bytes := (recImage r).length, admitNs := s.timeNs, owner := .engine, wait := false }
  let s := s.takePlace r.body.granules
  let s := { s with jnl := { s.jnl with
    nextId := id + 1
    recs := s.jnl.recs ++ [r]
    unacked := if late then s.jnl.unacked ++ [u] else s.jnl.unacked } }
  let s := { s with prm := { s.prm with pairGiven := if r.mirror && !r.twin then max s.prm.pairGiven r.pairSeq else s.prm.pairGiven } }
  match r.body with
  | .attr a => s.applyAttr a
  | .root q a b => { s with jnl := { s.jnl with root := match s.jnl.root with
      | some (p, x, y) => if p < q then some (q, a, b) else some (p, x, y)
      | none => some (q, a, b) } }
  | _ => s

/-- A successful recovery (R76, R127). The watermark stays at MIRROR_JSN until a pairing (R107, R131). -/
def State.recoverAll (s : State) (x : Shut) (rs : List Rec) : State :=
  let s := { s with jnl := { s.jnl with
    root := s.flashRoot, recs := [], unacked := [], head := 0, pad := 0
    durTo := if x.mirrorJsn < x.jsnHigh then some x.mirrorJsn else none } }
  let s := rs.foldl (fun s r => s.recoverRec x.mirrorJsn r) s
  let s := s.fset R.JNL_JSN.JSN x.jsnHigh
  let s := match s.flashRoot with | some (q, _, _) => s.rootInFlash q | none => s
  let due := match s.jnl.root, s.flashRoot with | some (q, _, _), some (p, _, _) => decide (p < q) | some _, none => true | none, _ => false
  let s := { s with jnl := { s.jnl with rootDue := due } }
  ((s.fset R.JNL_GEN_STAT.ROOT_SEQ (match s.jnl.root with | some (q, _, _) => q | none => 0)).noteOcc).noteLag

/-- JOURNAL_RECOVERY (R127, R128, R130): once the streets have trained (PHASE 4). -/
def execJournalRecovery (img : RecoveryImage) (s : State) : Host.Outcome State Fault Refusal :=
  .next (if s.jnlState ≠ 1 ∨ s.fget R.SUP_START_STAT.PHASE ≠ 4 then s
    else
      let s := s.fset R.SUP_START_STAT.PHASE 5
      if !(s.shutWords img).any (fun w => fieldAt w 0 4 == 0x5D0E7A11) ∧ s.flashRoot.isNone ∧ !s.hasWrap then s.firstStart
      else let s := if s.med.mtLoaded ∧ s.med.mtSeq = 0 then s.rebuildTable else s
      match bestShut ((s.shutWords img).filterMap fun w => (rsDecode w).map fun d => slice d.1 0 64) with
        | none => s.loseJournal 0
        | some x =>
          let s := ((s.fput R.JNL_SHUT_STAT.VALID true).fset R.JNL_SHUT_STAT.COMPLETE (x.flags % 2)).fset R.JNL_SHUT_STAT.SPILLED (x.flags / 2 % 2)
          let s := (s.fset R.JNL_SHUT_STAT.STREET_FAIL x.streetFail).fset R.JNL_SHUT_STAT.SHUT_SEQ x.seq
          let s := { s with jnl := { s.jnl with shutSeq := x.seq } }
          match (s.drainStripes img x).bind (drainRecs x) with
          | none => s.loseJournal x.flags
          | some rs => s.recoverAll x rs)

/-! ## The root check (R77, R129, R311, R546) -/

/-- A level-3 tile as stored verifies under the generation the root gives it (R77). -/
def State.rootHolds (s : State) (l3 : List StoredCopy) : Bool :=
  match s.jnl.root with
  | none => false
  | some (_, a, b) => [(0, a), (1, b)].all fun p =>
      (l3[p.1]?).any fun c => (s.checkCopy (sysBase + lvl3 + p.1) ⟨0, p.2⟩ c.tag c.cipher).isSome

/-- Each program that was ACTIVE is read again under R309 (R311); the reload answers to no descriptor and names no task. -/
def State.reloadPrograms (s : State) : State :=
  (s.ksk.progs.map (·.1)).foldl (fun s p =>
    let g := s.prog p
    if g.len = 0 then s
    else
      let ten := BitVec.ofNat 24 (s.fget (R.KSK_PROG0.OWNER p))
      let t : Task := { num := 0, queue := 0, tenant := ten, prog := p, userTag := 0, insn := 0, tiles := 0, timeUs := 0, args := [] }
      match s.takeEntry .tasks { kind := .load p } with
      | some (tag, s) => s.beginLoad p t tag g.dpa g.len g.crc true
      | none => s) s

/-- The start count rises, from the newest start record, and its record is programmed (R546). -/
def State.countStart (s : State) : State :=
  let n := match s.newest isStartRec with | some b => fieldAt b 4 4 + 1 | none => 1
  let n := min n 0x3FFFF
  let s := s.fset R.XPT_START.COUNT n
  let s := if s.fls.fenced then s.logQueue (.start n) else s.logAppend (.start n)
  if n = 0x3FFFF then s.postD 0x0704 0 0 else s

/-- GEN_ROOT_CHECK (R77, R129, R311, R546): the root against the level-3 tiles, the new shutdown record, the start record, the programs;
the journal then runs and the device turns to pairing. -/
def execGenRootCheck (l3 : List StoredCopy) (s : State) : Host.Outcome State Fault Refusal :=
  .next (if s.fget R.SUP_START_STAT.PHASE ≠ 5 then s
    else
      let ok := s.jnl.firstStart || s.rootHolds l3
      let s := s.fput R.JNL_GEN_STAT.ROOT_OK ok
      let s := if ok then s else ({ s with prm := { s.prm with stale := true } }).postD 0x0103 0 0
      let s := s.writeShut { seq := s.jnl.shutSeq + 1, jsnHigh := s.fget R.JNL_JSN.JSN, mirrorJsn := s.fget R.JNL_MIRROR_JSN.JSN }
      let s := { s with jnl := { s.jnl with recovered := true, closed := false } }
      (s.countStart.reloadPrograms.fset R.JNL_STAT.STATE 2).fset R.SUP_START_STAT.PHASE 6)

/-! ## Fetches, repairs, copy-outs -/

/-- MEDIA_FILL_COMPLETE (R78, R83, R208): with what the Terrace reports meanwhile. -/
def execMediaFillComplete (t : Nat) (terr : TerErr) (s : State) : Host.Outcome State Fault Refusal :=
  .next ((s.terraceError terr).fillStep t)

/-- Nothing but the Sweeper and rebuilds waits on it (R187). -/
def Fetch.unhedged (f : Fetch) : Bool := f.waiters.all fun w => match w with | .sweep _ | .rebuild _ _ => true | _ => false

/-- HEDGE_TIMER (R187): parity not read yet, one codeword for each one missing. -/
def execHedgeTimer (t : Nat) (s : State) : Host.Outcome State Fault Refusal :=
  .next (match s.fetchOf t with
    | none => s
    | some f =>
      let missing := (f.issued.filter fun i => !(f.got.any fun g => g.1 == i)).length
      let par := ([16, 17].filter fun i => !f.issued.contains i).take missing
      if f.held ∨ f.hedged ∨ f.unhedged ∨ f.repairing ∨ missing = 0 ∨ par = [] then s
      else ((s.setFetch { f with hedged := true }).sat R.MED_HEDGE_CNT.HEDGED).readPositions t par)

/-- REPAIR_TIMEOUT (R169): no copy accepted in TIMEOUT_US. -/
def execRepairTimeout (t : Nat) (s : State) : Host.Outcome State Fault Refusal :=
  .next (match s.prm.repairs.find? (·.tile == t) with
    | some r => if r.step = .queued then s else s.repairFail t
    | none => s)

/-- REPAIR_RETRY (R85): asked again once the watermark has reached the JSN noted at the first copy. -/
def execRepairRetry (t : Nat) (s : State) : Host.Outcome State Fault Refusal :=
  .next (match s.prm.repairs.find? (·.tile == t) with
    | some r => (match r.step with
      | .again j =>
        if j ≤ s.fget R.JNL_MIRROR_JSN.JSN then
          ({ s with prm := { s.prm with repairs := s.prm.repairs.map fun (q : Repair) =>
            if q.tile = t then { q with step := .askedAgain } else q } }).sendRepairReq t
        else s
      | _ => s)
    | none => s)

/-- REPAIR_DEFERRED_ACCEPT (R85): the records up to a deferred copy's version are in. -/
def execRepairDeferredAccept (t : Nat) (s : State) : Host.Outcome State Fault Refusal :=
  .next (match s.prm.repairs.find? (·.tile == t) with
    | some r => (match r.step with
      | .deferred b v => if (s.liveVer t).lt v then s else s.judgeCopy r b v
      | _ => s)
    | none => s)

/-- COPY_OUT_END (R211, R236): a copy-out of a MOVING frame ends; with the last one the frame is VALID or BASE, or free where its class
no longer caches. -/
def execCopyOutEnd (t : Nat) (s : State) : Host.Outcome State Fault Refusal :=
  .next (match s.frame t with
    | some f => (match f.state with
      | .moving n w =>
        if 1 < n then s.setFrame t { f with state := .moving (n - 1) w }
        else if !(s.clsOf t).caches then s.dropFrame t
        else s.setFrame t { f with state := if w then .base else .valid }
      | _ => s)
    | none => s)

end Sys2Proof.Machine
end

