-- ==== Sys2Proof/Machine/Turnstile.lean ====
section
/-! DEFINITION. The Turnstile's own commands (R329 to R342): source timeouts, drain bounds, CLEAR_HIGH. -/

namespace Sys2Proof.Machine

/-- The context that runs under an entry. -/
def State.ctxOfTag (s : State) (tag : Nat) : Option Nat :=
  (List.find? (fun (p : Nat × CtxSt) => p.2.tag == tag && p.2.task.isSome && p.1 ≠ 4096) s.ksk.ctx).map (·.1)

/-- The unsequenced record of the twin's that an entry stands for (R105, R147). -/
def State.twinRec (s : State) (tag : Nat) : Option Rec :=
  (s.jnl.formed ++ s.jnl.waiting ++ s.jnl.reserved).find? fun (r : Rec) => match r.owner with
    | .twin t | .forward _ t => t == tag
    | _ => false

/-- Whether no record of the twin's with a lower PAIR_SEQ is still to be judged (R105). -/
def State.pairTurn (s : State) (r : Rec) : Bool :=
  !((s.jnl.formed ++ s.jnl.waiting ++ s.jnl.reserved).any fun (q : Rec) => q.twin && q.pairSeq < r.pairSeq)

/-- OP_TIMEOUT (R331, R333): the source timeout claims the resolve step of an entry whose record has not been sequenced. A record of the
twin's is refused in its turn (R146). The command is the timer's (log entry 5). -/
def execOpTimeout (tag : Fin 262144) (s : State) : Host.Outcome State Fault Refusal :=
  .next (match AMap.find? s.tst.ops tag.val with
    | none => s
    | some o =>
      if o.lingering ∨ o.jsn.isSome then s
      else
        let n := s.sat (R.TST_SRC_CNT.TIMEOUTS (Src.ofTag tag.val).num)
        match s.ctxOfTag tag.val, s.twinRec tag.val with
        | some c, _ => n.stopTask c .timeout 0
        | none, some r =>
          if r.twin then (if s.pairTurn r then ((n.dropRec r.id).refuseRec r .timeout).rackTwin r.pairSeq else s)
          else (n.dropRec r.id).refuseRec r .timeout
        | none, none => n.cut tag.val .timeout)

/-- Unsequenced operations that satisfy `p` resolve with DISABLED at a drain bound and are counted by source (R337, R338). -/
def State.disableOps (s : State) (p : Op → Bool) : State :=
  (s.tst.ops.filter fun q => !q.2.lingering && q.2.jsn.isNone && p q.2).foldl (fun s q =>
    (if isDup q.1 then s else s.sat (R.TST_SRC_CNT.DISABLED (Src.ofTag q.1).num)).cut q.1 .disabled) s

/-- A running task ends with DISABLED at a drain bound, unless its commit has been sequenced (R338). -/
def State.disableTask (s : State) (c : Nat) : State :=
  match AMap.find? s.tst.ops (s.ctx c).tag with
  | some o =>
    if o.jsn.isSome then s
    else (s.sat (R.TST_SRC_CNT.DISABLED (Src.ofTag (s.ctx c).tag).num)).stopTask c .disabled 0
  | none => s

/-- DRAIN_BOUND (R337 to R341): what a quiescing unit still holds ends, and the unit reports QUIESCED. -/
def execDrainBound (u : DrainUnit) (s : State) : Host.Outcome State Fault Refusal :=
  .next (if !s.tst.draining.contains u then s
    else
      let s := s.endDrain u
      match u with
      | .netPort p => (s.disableOps fun o => match o.kind.conn? with | some c => (s.conn c).port == p.val | none => false).portSettle p.val
      | .cxlPort p => (s.disableOps fun o => o.kind.onCxl p.val).cxlSettle p.val
      | .kiosk k => ((List.range 8).foldl (fun (s : State) i => s.disableTask (8 * k.val + i)) s).kioskSettle k.val
      | .queue q =>
        let cs := (List.filter (fun (p : Nat × CtxSt) => p.1 != 4096 && p.2.task.any fun t => t.queue == q.val) s.ksk.ctx).map (·.1)
        (cs.foldl (fun (s : State) c => s.disableTask c) s).queueSettle q.val
      | .slice i =>
        ({ s with med := { s.med with fetch := s.med.fetch.map fun (f : Fetch) =>
          { f with missLines := f.missLines.filter fun k => sliceOf k ≠ i.val, pfLines := f.pfLines.filter fun k => sliceOf k ≠ i.val } } }).noteMisses
      | .lane l => (((List.range 128).foldl (fun (s : State) t => s.endCmd l.val t false) s)).fenceDone l.val)

/-- TST_CMD.CLEAR_HIGH (R342): every HIGH_WATER becomes the source's IN_USE. -/
def State.clearHigh (s : State) : State :=
  (List.range 6).foldl (fun (s : State) i => s.fset (R.TST_SRC_STAT.HIGH_WATER i) (s.fget (R.TST_SRC_STAT.IN_USE i))) s

/-- CLEAR_HIGH (R342). -/
def execClearHigh (s : State) : Host.Outcome State Fault Refusal := .next s.clearHigh

end Sys2Proof.Machine
end

