-- ==== Sys2Proof/Machine/Net.lean ====
section
/-! DEFINITION. Ethernet ports (R343 to R372) and what becomes of a received RoCEv2 packet before the transport judges it: address,
connection, context, seal (R373 to R382, R391 to R394). -/

namespace Sys2Proof.Machine

/-! ## Ports and modes (R344) -/

/-- Ports of the mode in force. -/
def State.portCount (s : State) : Nat := 64 >>> s.fget R.NET_MODE.MODE
/-- Lanes of each port. -/
def State.portLanes (s : State) : Nat := 2 ^ s.fget R.NET_MODE.MODE
/-- Whether the mode uses a port number. -/
def State.portOk (s : State) (p : Nat) : Bool := p < s.portCount
/-- MAC address of a port (R351). -/
def macOf (p : Nat) : BitVec 48 := BitVec.ofNat 48 (Config.macBase.toNat * 64 + p)
/-- STATE of a port (R358). -/
def State.portState (s : State) (p : Nat) : Nat := s.fget (R.NET_PORT_STAT.STATE p)
/-- Network ports serve no host before SERVING (R547). -/
def State.notServing (s : State) : Bool := !s.flag R.SUP_START_STAT.SERVING && !s.jnl.closed

/-- Sets or clears bit `i`. -/
def bitTo (b : BitVec 8) (i : Nat) (v : Bool) : BitVec 8 :=
  if v then b ||| (1#8 <<< i) else b &&& ~~~(1#8 <<< i)

/-- What waits on a connection is sent while it may be: responses, then requests of issued work requests in PSN order (R366). -/
def State.netPump (s : State) (c : Nat) : State :=
  ((s.flushDue c).readSettle c).sendIssued c

/-- The same for every connection of a port. -/
def State.portPump (s : State) (p : Nat) : State :=
  (s.xpt.conns.filter fun q => q.2.port = p).foldl (fun s q => s.netPump q.1) s

/-! ## Fences and link states (R358 to R365) -/

/-- Fences a port with a cause (R362, R363, R365). -/
def State.fencePort (s : State) (p : Fin 64) (cause : Nat) : State :=
  let s := (s.fset (R.NET_PORT_STAT.STATE p.val) 3).fset (R.NET_PORT_STAT.CAUSE p.val) cause
  ((s.startDrain (.netPort p)).postD 0x0604 p.val cause).portSettle p.val

/-- An ACTION that does not fit is ignored and sets CMD_REFUSED (R372). -/
def State.netRefuse (s : State) : State := s.fput R.NET_STAT.CMD_REFUSED true

/-- FENCE (R363). -/
def State.netFence (s : State) (p : Fin 64) : State :=
  if s.portOk p.val ∧ s.portState p.val ≤ 2 then s.fencePort p 1 else s.netRefuse
/-- A port's quads are out of reset (R515). -/
def State.netOut (s : State) (p : Nat) : Bool := s.groupOn (s.portLanes * p / 16)
/-- RESTORE: a QUIESCED port begins training; its quads must be out of reset (R518). -/
def State.netRestore (s : State) (p : Fin 64) : State :=
  if s.portOk p.val ∧ s.portState p.val = 4 ∧ s.netOut p.val then (s.fset (R.NET_PORT_STAT.STATE p.val) 1).fset (R.NET_PORT_STAT.CAUSE p.val) 0
  else s.netRefuse
/-- RETRAIN: an UP port's link drops and is retrained. -/
def State.netRetrain (s : State) (p : Fin 64) : State :=
  if s.portOk p.val ∧ s.portState p.val = 2 then (s.fset (R.NET_PORT_STAT.STATE p.val) 1).fset (R.NET_PORT_STAT.LOCKED p.val) 0
  else s.netRefuse

/-- NET_PORT_FENCE. -/
def execNetPortFence (p : Fin 64) (s : State) : Host.Outcome State Fault Refusal := .next (s.netFence p)
/-- NET_PORT_RESTORE. -/
def execNetPortRestore (p : Fin 64) (s : State) : Host.Outcome State Fault Refusal := .next (s.netRestore p)
/-- NET_PORT_RETRAIN. -/
def execNetPortRetrain (p : Fin 64) (s : State) : Host.Outcome State Fault Refusal := .next (s.netRetrain p)

/-- NET_LINK_UP (R359): a TRAINING port goes UP; the polarity of its lanes is what training found (R346). -/
def execNetLinkUp (p : Fin 64) (pol : Byte) (s : State) : Host.Outcome State Fault Refusal :=
  .next (if !s.portOk p.val ∨ s.portState p.val ≠ 1 then s
    else
      let all := 2 ^ s.portLanes - 1
      let s := ((s.fset (R.NET_PORT_STAT.STATE p.val) 2).fset (R.NET_PORT_STAT.LOCKED p.val) all).fset (R.NET_PORT_STAT.POLARITY p.val) (pol.toNat &&& all)
      let s := s.fset (R.NET_PORT_STAT.CAUSE p.val) 0
      ((s.setPort p.val { s.port p.val with trainFail := false }).postD 0x0601 p.val 0).portPump p.val)

/-- NET_TRAIN_TIMEOUT (R359): 2 s of training without UP; LINK_TRAIN_FAIL once (log entry 5). -/
def execNetTrainTimeout (p : Fin 64) (s : State) : Host.Outcome State Fault Refusal :=
  .next (if !s.portOk p.val ∨ s.portState p.val ≠ 1 then s
    else
      let s := ((s.fset (R.NET_PORT_STAT.STATE p.val) 0).fset (R.NET_PORT_STAT.CAUSE p.val) 2).sat (R.NET_PORT_STAT.DOWNS p.val)
      if (s.port p.val).trainFail then s
      else (s.setPort p.val { s.port p.val with trainFail := true }).postD 0x0603 p.val 0)

/-- NET_RETRAIN_TIMER (R359): a DOWN port out of reset trains; every 1 s (log entry 5). -/
def execNetRetrainTimer (p : Fin 64) (s : State) : Host.Outcome State Fault Refusal :=
  .next (if s.portOk p.val ∧ s.portState p.val = 0 ∧ s.netOut p.val then s.fset (R.NET_PORT_STAT.STATE p.val) 1 else s)

/-- NET_LINK_DOWN (R360 to R362): an UP port goes DOWN and retrains at once, or is fenced with cause FLAP; a fenced port's link is
gone (R341). Causes: 0 lock, 1 fault, 2 FEC. -/
def execNetLinkDown (p : Fin 64) (cause : Fin 3) (s : State) : Host.Outcome State Fault Refusal :=
  .next (if !s.portOk p.val then s
    else if s.portState p.val = 3 then s.fset (R.NET_PORT_STAT.LOCKED p.val) 0
    else if s.portState p.val ≠ 2 then s
    else
      let s := (s.fset (R.NET_PORT_STAT.LOCKED p.val) 0).sat (R.NET_PORT_STAT.DOWNS p.val)
      let s := s.postD 0x0602 p.val cause.val
      let k := s.port p.val
      let recent := (k.downs.filter fun t => s.timeNs < t + 10000000000) ++ [s.timeNs]
      let s := s.setPort p.val { k with downs := recent, paused := 0 }
      if s.fget (R.NET_PORT_CFG.FLAP_MAX p.val) < recent.length then s.fencePort p 3
      else s.fset (R.NET_PORT_STAT.STATE p.val) 1)

/-! ## Priority flow control (R353 to R357) -/

/-- Bytes of the receive buffer that a port has (R353). -/
def State.rxShare (s : State) : Nat := 48 * 1048576 / s.portCount
/-- Bytes a port's frames occupy. -/
def Port.used (k : Port) : Nat := k.occ.foldl (fun n q => n + q.2) 0
/-- PFC is enabled on a priority. -/
def State.pfcOn (s : State) (i : Nat) : Bool := (s.fget R.NET_PFC_CTL.PRIO_MASK).testBit i
/-- Sends a PFC frame. -/
def State.sendPfc (s : State) (p i quanta : Nat) : State := (s.emitNet p (.pfc p i quanta)).sat (R.NET_PORT_CNT2.PFC_TX p)
/-- PFC_STORM of a port. -/
def State.noteStorm (s : State) (p : Nat) : State := s.fput (R.NET_PORT_STAT.PFC_STORM p) ((s.port p).storm != 0)

/-- A frame enters the receive buffer; XOFF goes out where it takes an enabled priority to the threshold (R355). -/
def State.rxTake (s : State) (p i n : Nat) : State :=
  let k := s.port p
  let occ := AMap.get 0 k.occ i + n
  let s := s.setPort p { k with occ := AMap.set 0 k.occ i occ }
  if s.pfcOn i ∧ s.fget R.NET_PFC_CTL.XOFF_KIB * 1024 ≤ occ ∧ !k.xoff.getLsbD i then
    (s.setPort p { s.port p with xoff := bitTo k.xoff i true }).sendPfc p i 0xFFFF
  else s

/-- The frames in the buffers have crossed into the core: XON where XOFF stood (R355). It happens on the idle tick (log entry 60). -/
def State.rxDrain (s : State) : State :=
  (s.ports.map (·.1)).foldl (fun s p =>
    let k := s.port p
    let s := s.setPort p { k with occ := [], xoff := 0 }
    ((List.range 8).filter fun i => k.xoff.getLsbD i).foldl (fun s i => s.sendPfc p i 0) s) s

/-- PFC_FRAME (R355, R357): the partner pauses or resumes a priority; ignored ones are counted. -/
def execPfcFrame (p : Fin 64) (i : Fin 8) (q : BitVec 16) (s : State) : Host.Outcome State Fault Refusal :=
  .next (if !s.portOk p.val ∨ !s.netSends p.val then s
    else
      let s := s.sat (R.NET_PORT_CNT2.PFC_RX p.val)
      let k := s.port p.val
      if !s.pfcOn i.val ∨ k.storm.getLsbD i.val then s.sat (R.NET_PORT_CNT3.PAUSE_IGNORED p.val)
      else
        let s := s.setPort p.val { k with paused := bitTo k.paused i.val (q != 0) }
        if q = 0 then s.portPump p.val else s)

/-- PAUSE_FRAME (R349): ignored and counted. -/
def execPauseFrame (p : Fin 64) (s : State) : Host.Outcome State Fault Refusal :=
  .next (if !s.portOk p.val ∨ !s.netSends p.val then s else s.sat (R.NET_PORT_CNT3.PAUSE_IGNORED p.val))

/-- PFC_REFRESH (R355): every 0x8000 quanta while the occupancy stands at or above XON_KIB (log entry 5). -/
def execPfcRefresh (p : Fin 64) (i : Fin 8) (s : State) : Host.Outcome State Fault Refusal :=
  .next (let k := s.port p.val
    if k.xoff.getLsbD i.val ∧ s.fget R.NET_PFC_CTL.XON_KIB * 1024 ≤ AMap.get 0 k.occ i.val ∧ s.netSends p.val then s.sendPfc p.val i.val 0xFFFF
    else s)

/-- PFC_WATCHDOG (R357): the pause has lasted PFC_WD_MS (log entry 5). -/
def execPfcWatchdog (p : Fin 64) (i : Fin 8) (s : State) : Host.Outcome State Fault Refusal :=
  .next (let k := s.port p.val
    if !s.prioPaused p.val i.val then s
    else (((s.setPort p.val { k with storm := bitTo k.storm i.val true }).noteStorm p.val).postD 0x0605 p.val i.val).portPump p.val)

/-- PFC_WATCHDOG_CLEAR (R357): 100 ms without a PFC frame for the priority (log entry 5). -/
def execPfcWatchdogClear (p : Fin 64) (i : Fin 8) (s : State) : Host.Outcome State Fault Refusal :=
  .next (let k := s.port p.val
    if k.storm.getLsbD i.val then
      (s.setPort p.val { k with storm := bitTo k.storm i.val false, paused := bitTo k.paused i.val false }).noteStorm p.val
    else s)

/-- PFC_QUANTA_EXPIRE (R355): the quanta of the last PFC frame have run out (log entry 5). -/
def execPfcQuantaExpire (p : Fin 64) (i : Fin 8) (s : State) : Host.Outcome State Fault Refusal :=
  .next (let k := s.port p.val
    if k.paused.getLsbD i.val then (s.setPort p.val { k with paused := bitTo k.paused i.val false }).portPump p.val else s)

/-! ## Addresses (R350, R377) -/

/-- The address entry of a port that holds an IP address; the lowest (R377). -/
def State.addrEntry (s : State) (p : Nat) (ip : BitVec 128) : Option Nat :=
  (sortBy (· ≤ ·) (s.listed R.XPT_ADDR0.VALID 256)).find? fun a =>
    s.fget (R.XPT_ADDR0.PORT a) == p && s.fget (R.XPT_ADDR1.IP_HIGH a) * 2 ^ 64 + s.fget (R.XPT_ADDR2.IP_LOW a) == ip.toNat

/-- A frame that asks for an address of the port (R350): answered, or discarded as any other frame. -/
def State.askAddr (s : State) (p : Nat) (ip : BitVec 128) (ans : Out) : State :=
  if !s.portOk p ∨ s.portState p < 2 then s
  else if s.portState p ≠ 2 then s.sat (R.NET_PORT_CNT2.OTHER p)
  else match s.addrEntry p ip with
    | none => s.sat (R.NET_PORT_CNT2.OTHER p)
    | some _ =>
      let s := s.inc (R.NET_PORT_CNT0.RX_FRAMES p)
      if s.notServing then s else s.emitNet p ans

/-- ARP_REQUEST (R350). -/
def execArpRequest (p : Fin 64) (ip : BitVec 128) (mac : BitVec 48) (s : State) : Host.Outcome State Fault Refusal :=
  .next (s.askAddr p.val ip (.arpReply p.val ip mac))
/-- NEIGHBOR_SOLICITATION (R350). -/
def execNeighborSolicitation (p : Fin 64) (ip : BitVec 128) (mac : BitVec 48) (s : State) : Host.Outcome State Fault Refusal :=
  .next (s.askAddr p.val ip (.neighborAdv p.val ip mac))

/-! ## A packet reaches its connection -/

/-- BTH fields (R373). -/
def bthOp (f : NetFrame) : Nat := fieldAt f.bth 0 1
def bthPad (f : NetFrame) : Nat := fieldAt f.bth 1 1 / 16 % 4
def bthPkey (f : NetFrame) : Nat := beNat (slice f.bth 2 2)
def bthDqp (f : NetFrame) : Nat := beNat (slice f.bth 5 3)
def bthAck (f : NetFrame) : Bool := 128 ≤ fieldAt f.bth 8 1
def bthPsn (f : NetFrame) : Nat := beNat (slice f.bth 9 3)

/-- Responses among the opcodes of R373. -/
def isResp (op : Nat) : Bool := 0x0D ≤ op && op ≤ 0x12

/-- An unsealed RNR NAK (R383): its transport step is the row RNR_NAK. -/
def isRnrNak (f : NetFrame) : Bool := (bthOp f) == 0x11 && f.body.length == 4 && fieldAt f.body 0 1 / 32 % 4 == 1

/-- Outcome of the checks of R381. -/
inductive SealCheck where
  | pass (epoch nctr : Nat) (plain : Bytes)
  | replay
  | fail
  deriving DecidableEq, Repr

/-- The checks of R381 on a received packet of a connection. -/
def State.checkSealed (s : State) (c : Nat) (f : NetFrame) : SealCheck :=
  let k := s.conn c
  let n := f.body.length
  let epoch := fieldAt f.body 0 4
  let nctr := fieldAt f.body 4 5
  let form := decide (32 ≤ n) && fieldAt f.body 9 1 == 0 && fieldAt f.body 11 5 == 0 && (epoch == k.rxEpoch || epoch == k.rxEpoch + 1)
  if !form then .fail
  else match gcmOpen (s.netKey k false epoch) (netNonce c nctr) (f.bth ++ slice f.body 0 16) (slice f.body 16 (n - 32)) (slice f.body (n - 16) 16) with
    | none => .fail
    | some b => if epoch = k.rxEpoch ∧ nctr < k.rxNctr then .replay else .pass epoch nctr (b.take (b.length - (bthPad f)))

/-- A packet is discarded under R374, R376 or R378. -/
def State.noConn (s : State) : State := s.sat R.XPT_CNT1.NO_CONN

/-- A packet whose context is at hand (R381, R388): verified, it waits for its turn on the connection. -/
def State.takePacket (s : State) (c : Nat) (f : NetFrame) : State :=
  let k := s.conn c
  if k.state = .free then s.noConn
  else if k.state = .error ∨ (isRnrNak f) then s
  else match s.checkSealed c f with
    | .fail => s.sat R.XPT_CNT0.TAG_FAIL
    | .replay => s.sat R.XPT_CNT0.REPLAY
    | .pass epoch nctr b =>
      let s := s.setConn c { k with rxEpoch := epoch, rxNctr := nctr + 1 }
      let k := s.conn c
      let push := fun (st : ConnState) =>
        s.setConn c { k with state := st, rxq := k.rxq ++ [{ opcode := bthOp f, psn := (bthPsn f), ackReq := (bthAck f), plain := b }] }
      if (bthOp f) = 0x12 then s.noConn
      else match k.state, isResp (bthOp f) with
        | .establishing, true => s.noConn
        | .establishing, false => push .rts
        | .closing, false => s
        | st, _ => push st

/-! ## Contexts and the holding buffer (R391 to R394) -/

/-- A busy context (R391). -/
def State.ctxBusyNet (s : State) (c : Nat) : Bool :=
  let k := s.conn c
  (s.tst.ops.any fun p => p.2.kind.onConn c) || (s.xpt.hold.any fun h => h.2.1 == c) || k.due != [] || k.rxq != []
    || s.xpt.wrs.any fun w => w.conn == c && (w.opened.isSome || w.issued.isSome)

/-- Bytes a port holds in the holding buffer. -/
def State.heldBytes (s : State) (p : Nat) : Nat := (s.xpt.hold.filter (·.1 == p)).foldl (fun n h => n + h.2.2.len) 0

/-- Keeps USED_KIB of a port. -/
def State.noteHeld (s : State) (p : Nat) : State := s.fset (R.XPT_HOLD_STAT.USED_KIB p) (s.heldBytes p / 1024)

/-- A packet finds its port's quota full (R393). -/
def State.holdRefuse (s : State) (p c : Nat) (f : NetFrame) : State :=
  let s := if isResp (bthOp f) then s.sat R.XPT_CNT2.RESP_DROP
    else (s.emitNet p (.rnrNak c (bthPsn f) (s.fget R.TST_NET_CTL.RNR_TIMER))).sat R.XPT_CNT2.HOLD_RNR
  let s := if s.xpt.holdFull.contains p then s
    else { s.sat (R.XPT_HOLD_STAT.FULL p) with xpt := { s.xpt with holdFull := s.xpt.holdFull ++ [p] } }
  if AMap.get 0 s.xpt.holdNs p ≤ s.timeNs then
    { s with xpt := { s.xpt with holdNs := AMap.set 0 s.xpt.holdNs p (s.timeNs + 1000000) } }.postD 0x0703 p 0
  else s

/-- The least recently used idle context that is not being written back, to be evicted (R391). -/
def State.idleContext (s : State) : Option Nat := s.xpt.cache.find? fun c => !s.ctxBusyNet c && !(s.xpt.writing.any fun w => w.1 == c)

/-- The fetch of a context begins; where the cache has no place for it the write-back of an idle context begins with it (R391, R394; log
entry 139). -/
def State.fetchContext (s : State) (c : Nat) : State :=
  let full := decide (65536 ≤ s.xpt.cache.length + s.xpt.fetching.length - s.xpt.writing.length)
  let writing := match s.idleContext with
    | some d => if full then s.xpt.writing ++ [(d, c)] else s.xpt.writing
    | none => s.xpt.writing
  { s.inc R.XPT_CNT1.CTX_MISS with xpt := { s.xpt with fetching := s.xpt.fetching ++ [c], writing := writing } }

/-- A packet looks its context up: cached and with nothing of its connection held it goes on, and a write-back of the context ends with the
context cached (R394); else it is held and the context is fetched (R392). -/
def State.lookupContext (s : State) (p c : Nat) (f : NetFrame) : State :=
  if s.xpt.cache.contains c ∧ !(s.xpt.hold.any fun h => h.2.1 == c) then
    { s with xpt := { s.xpt with
      cache := s.xpt.cache.erase c ++ [c], writing := s.xpt.writing.filter fun w => w.1 ≠ c } }.takePacket c f
  else if 8388608 / s.portCount < s.heldBytes p + f.len then s.holdRefuse p c f
  else
    let s := { s with xpt := { s.xpt with hold := s.xpt.hold ++ [(p, c, f)] } }.noteHeld p
    if s.xpt.fetching.contains c ∨ s.xpt.cache.contains c then s
    else s.fetchContext c

/-- The context that makes room for a fetched one: the one written back for it, if it has stayed idle, else an idle one (R393, R394). -/
def State.evictFor (s : State) (c : Nat) : Option Nat :=
  match s.xpt.writing.find? fun w => w.2 == c && !s.ctxBusyNet w.1 with
  | some w => some w.1
  | none => s.idleContext

/-- CONTEXT_FETCH_DONE (R392 to R394): the context is cached, over an idle one where the cache is full, and what is held for it is
taken up in arrival order. -/
def execContextFetchDone (c : Conn) (s : State) : Host.Outcome State Fault Refusal :=
  .next (if !s.xpt.fetching.contains c.val then s
    else
      let room : Option State :=
        if s.xpt.cache.length < 65536 then some s
        else match s.evictFor c.val with
          | some d => some { s with xpt := { s.xpt with cache := s.xpt.cache.erase d } }
          | none => none
      match room with
      | none => s
      | some s =>
        let mine := s.xpt.hold.filter fun h => h.2.1 == c.val
        let s := { s with xpt := { s.xpt with
          fetching := s.xpt.fetching.erase c.val, writing := s.xpt.writing.filter fun w => w.2 ≠ c.val, cache := s.xpt.cache ++ [c.val], hold := s.xpt.hold.filter fun h => h.2.1 != c.val
          holdFull := s.xpt.holdFull.filter fun p => !(mine.any fun h => h.1 == p) } }
        let s := s.fset R.XPT_STAT.CACHED s.xpt.cache.length
        let s := ((mine.map (·.1)).eraseDups).foldl State.noteHeld s
        mine.foldl (fun s h => s.takePacket c.val h.2.2) s)

/-! ## ROCE_FRAME (R350) -/

/-- A CNP in answer to a CE mark, at most one in CNP_INTERVAL_US (R370). -/
def State.answerCe (s : State) (p c : Nat) : State :=
  let k := s.conn c
  if k.state = .free ∨ s.timeNs < k.cnpNs then s
  else
    let s := s.setConn c { k with cnpNs := s.timeNs + s.fget R.NET_CC_CTL1.CNP_INTERVAL_US * 1000 }
    (s.emitNet p (.cnp c)).sat (R.NET_PORT_CNT3.CNP_TX p)

/-- The transport takes a packet with a good ICRC for an address of the port (R373 to R378). CM messages on QP1 and CNPs have rows of
their own, which are their transport steps (log entry 61). -/
def State.transport (s : State) (p : Nat) (f : NetFrame) : State :=
  let c := (bthDqp f) - 0x400000
  let known := 0x400000 ≤ (bthDqp f) && (bthDqp f) < 0x800000 && (s.conn c).state != .free && (s.conn c).port == p
  let s := if f.ce then
      let s := s.sat (R.NET_PORT_CNT3.CE_RX p)
      if known then s.answerCe p c else s
    else s
  if (bthDqp f) = 1 ∨ (bthOp f) = 0x81 then s
  else if (bthPkey f) ≠ 0xFFFF ∨ 0x20 ≤ (bthOp f) ∨ !known then s.noConn
  else if (s.conn c).state = .error then s
  else s.lookupContext p c f

/-- The classes of R350, in the order of its table. -/
def State.frameIn (s : State) (p : Nat) (f : NetFrame) : State :=
  let other := s.sat (R.NET_PORT_CNT2.OTHER p)
  if !s.portOk p ∨ s.portState p < 2 then s
  else if s.portState p ≠ 2 then other
  else if !f.fcsOk then s.sat (R.NET_PORT_CNT1.FCS_ERR p)
  else if f.len < 64 ∨ 9216 < f.len ∨ f.udpPort ≠ 4791 ∨ f.dstMac ≠ macOf p then other
  else
    let i := match f.pcp with | some i => i.val | none => s.fget R.NET_PFC_CTL.UNTAGGED_PRIO
    if s.rxShare < (s.port p).used + f.len ∧ !s.pfcOn i then s.sat (R.NET_PORT_CNT2.RX_DROP p)
    else
      let s := (s.rxTake p i f.len).inc (R.NET_PORT_CNT0.RX_FRAMES p)
      if s.notServing then s
      else if !f.icrcOk then s.sat R.XPT_CNT3.ICRC_ERR
      else if (s.addrEntry p f.dstIp).isNone then s
      else s.transport p f

/-- ROCE_FRAME (R350). -/
def execRoceFrame (p : Fin 64) (f : NetFrame) (s : State) : Host.Outcome State Fault Refusal := .next (s.frameIn p.val f)

/-! ## The congestion window (R366 to R370) -/

/-- CC_ROUND_END (R368, R369): the end of a round of one SRTT (log entry 5). -/
def execCcRoundEnd (c : Conn) (s : State) : Host.Outcome State Fault Refusal :=
  .next (let k := s.conn c.val
    if k.state = .free then s
    else
      let cnpCut := if k.cnpSeen then s.fget R.NET_CC_CTL0.MD else 0
      let delay := s.fget R.NET_CC_CTL0.DELAY_MD
      let cut := if s.fget R.NET_CC_CTL1.TARGET_RTT_US * 1000 < k.srtt ∧ cnpCut < delay then delay else cnpCut
      let (win, rounds) :=
        if 0 < cut then (max 4096 (k.win - (k.win * cut) / 256), 0)
        else if k.limited then
          let ai := s.fget R.NET_CC_CTL0.AI_KIB * 1024
          (min 16777216 (k.win + if s.fget R.NET_CC_CTL0.HAI_ROUNDS < k.rounds + 1 then ai * 8 else ai), k.rounds + 1)
        else (k.win, k.rounds)
      (s.setConn c.val { k with win := win, rounds := rounds, cnpSeen := false, limited := false }).netPump c.val)

/-- SRTT_RESET (R367): 1 ms without a sample (log entry 5). -/
def execSrttReset (c : Conn) (s : State) : Host.Outcome State Fault Refusal :=
  .next (let k := s.conn c.val
    if k.state = .free then s else s.setConn c.val { k with srtt := s.fget R.NET_CC_CTL1.BASE_RTT_US * 1000 })

/-- CNP (R370): a received CNP marks its connection. -/
def execCnp (c : Conn) (p : Fin 64) (s : State) : Host.Outcome State Fault Refusal :=
  .next (if !s.portOk p.val ∨ s.portState p.val ≠ 2 ∨ s.notServing then s
    else
      let s := s.sat (R.NET_PORT_CNT3.CNP_RX p.val)
      let k := s.conn c.val
      if k.state = .free ∨ k.port ≠ p.val then s.noConn else s.setConn c.val { k with cnpSeen := true })

/-- The idle tick of the ports: buffers drain, and what waits for window or an interval goes on. -/
def State.netTick (s : State) : State :=
  let s := s.rxDrain
  ((s.xpt.conns.filter fun q => q.2.due != [] || s.xpt.wrs.any fun w => w.conn == q.1 && w.issued.isSome).map (·.1)).foldl State.netPump s

end Sys2Proof.Machine
end

