-- ==== Sys2Proof/Machine/Conn.lean ====
section
/-! DEFINITION. RoCEv2 connections: the Communication Manager's messages and the states of R388 (R384 to R390, R457). -/

namespace Sys2Proof.Machine

/-! ## Communication Manager (R384 to R390) -/

/-- The admission key of a tenant under one of its epochs (R449, R457). -/
def State.admitKey (s : State) (t : BitVec 24) (epoch : BitVec 32) : Bytes :=
  kdf (s.tenantKey t epoch.toNat) (keyLabel 0x04 t.toNat 0 0 0) 256

/-- Tenant of a REQ (R385). -/
def reqTenant (r : CmReq) : BitVec 24 := BitVec.ofNat 24 (fieldAt r.priv 4 3)
/-- MGMT of a REQ. -/
def reqMgmt (r : CmReq) : Bool := fieldAt r.priv 3 1 % 2 == 1
/-- The queue a REQ binds to. -/
def reqBind (r : CmReq) : Option Nat := if fieldAt r.priv 3 1 / 2 % 2 = 1 then some (fieldAt r.priv 8 2) else none

/-- The form of a REQ (R385, R386). -/
def reqForm (r : CmReq) : Bool :=
  let q := fieldAt r.priv 8 2
  fieldAt r.priv 0 2 == 0x4E1C && fieldAt r.priv 2 1 == 1 && fieldAt r.priv 3 1 < 4 && fieldAt r.priv 7 1 == 0
    && (if (reqBind r).isSome then q < 1024 else q == 0) && fieldAt r.priv 10 6 == 0 && fieldAt r.priv 48 44 == 0
    && [1024, 2048, 4096].contains r.mtu && (reqMgmt r == (reqTenant r == 0))

/-- What the REQ's PROOF is computed over (R385); the two numbers stand as in the MAD (log entry 63). -/
def reqProofInput (r : CmReq) : Bytes := slice r.priv 0 32 ++ natBe 3 r.qpn.toNat ++ natBe 3 r.psn.toNat

/-- The tenant epoch under which a REQ's PROOF verifies: the current one or, failing that, the previous (R457). -/
def State.reqEpoch (s : State) (r : CmReq) : Option (BitVec 32) :=
  match s.tenant (reqTenant r) with
  | none => none
  | some t => ([some t.epoch, t.prev].filterMap id).find? fun e => cmac (s.admitKey (reqTenant r) e) (reqProofInput r) == slice r.priv 32 16

/-- Management connections that exist (R386). -/
def State.mgmtConns (s : State) : Nat := (s.xpt.conns.filter fun p => p.2.mgmt).length

/-- The first connection index that is free and that no operation still names (R376; log entry 6). -/
def State.freeConn (s : State) : Option Nat :=
  let used := s.xpt.conns.map (·.1) ++ (s.tst.ops.map fun p => (p.2.kind.conn?).toList).flatten
  let c := (List.range (used.length + 1)).find? fun c => !used.contains c
  c.filter (· < 4194304)

/-- The checks of R386, in the order of its list. -/
def State.reqCheck (s : State) (r : CmReq) : Except Status (BitVec 32 × Nat) :=
  if !reqForm r then .error .malformed
  else match s.reqEpoch r with
    | none => .error .access
    | some e =>
      if (match reqBind r with | some q => s.fget (R.KSK_QCFG0.TENANT q) != (reqTenant r).toNat | none => false) then .error .access
      else if reqMgmt r ∧ s.fget R.XPT_CONN_CTL.MAX_MGMT ≤ s.mgmtConns then .error .access
      else match s.freeConn with
        | none => .error .nospace
        | some c => if s.fget R.XPT_START.COUNT = 0x3FFFF then .error .exhausted else .ok (e, c)

/-- Starting epoch of an index (R387). -/
def State.startEpoch (s : State) (c : Nat) : Nat := match AMap.find? s.xpt.lastEpoch c with | some e => e + 1 | none => 0

/-- Bytes 0 to 31 of the REP's private data (R385). -/
def State.repHead (s : State) (obj epoch : Nat) (nonce : Bytes) : Bytes :=
  natLe 2 0x4E1D ++ natLe 1 1 ++ [0] ++ natLe 5 obj ++ natLe 1 s.isSenior.toNat ++ natLe 2 s.prm.joinInc.toNat ++ natLe 4 epoch ++ nonce

/-- Establishes a connection and sends its REP (R378, R385, R387, R388). The device's nonce and starting PSN are free values. -/
def State.establishConn (s : State) (p a : Nat) (r : CmReq) (e : BitVec 32) (c : Nat) : State :=
  let ten := reqTenant r
  let obj := s.fget R.XPT_START.COUNT * 2 ^ 22 + c
  let epoch := s.startEpoch c
  let (nonce, s) := s.drawBytes 16
  let (w, s) := s.drawWord
  let psn := w.toNat % 2 ^ 24
  let head := s.repHead obj epoch nonce
  let rep := head ++ cmac (s.admitKey ten e) (slice r.priv 0 48 ++ head) ++ List.replicate 148 0
  let k : Con :=
    { state := .establishing, tenant := ten, mgmt := reqMgmt r, bind := reqBind r, port := p, addr := a, hostMac := r.srcMac
      hostIp := r.srcIp, hostQp := r.qpn, mtu := r.mtu, tenEpoch := e, obj := obj, req := r.priv, rep := rep, txEpoch := epoch
      rxEpoch := epoch, epsn := r.psn.toNat, npsn := psn, win := s.fget R.NET_CC_CTL0.WIN_INIT_KIB * 1024
      srtt := s.fget R.NET_CC_CTL1.BASE_RTT_US * 1000 }
  ((s.setConn c k).inc R.XPT_STAT.CONNECTIONS).emitNet p (.cmRep c psn rep)

/-- A REQ repeated while its connection is ESTABLISHING (R388). -/
def State.repeated (s : State) (p : Nat) (r : CmReq) : Option (Nat × Con) :=
  List.find? (fun (q : Nat × Con) => q.2.state == .establishing && q.2.port == p && q.2.hostQp == r.qpn && q.2.hostMac == r.srcMac
    && q.2.hostIp == r.srcIp && q.2.req == r.priv) s.xpt.conns

/-- CM_REQ (R384 to R387). Until SERVING every REQ is refused with DISABLED (R547). -/
def execCmReq (p : Fin 64) (r : CmReq) (s : State) : Host.Outcome State Fault Refusal :=
  .next (if !s.portOk p.val ∨ s.portState p.val ≠ 2 then s
    else match s.addrEntry p.val r.dstIp with
      | none => s
      | some a =>
        if r.serviceId ≠ 0x19640 then s
        else if !s.flag R.SUP_START_STAT.SERVING then s.emitNet p.val (.cmRej r.qpn .disabled)
        else match s.repeated p.val r with
          | some (c, k) => s.emitNet p.val (.cmRep c k.npsn k.rep)
          | none => match s.reqCheck r with
            | .error st => s.emitNet p.val (.cmRej r.qpn st)
            | .ok (e, c) => s.establishConn p.val a r e c)

/-- CM_RTU (R388). -/
def execCmRtu (c : Conn) (s : State) : Host.Outcome State Fault Refusal :=
  .next (let k := s.conn c.val
    if k.state = .establishing then s.setConn c.val { k with state := .rts } else s)

/-- CM_DREQ (R388, R389): a live connection closes, its waiting work requests end with ABORTED and its targets turn BROKEN (R608); one in
ERROR becomes FREE. -/
def execCmDreq (c : Conn) (s : State) : Host.Outcome State Fault Refusal :=
  .next (let k := s.conn c.val
    match k.state with
    | .rts | .establishing =>
      let s := (s.setConn c.val { k with state := .closing, rxq := k.rxq.filter fun p => isResp p.opcode }).breakTargets 1 (qpn c.val)
      let s := (s.xpt.wrs.filter fun w => w.conn = c.val ∧ w.issued.isNone).foldl (fun s w => s.wrFinish w .aborted) s
      s.connClosing c.val
    | .error => (s.emitNet k.port (.cmDrep c.val)).connFree c.val
    | .closing | .free => s)

/-- CM_DREP (R389). -/
def execCmDrep (c : Conn) (s : State) : Host.Outcome State Fault Refusal :=
  .next (if (s.conn c.val).state = .error then s.connFree c.val else s)

/-- ERROR_HOLD_EXPIRE (R389): ERROR_HOLD_MS after the connection entered ERROR (log entry 5). -/
def execErrorHoldExpire (c : Conn) (s : State) : Host.Outcome State Fault Refusal :=
  .next (if (s.conn c.val).state = .error then s.connFree c.val else s)

end Sys2Proof.Machine
end

