-- ==== Sys2Proof/Machine/Rdma.lean ====
section
/-! DEFINITION. Requests of hosts on a connection: their order (R395), keys (R404 to R407), and the memory operations (R396 to R400). -/

namespace Sys2Proof.Machine

/-! ## Memory keys at admission (R396, R406, R407) -/

/-- Rights of a key (R404). -/
inductive Right where
  | read | write | atomic | flush | sendLocal
  deriving DecidableEq, Repr
/-- Bit of a right. -/
def Right.bit : Right → Nat
  | .read => 0 | .write => 1 | .atomic => 2 | .flush => 3 | .sendLocal => 4

/-- Judges an operation of `n` bytes at `a` against a key: the refusal, or none. `rs` are the rights it needs. -/
def State.keyCheck (s : State) (ten : BitVec 24) (key : BitVec 32) (a n : Nat) (rs : List Right) : Option Status :=
  match AMap.find? s.xpt.keys (key.toNat / 256) with
  | none => some .access
  | some k =>
    if k.tenant ≠ ten ∨ k.variant.toNat ≠ key.toNat % 256 then some .access
    else if k.state = .revoking then some .revoked
    else if rs.all (fun r => k.rights.getLsbD r.bit) ∧ k.base ≤ a ∧ a + n ≤ k.base + k.len then none
    else some .access

/-- Counts a refusal with REVOKED (R417). -/
def State.noteRevoked (s : State) (st : Status) : State := if st = .revoked then s.sat R.XPT_CNT2.REVOKED else s

/-! ## The order of requests (R395) -/

/-- Distance of a PSN ahead of another, modulo 2^24. -/
def psnDist (a b : Nat) : Nat := (a + 2 ^ 24 - b % 2 ^ 24) % 2 ^ 24

/-- A write or atomic taken earlier on the connection that has not been admitted; forwarded ones are among them (R115, R395). -/
def State.reqAhead (s : State) (c : Nat) : Bool :=
  s.tst.ops.any fun p => !p.2.lingering && p.2.jsn.isNone && match p.2.kind with
    | .netWrite n _ _ | .netAtomic n _ => n == c
    | _ => false

/-- Drops the request at the head of a connection's queue. -/
def State.popReq (s : State) (c : Nat) : State := s.setConn c { s.conn c with rxq := (s.conn c).rxq.drop 1 }

/-- A request out of sequence: one NAK for each gap (R395). -/
def State.seqGap (s : State) (c : Nat) : State :=
  let k := s.conn c
  if k.gapNak then s
  else
    let s := ((s.setConn c { k with gapNak := true }).sat R.XPT_CNT3.SEQ_NAK).expect c k.epsn
    s.respond c k.epsn [s.nakPkt c k.epsn 0x60 s.okNow] true

/-- A request that finds the network quota, or a task queue, without room: an unsealed RNR NAK, and the request is not taken (R325,
R383). -/
def State.rnrRefuse (s : State) (c psn : Nat) : State :=
  (s.setConn c { s.conn c with gapNak := true }).emitNet (s.conn c).port (.rnrNak c psn (s.fget R.TST_NET_CTL.RNR_TIMER))

/-- A request is refused (R396). -/
def State.refuseAt (s : State) (c psn : Nat) (st : Status) : State := (s.noteRevoked st).refuseReq c psn st

/-- PSN and MSN move past a request that has been taken: `n` PSNs, and a message where it was its last packet. -/
def State.tookReq (s : State) (c n : Nat) (last : Bool) : State :=
  let k := s.conn c
  s.setConn c { k with epsn := (k.epsn + n) % 2 ^ 24, msn := (k.msn + last.toNat) % 2 ^ 24, gapNak := false }

/-- A response to a PSN is still due. -/
def State.stillDue (s : State) (c psn : Nat) : Bool :=
  (s.conn c).due.any (fun (d : Due) => d.psn == psn) || s.tst.ops.any fun p => !p.2.lingering && match p.2.kind with
    | .netWrite n q _ | .netAtomic n q | .netRead n q _ _ _ | .netFlush n q | .netSend n q => n == c && q == psn
    | _ => false

/-- A packet answers a duplicate (R395). -/
def State.answerDup (s : State) (c psn : Nat) (p : TxPkt) : State :=
  ((s.sat R.XPT_CNT3.DUP).expect c psn).respond c psn [p] true

/-- Judges the request at the head of a connection's queue, if its opcode is among `ops`: an earlier one not yet admitted holds it
back; one out of sequence, and a duplicate, are answered as R395 says; else `take` is its effect. -/
def State.request (s : State) (c : Nat) (ops : List Nat) (dup : Pkt → State → State) (take : Pkt → State → State) : State :=
  let k := s.conn c
  match k.rxq with
  | [] => s
  | p :: _ =>
    if !ops.contains p.opcode then s
    else if k.stopped ∨ k.state ≠ .rts then s.popReq c
    else
      let d := psnDist p.psn k.epsn
      if d = 0 then
        if s.reqAhead c then s
        else if s.jnl.closed then (s.popReq c).refuseReq c p.psn .aborted
        else take p (s.popReq c)
      else if d < 2 ^ 23 then (s.popReq c).seqGap c
      else dup p (s.popReq c)

/-- The ACK a duplicate WRITE, SEND or ATOMIC WRITE receives; none while the first one's is still due. -/
def State.ackDup (c : Nat) (p : Pkt) (s : State) : State :=
  if s.stillDue c p.psn then s else s.answerDup c p.psn (s.ackPkt c p.psn .ok)

/-- A management connection carries no memory operation (R390). -/
def State.memOp (c : Nat) (f : Pkt → State → State) (p : Pkt) (s : State) : State :=
  if (s.conn c).mgmt then s.refuseReq c p.psn .access else f p s

/-! ## WRITE (R399) -/

/-- Segments of bytes at a device address, one for each tile. -/
def segsAt (a : Nat) (b : Bytes) : List Seg :=
  (spans a b.length).map fun p => { tile := p.1, off := p.2.1, bytes := slice b (p.1 * 4096 + p.2.1 - a) p.2.2 }

/-- A WRITE packet as it is judged: address, key, payload, immediate data, bytes of the message that follow, last packet; none where
it breaks the limits of R375 or the rules of a message. -/
def State.writePkt (s : State) (c : Nat) (p : Pkt) : Option (Nat × BitVec 32 × Bytes × Option (BitVec 32) × Nat × Bool) :=
  let k := s.conn c
  let first := p.opcode == 0x06 || p.opcode == 0x0A || p.opcode == 0x0B
  let last := p.opcode != 0x06 && p.opcode != 0x07
  let hasImm := p.opcode == 0x09 || p.opcode == 0x0B
  let h := if first then 16 else 0
  let imm := if hasImm then some (BitVec.ofNat 32 (beNat (slice p.plain h 4))) else none
  let pay := p.plain.drop (h + if hasImm then 4 else 0)
  let n := pay.length
  let left := if first then beNat (slice p.plain 12 4) else k.wrLeft
  let at' := if first then beNat (slice p.plain 0 8) else k.wrAddr
  let key := if first then BitVec.ofNat 32 (beNat (slice p.plain 8 4)) else k.wrKey
  let fits := decide (h + (if hasImm then 4 else 0) ≤ p.plain.length) && k.msg == [] && (if first then k.wrLeft == 0 else k.wrLeft != 0)
    && decide (left ≤ 2 ^ 31) && (if last then n == left && n ≤ k.mtu else n == k.mtu && k.mtu < left)
  if fits then some (at', key, pay, imm, left - n, last) else none

/-- A WRITE packet in its turn: judged against its key, it forms one DATA record (R103, R399). -/
def State.takeWrite (c : Nat) (p : Pkt) (s : State) : State :=
  match s.writePkt c p with
  | none => s.refuseReq c p.psn .malformed
  | some (a, key, b, imm, left, last) =>
    let ten := (s.conn c).tenant
    match s.keyCheck ten key a b.length [.write] with
    | some st => s.refuseAt c p.psn st
    | none =>
      match s.takeEntry .net { kind := .netWrite c p.psn imm, key := some (key.toNat / 256) } with
      | none => s.rnrRefuse c p.psn
      | some (tag, s) =>
        let s := (s.tookReq c 1 last).expect c p.psn
        let s := s.setConn c { s.conn c with wrAddr := a + b.length, wrLeft := left, wrKey := key }
        let s := s.keyCount (key.toNat / 256) true
        if b = [] then s.resolve tag .ok
        else (s.formRec { id := 0, body := .data (segsAt a b), mirror := true, tenant := ten, origin := 2, owner := .ops [tag] }).2

/-- RDMA_WRITE (R399). -/
def execRdmaWrite (c : Conn) (s : State) : Host.Outcome State Fault Refusal :=
  .next (s.request c.val [0x06, 0x07, 0x08, 0x09, 0x0A, 0x0B] (State.ackDup c.val) (State.memOp c.val (State.takeWrite c.val)))

/-! ## READ (R397) -/

/-- READ, Compare and Swap and Fetch and Add requests outstanding on a connection (R375). -/
def State.respOut (s : State) (c : Nat) : Nat :=
  (s.tst.ops.filter fun p => !p.2.lingering && !isDup p.1 && match p.2.kind with
    | .netRead n _ _ _ _ | .netAtomic n _ => n == c
    | _ => false).length

/-- Address, key and length of a RETH. -/
def rethOf (b : Bytes) : Nat × BitVec 32 × Nat :=
  (beNat (slice b 0 8), BitVec.ofNat 32 (beNat (slice b 8 4)), beNat (slice b 12 4))

/-- Judges a READ's length, key and extents; the refusal, or none. -/
def State.readCheck (s : State) (c : Nat) (p : Pkt) : Option Status :=
  let (a, key, n) := rethOf p.plain
  let ten := (s.conn c).tenant
  if p.plain.length ≠ 16 ∨ 16777216 < n then some .malformed
  else match s.keyCheck ten key a n [.read] with
    | some st => some st
    | none =>
      if (spans a n).all fun q => (s.extent (extOf q.1)).state == .assigned && (s.extent (extOf q.1)).owner == ten then none else some .access

/-- Serves a READ under a tag: every tile is looked up in address order, and what is at hand goes out (R397). -/
def State.serveRead (s : State) (c tag psn a n : Nat) : State :=
  let s := s.expect c psn
  let s := (spans a n).foldl (fun (s : State) q =>
    let (t, off, m) := q
    let s := if h : c < 4194304 then s.planRead (.conn ⟨c, h⟩) t else s
    let put := fun (s : State) (v : Option Bytes) => s.setConn c { s.conn c with tiles := (s.conn c).tiles ++ [(psn, t, v)] }
    match s.readSpan t off m (s.clsOf t) with
    | (.data b, s) => put s (some b)
    | (.poison, s) => put s (some [])
    | (.miss, s) => (put s none).missOp t off m (.net tag (s.fget R.JNL_JSN.JSN)) (s.clsOf t) tag) s
  s.readPump tag

/-- A READ in its turn. -/
def State.takeRead (c : Nat) (p : Pkt) (s : State) : State :=
  let (a, key, n) := rethOf p.plain
  if s.fget R.XPT_CONN_CTL.RESP_RES ≤ s.respOut c then s.refuseReq c p.psn .malformed
  else match s.readCheck c p with
    | some st => s.refuseAt c p.psn st
    | none =>
      match s.takeEntry .net { kind := .netRead c p.psn a n 0, key := some (key.toNat / 256) } with
      | none => s.rnrRefuse c p.psn
      | some (tag, s) => ((s.tookReq c (readPkts n (s.conn c).mtu) true).keyCount (key.toNat / 256) true).serveRead c tag p.psn a n

/-- A duplicate READ is served again from current memory and takes no entry (R395; log entry 62). -/
def State.dupRead (c : Nat) (p : Pkt) (s : State) : State :=
  let (a, _, n) := rethOf p.plain
  if s.stillDue c p.psn then s
  else match s.readCheck c p with
    | some st => s.refuseAt c p.psn st
    | none =>
      let tag := firstFree s.tst.ops 262144
      ((s.sat R.XPT_CNT3.DUP).setOp tag { kind := .netRead c p.psn a n 0 }).serveRead c tag p.psn a n

/-- RDMA_READ (R397). -/
def execRdmaRead (c : Conn) (s : State) : Host.Outcome State Fault Refusal :=
  .next (s.request c.val [0x0C] (State.dupRead c.val) (State.memOp c.val (State.takeRead c.val)))

/-! ## Atomics and ATOMIC WRITE (R398) -/

/-- An operation of 8 bytes inside its record's sequencer step, with an entry of its kind. -/
def State.takeAtomic (c : Nat) (p : Pkt) (a : Nat) (key : BitVec 32) (r : Right) (kind : OpKind) (op : Rmw) (s : State) : State :=
  let ten := (s.conn c).tenant
  match s.keyCheck ten key a 8 [r] with
  | some st => s.refuseAt c p.psn st
  | none =>
    match s.takeEntry .net { kind := kind, key := some (key.toNat / 256) } with
    | none => s.rnrRefuse c p.psn
    | some (tag, s) =>
      let s := ((s.tookReq c 1 true).expect c p.psn).keyCount (key.toNat / 256) true
      (s.formRec { id := 0, body := .rmw (a / 4096) (a % 4096) 8 op, mirror := true, tenant := ten, origin := 2, owner := .ops [tag] }).2

/-- Compare and Swap or Fetch and Add: AtomicETH, aligned address, RESP_RES (R375). -/
def State.takeAtomicEth (c : Nat) (swap : Bool) (p : Pkt) (s : State) : State :=
  let a := beNat (slice p.plain 0 8)
  let key := BitVec.ofNat 32 (beNat (slice p.plain 8 4))
  let x := beNat (slice p.plain 12 8)
  if p.plain.length ≠ 28 ∨ a % 8 ≠ 0 ∨ s.fget R.XPT_CONN_CTL.RESP_RES ≤ s.respOut c then s.refuseReq c p.psn .malformed
  else s.takeAtomic c p a key .atomic (.netAtomic c p.psn) (if swap then .cas (beNat (slice p.plain 20 8)) x else .add x)

/-- A duplicate atomic receives the result saved when it was first executed (R395). -/
def State.dupAtomic (c : Nat) (p : Pkt) (s : State) : State :=
  if s.stillDue c p.psn then s
  else match (s.conn c).saved.find? (·.1 == p.psn) with
    | some (_, v) => s.answerDup c p.psn
        { opcode := 0x12, psn := p.psn, plain := aeth 0x1F (s.conn c).msn ++ natBe 8 v.toNat, status := s.okNow.code }
    | none => s

/-- COMPARE_AND_SWAP (R398). -/
def execCompareAndSwap (c : Conn) (s : State) : Host.Outcome State Fault Refusal :=
  .next (s.request c.val [0x13] (State.dupAtomic c.val) (State.memOp c.val (State.takeAtomicEth c.val true)))
/-- FETCH_AND_ADD (R398). -/
def execFetchAndAdd (c : Conn) (s : State) : Host.Outcome State Fault Refusal :=
  .next (s.request c.val [0x14] (State.dupAtomic c.val) (State.memOp c.val (State.takeAtomicEth c.val false)))

/-- An ATOMIC WRITE in its turn: RETH and 8 bytes, acknowledged like a WRITE (R375, R398). -/
def State.takeAtomicWrite (c : Nat) (p : Pkt) (s : State) : State :=
  let (a, key, n) := rethOf p.plain
  if p.plain.length ≠ 24 ∨ n ≠ 8 ∨ a % 8 ≠ 0 then s.refuseReq c p.psn .malformed
  else s.takeAtomic c p a key .write (.netWrite c p.psn none) (.write (fieldAt p.plain 16 8))

/-- ATOMIC_WRITE (R375, R398). -/
def execAtomicWrite (c : Conn) (s : State) : Host.Outcome State Fault Refusal :=
  .next (s.request c.val [0x1D] (State.ackDup c.val) (State.memOp c.val (State.takeAtomicWrite c.val)))

/-! ## FLUSH (R114, R115, R400) -/

/-- The response of a FLUSH (log entry 30). -/
def State.flushPkt (s : State) (c psn : Nat) : TxPkt :=
  { opcode := 0x10, psn := psn, plain := aeth 0x1F (s.conn c).msn, status := s.okNow.code }

/-- A FLUSH in its turn: FETH and RETH; where its selectivity names a memory region its key needs the FLUSH right (R400; log entry 64).
It captures the JSN. -/
def State.takeFlush (c : Nat) (p : Pkt) (s : State) : State :=
  let (a, key, n) := rethOf (p.plain.drop 4)
  let region := beNat (slice p.plain 0 4) / 16 % 4 ≤ 1
  let whole := beNat (slice p.plain 0 4) / 16 % 4 == 1
  let bad : Option Status := if p.plain.length ≠ 20 then some .malformed
    else if !region then none
    else if whole then (match AMap.find? s.xpt.keys (key.toNat / 256) with
      | some k => s.keyCheck (s.conn c).tenant key k.base 0 [.flush]
      | none => some .access)
    else s.keyCheck (s.conn c).tenant key a n [.flush]
  match bad with
  | some st => s.refuseAt c p.psn st
  | none =>
    match s.takeEntry .net { kind := .netFlush c p.psn, key := if region then some (key.toNat / 256) else none } with
    | none => s.rnrRefuse c p.psn
    | some (tag, s) =>
      let s := (s.tookReq c 1 true).expect c p.psn
      let s := if region then s.keyCount (key.toNat / 256) true else s
      { s with jnl := { s.jnl with
        fences := s.jnl.fences ++ [{ id := s.jnl.nextId, jsn := s.fget R.JNL_JSN.JSN, owner := .flush tag }], nextId := s.jnl.nextId + 1 } }

/-- FLUSH (R114, R115, R400). -/
def execFlush (c : Conn) (s : State) : Host.Outcome State Fault Refusal :=
  .next (s.request c.val [0x1C] (fun p s => if s.stillDue c.val p.psn then s else s.answerDup c.val p.psn (s.flushPkt c.val p.psn))
    (State.memOp c.val (State.takeFlush c.val)))

/-- ROCE_UNSUPPORTED (R374): any other request opcode on a connection receives a NAK of Invalid Request. -/
def execRoceUnsupported (c : Conn) (s : State) : Host.Outcome State Fault Refusal :=
  .next (s.request c.val [0x15, 0x16, 0x17, 0x18, 0x19, 0x1A, 0x1B, 0x1E, 0x1F] (fun _ s => s) (fun p s => s.refuseReq c.val p.psn .malformed))

end Sys2Proof.Machine
end

