-- ==== Sys2Proof/Machine/Sends.lean ====
section
/-! DEFINITION. SEND commands (R401 to R411): task descriptors, walk plans, key commands and work-request posts. -/

namespace Sys2Proof.Machine

/-! ## A SEND message -/

/-- Payload and immediate data of a SEND packet; none where it breaks the rules of a message or the limit of R375. -/
def State.sendPart (s : State) (c : Nat) (p : Pkt) : Option (Bytes × Option (BitVec 32) × Bool) :=
  let k := s.conn c
  let first := p.opcode == 0x00 || p.opcode == 0x04 || p.opcode == 0x05
  let last := p.opcode != 0x00 && p.opcode != 0x01
  let hasImm := p.opcode == 0x03 || p.opcode == 0x05
  let pay := if hasImm then p.plain.drop 4 else p.plain
  let fits := (!hasImm || decide (4 ≤ p.plain.length)) && k.wrLeft == 0 && (first == (k.msg == []))
    && (if last then decide (pay.length ≤ k.mtu) else pay.length == k.mtu) && decide (k.msg.length + pay.length ≤ 65568)
  if fits then some (k.msg ++ pay, if hasImm then some (BitVec.ofNat 32 (beNat (p.plain.take 4))) else none, last) else none

/-- What a SEND command amounts to: the outcome its ACK carries (R402), or an RNR NAK (R294, R321). -/
inductive SendOut where
  | done (st : Status)
  | rnr
  deriving DecidableEq, Repr

/-- A SEND packet in its turn. `run` is the command's effect on a complete payload and its outcome; none where the payload is
another row's command, and the packet stays. An empty payload with immediate data is a gate message alone (R403). -/
def State.takeSend (c : Nat) (run : Bytes → State → Option (SendOut × State)) (p : Pkt) (s : State) : Option State :=
  match s.sendPart c p with
  | none => some (s.refuseReq c p.psn .malformed)
  | some (b, _, false) =>
    let s := (s.setConn c { s.conn c with msg := b }).tookReq c 1 false
    some ((s.expect c p.psn).respond c p.psn [s.ackPkt c p.psn .ok] true)
  | some (b, imm, true) =>
    match s.takeEntry .net { kind := .netSend c p.psn } with
    | none => some (s.rnrRefuse c p.psn)
    | some (tag, t) =>
      match (if b = [] ∧ imm.isSome then some (SendOut.done .ok, t) else run b t) with
      | none => none
      | some (.rnr, _) => some (s.rnrRefuse c p.psn)
      | some (.done st, t) =>
        let t := ((t.setConn c { t.conn c with msg := [] }).tookReq c 1 true).expect c p.psn
        let t := t.resolve tag st
        some (match imm with
          | some i => if st = .ok then t.gateMessage (t.conn c).tenant i.toNat else t
          | none => t)

/-- The commands of R401 by their MAGIC. -/
def magics : List Nat := [0x7A5C, 0x57A1, 0x57C0, 0x6B3D, 0x3A91]
/-- Whether a payload is that of a row's command; one that is nobody's is MALFORMED under any row (R402). -/
def isCommand (magic : Nat) (b : Bytes) : Bool := (fieldAt b 0 2 == magic && 2 ≤ b.length) || !magics.contains (fieldAt b 0 2) || b.length < 2

/-- The row of a SEND command: `run` is its effect where the payload is its own. -/
def State.sendRow (s : State) (c magic : Nat) (run : Bytes → State → SendOut × State) : State :=
  s.request c [0x00, 0x01, 0x02, 0x03, 0x04, 0x05] (State.ackDup c) fun p t =>
    (t.takeSend c (fun b t =>
      if !isCommand magic b then none
      else if fieldAt b 0 2 ≠ magic ∨ b.length < 2 then some (.done .malformed, t)
      else some (run b t)) p).getD s

/-! ## Task descriptors (R294, R390) -/

/-- A management descriptor enters the management queue (R314); a malformed one completes at once (R291), one that names no management
program with ACCESS (R315, R390). -/
def State.acceptMgmt (s : State) (b : Bytes) (src : MgmtSrc) : State :=
  let d := descOf b
  let t := d.task s.ksk.mgmtSeq 0 0 none
  let s := { s with ksk := { s.ksk with mgmtSeq := s.ksk.mgmtSeq + 1 } }
  if !descForm b then s.mgmtDone t src .malformed
  else if d.kind ≠ 0 then s.mgmtDone t src .access
  else { s with ksk := { s.ksk with mgmt := s.ksk.mgmt ++ [(t, src)] } }

/-- The descriptors of a payload. -/
def descsOf (b : Bytes) : List Bytes := (List.range (b.length / 128)).map fun i => slice b (128 * i) 128

/-- SEND_TASK_DESCRIPTORS (R294): all of the descriptors or none. -/
def State.runTasks (c : Nat) (b : Bytes) (s : State) : SendOut × State :=
  let k := s.conn c
  let ds := descsOf b
  if b.length % 128 ≠ 0 ∨ ds = [] ∨ 32 < ds.length then (.done .malformed, s)
  else if k.mgmt then
    if 64 < s.ksk.mgmt.length + ds.length then (.rnr, s)
    else (.done .ok, ds.foldl (fun s d => s.acceptMgmt d (.rdma c)) s)
  else match k.bind with
    | none => (.done .access, s)
    | some q =>
      if s.fget (R.KSK_QCFG0.TENANT q) ≠ k.tenant.toNat then (.done .access, s)
      else if !s.queueRoom q ds.length then (.rnr, s)
      else (.done .ok, ds.foldl (fun s d => s.acceptDesc q d) s)

/-- SEND_TASK_DESCRIPTORS (R294, R401). -/
def execSendTaskDescriptors (c : Conn) (s : State) : Host.Outcome State Fault Refusal := .next (s.sendRow c.val 0x7A5C (State.runTasks c.val))

/-- Every other command completes with ACCESS on a management connection (R390). -/
def State.tenantOnly (c : Nat) (f : Bytes → State → SendOut × State) (b : Bytes) (s : State) : SendOut × State :=
  if (s.conn c).mgmt then (.done .access, s) else f b s

/-! ## Walk plans (R228, R229, R402) -/

/-- A plan of the connection's; it replaces the one before it. -/
def State.runPlan (c : Conn) (b : Bytes) (s : State) : SendOut × State :=
  if b.length ≠ 32 + 16 * fieldAt b 4 2 then (.done .malformed, s)
  else match parsePlan b (s.conn c.val).tenant s.timeNs with
    | none => (.done .malformed, s)
    | some p =>
      if (s.planOf (.conn c)).isNone ∧ 4096 ≤ s.hostPlans then (.done .nospace, s) else (.done .ok, s.declarePlan (.conn c) p)

/-- SEND_WALK_PLAN. -/
def execSendWalkPlan (c : Conn) (s : State) : Host.Outcome State Fault Refusal :=
  .next (s.sendRow c.val 0x57A1 (State.tenantOnly c.val (State.runPlan c)))

/-- SEND_PLAN_CANCEL. -/
def execSendPlanCancel (c : Conn) (s : State) : Host.Outcome State Fault Refusal :=
  .next (s.sendRow c.val 0x57C0 (State.tenantOnly c.val fun b s =>
    if b.length ≠ 8 ∨ fieldAt b 2 6 ≠ 0 then (.done .malformed, s) else (.done .ok, s.endPlan (.conn c))))

/-! ## Key commands (R404, R405) -/

/-- The key ranges of a tenant hold an index (R404). -/
def State.inRange (s : State) (t : BitVec 24) (i : Nat) : Bool :=
  (s.listed R.XPT_KRANGE0.VALID 4096).any fun r =>
    s.fget (R.XPT_KRANGE0.TENANT r) == t.toNat && s.fget (R.XPT_KRANGE1.FIRST r) ≤ i && i < s.fget (R.XPT_KRANGE1.FIRST r) + s.fget (R.XPT_KRANGE1.COUNT r)

/-- Every extent of a range of bytes is ASSIGNED to a tenant. -/
def State.ownsRange (s : State) (t : BitVec 24) (a n : Nat) : Bool :=
  (List.range ((a + n - 1) / 2 ^ 30 + 1 - a / 2 ^ 30)).all fun i =>
    (s.extent (a / 2 ^ 30 + i)).state == .assigned && (s.extent (a / 2 ^ 30 + i)).owner == t

/-- Fields that both actions share: VERSION, reserved bytes. -/
def keyForm (b : Bytes) : Bool := b.length == 64 && fieldAt b 2 1 == 1 && fieldAt b 25 3 == 0 && fieldAt b 40 24 == 0

/-- The row a key command of another ACTION, or of a wrong form, may take: either. -/
def otherAction (b : Bytes) (action : Nat) : Bool := b.length == 64 && fieldAt b 3 1 == action

/-- REGISTER (R405): fields, then ranges and extents, then the entry. -/
def State.runRegister (c : Nat) (b : Bytes) (s : State) : SendOut × State :=
  let t := (s.conn c).tenant
  let key := fieldAt b 4 4
  let a := fieldAt b 8 8
  let n := fieldAt b 16 8
  if !keyForm b ∨ fieldAt b 3 1 ≠ 1 ∨ 2 ^ 49 ≤ a ∨ n = 0 ∨ 2 ^ 49 < a + n ∨ 32 ≤ fieldAt b 24 1 ∨ fieldAt b 28 4 ≠ 0 then (.done .malformed, s)
  else if !s.inRange t (key / 256) ∨ !s.ownsRange t a n then (.done .access, s)
  else if (AMap.find? s.xpt.keys (key / 256)).isSome then (.done .nospace, s)
  else
    let k : Key := { state := .valid, variant := BitVec.ofNat 8 key, tenant := t, base := a, len := n, rights := BitVec.ofNat 5 (fieldAt b 24 1) }
    (.done .ok, ({ s with xpt := { s.xpt with keys := AMap.put s.xpt.keys (key / 256) k } }).inc R.XPT_KEY_STAT.VALID)

/-- REVOKE (R405): the key is REVOKING before the ACK, and FREE once nothing admitted under it is left (R407). -/
def State.runRevoke (c : Nat) (b : Bytes) (s : State) : SendOut × State :=
  let t := (s.conn c).tenant
  let key := fieldAt b 4 4
  if !keyForm b ∨ fieldAt b 3 1 ≠ 2 ∨ fieldAt b 8 8 ≠ 0 ∨ fieldAt b 16 8 ≠ 0 ∨ fieldAt b 24 1 ≠ 0 ∨ 2 ^ 20 ≤ fieldAt b 28 4 then (.done .malformed, s)
  else match AMap.find? s.xpt.keys (key / 256) with
    | none => (.done .access, s)
    | some k =>
      if k.state ≠ .valid ∨ k.tenant ≠ t ∨ k.variant.toNat ≠ key % 256 then (.done .access, s)
      else
        let k := { k with state := .revoking, cq := fieldAt b 28 4, userTag := BitVec.ofNat 64 (fieldAt b 32 8) }
        let s := { s with xpt := { s.xpt with keys := AMap.put s.xpt.keys (key / 256) k } }
        (.done .ok, ((s.dec R.XPT_KEY_STAT.VALID).inc R.XPT_KEY_STAT.REVOKING).keySettle (key / 256))

/-- The row of one ACTION: it leaves the other's commands to the other row. -/
def State.keyRow (s : State) (c action : Nat) (run : Bytes → State → SendOut × State) : State :=
  s.request c [0x00, 0x01, 0x02, 0x03, 0x04, 0x05] (State.ackDup c) fun p t =>
    (t.takeSend c (fun b t =>
      if !isCommand 0x6B3D b ∨ (fieldAt b 0 2 = 0x6B3D ∧ otherAction b (3 - action)) then none
      else if fieldAt b 0 2 ≠ 0x6B3D ∨ b.length < 2 then some (.done .malformed, t)
      else some (State.tenantOnly c run b t)) p).getD s

/-- REGISTER (R405). -/
def execRegister (c : Conn) (s : State) : Host.Outcome State Fault Refusal := .next (s.keyRow c.val 1 (State.runRegister c.val))
/-- REVOKE (R405, R407). -/
def execRevoke (c : Conn) (s : State) : Host.Outcome State Fault Refusal := .next (s.keyRow c.val 2 (State.runRevoke c.val))

/-! ## Work-request posts (R409 to R412) -/

/-- A work request of a post (R409). -/
def wrOf (b : Bytes) (tenant : BitVec 24) : Wr :=
  { id := 0, conn := fieldAt b 4 4 - 0x400000, tenant := tenant, opcode := fieldAt b 0 1, signaled := fieldAt b 1 1 % 2 = 1
    fence := fieldAt b 1 1 / 2 % 2 = 1, durable := fieldAt b 1 1 / 4 % 2 = 1, gate := fieldAt b 2 1, gateArg := fieldAt b 40 4
    gateCq := fieldAt b 44 4, localAddr := fieldAt b 8 8, localKey := BitVec.ofNat 32 (fieldAt b 16 4), len := fieldAt b 20 4
    remoteVa := BitVec.ofNat 64 (fieldAt b 24 8), remoteKey := BitVec.ofNat 32 (fieldAt b 32 4), imm := BitVec.ofNat 32 (fieldAt b 36 4)
    userTag := BitVec.ofNat 64 (fieldAt b 48 8), cq := fieldAt b 56 4 }

/-- A completion queue of a tenant. -/
def State.cqOf (s : State) (t : BitVec 24) (c : Nat) : Bool :=
  c < 65536 && s.flag (R.STA_CQ0.VALID c) && s.fget (R.STA_CQ0.TENANT c) == t.toNat

/-- Rights a work request's local buffer needs (R407). -/
def wrRights (w : Wr) : List Right := if w.opcode = 5 then [.sendLocal, .write] else [.sendLocal, .read]

/-- The checks of R410 on one work request: its refusal, or none. -/
def State.wrCheck (s : State) (b : Bytes) (w : Wr) : Option Status :=
  if w.opcode = 0 ∨ 6 < w.opcode ∨ 8 ≤ fieldAt b 1 1 ∨ 2 < w.gate ∨ fieldAt b 3 1 ≠ 0 ∨ fieldAt b 60 4 ≠ 0 ∨ 16777216 < w.len
      ∨ (w.gate = 1 ∧ w.gateArg = 0) ∨ 2 ^ 20 ≤ w.cq ∨ (w.gate = 2 ∧ 2 ^ 20 ≤ w.gateCq) then some .malformed
  else if fieldAt b 4 4 < 0x400000 ∨ 4194304 ≤ w.conn ∨ (s.conn w.conn).state ≠ .rts ∨ (s.conn w.conn).tenant ≠ w.tenant then some .access
  else if !s.cqOf w.tenant w.cq ∨ (w.gate = 2 ∧ !s.cqOf w.tenant w.gateCq) then some .access
  else if w.opcode ≠ 6 ∧ (s.keyCheck w.tenant w.localKey w.localAddr w.len (wrRights w)).isSome then some .access
  else none

/-- Adds a work request to the pool; one without a gate, or whose count has been reached, is open (R412). -/
def State.poolWr (s : State) (w : Wr) : State :=
  let now := w.gate == 0 || (w.gate == 2 && gateReached (s.fget (R.STA_CQ3.COUNT w.gateCq)) w.gateArg)
  let w := { w with id := s.xpt.nextWr, opened := if now then some (s.fget R.JNL_JSN.JSN) else none }
  ({ s with xpt := { s.xpt with wrs := s.xpt.wrs ++ [w], nextWr := w.id + 1 } }).inc R.XPT_WR_STAT.POOL_USED

/-- WORK_REQUEST_POST (R409 to R411): all of a post's work requests or none. -/
def State.runPost (c : Nat) (b : Bytes) (s : State) : SendOut × State :=
  let n := fieldAt b 3 1
  let parts := (List.range n).map fun i => slice b (16 + 64 * i) 64
  let ws := parts.map fun q => (q, wrOf q (s.conn c).tenant)
  if fieldAt b 2 1 ≠ 1 ∨ n = 0 ∨ 32 < n ∨ b.length ≠ 16 + 64 * n ∨ fieldAt b 4 12 ≠ 0 then (.done .malformed, s)
  else match ws.findSome? fun p => s.wrCheck p.1 p.2 with
    | some st => (.done st, s)
    | none =>
      let per := s.fget R.XPT_WR_CTL.PER_CONN
      let on := fun (d : Nat) => (s.xpt.wrs.filter fun w => w.conn = d ∧ w.target.isNone).length + (ws.filter fun p => p.2.conn = d).length
      if 65536 < s.fget R.XPT_WR_STAT.POOL_USED + n ∨ ws.any fun p => per < on p.2.conn then (.done .nospace, s)
      else (.done .ok, ws.foldl (fun s p => s.poolWr p.2) s)

/-- WORK_REQUEST_POST. -/
def execWorkRequestPost (c : Conn) (s : State) : Host.Outcome State Fault Refusal :=
  .next (s.sendRow c.val 0x3A91 (State.tenantOnly c.val (State.runPost c.val)))

end Sys2Proof.Machine
end

