-- ==== Sys2Proof/Machine/Works.lean ====
section
/-! DEFINITION. The device as requester: issue of work requests, acknowledgements, READ responses, retries (R366, R367, R412 to R415). -/

namespace Sys2Proof.Machine

/-! ## Issue (R413) -/

/-- The work request of a connection whose turn it is: the first opened one not yet issued (R413). -/
def State.nextWrOf (s : State) (c : Nat) : Option Wr := s.xpt.wrs.find? fun w => w.conn == c && w.opened.isSome && w.issued.isNone

/-- What holds an opened work request back: FENCE, INIT_DEPTH, DURABLE (R413). -/
def State.wrHeld (s : State) (w : Wr) : Bool :=
  (w.fence && s.xpt.wrs.any fun v => v.conn == w.conn && v.id < w.id && v.target.isNone)
    || (w.opcode == 5 && s.fget R.XPT_CONN_CTL.INIT_DEPTH ≤ (s.xpt.wrs.filter fun v => v.conn == w.conn && v.opcode == 5 && v.issued.isSome && v.target.isNone).length)
    || (w.durable && w.opcode != 5 && s.prmState == 2 && decide (s.fget R.JNL_MIRROR_JSN.JSN < w.opened.getD 0))

/-- WR_ISSUE (R413): a NOP completes; any other takes an entry and its PSNs, and its packets go out as R366 lets them. A key that is
REVOKING ends it with REVOKED (R415), one gone with ACCESS (R407). -/
def execWrIssue (c : Conn) (s : State) : Host.Outcome State Fault Refusal :=
  .next (match s.nextWrOf c.val with
    | none => s
    | some w =>
      let k := s.conn c.val
      if k.state ≠ .rts ∨ s.jnl.closed ∨ s.wrHeld w then s
      else if w.opcode = 6 then s.wrDone w.id .ok
      else match s.keyCheck w.tenant w.localKey w.localAddr w.len (wrRights w) with
        | some st => (s.noteRevoked st).wrDone w.id st
        | none => match s.takeEntry .net { kind := .netReq c.val w.id } with
          | none => s
          | some (tag, s) =>
            let s := (s.setWr { w with issued := some (tag, k.npsn) }).keyCount (w.localKey.toNat / 256) true
            let s := s.setConn c.val { k with npsn := (k.npsn + wrPsns w k.mtu) % 2 ^ 24 }
            if w.opcode = 5 then s.sendIssued c.val else s.wrPump w.id)

/-! ## Acknowledgements (R366, R367, R415) -/

/-- RTT samples of the packets that an acknowledgement up to `psn` covers (R367). -/
def State.rttUpTo (s : State) (c psn : Nat) : State :=
  let k := s.conn c
  let hit := fun (p : Nat × Nat) => decide (psnDist psn p.1 < 2 ^ 23)
  let srtt := (k.stamps.filter hit).foldl (fun r p => (7 * r + (s.timeNs - p.2)) / 8) k.srtt
  s.setConn c { k with srtt := srtt, stamps := k.stamps.filter fun p => !hit p }

/-- A READ all of whose response packets have arrived. -/
def Wr.allRead (w : Wr) (mtu : Nat) : Bool := w.opcode == 5 && wrPsns w mtu ≤ w.acked

/-- One of the device's own transfers is over. -/
def State.dropWr (s : State) (id : Nat) : State := { s with xpt := { s.xpt with wrs := s.xpt.wrs.filter fun w => w.id ≠ id } }

/-- A request of the device ends by the host's NAK or for want of an answer: a work request with a status (R415); one of the device's own
transfers takes the connection, and so its target, with it (R608). -/
def State.failWr (s : State) (c : Nat) (w : Wr) (st : Status) : State :=
  match w.issued with
  | none => s
  | some (tag, psn) => if w.target.isSome then s.connError c st psn else s.resolve tag st

/-- Acknowledges the packets of the issued work requests up to `psn`, in order, as far as the first READ that waits for data. -/
def State.ackUpTo (s : State) (c psn : Nat) : State :=
  let s := s.rttUpTo c psn
  ((s.issuedOf c).foldl (fun (p : Bool × State) w =>
    let (stop, s) := p
    match w.issued with
    | some (tag, f) =>
      let mtu := (s.conn c).mtu
      if w.allRead mtu then (stop, s)
      else if stop ∨ w.opcode = 5 ∨ 2 ^ 23 ≤ psnDist psn f then (true, s)
      else
        let upto := min (psnDist psn f + 1) w.sent
        let got := ((List.range upto).filter (w.acked ≤ ·)).foldl (fun n i => n + wrLoad w mtu i) 0
        let k := s.conn c
        let s := s.setConn c { k with outstanding := k.outstanding - got }
        let s := s.setWr { w with acked := max w.acked upto, done := w.done + got, retries := if w.acked < upto then 0 else w.retries }
        if upto = wrPkts w mtu then (false, if w.target.isSome then s.dropWr w.id else s.resolve tag .ok) else (true, s)
    | none => (stop, s)) (false, s)).2

/-- Goes back to what is unacknowledged and sends it again (R414). -/
def State.resendWrs (s : State) (c : Nat) : State :=
  let s := (s.issuedOf c).foldl (fun s w =>
    s.setWr { w with sent := if w.allRead (s.conn c).mtu then w.sent else if w.opcode = 5 then 0 else w.acked }) s
  (s.setConn c { s.conn c with outstanding := 0 }).sendIssued c

/-- The issued work request whose PSNs hold `psn`. -/
def State.wrAt (s : State) (c psn : Nat) : Option Wr :=
  (s.issuedOf c).find? fun w => match w.issued with
    | some (_, f) => psnDist psn f < wrPsns w (s.conn c).mtu
    | none => false

/-- The head of a connection's queue, where it is a response of one of these opcodes. -/
def State.respHead (s : State) (c : Nat) (ops : List Nat) : Option Pkt :=
  match (s.conn c).rxq with
  | p :: _ => if ops.contains p.opcode then some p else none
  | [] => none

/-- ROCE_ACKNOWLEDGE (R373, R415): an ACK completes requests, a NAK of PSN Sequence Error has them sent again, other NAKs end the one
they name. -/
def execRoceAcknowledge (c : Conn) (s : State) : Host.Outcome State Fault Refusal :=
  .next (match s.respHead c.val [0x11] with
    | none => s
    | some p =>
      let s := s.popReq c.val
      let syn := fieldAt p.plain 0 1
      if p.plain.length ≠ 4 then s
      else if syn / 32 % 4 = 0 then (s.ackUpTo c.val p.psn).sendIssued c.val
      else if syn / 32 % 4 = 3 then
        let s := s.ackUpTo c.val ((p.psn + 2 ^ 24 - 1) % 2 ^ 24)
        if syn % 32 = 0 then s.resendWrs c.val
        else match s.wrAt c.val p.psn with
          | some w => s.failWr c.val w (if syn % 32 = 2 then .access else .fault)
          | none => s
      else s)

/-- RDMA_READ_RESPONSE (R413): the next packet of the oldest READ that waits for data forms one DATA record; it acknowledges what was sent
before the READ. Any other is discarded. -/
def execRdmaReadResponse (c : Conn) (s : State) : Host.Outcome State Fault Refusal :=
  .next (match s.respHead c.val [0x0D, 0x0E, 0x0F, 0x10] with
    | none => s
    | some p =>
      let s := s.popReq c.val
      match s.wrAt c.val p.psn with
      | none => s
      | some w => match w.issued with
        | none => s
        | some (tag, f) =>
          let mtu := (s.conn c.val).mtu
          let i := psnDist p.psn f
          let b := if p.opcode = 0x0E then p.plain else p.plain.drop 4
          let n := min mtu (w.len - i * mtu)
          if w.opcode ≠ 5 ∨ i ≠ w.acked ∨ w.sent = 0 ∨ b.length ≠ n then s
          else
            let s := (s.ackUpTo c.val ((f + 2 ^ 24 - 1) % 2 ^ 24)).rttUpTo c.val f
            let own := w.target.isSome
            let s := s.setWr { w with acked := i + 1, done := w.done + n, retries := 0, recs := w.recs + if n = 0 ∨ own then 0 else 1 }
            if own then (if wrPsns w mtu ≤ i + 1 then s.dropWr w.id else s)
            else if n = 0 then s.readWrDone tag w.id
            else (s.formRec { id := 0, body := .data (segsAt (w.localAddr + i * mtu) b), mirror := true, tenant := w.tenant, origin := 2
                              owner := .read tag w.id }).2)

/-! ## Retries (R414) -/

/-- RNR_NAK (R383, R414): what precedes the named packet is acknowledged, and the request waits for the host's timer. It is accepted
unsealed, on the connection's own port. -/
def execRnrNak (c : Conn) (psn : BitVec 24) (_timer : BitVec 5) (s : State) : Host.Outcome State Fault Refusal :=
  .next (let k := s.conn c.val
    if (k.state ≠ .rts ∧ k.state ≠ .closing) ∨ !s.netSends k.port then s
    else
      let s := s.ackUpTo c.val ((psn.toNat + 2 ^ 24 - 1) % 2 ^ 24)
      match s.wrAt c.val psn.toNat with
      | some w =>
        let s := (s.issuedOf c.val).foldl (fun s v => s.setWr { v with sent := if v.opcode = 5 then (if v.id = w.id then 0 else v.sent) else v.acked }) s
        (s.setWr { w with rnr := true, sent := if w.opcode = 5 then 0 else w.acked }).setConn c.val { s.conn c.val with outstanding := 0 }
      | none => s)

/-- RNR_RETRY_TIMER (R414): the timer of the RNR NAK has run out (log entry 5). -/
def execRnrRetryTimer (c : Conn) (s : State) : Host.Outcome State Fault Refusal :=
  .next ({ s with xpt := { s.xpt with wrs := s.xpt.wrs.map fun (w : Wr) =>
    if w.conn = c.val then { w with rnr := false } else w } }.sendIssued c.val)

/-- REQ_ACK_TIMEOUT (R414, R415): the oldest unacknowledged request has waited ACK_TMO_US (log entry 5): it is sent again, and TIMEOUT
after RETRY_CNT retries. -/
def execReqAckTimeout (c : Conn) (s : State) : Host.Outcome State Fault Refusal :=
  .next (match (s.issuedOf c.val).find? fun w => !w.allRead (s.conn c.val).mtu with
    | none => s
    | some w =>
      if w.sent = 0 ∨ w.rnr then s
      else if w.retries < s.fget R.XPT_REQ_CTL.RETRY_CNT then (s.setWr { w with retries := w.retries + 1 }).resendWrs c.val
      else s.failWr c.val w .timeout)

/-! ## The device's own transfers (R607) -/

/-- A tag that no Turnstile entry has. -/
def noTag : Nat := 2 ^ 30

/-- The oldest transfer due on an RDMA target becomes a WRITE or a READ on its connection, under the target's RKEY. -/
def State.startXfer (s : State) : State :=
  match s.sta.xfers with
  | [] => s
  | (t, addr, b, n) :: rest =>
    let s := { s with sta := { s.sta with xfers := rest } }
    let c := s.fget (R.STA_TGT0.ENDPOINT t) - 0x400000
    let k := s.conn c
    if k.state ≠ .rts ∨ !s.targetReady t then s
    else
      let w : Wr :=
        { id := s.xpt.nextWr, conn := c, tenant := k.tenant, opcode := if b = [] then 5 else 1, signaled := false, fence := false
          durable := false, gate := 0, gateArg := 0, gateCq := 0, localAddr := 0, localKey := 0, len := if b = [] then n else b.length
          remoteVa := BitVec.ofNat 64 addr, remoteKey := BitVec.ofNat 32 (s.fget (R.STA_TGT1.RKEY t)), imm := 0, userTag := 0, cq := 0
          opened := some 0, issued := some (noTag, k.npsn), buf := b, target := some t }
      let s := { s with xpt := { s.xpt with wrs := s.xpt.wrs ++ [w], nextWr := w.id + 1 } }
      (s.setConn c { k with npsn := (k.npsn + wrPsns w k.mtu) % 2 ^ 24 }).sendIssued c

/-- All of them. -/
def State.startXfers (s : State) : State := s.sta.xfers.foldl (fun s _ => s.startXfer) s

end Sys2Proof.Machine
end

