-- ==== Sys2Proof/Machine/Cxl.lean ====
section
/-! DEFINITION. CXL ports and logical devices (R418 to R444): credits, loads and stores, Global Persistent Flush, Dynamic Capacity, the
mailbox and DOE, links and resets, rings and plans. -/

namespace Sys2Proof.Machine

/-! ## Presence and credits (R425, R426, R458, R547) -/

/-- Tenant of a logical device (R426). -/
def State.ldTenant (s : State) (l : Nat) : BitVec 24 := BitVec.ofNat 24 (s.fget (R.CXL_LD_CFG.TENANT l))
/-- An LD that is presented: VALID, and LD 0 alone on an SLD (R418, R426). -/
def State.ldShown (s : State) (l : Nat) : Bool :=
  s.flag (R.CXL_LD_CFG.VALID l) && (s.flag (R.CXL_PORT_STAT.MLD (portOf l)) || l % 16 == 0)
/-- A host reaches the LD's configuration, DOE and mailbox. -/
def State.ldUp (s : State) (l : Nat) : Bool := s.cxlUp (portOf l) && s.ldShown l
/-- The LD returns CXL.mem credits. -/
def State.ldCredits (s : State) (l : Nat) : Bool :=
  let p := portOf l
  let auth := match s.tenant (s.ldTenant l) with | some t => t.cxlAuth | none => false
  s.fget (R.CXL_PORT_STAT.STATE p) == 2 && s.ldShown l && s.flag R.SUP_START_STAT.SERVING
    && (!s.flag (R.CXL_PORT_CFG.IDE_REQ p) || s.flag (R.CXL_PORT_STAT.IDE_ACTIVE p)) && (!auth || (s.ld l).auth)

/-! ## Loads and stores (R427, R433 to R435) -/

/-- A request is served if its extent is ASSIGNED to the LD's tenant and accepted by the LD (R427). -/
def State.ldMay (s : State) (l a : Nat) : Bool :=
  let x := s.extent (a / 2 ^ 30)
  x.state == .assigned && x.owner == s.ldTenant l && x.accepted.getLsbD l

/-- A write of the LD to a 64-byte line that has not been admitted or refused (R434). -/
def Op.writesLine (o : Op) (l a : Nat) : Bool :=
  !o.lingering && o.jsn.isNone && match o.kind with
    | .cxlWr m _ b => m == l && b / 64 == a / 64
    | _ => false

/-- The writes of the LD to a line that a MemRd arriving now comes after (R434). -/
def State.lineWrites (s : State) (l a : Nat) : List Nat := (s.tst.ops.filter fun p => p.2.writesLine l a).map (·.1)

/-- A MemRd that has its entry (R434, R435). -/
def State.loadLine (s : State) (l tag a : Nat) : State :=
  let t := a / 4096
  if s.jnl.closed then s.resolve tag .aborted
  else if !s.ldMay l a then s.resolve tag .access
  else
    let s := if h : l < 32 then s.planRead (.ld ⟨l, h⟩) t else s
    match s.readSpan t (a % 4096) 64 (s.clsOf t) with
    | (.data b, s) => s.resolve tag .ok b
    | (.poison, s) => s.resolve tag .poisoned
    | (.miss, s) => s.missOp t (a % 4096) 64 (.cxl tag (s.fget R.JNL_JSN.JSN)) (s.clsOf t) tag

/-- The combining window of an LD and a tile ends: one DATA record (R103). -/
def State.closeComb (s : State) (l t : Nat) : State :=
  match s.cxl.comb.find? fun w => w.ld = l ∧ w.tile = t with
  | none => s
  | some w =>
    let s := { s with cxl := { s.cxl with comb := s.cxl.comb.filter fun w => !(w.ld == l && w.tile == t) } }
    (s.formRec { id := 0, body := .data w.segs, mirror := true, tenant := s.ldTenant l, origin := portOf l, owner := .ops w.tags }).2

/-- Bytes of segments by device address. -/
def segBytes (l : List Seg) : AMap Byte := l.foldl (fun m g => stageBytes m (g.tile * 4096 + g.off) g.bytes) []

/-- The enabled bytes of a line, by device address (R433). -/
def lineBytes (a : Nat) (d : Vec) (be : BitVec 64) : List (Nat × Byte) :=
  ((List.range 64).filter fun i => be.getLsbD i).map fun i => (a + i, d.extractLsb' (8 * i) 8)

/-- A MemWr or MemWrPtl that has its entry joins a window of its LD and tile, or opens one (R103, R433). -/
def State.storeLine (s : State) (l tag a : Nat) (d : Vec) (be : BitVec 64) (poison : Bool) : State :=
  let t := a / 4096
  if s.jnl.closed then s.resolve tag .aborted
  else if poison then s.resolve tag .malformed
  else if !s.ldMay l a then s.resolve tag .access
  else if be = 0 then s.resolve tag .ok
  else
    let mine := lineBytes a d be
    let add := fun (m : AMap Byte) => mine.foldl (fun m p => AMap.put m p.1 p.2) m
    let fresh : Combine := { ld := l, tile := t, tags := [tag], segs := stagedSegs (add []) }
    let opens := fun (s : State) => { s with cxl := { s.cxl with comb := s.cxl.comb ++ [fresh] } }
    match s.cxl.comb.find? fun w => w.ld = l ∧ w.tile = t with
    | none => opens s
    | some w =>
      let segs := stagedSegs (add (segBytes w.segs))
      if 64 < segs.length then opens (s.closeComb l t)
      else
        let s := { s with cxl := { s.cxl with
          comb := s.cxl.comb.map fun (v : Combine) => if v.ld = l ∧ v.tile = t then { v with tags := v.tags ++ [tag], segs := segs } else v } }
        s.inc (R.CXL_PORT_CNT.COMBINED (portOf l))

/-- Writes of a port that have been accepted and not admitted (R115). -/
def State.portWrites (s : State) (p : Nat) : Bool :=
  s.tst.ops.any fun q => !q.2.lingering && q.2.jsn.isNone && match q.2.kind with
    | .cxlWr l _ _ => portOf l == p
    | _ => false

/-- A MemRd that was held for writes of its line is probed once each has been admitted or refused (R434). -/
def State.unholdRead (s : State) (tag : Nat) (o : Op) : State :=
  match o.kind with
  | .cxlRd l _ a =>
    if o.lingering ∨ o.after = [] ∨ o.after.any (fun w => (AMap.find? s.tst.ops w).any fun q => q.writesLine l a) then s
    else (s.setOp tag { o with after := [] }).loadLine l tag a
  | _ => s

/-- The held MemRds, by tag. -/
def State.unholdReads (s : State) : State :=
  s.tst.ops.foldl (fun s p => match AMap.find? s.tst.ops p.1 with | some o => s.unholdRead p.1 o | none => s) s

/-- A request of a port takes effect, or none where it must wait: for an entry (R325), or for the writes before a flush (R115). A MemRd after
a write of its line has its entry, and is held there (R323, R434). -/
def State.cxlTry (s : State) (i : Instr) : Option State :=
  match i with
  | .memRd l a tag =>
    let a := a.toNat / 64 * 64
    let ws := s.lineWrites l.val a
    (s.takeEntry (.cxl (portOf l.val)) { kind := .cxlRd l.val tag.toNat a, after := ws }).map fun p =>
      if ws = [] then p.2.loadLine l.val p.1 a else p.2
  | .memWr l a tag d be poison =>
    let a := a.toNat / 64 * 64
    (s.takeEntry (.cxl (portOf l.val)) { kind := .cxlWr l.val tag.toNat a }).map fun p => p.2.storeLine l.val p.1 a d be poison
  | .globalPersistentFlush p =>
    if s.portWrites p.val then none
    else some { s with jnl := { s.jnl with
      fences := s.jnl.fences ++ [{ id := s.jnl.nextId, jsn := s.fget R.JNL_JSN.JSN, owner := .gpf p.val }], nextId := s.jnl.nextId + 1 } }
  | _ => some s

/-- Port of a request. -/
def reqPort : Instr → Nat
  | .memRd l _ _ => portOf l.val
  | .memWr l _ _ _ _ _ => portOf l.val
  | .globalPersistentFlush p => p.val
  | _ => 0

/-- The requests of a port's receive buffer go on in arrival order as far as they can (log entry 66). -/
def State.cxlPump (s : State) (p : Nat) : State :=
  (s.cxl.rxq.foldl (fun (q : Bool × State) i =>
    if q.1 ∨ reqPort i ≠ p then q
    else match { q.2 with cxl := { q.2.cxl with rxq := q.2.cxl.rxq.erase i } }.cxlTry i with
      | some s => (false, s)
      | none => (true, q.2)) (false, s.unholdReads)).2

/-- A request arrives: behind those that wait. -/
def State.cxlArrive (s : State) (p : Nat) (i : Instr) : State := { s with cxl := { s.cxl with rxq := s.cxl.rxq ++ [i] } }.cxlPump p

/-- MEM_RD (R427, R434, R435). The address is what the LD's HDM decoders make of the host's (log entry 65); without credits no request
comes. -/
def execMemRd (l : Fin 32) (a : BitVec 49) (tag : BitVec 16) (s : State) : Host.Outcome State Fault Refusal :=
  .next (if s.ldCredits l.val then s.cxlArrive (portOf l.val) (.memRd l a tag) else s)

/-- MEM_WR (R103, R433, R435). -/
def execMemWr (l : Fin 32) (a : BitVec 49) (tag : BitVec 16) (d : Vec) (be : BitVec 64) (poison : Bool) (s : State) : Host.Outcome State Fault Refusal :=
  .next (if s.ldCredits l.val then s.cxlArrive (portOf l.val) (.memWr l a tag d be poison) else s)

/-- MEM_SPEC_RD (R418): accepted and discarded. -/
def execMemSpecRd (_l : Fin 32) (_a : BitVec 49) (s : State) : Host.Outcome State Fault Refusal := .next s

/-- CXL_BAD_REQ (R418): counted; a read-type request gets poisoned data, a write-type one Cmp. -/
def execCxlBadReq (p : Fin 2) (isRead : Bool) (tag : BitVec 16) (s : State) : Host.Outcome State Fault Refusal :=
  .next (if s.fget (R.CXL_PORT_STAT.STATE p.val) ≠ 2 then s
    else (s.sat (R.CXL_PORT_CNT.BAD_REQ p.val)).emit
      (if isRead then .cxlData (16 * p.val) tag.toNat none else .cxlCmp (16 * p.val) tag.toNat))

/-- COMBINE_WINDOW_EXPIRE (R103): 64 ns after the window opened (log entry 5). -/
def execCombineWindowExpire (l : Fin 32) (t : Nat) (s : State) : Host.Outcome State Fault Refusal := .next (s.closeComb l.val t)

/-- GLOBAL_PERSISTENT_FLUSH (R114, R115, R438); after commitment ABORTED (R120). -/
def execGlobalPersistentFlush (p : Fin 2) (s : State) : Host.Outcome State Fault Refusal :=
  .next (if s.fget (R.CXL_PORT_STAT.STATE p.val) ≠ 2 then s
    else if s.jnl.closed then s.emit (.gpfDone p.val .aborted)
    else s.cxlArrive p.val (.globalPersistentFlush p))

/-! ## Dynamic Capacity (R428 to R432) -/

/-- Extents an LD has accepted, rising. -/
def State.acceptedBy (s : State) (l : Nat) : List Nat := (List.filter (fun (p : Nat × Ext) => p.2.accepted.getLsbD l) s.ext).map (·.1)
/-- Adds a record to an LD's event log. -/
def State.ldEvent (s : State) (l : Nat) (e : LdEvent) : State := s.setLd l { s.ld l with events := (s.ld l).events ++ [e] }
/-- A refused OFFER or WITHDRAW (R444). -/
def State.dcRefuse (s : State) : State := s.fput R.CXL_STAT.DC_REFUSED true
/-- PENDING of an LD. -/
def State.notePending (s : State) (l : Nat) : State := s.fset (R.CXL_LD_STAT.PENDING l) (s.ld l).offers.length

/-- OFFER (R428). -/
def State.dcOffer (s : State) (l : Fin 32) (e : Fin 524288) : State :=
  let x := s.extent e.val
  if x.state ≠ .assigned ∨ x.owner ≠ s.ldTenant l.val ∨ !s.flag (R.CXL_LD_CFG.VALID l.val) ∨ (s.ld l.val).offers.contains e.val
      ∨ x.accepted.getLsbD l.val then s.dcRefuse
  else ((s.setLd l.val { s.ld l.val with offers := (s.ld l.val).offers ++ [e.val] }).ldEvent l.val (.addCapacity e.val)).notePending l.val

/-- WITHDRAW (R430): of an extent the LD has accepted and that is not being withdrawn. -/
def State.dcWithdraw (s : State) (l : Fin 32) (e : Fin 524288) : State :=
  if !(s.extent e.val).accepted.getLsbD l.val ∨ (s.ld l.val).withdrawn.contains e.val then s.dcRefuse
  else (s.setLd l.val { s.ld l.val with withdrawn := (s.ld l.val).withdrawn ++ [e.val] }).ldEvent l.val (.releaseCapacity e.val)

/-- OFFER. -/
def execOffer (l : Fin 32) (e : Fin 524288) (s : State) : Host.Outcome State Fault Refusal := .next (s.dcOffer l e)
/-- WITHDRAW. -/
def execWithdraw (l : Fin 32) (e : Fin 524288) (s : State) : Host.Outcome State Fault Refusal := .next (s.dcWithdraw l e)

/-- OFFER_LAPSE (R429): RESP_MS without a response (log entry 5). -/
def execOfferLapse (l : Fin 32) (e : Fin 524288) (s : State) : Host.Outcome State Fault Refusal :=
  .next ((s.setLd l.val { s.ld l.val with offers := (s.ld l.val).offers.filter (· ≠ e.val) }).notePending l.val)

/-- An LD's acceptance of an extent ends (R430, R432). -/
def State.unaccept (s : State) (l e : Nat) : State :=
  let s := s.markExt e fun x => { x with accepted := x.accepted &&& ~~~(1#32 <<< l) }
  (s.setLd l { s.ld l with withdrawn := (s.ld l).withdrawn.filter (· ≠ e) }).dec (R.CXL_LD_STAT.ACCEPTED l)

/-- FORCED_RELEASE (R430): WITHDRAW_MS after a WITHDRAW (log entry 5). -/
def execForcedRelease (l : Fin 32) (e : Fin 524288) (s : State) : Host.Outcome State Fault Refusal :=
  .next (if (s.ld l.val).withdrawn.contains e.val ∧ (s.extent e.val).accepted.getLsbD l.val then
      (s.unaccept l.val e.val).ldEvent l.val (.forcedRelease e.val)
    else s)

/-! ## The mailbox (R419; log entry 67) -/

/-- Return codes of CXL 3.1 (log entry 67). -/
def mbSuccess : Nat := 0
def mbInvalidInput : Nat := 2
def mbUnsupported : Nat := 3

/-- A mailbox command completes. -/
def State.mailbox (s : State) (l : Fin 32) (code : Nat) (data : List Nat) : State := s.emit (.mailbox l.val code data)

/-- ADD_DC_RESPONSE (R429): all of the listed extents or none; offers left out are declined. -/
def execAddDcResponse (l : Fin 32) (es : List (Fin 524288)) (s : State) : Host.Outcome State Fault Refusal :=
  let es := (es.map (·.val)).eraseDups
  .next (if !s.ldUp l.val then s
    else
      let k := s.ld l.val
      let ok := fun (e : Nat) => k.offers.contains e && (s.extent e).state == .assigned && (s.extent e).owner == s.ldTenant l.val
      if !es.all ok then s.mailbox l mbInvalidInput []
      else
        let s := (s.setLd l.val { k with offers := [] }).notePending l.val
        let s := es.foldl (fun (s : State) e =>
          (s.markExt e fun x => { x with accepted := x.accepted ||| (1#32 <<< l.val) }).inc (R.CXL_LD_STAT.ACCEPTED l.val)) s
        s.mailbox l mbSuccess [])

/-- RELEASE_DC (R430). -/
def execReleaseDc (l : Fin 32) (e : Fin 524288) (s : State) : Host.Outcome State Fault Refusal :=
  .next (if !s.ldUp l.val then s
    else if (s.extent e.val).accepted.getLsbD l.val then (s.unaccept l.val e.val).mailbox l mbSuccess []
    else s.mailbox l mbInvalidInput [])

/-- GET_DC_CONFIGURATION (R427): one region, its base, length and block size. -/
def execGetDcConfiguration (l : Fin 32) (s : State) : Host.Outcome State Fault Refusal :=
  .next (if s.ldUp l.val then s.mailbox l mbSuccess [1, 0, 2 ^ 49, 2 ^ 30] else s)

/-- GET_DC_EXTENT_LIST (R427): base and length of each accepted extent. -/
def execGetDcExtentList (l : Fin 32) (s : State) : Host.Outcome State Fault Refusal :=
  .next (if s.ldUp l.val then s.mailbox l mbSuccess ((s.acceptedBy l.val).map fun e => [e * 2 ^ 30, 2 ^ 30]).flatten else s)

/-- IDENTIFY_MEMORY_DEVICE (R418): no static volatile or persistent capacity; what else the standard has it carry is free. -/
def execIdentifyMemoryDevice (l : Fin 32) (s : State) : Host.Outcome State Fault Refusal :=
  .next (if s.ldUp l.val then
      let (w, s) := s.drawWord
      s.mailbox l mbSuccess [0, 0, 0, w.toNat]
    else s)

/-- GET_HEALTH_INFO (R419): the manual gives no field of it, so its payload is free. -/
def execGetHealthInfo (l : Fin 32) (s : State) : Host.Outcome State Fault Refusal :=
  .next (if s.ldUp l.val then
      let (w, s) := s.drawWord
      s.mailbox l mbSuccess [w.toNat]
    else s)

/-- An event record by kind and extent or tile. -/
def ldEventWords : LdEvent → List Nat
  | .addCapacity e => [0, e] | .releaseCapacity e => [1, e] | .forcedRelease e => [2, e] | .media t => [3, t]

/-- GET_EVENT_RECORDS (R419): the LD's event log, oldest first. -/
def execGetEventRecords (l : Fin 32) (s : State) : Host.Outcome State Fault Refusal :=
  .next (if s.ldUp l.val then s.mailbox l mbSuccess (((s.ld l.val).events.map ldEventWords).flatten) else s)

/-- CLEAR_EVENT_RECORDS (R419): the `n` oldest. -/
def execClearEventRecords (l : Fin 32) (n : Nat) (s : State) : Host.Outcome State Fault Refusal :=
  .next (if !s.ldUp l.val then s
    else if (s.ld l.val).events.length < n then s.mailbox l mbInvalidInput []
    else (s.setLd l.val { s.ld l.val with events := (s.ld l.val).events.drop n }).mailbox l mbSuccess [])

/-- GET_POISON_LIST (R437): every 64-byte line of every quarantined tile in the LD's accepted extents. -/
def execGetPoisonList (l : Fin 32) (s : State) : Host.Outcome State Fault Refusal :=
  .next (if !s.ldUp l.val then s
    else
      let ts := (s.gen.filter fun p => p.2.quar && !isSys p.1 && (s.extent (extOf p.1)).accepted.getLsbD l.val).map (·.1)
      s.mailbox l mbSuccess ((ts.map fun t => (List.range 64).map fun i => t * 4096 + 64 * i).flatten))

/-- MAILBOX_UNSUPPORTED (R419). -/
def execMailboxUnsupported (l : Fin 32) (_op : BitVec 16) (s : State) : Host.Outcome State Fault Refusal :=
  .next (if s.ldUp l.val then s.mailbox l mbUnsupported [] else s)

/-- LDs of a port that are presented. -/
def State.shownLds (s : State) (p : Nat) : List Nat := (List.range 16).filter fun i => s.ldShown (16 * p + i)

/-- The FM-owned LD answers (R420): on a port that runs as an MLD. -/
def State.fmUp (s : State) (p : Nat) : Bool := s.cxlUp p && s.flag (R.CXL_PORT_STAT.MLD p)

/-- GET_LD_INFO (R420, R426). -/
def execGetLdInfo (p : Fin 2) (s : State) : Host.Outcome State Fault Refusal :=
  .next (if s.fmUp p.val then s.emit (.fmApi p.val mbSuccess ((s.shownLds p.val).length :: s.shownLds p.val)) else s)

/-- GET_LD_ALLOCATIONS (R420): of each LD presented, the extents it has accepted. -/
def execGetLdAllocations (p : Fin 2) (s : State) : Host.Outcome State Fault Refusal :=
  .next (if s.fmUp p.val then
      s.emit (.fmApi p.val mbSuccess (((s.shownLds p.val).map fun i => [i, s.fget (R.CXL_LD_STAT.ACCEPTED (16 * p.val + i))]).flatten))
    else s)

/-- FM_API_REFUSED (R420). -/
def execFmApiRefused (p : Fin 2) (_op : BitVec 16) (s : State) : Host.Outcome State Fault Refusal :=
  .next (if s.fmUp p.val then s.emit (.fmApi p.val mbUnsupported []) else s)

/-! ## SPDM, IDE and CDAT over DOE (R418, R421, R458) -/

/-- The device answers a DOE object. -/
def State.doeAnswer (s : State) (l : Fin 32) (code : Nat) : State := s.emit (.doe l.val code)

/-- SPDM_MESSAGE (R421, R458): a session with mutual authentication whose chain ends in the custodian's key authenticates the LD; the
session's end takes that back. -/
def execSpdmMessage (l : Fin 32) (m : SpdmStep) (s : State) : Host.Outcome State Fault Refusal :=
  .next (if !s.ldUp l.val then s
    else match m with
      | .request code => s.doeAnswer l code.toNat
      | .opened both h =>
        let good := both && match s.tenant (s.ldTenant l.val) with | some t => t.ecdsaHash == h | none => false
        (s.setLd l.val { s.ld l.val with spdm := true, auth := good }).doeAnswer l 0
      | .closed _ => (s.setLd l.val { s.ld l.val with spdm := false, auth := false }).doeAnswer l 0)

/-- IDE_KM (R421, R459): inside a secured session of the port, keys go into Gatehouse key slots, where they are pinned. -/
def execIdeKm (p : Fin 2) (stream : Byte) (key : BitVec 256) (s : State) : Host.Outcome State Fault Refusal :=
  .next (if s.cxlUp p.val ∧ (List.range 16).any fun i => (s.ld (16 * p.val + i)).spdm then
      let s := (s.keySlot (.ide p.val stream)).2
      { s with cxl := { s.cxl with ide := s.cxl.ide.filter (fun k => !(k.1 == p.val && k.2.1 == stream)) ++ [(p.val, stream, key)] } }
    else s)

/-- CDAT_READ (R418): over DOE Table Access. -/
def execCdatRead (l : Fin 32) (s : State) : Host.Outcome State Fault Refusal := .next (if s.ldUp l.val then s.doeAnswer l 0 else s)

/-- IDE_STATE_CHANGE (R425): CXL.cachemem IDE becomes active under keys of the port, or drops out. -/
def execIdeStateChange (p : Fin 2) (active : Bool) (s : State) : Host.Outcome State Fault Refusal :=
  .next (if !s.cxlUp p.val ∨ (active ∧ !(s.cxl.ide.any fun k => k.1 == p.val)) then s
    else s.fput (R.CXL_PORT_STAT.IDE_ACTIVE p.val) active)

/-! ## Rings and plans (R439 to R443) -/

/-- A host's access outside its rights is counted (R35). -/
def State.denied (s : State) : State := s.sat R.SUP_DENIED_CNT.COUNT
/-- Register index of a ring slot. -/
def ringIx (l : Fin 32) (r : Fin 8) : Nat := 8 * l.val + r.val
/-- A ring enters ERROR (R441). -/
def State.ringError (s : State) (l : Fin 32) (r : Fin 8) : State :=
  let i := ringIx l r
  ((s.fset (R.CXL_RING_CFG.STATE i) 2).setRing i { s.ring i with asked := 0 }).postT (s.ldTenant l.val) 0x0803 l.val r.val
/-- A ring becomes UNBOUND (R424, R441). -/
def State.ringUnbind (s : State) (i : Nat) : State := (s.fset (R.CXL_RING_CFG.STATE i) 0).setRing i { ci := (s.ring i).ci }
/-- Ring slots of a queue whose tenant is the LD's are usable (R440). -/
def State.ringUsable (s : State) (l : Fin 32) (r : Fin 8) : Bool :=
  s.flag (R.CXL_RING_CFG.VALID (ringIx l r)) && s.fget (R.KSK_QCFG0.TENANT (s.fget (R.CXL_RING_CFG.QUEUE (ringIx l r)))) == (s.ldTenant l.val).toNat

/-- Descriptors a queue has room for (R289). -/
def State.roomFor (s : State) (q n : Nat) : Nat := ((List.range (n + 1)).reverse.find? fun k => s.queueRoom q k).getD 0

/-- Reads the next descriptors of an ACTIVE ring, as far as the queue has room and the ring runs on (R295, R442). -/
def State.ringPump (s : State) (l : Fin 32) (r : Fin 8) : State :=
  let i := ringIx l r
  let k := s.ring i
  let due := (k.prod + 2 ^ 32 - k.cons) % 2 ^ 32
  let n := min (s.roomFor (s.fget (R.CXL_RING_CFG.QUEUE i)) (min due 32)) (k.size - k.cons % max 1 k.size)
  if s.fget (R.CXL_RING_CFG.STATE i) = 1 ∧ k.asked = 0 ∧ 0 < n ∧ s.ringUsable l r then
    (s.setRing i { k with asked := n }).emit (.hostRead l.val (k.base + 128 * (k.cons % k.size)) (128 * n))
  else s

/-- RING_BASE (R440, R441). -/
def State.ringBase (s : State) (l : Fin 32) (r : Fin 8) (v : Word) : State :=
  let i := ringIx l r
  let x := v.toNat
  if !s.ringUsable l r ∨ x / 16 % 256 ≠ 0 ∨ 8 < x % 16 ∨ (s.fget (R.CXL_RING_CFG.STATE i) = 1 ∧ (s.ring i).cons ≠ (s.ring i).prod) then s.denied
  else if x / 4096 = 0 then s.ringUnbind i
  else (s.fset (R.CXL_RING_CFG.STATE i) 1).setRing i { ci := (s.ring i).ci, base := x / 4096 * 4096, size := 16 * 2 ^ (x % 16) }

/-- CI_ADDR (R440). -/
def State.ciAddr (s : State) (l : Fin 32) (r : Fin 8) (v : Word) : State :=
  if v.toNat % 8 ≠ 0 then s.denied else s.setRing (ringIx l r) { s.ring (ringIx l r) with ci := v.toNat }

/-- DOORBELL (R440, R441). -/
def State.doorbell (s : State) (l : Fin 32) (r : Fin 8) (v : Word) : State :=
  let i := ringIx l r
  let k := s.ring i
  let p := v.toNat % 2 ^ 32
  if s.fget (R.CXL_RING_CFG.STATE i) ≠ 1 ∨ 2 ^ 32 ≤ v.toNat then s.denied
  else if k.size < (p + 2 ^ 32 - k.cons) % 2 ^ 32 ∨ 2 ^ 31 ≤ (p + 2 ^ 32 - k.prod) % 2 ^ 32 then s.ringError l r
  else (s.setRing i { k with prod := p }).ringPump l r

/-- PLAN_STAT_ADDR (R443). -/
def State.planStatAddr (s : State) (l : Fin 32) (v : Word) : State :=
  if v.toNat % 8 ≠ 0 then s.denied else s.setLd l.val { s.ld l.val with planStat := v.toNat }

/-- PLAN_SUBMIT (R443): the plan is read over CXL.io; 0 cancels. -/
def State.planSubmit (s : State) (l : Fin 32) (v : Word) : State :=
  if v = 0 then s.endPlan (.ld l)
  else if v.toNat % 32 ≠ 0 then s.denied
  else (s.setLd l.val { s.ld l.val with planAddrs := (s.ld l.val).planAddrs ++ [v.toNat] }).emit (.hostRead l.val v.toNat 32)

/-- RING_BASE, written by the LD's host. -/
def execRingBase (l : Fin 32) (r : Fin 8) (v : Word) (s : State) : Host.Outcome State Fault Refusal :=
  .next (if s.ldUp l.val then s.ringBase l r v else s)
/-- CI_ADDR, written by the LD's host. -/
def execCiAddr (l : Fin 32) (r : Fin 8) (v : Word) (s : State) : Host.Outcome State Fault Refusal :=
  .next (if s.ldUp l.val then s.ciAddr l r v else s)
/-- DOORBELL, written by the LD's host. -/
def execDoorbell (l : Fin 32) (r : Fin 8) (v : Word) (s : State) : Host.Outcome State Fault Refusal :=
  .next (if s.ldUp l.val then s.doorbell l r v else s)
/-- PLAN_STAT_ADDR, written by the LD's host. -/
def execPlanStatAddr (l : Fin 32) (v : Word) (s : State) : Host.Outcome State Fault Refusal :=
  .next (if s.ldUp l.val then s.planStatAddr l v else s)
/-- PLAN_SUBMIT, written by the LD's host. -/
def execPlanSubmit (l : Fin 32) (v : Word) (s : State) : Host.Outcome State Fault Refusal :=
  .next (if s.ldUp l.val then s.planSubmit l v else s)

/-- A store to word `w` of a doorbell page (R439); a word that the page does not define ignores it (R32). -/
def State.doorStore (s : State) (l : Fin 32) (w : Nat) (v : Word) : State :=
  let r := Fin.ofNat 8 (w / 32)
  if w < 256 then
    (match w % 32 with
     | 0 => s.ringBase l r v
     | 8 => s.ciAddr l r v
     | 16 => s.doorbell l r v
     | _ => s)
  else if w = 256 then s.planStatAddr l v
  else if w = 264 then s.planSubmit l v
  else s

/-- RING_FETCH_DONE (R441, R442): the batch enters the queue and the consumer index is written; a read that fails takes the ring to
ERROR. -/
def execRingFetchDone (l : Fin 32) (r : Fin 8) (ok : Bool) (ds : List Bytes) (s : State) : Host.Outcome State Fault Refusal :=
  let i := ringIx l r
  let k := s.ring i
  .next (if s.fget (R.CXL_RING_CFG.STATE i) ≠ 1 ∨ k.asked = 0 then s
    else if !ok then s.ringError l r
    else if ds.length ≠ k.asked then s
    else
      let q := s.fget (R.CXL_RING_CFG.QUEUE i)
      let s := s.setRing i { k with asked := 0 }
      if !s.queueRoom q ds.length then s
      else
        let cons := (k.cons + ds.length) % 2 ^ 32
        let s := ds.foldl (fun (s : State) d => s.acceptDesc q d) s
        let s := (s.setRing i { s.ring i with cons := cons }).emit (.ldWrite l.val k.ci (natLe 8 cons))
        s.ringPump l r)

/-- PLAN_READ_DONE (R229, R443): the oldest submission is judged and its status written. -/
def execPlanReadDone (l : Fin 32) (b : Bytes) (s : State) : Host.Outcome State Fault Refusal :=
  .next (match (s.ld l.val).planAddrs with
    | [] => s
    | _ :: rest =>
      let s := s.setLd l.val { s.ld l.val with planAddrs := rest }
      let (st, s) : Status × State := match parsePlan b (s.ldTenant l.val) s.timeNs with
        | none => (.malformed, s)
        | some p => if (s.planOf (.ld l)).isNone ∧ 4096 ≤ s.hostPlans then (.nospace, s) else (.ok, s.declarePlan (.ld l) p)
      s.emit (.ldWrite l.val (s.ld l.val).planStat (slice b 8 8 ++ natLe 1 st.code ++ natLe 7 0)))

/-- What the host of an LD may read of control space: SUP_IDENT, the global status page, the alias of its tenant's page and the pages of
its tenant (R32, R34, R620). -/
def State.hostMayRead (s : State) (l off : Nat) : Bool :=
  off == 0 || (off / 4096 == 0x3000) || (off / 4096 == 0x3001 + l)
    || (decide (0x3600 ≤ off / 4096 ∧ off / 4096 < 0x3600 + 2048) && s.flag (R.STA_TPAGE0.VALID (off / 4096 - 0x3600))
      && s.fget (R.STA_TPAGE0.TENANT (off / 4096 - 0x3600)) == (s.ldTenant l).toNat)

/-- CXL_DENIED_ACCESS (R34 to R36, R439): an access of a CXL host to control space that is not 64 bits wide and aligned is answered with
Unsupported Request and does nothing; a write acts on the host's own doorbell page and is else discarded and counted; a read of what it
may read answers it, and any other answers 0 and is counted. -/
def execCxlDeniedAccess (l : Fin 32) (write : Bool) (a : HostAccess) (s : State) : Host.Outcome State Fault Refusal :=
  let o := a.off.toNat
  .next (if !s.ldUp l.val then s
    else if a.len ≠ 8 ∨ o % 8 ≠ 0 then s.emit (.pciUr l.val)
    else if write then (if o / 65536 = 0x2E0 + l.val then s.doorStore l (o % 65536) a.v else s.denied)
    else if s.hostMayRead l.val o then s.emit (.ioData l.val (s.regRead o))
    else s.denied.emit (.ioData l.val 0))

/-! ## Links, resets, fences (R422 to R425, R493) -/

/-- BOUND of a port's LDs: a host reaches them (R444). -/
def State.noteBound (s : State) (p : Nat) : State :=
  (List.range 16).foldl (fun (s : State) i => s.fput (R.CXL_LD_STAT.BOUND (16 * p + i)) (s.fget (R.CXL_PORT_STAT.STATE p) == 2 && s.ldShown (16 * p + i))) s

/-- What a reset does to one LD (R424, R458, R608): rings UNBOUND, its plan ends, its session ends, its targets turn BROKEN. -/
def State.ldReset (s : State) (l : Fin 32) : State :=
  let s := (List.range 8).foldl (fun (s : State) r => s.ringUnbind (8 * l.val + r)) s
  let s := s.endPlan (.ld l)
  (s.setLd l.val { s.ld l.val with spdm := false, auth := false, planAddrs := [] }).breakTargets 0 l.val

/-- A port's island is reset with its crossings (R424): its LDs, its IDE keys; requests without an entry are lost. A fenced port's
operations resolve without a response (R341), and it is QUIESCED. -/
def State.cxlReset (s : State) (p : Fin 2) : State :=
  let st := s.fget (R.CXL_PORT_STAT.STATE p.val)
  let s := (List.finRange 32).foldl (fun (s : State) l => if portOf l.val = p.val then s.ldReset l else s) (s.resetIsland (24 + p.val))
  let s := (s.fput (R.CXL_PORT_STAT.IDE_ACTIVE p.val) false)
  let s := { s with cxl := { s.cxl with ide := s.cxl.ide.filter (·.1 ≠ p.val), rxq := s.cxl.rxq.filter fun i => reqPort i ≠ p.val } }
  let s := s.dropSlots fun k => match k.2 with | .ide q _ => q == p.val | _ => false
  let s := if st = 1 ∨ st = 2 then (s.fset (R.CXL_PORT_STAT.STATE p.val) 0).sat (R.CXL_PORT_STAT.DOWNS p.val)
    else if st = 3 then (s.endDrain (.cxlPort p)).fset (R.CXL_PORT_STAT.STATE p.val) 4
    else s
  let s := if st < 3 then s.fset (R.CXL_PORT_STAT.CAUSE p.val) 3 else s
  s.noteBound p.val

/-- Waves 23 and 24 bring the CXL ports out of reset (R515). -/
def State.cxlOut (s : State) (p : Nat) : Bool := s.groupOn (6 + p) && !s.cxl.perst.getLsbD p

/-- CXL_LINK_TRAINED (R423): a TRAINING port goes UP within MAX_WIDTH and MAX_GTS; below x16 or 64 GT/s it is degraded. Width code 0 is
x16. -/
def execCxlLinkTrained (p : Fin 2) (w : Fin 3) (g : Bool) (mld : Bool) (s : State) : Host.Outcome State Fault Refusal :=
  .next (if s.fget (R.CXL_PORT_STAT.STATE p.val) ≠ 1 ∨ w.val < s.fget (R.CXL_PORT_CFG.MAX_WIDTH p.val)
        ∨ (!g ∧ s.flag (R.CXL_PORT_CFG.MAX_GTS p.val)) then s
    else
      let s := ((s.fset (R.CXL_PORT_STAT.STATE p.val) 2).fset (R.CXL_PORT_STAT.WIDTH p.val) w.val).fput (R.CXL_PORT_STAT.GTS p.val) g
      let s := ((s.fput (R.CXL_PORT_STAT.MLD p.val) mld).fset (R.CXL_PORT_STAT.CAUSE p.val) 0).noteBound p.val
      if w.val ≠ 0 ∨ g then s.postD 0x0801 p.val (w.val + 4 * g.toNat) else s)

/-- CXL_RETRAIN_TIMER (R423; log entry 5): every 1 s, training that has not succeeded has left the port DOWN, and a DOWN port trains. -/
def execCxlRetrainTimer (p : Fin 2) (s : State) : Host.Outcome State Fault Refusal :=
  .next (match s.fget (R.CXL_PORT_STAT.STATE p.val) with
    | 0 => if s.cxlOut p.val then s.fset (R.CXL_PORT_STAT.STATE p.val) 1 else s
    | 1 => ((s.fset (R.CXL_PORT_STAT.STATE p.val) 0).fset (R.CXL_PORT_STAT.CAUSE p.val) 2).sat (R.CXL_PORT_STAT.DOWNS p.val)
    | _ => s)

/-- CXL_PORT_RESET (R424): PERST, which then holds the island in reset, a hot reset or a link drop. -/
def execCxlPortReset (p : Fin 2) (why : CxlReset) (s : State) : Host.Outcome State Fault Refusal :=
  .next (let s := s.cxlReset p
    if why = .perst then
      ({ s with cxl := { s.cxl with perst := s.cxl.perst ||| (1#2 <<< p.val) } }).fset (R.SUP_ISL_STAT.STATE (24 + p.val)) 0
    else s)

/-- CXL_PERST_DEASSERT (R422): the island runs again and the port trains. -/
def execCxlPerstDeassert (p : Fin 2) (s : State) : Host.Outcome State Fault Refusal :=
  .next (let s := { s with cxl := { s.cxl with perst := s.cxl.perst &&& ~~~(1#2 <<< p.val) } }
    if !s.cxlOut p.val then s
    else
      let s := s.fset (R.SUP_ISL_STAT.STATE (24 + p.val)) 1
      if s.fget (R.CXL_PORT_STAT.STATE p.val) = 0 then s.fset (R.CXL_PORT_STAT.STATE p.val) 1 else s)

/-- FUNCTION_LEVEL_RESET (R424). -/
def execFunctionLevelReset (l : Fin 32) (s : State) : Host.Outcome State Fault Refusal := .next (if s.ldUp l.val then s.ldReset l else s)

/-- An ACTION that does not fit (R444). -/
def State.cxlRefuse (s : State) : State := s.fput R.CXL_STAT.CMD_REFUSED true

/-- FENCE (R337, R425). -/
def State.cxlFence (s : State) (p : Fin 2) : State :=
  if 3 ≤ s.fget (R.CXL_PORT_STAT.STATE p.val) then s.cxlRefuse
  else
    let up := s.fget (R.CXL_PORT_STAT.STATE p.val) == 2
    let s := (s.fset (R.CXL_PORT_STAT.STATE p.val) (if up then 3 else 4)).fset (R.CXL_PORT_STAT.CAUSE p.val) 1
    if up then ((s.startDrain (.cxlPort p)).noteBound p.val).cxlSettle p.val else s
/-- RESTORE: a QUIESCED port trains. -/
def State.cxlRestore (s : State) (p : Fin 2) : State :=
  if s.fget (R.CXL_PORT_STAT.STATE p.val) ≠ 4 then s.cxlRefuse
  else (s.fset (R.CXL_PORT_STAT.STATE p.val) 1).fset (R.CXL_PORT_STAT.CAUSE p.val) 0
/-- RETRAIN (R425): drops the link, with what a link drop does (R424), and retrains it. -/
def State.cxlRetrain (s : State) (p : Fin 2) : State :=
  if s.fget (R.CXL_PORT_STAT.STATE p.val) ≠ 2 then s.cxlRefuse
  else ((s.cxlReset p).fset (R.CXL_PORT_STAT.STATE p.val) 1).fset (R.CXL_PORT_STAT.CAUSE p.val) 0

/-- CXL_PORT_FENCE. -/
def execCxlPortFence (p : Fin 2) (s : State) : Host.Outcome State Fault Refusal := .next (s.cxlFence p)
/-- CXL_PORT_RESTORE. -/
def execCxlPortRestore (p : Fin 2) (s : State) : Host.Outcome State Fault Refusal := .next (s.cxlRestore p)
/-- CXL_PORT_RETRAIN. -/
def execCxlPortRetrain (p : Fin 2) (s : State) : Host.Outcome State Fault Refusal := .next (s.cxlRetrain p)

/-- The idle tick of the ports: waiting requests, rings whose queues have room again. -/
def State.cxlTick (s : State) : State :=
  let s := (s.cxlPump 0).cxlPump 1
  (s.listed R.CXL_RING_CFG.VALID 256).foldl (fun (s : State) i =>
    if h : i < 256 then s.ringPump ⟨i / 8, by omega⟩ ⟨i % 8, by omega⟩ else s) s

end Sys2Proof.Machine
end

