-- ==== Sys2Proof/Machine/PowerOps.lean ====
section
/-! DEFINITION. What the PWR unit's commands share: the supervision log (R529), PMBus transactions (R505, R506) and rails
(R501, R512). -/

namespace Sys2Proof.Machine

/-- One entry of the supervision log (R529): the oldest of 256 gives way. Codes without a rail carry 0 there. -/
def State.supLog (s : State) (code value rail : Nat) : State :=
  let n := s.fget R.PWR_LOG_STAT.NEXT
  let s := (s.fset (R.PWR_LOG_LO.VALUE n) value).fset (R.PWR_LOG_LO.TIME_US n) (s.timeNs / 1000)
  let s := ((s.fset (R.PWR_LOG_HI.RAIL n) rail).fset (R.PWR_LOG_HI.CODE n) code).inc R.PWR_LOG_STAT.NEXT
  if s.fget R.PWR_LOG_STAT.COUNT = 256 then s.sat R.PWR_LOG_STAT.OVERWRITTEN else s.inc R.PWR_LOG_STAT.COUNT

/-- Nominal voltage of a rail in mV (R501); VCORE's follows its setpoint. -/
def nominalMv (r : Nat) : Nat :=
  if r = 0 ∨ r = 4 then 800 else if r = 5 then 1100 else if r = 6 then 400 else if r < 8 then 1800 else if r % 2 = 0 then 750 else 1200

/-- PWR_RAIL_STAT.STATE values (R536). -/
def State.railState (s : State) (r : Nat) : Nat := s.fget (R.PWR_RAIL_STAT.STATE r)

/-- A PMBus transaction to a rail with a VALID entry, PAGE before it for another page (R506); on a SEQ_SYNC board none that changes an
output (R505). A VCORE step may follow it (R511). -/
def State.pm (s : State) (rail code data : Nat) : State :=
  if !s.flag (R.PWR_RAIL_CFG.VALID rail) ∨ (s.flag R.PWR_STAT.SEQ_MODE ∧ [0x01, 0x02, 0x21].contains code) then s
  else
    let page := s.fget (R.PWR_RAIL_CFG.PAGE rail)
    let s : State := { s with pwr := { s.pwr with stepLast := false } }
    (if page = 0 then s else s.emit (.pmbus rail 0x00 page)).emit (.pmbus rail code data)

/-- A PWRBUS transaction with its attempts, four in all: whether one is acknowledged, and the outcomes that are left. Each loss of arbitration
counts and uses up one (R509, R592); an attempt of which nothing is said is acknowledged. -/
def State.pmTry (rail code : Nat) : Nat → List PmTry → State → Bool × List PmTry × State
  | 0, ts, s => (false, ts, s)
  | _ + 1, [], s => (true, [], s.pm rail code 0)
  | _ + 1, .acked :: ts, s => (true, ts, s.pm rail code 0)
  | n + 1, .failed :: ts, s => State.pmTry rail code n ts (s.pm rail code 0)
  | n + 1, .arbLost :: ts, s => State.pmTry rail code n ts ((s.pm rail code 0).sat (R.TWB_CNT0.ARB_LOST 0))

/-- A new VCORE setpoint (R478, R512). -/
def State.setVcore (s : State) (mv : Nat) : State := (s.fset R.PWR_VCORE_STAT.SET_MV mv).pm 3 0x21 mv

/-- Switches a rail on in native mode (R512, R517): before its first OPERATION its output is made to follow OPERATION alone, and before
VCORE's first VOUT_COMMAND its VOUT_MODE is read (R506; the data of the commands: log entry 75). -/
def State.railOn (s : State) (r : Nat) : State :=
  let mv := if r = 3 then s.fget R.PWR_VCORE_CTL.FIXED_MV else nominalMv r
  let first := !s.pwr.onOff.contains r
  let s := (s.fset (R.PWR_RAIL_STAT.STATE r) 1).fset (R.PWR_RAIL_STAT.CAUSE r) 0
  let s := if r = 3 then (if first then s.pm 3 0x20 0 else s).setVcore mv else s
  let s := if first then { s.pm r 0x02 0x18 with pwr := { s.pwr with onOff := s.pwr.onOff ++ [r] } } else s
  (s.pm r 0x01 0x80).supLog 0x01 mv r

/-- A rail is off: its monitor's reading then, and RAIL_OFF. -/
def State.railIsOff (s : State) (r mv : Nat) : State :=
  if s.railState r = 1 ∨ s.railState r = 2 then
    ((s.fset (R.PWR_RAIL_STAT.STATE r) 0).fset (R.PWR_RAIL_STAT.MON_MV r) mv).supLog 0x06 mv r
  else s

/-- A rail fails: FAILED with its cause and its monitor's reading, logged under `code` (0 for none). -/
def State.railFails (s : State) (r cause code mv : Nat) : State :=
  let s := ((s.fset (R.PWR_RAIL_STAT.STATE r) 3).fset (R.PWR_RAIL_STAT.CAUSE r) cause).fset (R.PWR_RAIL_STAT.MON_MV r) mv
  if code = 0 then s else s.supLog code (if code = 0x07 then 4 else mv) r

/-- A failure is latched (R513, R525, R527). -/
def State.latch (s : State) (rail cause : Nat) : State :=
  let s := (s.fset R.PWR_STAT.STATE 5).fset R.PWR_LATCH.LATCHED 1
  let s := ((s.fset R.PWR_LATCH.CAUSE cause).fset R.PWR_LATCH.RAIL rail).fset R.PWR_LATCH.TIME_US (s.timeNs / 1000)
  s.supLog 0x30 cause rail

end Sys2Proof.Machine
end

