-- ==== Sys2Proof/Machine/Core14.lean ====
section
/-! DEFINITION. The self-timed core's commands: pace windows and their crossing (R476, R477, R489, R490), the VCORE step (R478 to
R482), island clocks (R495, R496) and the timebase (R498, R499). -/

namespace Sys2Proof.Machine

/-! ## Pace -/

/-- A Square in service (R478): at least one of its Kiosks is. -/
def State.squareUp (s : State) (q : Nat) : Bool := s.fget (R.KSK_SQUARE_STAT.KIOSKS_UP q) != 0

/-- A value's snapshot is sampled in pairs until both agree, four times at most (R489, R490): pairs that disagreed, and the value. -/
def crossValue : Nat → List (BitVec 16 × BitVec 16) → Nat × Option Nat
  | 0, _ => (0, none)
  | _, [] => (0, none)
  | n + 1, p :: r => if p.1 = p.2 then (0, some p.1.toNat) else let q := crossValue n r; (q.1 + 1, q.2)

/-- A window's pace is published (R477). -/
def State.publishPace (s : State) (q v : Nat) : State :=
  let s := (s.fset (R.KSK_PACE.PACE q) v).peak (R.KSK_PACE.MAX q) v
  let s := s.fset (R.KSK_PACE.MIN q) (min (s.fget (R.KSK_PACE.MIN q)) v)
  if s.squareUp q then { s with pwr := { s.pwr with lowPace := some (match s.pwr.lowPace with | some l => min l v | none => v) } } else s

/-- PACE_WINDOW (R476, R477, R490): the count crosses into the timebase island, which fails with its crossing after four
disagreements. -/
def execPaceWindow (sq : Fin 16) (samples : List (BitVec 16 × BitVec 16)) (s : State) : Host.Outcome State Fault Refusal :=
  .next (if s.railState 3 ≠ 2 ∨ s.fget (R.SUP_ISL_STAT.STATE 50) ≠ 1 then s
    else
      let r := crossValue 4 samples
      let s := s.sat (R.SUP_ISL_STAT.DISAGREE 50) r.1
      match r.2 with
      | some v => s.publishPace sq.val v
      | none => if r.1 = 4 then (((s.fset (R.SUP_ISL_STAT.CROSS_FAULT 50) 1).postD 0x0A02 50 0).resetIsland 50) else s)

/-- KSK_PACE_CMD.CLEAR_MINMAX. -/
def State.clearMinmax (s : State) : State :=
  (List.range 16).foldl (fun s q =>
    (s.fset (R.KSK_PACE.MIN q) (s.fget (R.KSK_PACE.PACE q))).fset (R.KSK_PACE.MAX q) (s.fget (R.KSK_PACE.PACE q))) s

/-- CLEAR_MINMAX (R500). -/
def execClearMinmax (s : State) : Host.Outcome State Fault Refusal := .next s.clearMinmax

/-! ## VCORE (R478 to R482) -/

/-- The adaptation step: the setpoint it leads to, and whether the power cap took it (R478, R479). -/
def State.vcoreNext (s : State) (w : Nat) (low : Option Nat) : Nat × Bool :=
  let set := s.fget R.PWR_VCORE_STAT.SET_MV
  let target := s.fget R.PWR_VCORE_CTL.PACE_TARGET
  let (v, capped) :=
    if s.fget R.PWR_VCORE_CAP.POWER_CAP_W ≤ w then (set - 5, true)
    else match low with
      | none => (set, false)
      | some p => (if p < target then set + 5 else if target + s.fget R.PWR_VCORE_CTL.PACE_HYST < p then set - 5 else set, false)
  (max (s.fget R.PWR_VCORE_CTL.VMIN_MV) (min (s.fget R.PWR_VCORE_CTL.VMAX_MV) v), capped)

/-- The issue throttle after a step, in sixteenths below the full rate: never so far that a Square in service falls below the floor pace
(R482). -/
def State.throttleNext (s : State) (w : Nat) : Nat :=
  let t := s.pwr.throttle
  let cap := s.fget R.PWR_VCORE_CAP.POWER_CAP_W
  let floorHolds := decide (t < 15) && (List.range 16).all fun q =>
    !s.squareUp q || decide (900 * 16 ≤ s.fget (R.KSK_PACE.PACE q) * (15 - t))
  if cap ≤ w then (if floorHolds then t + 1 else t)
  else if 100 * w < 95 * cap then t - 1
  else t

/-- A step's transactions are over (R511). -/
def State.stepDone (s : State) : State := { s with pwr := { s.pwr with stepLast := s.flag (R.PWR_RAIL_CFG.VALID 3) } }

/-- VCORE_STEP (R478 to R482): adaptation in native mode under ADAPTIVE, else the throttle. -/
def State.vcoreStep (s : State) (w : Nat) : State :=
  let adapt := s.flag R.PWR_VCORE_CTL.MODE && !s.flag R.PWR_STAT.SEQ_MODE
  if s.railState 3 ≠ 2 ∨ (adapt && !(List.range 16).any s.squareUp) then s
  else
    let low := s.pwr.lowPace
    let s := { (s.pm 3 0x96 0).fset R.PWR_VCORE_STAT.POWER_W w with pwr := { s.pwr with lowPace := none } }
    let s := match low with | some p => s.fset R.PWR_VCORE_STAT.LOW_PACE p | none => s
    if adapt then
      let n := s.vcoreNext w low
      let s : State := { s with pwr := { s.pwr with throttle := 0 } }
      let s := (s.fset R.PWR_VCORE_STAT.THROTTLED 0).fput R.PWR_VCORE_STAT.CAPPED n.2
      (if n.1 = s.fget R.PWR_VCORE_STAT.SET_MV then s else s.setVcore n.1).stepDone
    else
      let t := s.throttleNext w
      (({ s with pwr := { s.pwr with throttle := t } }).fput R.PWR_VCORE_STAT.THROTTLED (t != 0)).stepDone

/-- A step that waited for another transaction takes precedence once one has run (R511). -/
def State.heldStep (s : State) : State :=
  match s.pwr.stepHeld with
  | some w => if s.pwr.stepLast then s else ({ s with pwr := { s.pwr with stepHeld := none } }).vcoreStep w
  | none => s

/-- VCORE_STEP (R478, R511): with no other transaction since the last step it waits for one (log entry 140). -/
def execVcoreStep (powerW : BitVec 8) (s : State) : Host.Outcome State Fault Refusal :=
  .next (if s.pwr.stepLast then { s with pwr := { s.pwr with stepHeld := some powerW.toNat } } else s.vcoreStep powerW.toNat)

/-! ## Island clocks and the timebase -/

/-- ISLAND_CLOCK_STOPPED (R496). The JTAG island's state follows TCK without an event; the timebase has a watcher of its own (R498). -/
def execIslandClockStopped (i : Fin 51) (s : State) : Host.Outcome State Fault Refusal :=
  .next (if s.fget (R.SUP_ISL_STAT.STATE i.val) ≠ 1 ∨ i = 50 then s
    else if i = 49 then s.fset (R.SUP_ISL_STAT.STATE 49) 0
    else ((s.fset (R.SUP_ISL_STAT.STATE i.val) 2).sat (R.SUP_ISL_STAT.STOPS i.val)).postD 0x0A01 i.val 0)

/-- ISLAND_HEARTBEAT_RETURN (R495, R496). -/
def execIslandHeartbeatReturn (i : Fin 51) (s : State) : Host.Outcome State Fault Refusal :=
  .next (if s.fget (R.SUP_ISL_STAT.STATE i.val) = (if i = 49 then 0 else 2) then s.fset (R.SUP_ISL_STAT.STATE i.val) 1 else s)

/-- TIMEBASE_LOST (R498). -/
def execTimebaseLost (s : State) : Host.Outcome State Fault Refusal :=
  .next (if s.flag R.SUP_TIME_STAT.TIMEBASE_LOST then s
    else ((s.fset R.SUP_TIME_STAT.TIMEBASE_LOST 1).sat R.SUP_TIME_STAT.LOSSES).postD 0x0A03 0 0)

/-- TIMEBASE_RETURN (R499). -/
def execTimebaseReturn (s : State) : Host.Outcome State Fault Refusal := .next (s.fset R.SUP_TIME_STAT.TIMEBASE_LOST 0)

end Sys2Proof.Machine
end

