-- ==== Sys2Proof/Machine/Domains.lean ====
section
/-! DEFINITION. The reset domains (R539): what each loses, what a start reloads (R549), and the islands (R493). -/

namespace Sys2Proof.Machine

/-! ## Flash domain -/

/-- The words FLS_BUF holds (R566). -/
def State.flsBufWords (s : State) (n : Nat) : List Bytes :=
  (List.range n).map fun i => ((List.range 4).map fun k => natLe 8 (s.fget (R.FLS_BUF.DATA (4 * i + k)))).flatten

/-- The job of a bank is cut by a reset (R563, R564): a sector stays half-erased, and a free number of a PROGRAM's words are in flash; a
configuration or commit record that was being written is not there (log entry 86). -/
def State.cutJob (s : State) (job : Option FlsJob) : State :=
  match job with
  | some (.erase sec _ _) => s.clearSector sec false
  | some (.program a n _) =>
    let (w, s) := s.drawWord
    (s.flsBufWords (w.toNat % (n + 1))).zipIdx.foldl (fun s p => s.putWord (a + p.2) p.1) s
  | some .write | none => s

/-- The FLS domain is reset: its registers but for what the always-on domain holds of protection (R568, R569), and its sequence, jobs and
queues. A controller fenced for its rail stays so until the rail is good again (R526). -/
def State.resetFls (s : State) : State :=
  let s := (s.cutJob s.fls.job0).cutJob s.fls.job1
  { s with
    ctl := s.ctl.filter fun p => !(decide (0x300000 * 64 ≤ p.1 ∧ p.1 < 0x400000 * 64)) || p.1 == (R.FLS_PROT_STAT.LOCKED_OUT).key
    fls := { words := s.fls.words, tries := s.fls.tries, fenced := s.fls.fenced } }

/-! ## Data path -/

/-- Registers a data-path reset leaves: the always-on and flash regions and SUP_BOOT_STAT (R539). -/
def keptKey (k : Nat) : Bool := decide (k < 64) || decide (0x100000 * 64 ≤ k ∧ k < 0x400000 * 64) || k / 64 == 0x108

/-- Islands that run from power-on reset on: PWRBUS, MGMTBUS and the timebase. The JTAG island's state follows TCK (R496). -/
def State.aonIslands (s : State) (jtag : Nat) : State :=
  [47, 48, 50].foldl (fun s i => s.fset (R.SUP_ISL_STAT.STATE i) 1) (s.fset (R.SUP_ISL_STAT.STATE 49) jtag)

/-- The data-path domain and every island are reset. What the media keep comes back at once: extents, tenants and their counts, the
generation table (R549; the table is checked against its root before it is used). -/
def State.resetData (s : State) : State :=
  let jtag := s.fget (R.SUP_ISL_STAT.STATE 49)
  let s := { s with
    ctl := s.ctl.filter fun p => keptKey p.1
    ext := s.persist.ext
    jnl := { shutSeq := s.jnl.shutSeq, near := s.jnl.near }
    prm := { a := { epoch := s.prm.a.epoch, peerEpoch := s.prm.a.peerEpoch }, b := { epoch := s.prm.b.epoch, peerEpoch := s.prm.b.peerEpoch } }
    med := { owe := s.med.owe }
    tier := {}
    ksk := { sram := s.ksk.sram, progs := s.ksk.progs.map fun (p : Nat × Prog) => (p.1, ({ dpa := p.2.dpa, len := p.2.len, crc := p.2.crc } : Prog)) }
    tst := {}
    ports := []
    xpt := {}
    cxl := { perst := s.cxl.perst }
    gth := { tenants := s.persist.tenants }
    sta := {}
    xing := s.xing.filter fun p => decide (47 ≤ p.1)
    pins := { s.pins with serving := false, twinAliveOut := false } }
  let s := (s.fput R.PRM_STAT.SENIOR s.sup.senior).aonIslands jtag
  let s := (s.fset R.GTH_TEN_STAT.TENANTS s.gth.tenants.length).fset R.GTH_TEN_STAT.NEXT_EPOCH s.persist.nextEpoch
  (s.fset R.TER_PIN_CTL.MAX_GIB s.persist.maxGib).fset R.TER_PIN_STAT.PINNED_GIB
    (s.ext.filter fun (p : Nat × Ext) => p.2.state == .assigned && p.2.cls == .pinned).length

/-- The SUP domain is reset: the Belvedere, its SRAM and SUP_BOOT_STAT (R539). -/
def State.resetSup (s : State) : State :=
  let s := s.setCtx 4096 {}
  { s with
    ctl := s.ctl.filter fun p => p.1 / 64 != 0x108
    ksk := { s.ksk with sram := [], stores := [], mgmtSrc := none } }

/-- Everything but the always-on domain. -/
def State.resetCore (s : State) : State :=
  let s := s.resetFls.resetData.resetSup
  { s with
    pwr := { s.pwr with goGiven := false, restores := [], throttle := 0, lowPace := none }
    sup := { senior := s.sup.senior, seqMode := s.sup.seqMode, sysRst := s.sup.sysRst }
    twb := { s.twb with s0 := none, s1 := none } }

/-! ## What a start reads from flash -/

/-- The pair's state as the newest configuration sector and pair-state record keep it (R149, R157, R161); under DEBUG no secret (R471). -/
def State.loadPair (s : State) : State :=
  let secret := s.config.bind fun d => (gcmOpen (deviceKey 4) (List.replicate 12 0) [] (slice d 528 32) (slice d 560 16)).map fun k => BitVec.ofNat 256 (beNat k)
  let secret := if s.flag R.GTH_STAT.DEBUG then none else secret
  let inc := fun i => match s.config with | some d => BitVec.ofNat 16 (fieldAt d i 2) | none => 0
  let s := { s with prm := { s.prm with secret := secret, joinInc := inc 12, pairInc := inc 14 } }
  let s := s.fput R.GTH_STAT.PAIR_KEY secret.isSome
  match s.newest isPairRec with
  | some b =>
    { s.fset R.PRM_STAT.TERM (fieldAt b 4 4) with prm := { s.prm with
      seqHigh := fieldAt b 16 8, bootState := fieldAt b 2 1, dirtyLost := fieldAt b 2 1 == 2 } }
  | none => s

end Sys2Proof.Machine
end

