-- ==== Sys2Proof/Machine/PrmOps.lean ====
section
/-! DEFINITION. Operations of the Promenade: receiving frames (R137 to R144), reassembly and admission of what they carry (R145 to
R147), serving repair requests (R168), the loss of a group or of the twin (R142, R159, R160), and the beginning of service (R548). -/

namespace Sys2Proof.Machine

/-! ## Service -/

/-- SERVING is asserted once the journal runs and the pair state permits (R548); PINNED extents load from then on (R237). -/
def State.serve (s : State) : State :=
  if s.jnlState = 2 ∧ 2 ≤ s.prmState ∧ !s.flag R.SUP_START_STAT.SERVING then
    let s := ((s.setServing true).fset R.SUP_START_STAT.PHASE 7).notePins
    s.fset R.SUP_START_STAT.START_MS ((s.timeNs - s.sup.startNs) / 1000000)
  else s

/-! ## The progress of a resync (R166, R170) -/

/-- Granules of an extent. -/
def granulesOf (e : Nat) : List Nat := (List.range 16384).map (e * 16384 + ·)

/-- Extents in a state of ASSIGNED. -/
def State.assignedExts (s : State) : List Nat := (s.ext.filter fun p => p.2.state == .assigned).map (·.1)

/-- Extents this device has marked as diverged (R146). -/
def State.divergedExts (s : State) : List Nat := (s.ext.filter fun p => p.2.diverged).map (·.1)

/-- Resync tiles under way at the source: in a fetch, or in a frame the twin has not acknowledged. -/
def State.resyncTiles (s : State) : List Nat :=
  ((s.med.fetch.filter fun f => f.waiters.any fun w => match w with | .resync _ => true | _ => false).map Fetch.tile)
  ++ ([0, 1].map fun g => (((s.grp g).rtx ++ (s.grp g).txq).filter fun f => f.typ == 0x09).map fun f => fieldAt f.payload 0 8 % 2 ^ 37).flatten

/-- Granules and extents still to accept: at the target every granule of every ASSIGNED extent until the maps are in (R166), at the source those
that it has not sent or whose frames the twin has not acknowledged. -/
def State.resyncLeft (s : State) : Nat × Nat :=
  match s.prm.resync with
  | none => (0, 0)
  | some r =>
    if !r.source ∧ !r.mapsIn then (16384 * s.assignedExts.length, s.assignedExts.length)
    else
      let gs := (r.granules ++ if r.source then s.resyncTiles.map (· / 16) else []).eraseDups
      (gs.length, (gs.map (· / 16384)).eraseDups.length)

/-- Keeps PRM_RESYNC_STAT (R170). -/
def State.noteResync (s : State) : State :=
  (s.fset R.PRM_RESYNC_STAT.GRANULES_LEFT s.resyncLeft.1).fset R.PRM_RESYNC_STAT.EXTENTS_LEFT s.resyncLeft.2

/-! ## Receiving -/

/-- The header of a received frame, its associated data (R137). -/
def frameAad (f : PrmFrame) (typ : Nat) : Bytes :=
  prmHeader typ f.grp.val f.fromSenior f.last f.keySel f.body.length f.fsn.toNat f.ackFsn.toNat f.credit.toNat f.nctr.toNat

/-- Payload of a frame whose tag verifies, and the receive key that stands then (R138 to R140); PAIRING is not encrypted (R137). -/
def State.openFrame (s : State) (f : PrmFrame) (typ : Nat) : Option (Bytes × Grp) :=
  let g := f.grp.val
  let k := s.grp g
  if typ = 0x0C then some (f.body, k)
  else if s.prm.secret.isNone ∨ f.fromSenior = s.isSenior then none
  else
    match (if f.keySel = k.peerSel then some k.peerEpoch else k.peerNext) with
    | none => none
    | some e =>
      match gcmOpen (s.prmKey f.fromSenior g e) (prmNonce f.fromSenior g f.nctr.toNat) (frameAad f typ) f.body (natBe 16 f.tag.toNat) with
      | none => none
      | some p => some (p, if f.keySel = k.peerSel then k else { k with peerEpoch := e, peerSel := f.keySel, peerNext := none })

/-- Order of 48-bit sequence numbers: `a` is at or before `b`. -/
def fsnLe (a b : Nat) : Bool := (b + 2 ^ 48 - a) % 2 ^ 48 < 2 ^ 47

/-- The header's acknowledgement and credit (R141, R143). -/
def State.takeAck (s : State) (g ack credit : Nat) : State :=
  let k := s.grp g
  let d := (credit + 2 ^ 32 - k.creditLimit % 2 ^ 32) % 2 ^ 32
  ((s.setGrp g { k with
    rtx := k.rtx.filter fun f => !fsnLe f.fsn ack
    creditLimit := if d < 2 ^ 31 then k.creditLimit + d else k.creditLimit }).pumpCredit g).noteResync

/-- Credit goes back to the sender, unless the Turnstile is at its bound (R143, R144). -/
def State.giveCredit (s : State) (g n : Nat) : State :=
  let k := s.grp g
  if s.fget (R.TST_SRC_STAT.IN_USE Src.prm.num) < Src.prm.quota then s.setGrp g { k with creditGiven := k.creditGiven + k.owed + n, owed := 0 }
  else s.setGrp g { k with owed := k.owed + n }

/-- NACK (R140). -/
def State.sendNack (s : State) (g fsn : Nat) (crc : Bool) : State :=
  (s.sat R.PRM_CNT0.TAG_FAIL).sendOn g 0x0A false (natLe 6 fsn ++ [Config.nackReason crc, 0])

/-- Receives a frame on a group that is up: tag, key change, acknowledgement, credit, order (R138 to R143). `act` is what its TYPE does with
the payload; a numbered frame out of order is discarded, gives its credit back, and comes again. -/
def State.prmRx (s : State) (f : PrmFrame) (typ : Nat) (act : State → Bytes → State) : State :=
  let g := f.grp.val
  if !s.grpUp g then s
  else match s.openFrame f typ with
    | none => (s.giveCredit g (credits typ f.body.length)).sendNack g (s.grp g).rxNext false
    | some (p, k) =>
      let s := (s.setGrp g k).takeAck g f.ackFsn.toNat f.credit.toNat
      if unnumbered typ then act s p
      else if f.fsn.toNat = (s.grp g).rxNext then
        act ((s.setGrp g { s.grp g with rxNext := (f.fsn.toNat + 1) % 2 ^ 48 }).giveCredit g (credits typ f.body.length)) p
      else s.giveCredit g (credits typ f.body.length)

/-! ## Reassembly (R145, R147) -/

/-- Adds a fragment; one that is already held is discarded (R142). -/
def addFrag (l : List (Nat × Nat × List Frag)) (key total : Nat) (fr : Frag) : List (Nat × Nat × List Frag) :=
  match l.find? fun q => q.1 == key with
  | some (_, _, fs) =>
    if fs.any fun x => x.off == fr.off then l else l.map fun q => if q.1 = key then (key, q.2.1, fs ++ [fr]) else q
  | none => l ++ [(key, total, [fr])]

/-- The whole image of a key with its first fragment, once every byte has arrived. -/
def wholeImage (l : List (Nat × Nat × List Frag)) (key : Nat) : Option (Bytes × Frag) :=
  match l.find? fun q => q.1 == key with
  | some (_, total, fs) =>
    if (fs.map fun x => x.bytes.length).foldl (· + ·) 0 = total then
      (fs.find? fun x => x.off == 0).map fun x => (fs.foldl (fun b y => overlay b y.off y.bytes) [], x)
    else none
  | none => none

/-- Fields of a RECORD or FORWARD payload: key, REC_BYTES, the fragment. -/
def fragOf (f : PrmFrame) (p : Bytes) : Nat × Nat × Frag :=
  (fieldAt p 0 8, fieldAt p 12 4, { off := fieldAt p 8 4, grp := f.grp.val, fsn := f.fsn.toNat, bytes := p.drop 16 })

/-- An image that fails R98 is discarded and asked for again from its first frame (R140). -/
def State.nackImage (s : State) (fr : Frag) : State :=
  (s.setGrp fr.grp { s.grp fr.grp with rxNext := fr.fsn }).sendNack fr.grp fr.fsn true

/-! ## Admission of what was received -/

/-- Takes a formed record through R100 as far as it goes at once. -/
def State.admitNow (s : State) (id : Nat) : State :=
  let s := match s.jnl.formed.find? (·.id == id) with
    | some r => s.submitRec r
    | none => s
  match s.jnl.reserved.find? (·.id == id) with
  | some r => if s.jnlOpen then s.sequence r else s
  | none => s

/-- A record of the twin's is on its way through R100. -/
def State.twinBusy (s : State) : Bool := (s.jnl.formed ++ s.jnl.waiting ++ s.jnl.reserved).any (·.twin)

/-- Serves a repair request (R168): verified contents at the live version, or POISONED; a copy of its own that has already failed goes
to step 5 of R83. -/
def State.serveRepair (s : State) (t tag : Nat) : State :=
  let answer := fun (s : State) (v : Option (Bytes × Ver)) => (s.sendTwin 0x07 (s.tileFrame t v false none)).resolve tag .ok
  if isSys t ∨ (s.extent (extOf t)).state ≠ .assigned ∨ s.remote t then answer s none
  else match s.tileNow t with
    | .data b => answer (s.copyOut t) (some (b, s.liveVer t))
    | .poison => answer s none
    | .miss =>
      match (s.fetchOf t).filter (·.repairing) with
      | some f => answer ((s.dropRepair t).failFetch f) none
      | none => s.fetchOp t (.twin tag) (s.clsOf t) tag

/-- A tile of RESYNC_DATA: its version, READ_SEQ and outcome, if its tag and seal verify (R137, R165). -/
def State.resyncTileOf (s : State) (tag : Nat) (p : Bytes) : Option ResyncTile :=
  let t := fieldAt p 0 8 % 2 ^ 37
  let v := verOfWord (fieldAt p 16 8)
  if p.length ≤ 32 then
    let bad := fieldAt p 8 1 == Status.poisoned.code
    some { tile := t, tag := tag, ver := v, readSeq := fieldAt p 24 8, status := if bad then .poisoned else .ok, zero := !bad, bytes := [], seal64 := 0 }
  else
    let b := slice p 24 4096
    let img := slice p 4120 64
    let q := BitVec.ofNat 64 (fieldAt img 0 8)
    if slice img 0 56 = slice (s.tileTag t v q) 0 56 ∧ s.tileSeal t v b = q then
      some { tile := t, tag := tag, ver := v, readSeq := fieldAt img 56 8, status := .ok, zero := false, bytes := b, seal64 := q }
    else none

/-- Takes in a resync tile of a granule that is still due; one that fails verification leaves its granule as it is (R165). -/
def State.takeResync (s : State) (tag : Nat) (p : Bytes) : State :=
  match s.prm.resync, s.resyncTileOf tag p with
  | some r, some x =>
    if !r.source ∧ r.granules.contains (x.tile / 16) ∧ !r.inst.contains x.tile ∧ !(r.got.any fun y => y.tile == x.tile) then
      { s with prm := { s.prm with resync := some { r with got := r.got ++ [x] } } }
    else s.resolve tag .ok
  | _, _ => s.resolve tag .ok

/-- One turn of what was received: the next record in PAIR_SEQ order, a forwarded write, a request that waited for an entry (R105, R144). -/
def State.prmTurn (s : State) : State :=
  let next := if s.jnlOpen then s.prm.rxRecs.find? fun p => p.1 == 0 || (p.1 == s.prm.seqHigh + 1 && !s.twinBusy) else none
  match next, s.prm.rxWait with
  | some (k, r), _ =>
    (match s.takeEntry .prm { kind := .prm (r.body.tiles.headD 0) } with
     | none => s
     | some (tag, s) =>
       let s := { s with prm := { s.prm with rxRecs := s.prm.rxRecs.erase (k, r) } }
       let (id, s) := s.formRec { r with owner := if k = 0 then .forward r.ref tag else .twin tag }
       s.admitNow id)
  | none, (typ, p) :: rest =>
    (match s.takeEntry .prm { kind := .prm (fieldAt p 0 8 % 2 ^ 37) } with
     | none => s
     | some (tag, s) =>
       let s := { s with prm := { s.prm with rxWait := rest } }
       if typ = 0x06 then s.serveRepair (fieldAt p 0 8 % 2 ^ 37) tag else s.takeResync tag p)
  | none, [] => s

/-- Takes in all that can be taken in. -/
def State.prmPump (s : State) : State :=
  (s.prm.rxRecs.length + s.prm.rxWait.length |> List.range).foldl (fun s _ => s.prmTurn) s

/-- A RECORD fragment (R145). -/
def State.takeRecord (s : State) (f : PrmFrame) (p : Bytes) : State :=
  let (key, total, fr) := fragOf f p
  if key ≤ s.prm.seqHigh then s.rackTwin s.prm.seqHigh
  else if s.prm.rxRecs.any fun q => q.1 == key then s
  else
    let l := addFrag s.prm.reasm key total fr
    match wholeImage l key with
    | none => { s with prm := { s.prm with reasm := l } }
    | some (img, first) =>
      let s := { s with prm := { s.prm with reasm := l.filter fun q => q.1 ≠ key } }
      match recOfImage img 0 (.twin 0) with
      | none => s.nackImage first
      | some r =>
        let r := { r with twin := true, jsn := 0, pairSeq := key, origin := 5, returns := r.origin == 5 }
        ({ s with prm := { s.prm with rxRecs := s.prm.rxRecs ++ [(key, r)] } }).prmPump

/-- A FORWARD fragment (R147); one of an image that has been taken is discarded (R142). -/
def State.takeForward (s : State) (f : PrmFrame) (p : Bytes) : State :=
  let (key, total, fr) := fragOf f p
  let l := addFrag s.prm.fwdReasm key total fr
  if s.prm.fwdSeen.contains key then s
  else match wholeImage l key with
  | none => { s with prm := { s.prm with fwdReasm := l } }
  | some (img, first) =>
    let s := { s with prm := { s.prm with fwdReasm := l.filter fun q => q.1 ≠ key } }
    match recOfImage img 0 .engine with
    | none => s.nackImage first
    | some r =>
      let r := { r with jsn := 0, pairSeq := 0, ref := key, mirror := true, origin := 5 }
      ({ s with prm := { s.prm with rxRecs := s.prm.rxRecs ++ [(0, r)], fwdSeen := s.prm.fwdSeen ++ [key] } }).prmPump

/-! ## Loss of a group, loss of the twin -/

/-- Sends frames again in order, each with a new NCTR and against credit, as far as credit reaches; the rest comes at the next expiry
(R141, R143). -/
def State.resendList (g : Nat) : List TxFrame → State → State
  | [], s => s
  | f :: l, s =>
    let k := s.grp g
    let n := credits f.typ f.payload.length
    if k.mayUse n then
      let rtx := k.rtx.map fun x => if x.fsn = f.fsn then { x with sends := x.sends + 1 } else x
      let s := s.setGrp g { k with creditUsed := k.creditUsed + n, rtx := rtx }
      resendList g l (((s.sat R.PRM_CNT0.RETRANSMIT).putFrame0 g f.typ f.fsn f.last f.payload).rekeyIfDue g)
    else s

/-- Resends held frames from one on (R141). -/
def State.resendFrom (s : State) (g fsn : Nat) : State := resendList g ((s.grp g).rtx.filter fun f => fsnLe fsn f.fsn) s

/-- Outstanding repair fetches fail (R160). -/
def State.failRepairs (s : State) : State :=
  (s.prm.repairs.map Repair.tile).foldl State.repairFail s

/-- What a device drops when the twin is lost: partly reassembled records (R160), credits, a pairing under way. -/
def State.dropLink (s : State) : State :=
  let q := { s.prm with reasm := [], fwdReasm := [], fwdSeen := [], rxWait := [], establishing := false, replacing := false }
  { s with prm := { q with attested := false, kex := none, xferKey := none, nonce := none, homeSeq := none } }

/-- Goes solo (R104, R160, R161, R164): home of every extent, what waited for the mirror completes, forwarded writes are admitted here. The
tiles of records the twin has not acknowledged are dirty from the start (log entry 46). -/
def State.goSolo (s : State) (bump : Bool) : State :=
  let s := (s.fset R.PRM_STAT.STATE 3).dropLink
  let s := if bump then s.inc R.PRM_STAT.TERM else s
  let late := s.jnl.unacked
  let ts := (s.jnl.recs.filter fun (r : Rec) => late.any fun u => u.jsn == r.jsn).map fun (r : Rec) => r.body.tiles
  let s := { s with prm := { s.prm with resync := none, forced := if bump then false else s.prm.forced, dirty := if bump then [] else s.prm.dirty } }
  let s := s.giveUpAcks.markDirty ts.flatten
  let s := late.foldl State.acksDone s
  let s := s.jnl.fences.foldl (fun s f => s.fenceEnd f .ok) s
  let s := s.failRepairs
  let mine := s.prm.fwd
  let s := { s with prm := { s.prm with fwd := [] } }
  let s := mine.foldl (fun (s : State) p =>
    let (id, s) := s.formRec { p.2 with ref := 0 }
    s.admitNow id) s
  ((s.noteLag.lagPause false).notePair).serve

/-- Becomes READONLY (R159, R160). What a target would have added to the scope of its resync it adds to the next (R167). -/
def State.goReadonly (s : State) : State :=
  let s := (s.fset R.PRM_STAT.STATE 4).dropLink
  let late := s.jnl.unacked
  let own := match s.prm.resync with | some r => (if r.source then s.prm.dirty else r.own) | none => s.prm.dirty
  let s := ({ s with prm := { s.prm with resync := none, dirty := own } }).giveUpAcks
  let s := late.foldl (fun s u => if u.wait then s.tellOwner u.owner .aborted else s.acksDone u) s
  let s := s.jnl.fences.foldl (fun s f => s.fenceEnd f .aborted) s
  let s := s.failRepairs
  let mine := s.prm.fwd
  let s := { s with prm := { s.prm with fwd := [] } }
  let s := mine.foldl (fun (s : State) p => s.tellOwner p.2.owner .timeout) s
  ((s.noteLag.lagPause false).notePair).serve

/-- Both groups are down (R159, R167): a device that holds a pair secret has lost its twin, resuming its pair or paired. -/
def State.twinLost (s : State) : State :=
  let s := match s.prmState with
    | 2 => if s.isSenior ∨ !s.flag R.PRM_STAT.TWIN_ALIVE then s.goSolo true else s.goReadonly
    | 5 => s.goSolo false
    | 6 => s.goReadonly
    | 1 => s.dropLink.fset R.PRM_STAT.STATE 0
    | _ => s.dropLink
  if s.prm.secret.isNone then s else s.postD 0x0202 s.prmState (s.fget R.PRM_STAT.TERM)

/-- Up bit and width of a group. -/
def upFld (g : Nat) : Fld := if g = 0 then R.PRM_STAT.GRP_A_UP else R.PRM_STAT.GRP_B_UP
def widthFld (g : Nat) : Fld := if g = 0 then R.PRM_GRP_STAT.A_WIDTH else R.PRM_GRP_STAT.B_WIDTH

/-- A group goes down (R142, R159): its frames move to the other group, or the twin is lost. Cause 0 heartbeat, 1 retries. -/
def State.downGroup (s : State) (g cause : Nat) : State :=
  if !s.grpUp g then s
  else
    let k := s.grp g
    let s := (s.fput (upFld g) false).fset (widthFld g) 0
    let s := s.setGrp g { nctr := k.nctr, keySel := k.keySel, epoch := k.epoch, peerEpoch := k.peerEpoch, peerSel := k.peerSel, peerNext := k.peerNext }
    let s := s.postD 0x0201 g cause
    if s.grpUp (1 - g) then (k.rtx ++ k.txq).foldl (fun s f => s.sendOn (1 - g) f.typ f.last f.payload) s
    else s.twinLost

end Sys2Proof.Machine
end

