-- ==== Sys2Proof/Machine/Promenade.lean ====
section
/-! DEFINITION. The Promenade's commands (R133 to R170): frames by type, link timers and groups, TWIN_ALIVE, pairing (R150 to R157) and
resync (R162 to R167). -/

namespace Sys2Proof.Machine

/-! ## Status codes in frames -/

/-- The status of a code (R609). -/
def statusOf (n : Nat) : Status :=
  [Status.ok, .okSolo, .conflict, .poisoned, .access, .revoked, .limit, .disabled, .timeout, .exhausted, .nospace, .fault, .readonly,
    .aborted, .malformed, .internal].getD n .internal

/-! ## Resync: scope, maps, ends (R162 to R167) -/

/-- `n` bits as bytes, bit 0 of byte 0 first. -/
def bitBytes (n : Nat) (p : Nat → Bool) : Bytes :=
  (List.range (n / 8)).map fun i => BitVec.ofNat 8 ((List.range 8).foldl (fun x j => x + if p (8 * i + j) then 2 ^ j else 0) 0)

/-- Bit `i` of such bytes. -/
def bitAt (b : Bytes) (i : Nat) : Bool := (b.getD (i / 8) 0).getLsbD (i % 8)

/-- Sends the extent map in 16 parts and then each sub-map (R165 step 1). The form of a RESYNC_MAP payload is the model's own (log entry 47). -/
def State.sendMaps (s : State) (gs : List Nat) : State :=
  let es := (gs.map (· / 16384)).eraseDups
  let s := (List.range 16).foldl (fun s i =>
    s.sendTwin 0x08 (natLe 4 0 ++ natLe 4 i ++ bitBytes 32768 fun j => es.contains (i * 32768 + j))) s
  es.foldl (fun s e => s.sendTwin 0x08 (natLe 4 1 ++ natLe 4 e ++ bitBytes 16384 fun j => gs.contains (e * 16384 + j))) s

/-- Becomes the source of a resync over granules (R165), which its dirty map holds until the resync has ended (R167). The PAIR_SEQ series goes on
from what the target holds (log entry 46); in a resync of diverged extents alone the offered records are still due (R163). -/
def State.beginSource (s : State) (gs : List Nat) (only : Bool) (peerHigh : Nat) : State :=
  let gs := (sortBy (· ≤ ·) gs).eraseDups
  let s := if only then s else s.giveUpAcks
  let s := (s.fset R.PRM_STAT.STATE 5).sendMaps gs
  ({ s with prm := { s.prm with
      resync := some { source := true, all := false, granules := gs, only := only }
      dirty := (sortBy (· ≤ ·) (s.prm.dirty ++ gs)).eraseDups
      pairGiven := if only then max s.prm.pairGiven peerHigh else peerHigh
      pairAcked := max (if only then s.prm.pairAcked else 0) peerHigh } }).noteResync.noteLag.serve

/-- Records of the target that are dropped where R162 says so: its unretired MIRROR records admitted while READONLY or solo, and those the
twin has not acknowledged (R163). -/
def State.ownUnmirrored (s : State) : List Rec :=
  s.jnl.recs.filter fun (r : Rec) => r.mirror && !r.twin && (r.pairSeq == 0 || !r.acked)

/-- Granules a discarding target adds to the scope: of the records it drops, and of those it had already written while alone (R163). -/
def State.ownGranules (s : State) : List Nat :=
  let tiles := ((s.ownUnmirrored.map fun (r : Rec) => r.body.tiles).flatten).filter fun t => !isSys t
  (sortBy (· ≤ ·) (tiles.map (· / 16) ++ s.prm.dirty)).eraseDups

/-- Becomes the target of a resync (R163, R165). -/
def State.beginTarget (s : State) (discard only : Bool) (term : Nat) : State :=
  let gone := if discard then s.ownUnmirrored else []
  let tiles := ((gone.map fun (r : Rec) => r.body.tiles).flatten).filter fun t => !isSys t
  let own := if discard then s.ownGranules else []
  let s := { s with
    jnl := { s.jnl with
      recs := s.jnl.recs.filter fun (r : Rec) => !gone.any fun q => q.id == r.id
      unacked := if only then s.jnl.unacked else []
      durTo := if only then s.jnl.durTo else none }
    prm := { s.prm with
      resync := some { source := false, all := false, own := own, term := term, only := only }
      dirty := [], homeSeq := none } }
  let s := tiles.foldl State.invalidateTile s
  let s := if discard then (s.sat R.PRM_CNT1.DISCARDED gone.length).postD 0x0206 0 gone.length else s
  ((s.fset R.PRM_STAT.STATE 6).noteOcc.noteResync.noteLag.lagPause false).serve

/-- A resync has ended: both twins are PAIRED again (R165 step 5), the marks of R146 are cleared, and what was never acknowledged has been put in
its place, so that the watermark goes on (R107). A resync of diverged extents alone leaves the source's own marks. -/
def State.resyncOver (s : State) (r : Resync) : State :=
  let s := if r.source ∧ r.only then s
    else s.divergedExts.foldl (fun s e => s.markExt e fun x => { x with diverged := false }) s
  let s := if r.source then s else s.fset R.PRM_STAT.TERM r.term
  let s := { s with
    jnl := { s.jnl with durTo := if r.only then s.jnl.durTo else none }
    persist := { s.persist with forcedTerm := none }
    prm := { s.prm with resync := none, dirty := [], dirtyLost := false, homeSeq := none, forced := false, healed := true } }
  ((s.fset R.PRM_STAT.STATE 2).noteResync.notePair.noteLag).postD 0x0207 0 (s.fget R.PRM_STAT.TERM)

/-- The same, and where both twins have marks, a second resync in the other direction follows that of the first twin's (R146; log entry 133). -/
def State.endResync (s : State) : State :=
  match s.prm.resync with
  | none => s
  | some r =>
    let due := s.prm.peerDiv
    let s := ({ s with prm := { s.prm with peerDiv := [] } }).resyncOver r
    if r.only ∧ r.source ∧ s.divergedExts ≠ [] then s.beginTarget false true (s.fget R.PRM_STAT.TERM)
    else if r.only ∧ !r.source ∧ due ≠ [] then s.beginSource ((due.map granulesOf).flatten) true s.prm.pairAcked
    else s

/-- The source sends HOME once the target has all of it (R165 step 5; log entry 48). -/
def State.homeSource (s : State) : State :=
  match s.prmState, s.prm.resync with
  | 5, some r =>
    if r.granules = [] ∧ s.resyncTiles = [] then (s.sendTwin 0x0D (natLe 8 (s.prm.pairGiven + 1))).endResync else s
  | _, _ => s

/-- The target takes its homes back once every granule is in and the records before HOME's PAIR_SEQ are admitted. -/
def State.homeTarget (s : State) : State :=
  match s.prmState, s.prm.resync, s.prm.homeSeq with
  | 6, some r, some q => if r.mapsIn ∧ r.granules = [] ∧ q ≤ s.prm.seqHigh + 1 then s.endResync else s
  | _, _, _ => s

/-! ## Frames -/

/-- PRM_RECORD (R145). -/
def execPrmRecord (f : PrmFrame) (s : State) : Host.Outcome State Fault Refusal :=
  .next (s.prmRx f 0x01 fun s p => if s.linked then (s.takeRecord f p).homeTarget else s)

/-- RACK (R107). -/
def execRack (f : PrmFrame) (s : State) : Host.Outcome State Fault Refusal :=
  .next (s.prmRx f 0x02 fun s p => if s.linked then s.ackPair (fieldAt p 0 8) else s)

/-- FORWARD (R147). -/
def execForward (f : PrmFrame) (s : State) : Host.Outcome State Fault Refusal :=
  .next (s.prmRx f 0x03 fun s p => if s.linked then s.takeForward f p else s)

/-- FWD_RESP (R147): the forwarded write ends with the home's status. -/
def execFwdResp (f : PrmFrame) (s : State) : Host.Outcome State Fault Refusal :=
  .next (s.prmRx f 0x04 fun s p =>
    match s.prm.fwd.find? fun q => q.1 == fieldAt p 0 8 with
    | none => s
    | some (k, r) =>
      let st := statusOf (fieldAt p 8 1)
      (s.dropForward k).tellOwner r.owner st)

/-- HEARTBEAT (R137, R158); the PAIR_SEQ it carries acknowledges as a RACK does (log entry 49). -/
def execHeartbeat (f : PrmFrame) (s : State) : Host.Outcome State Fault Refusal :=
  .next (s.prmRx f 0x05 fun s p => if s.linked then s.ackPair (fieldAt p 8 8) else s)

/-- REPAIR_REQ (R144, R168). -/
def execRepairReq (f : PrmFrame) (s : State) : Host.Outcome State Fault Refusal :=
  .next (s.prmRx f 0x06 fun s p =>
    if s.linked then ({ s with prm := { s.prm with rxWait := s.prm.rxWait ++ [(0x06, p)] } }).prmPump else s)

/-- REPAIR_DATA (R85, R168, R169): verified and judged, or a failure; LATE where nothing waits for it. -/
def execRepairData (f : PrmFrame) (s : State) : Host.Outcome State Fault Refusal :=
  .next (s.prmRx f 0x07 fun s p =>
    let t := fieldAt p 0 8
    match s.prm.repairs.find? fun r => r.tile == t && (r.step == .asked || r.step == .askedAgain) with
    | none => s.sat R.PRM_CNT1.LATE
    | some r =>
      let v := verOfWord (fieldAt p 16 8)
      let b := slice p 24 4096
      let q := BitVec.ofNat 64 (fieldAt p 4120 8)
      if fieldAt p 8 1 ≠ 0 ∨ p.length ≠ 4184 ∨ slice p 4120 64 ≠ s.tileTag t v q ∨ s.tileSeal t v b ≠ q then s.repairFail t
      else s.judgeCopy r b v)

/-- RESYNC_MAP (R165 step 1, R166). -/
def execResyncMap (f : PrmFrame) (s : State) : Host.Outcome State Fault Refusal :=
  .next (s.prmRx f 0x08 fun s p =>
    match s.prmState, s.prm.resync with
    | 6, some r =>
      let n := fieldAt p 4 4
      let b := p.drop 8
      let r : Resync := if fieldAt p 0 4 = 0 then
          { r with parts := insertRising n r.parts, mapDue := r.mapDue ++ ((List.range 32768).filter (bitAt b)).map (n * 32768 + ·) }
        else
          { r with mapDue := r.mapDue.filter (· ≠ n)
                   granules := (sortBy (· ≤ ·) (r.granules ++ ((List.range 16384).filter (bitAt b)).map (n * 16384 + ·))).eraseDups }
      let r : Resync := if r.parts.length = 16 ∧ r.mapDue = [] ∧ !r.mapsIn then
          { r with mapsIn := true, granules := (sortBy (· ≤ ·) (r.granules ++ r.own)).eraseDups } else r
      ({ s with prm := { s.prm with resync := some r } }).noteResync.homeTarget
    | _, _ => s)

/-- RESYNC_DATA (R144, R165 step 4). -/
def execResyncData (f : PrmFrame) (s : State) : Host.Outcome State Fault Refusal :=
  .next (s.prmRx f 0x09 fun s p =>
    if s.prmState = 6 then ({ s with prm := { s.prm with rxWait := s.prm.rxWait ++ [(0x09, p)] } }).prmPump else s)

/-- The indivisible step of R165 step 4: stored contents at the sent version, covered segments dropped, the granule accepted with its last
tile. -/
def State.installResync (s : State) (r : Resync) (x : ResyncTile) : State :=
  let t := x.tile
  let done (q : Rec) : Rec := if q.body.tiles.contains t ∧ q.pairSeq ≤ x.readSeq ∧ !q.doneTiles.contains t then { q with doneTiles := q.doneTiles ++ [t] } else q
  let s := { s with jnl := { s.jnl with recs := s.jnl.recs.map done } }
  let s := s.invalidateTile t
  let s := if (s.frame t).isSome then s.dropFrame t else s
  let bad := x.status == .poisoned
  let s := if x.zero ∨ bad then s
    else
      let words := (s.buildStripe t x.ver x.bytes x.seal64).zipIdx.map fun p => (p.2, p.1)
      (s.writeStripe t (.fix t) words).2
  let s := if bad then s.sat R.MED_VFY_CNT1.POISONED else s
  let s := (s.changeEntry t { quar := bad, zero := x.zero, reloc := x.ver.reloc, gen := x.ver.gen }).sweepRecs
  let g := t / 16
  let inst := insertRising t r.inst
  let full := 16 ≤ (inst.filter fun u => u / 16 == g).length
  let r := { r with
    got := r.got.filter fun y => y.tile ≠ t
    inst := if full then inst.filter fun u => u / 16 ≠ g else inst
    granules := if full then r.granules.filter (· ≠ g) else r.granules }
  (({ s with prm := { s.prm with resync := some r } }).resolve x.tag .ok).noteResync.homeTarget

/-- RESYNC_TILE_INSTALL (R165 step 4): once every record up to READ_SEQ has been admitted; not while the tile is retiring (R188). -/
def execResyncTileInstall (t : Nat) (s : State) : Host.Outcome State Fault Refusal :=
  .next (match s.prmState, s.prm.resync with
    | 6, some r =>
      (match r.got.find? fun x => x.tile == t with
       | some x => if s.prm.seqHigh < x.readSeq ∨ (s.retireOf t).isSome then s else s.installResync r x
       | none => s)
    | _, _ => s)

/-- RESYNC_TILE_SEND (R165 step 3): the next tile of the scope, unless PAUSE holds it; after the last one, HOME. -/
def execResyncTileSend (s : State) : Host.Outcome State Fault Refusal :=
  .next (match s.prmState, s.prm.resync with
    | 5, some r =>
      (match r.granules with
       | [] => s.homeSource
       | g :: rest =>
         if s.flag R.PRM_RESYNC_CTL.PAUSE then s
         else
           let t := g * 16 + r.next
           match s.takeEntry .prm { kind := .prm t } with
           | none => s
           | some (tag, s) =>
             let r := if r.next = 15 then { r with granules := rest, next := 0 } else { r with next := r.next + 1 }
             let s := ({ s with prm := { s.prm with resync := some r } }).noteResync
             let say := fun (s : State) (v : Option (Bytes × Ver)) (z : Bool) => (s.sendTwin 0x09 (s.tileFrame t v z (some s.prm.pairGiven))).resolve tag .ok
             if (s.genEntry t).zero ∧ s.pendingFor t = [] then say s none true
             else match s.tileNow t with
               | .data b => say (s.copyOut t) (some (b, s.liveVer t)) false
               | .poison => say s none false
               | .miss => s.fetchOp t (.resync tag) (s.clsOf t) tag)
    | _, _ => s)

/-- NACK (R141). -/
def execNack (f : PrmFrame) (s : State) : Host.Outcome State Fault Refusal :=
  .next (s.prmRx f 0x0A fun s p => s.resendFrom f.grp.val (fieldAt p 0 6))

/-- REKEY (R139): the next key of the sender is announced. -/
def execRekey (f : PrmFrame) (s : State) : Host.Outcome State Fault Refusal :=
  .next (s.prmRx f 0x0B fun s p => s.setGrp f.grp.val { s.grp f.grp.val with peerNext := some (fieldAt p 0 4) })

/-- HOME (R165 step 5). -/
def execHome (f : PrmFrame) (s : State) : Host.Outcome State Fault Refusal :=
  .next (s.prmRx f 0x0D fun s p =>
    if s.prmState = 6 then ({ s with prm := { s.prm with homeSeq := some (fieldAt p 0 8) } }).homeTarget else s)

/-- IDLE (R141, R143): its header fields are all it carries. -/
def execIdle (f : PrmFrame) (s : State) : Host.Outcome State Fault Refusal :=
  .next (s.prmRx f 0x0E fun s _ => s.homeSource)

/-! ## Timers, groups, TWIN_ALIVE -/

/-- PRM_RTO_EXPIRE (R141): resend, or the group is down once RETRIES resends are used. -/
def execPrmRtoExpire (g : Fin 2) (s : State) : Host.Outcome State Fault Refusal :=
  .next (match s.grpUp g.val, (s.grp g.val).rtx with
    | true, f :: _ =>
      if s.fget R.PRM_LINK_CTL.RETRIES ≤ f.sends then s.downGroup g.val 1 else s.resendFrom g.val f.fsn
    | _, _ => s)

/-- PRM_HEARTBEAT_SEND (R158): on each group that is up; a device without a pair secret has no key to send it under, and one that has halted or
stops sends none (R209, R525). -/
def execPrmHeartbeatSend (s : State) : Host.Outcome State Fault Refusal :=
  .next (if s.prm.secret.isNone ∨ s.fget R.TER_STAT.STATE = 3 ∨ (s.jnlState = 4 ∧ s.pwr.off.isSome) then s
    else [0, 1].foldl (fun s g =>
      if s.grpUp g then
        s.sendOn g 0x05 false (natLe 4 (s.fget R.PRM_STAT.TERM) ++ natLe 1 s.prmState ++ natLe 3 0 ++ natLe 8 s.prm.seqHigh)
      else s) s)

/-- PRM_HEARTBEAT_MISS (R158, R159): HB_MISS intervals without a valid frame (log entry 5). -/
def execPrmHeartbeatMiss (g : Fin 2) (s : State) : Host.Outcome State Fault Refusal := .next (s.downGroup g.val 0)

/-- PRM_GROUP_TRAINED (R136): at width 16 or 8 with a flight time of at most 2 µs, once its wave has been released (R515); a group with a longer
flight stays down, and nothing reports it (log entry 132). Numbering and credit begin anew (log entry 50). -/
def execPrmGroupTrained (g : Fin 2) (width : Fin 4) (flightNs : BitVec 11) (s : State) : Host.Outcome State Fault Refusal :=
  .next (if s.grpUp g.val ∨ width = 0 ∨ 2000 < flightNs.toNat ∨ !s.groupOn (4 + g.val) then s
    else
      let s := (s.fput (upFld g.val) true).fset (widthFld g.val) width.val
      s.fset (if g.val = 0 then R.PRM_GRP_STAT.A_FLIGHT_NS else R.PRM_GRP_STAT.B_FLIGHT_NS) flightNs.toNat)

/-- TWIN_ALIVE_TOGGLE (R158): while the journal is RECOVERING, RUNNING or DRAINING; low otherwise. -/
def execTwinAliveToggle (s : State) : Host.Outcome State Fault Refusal :=
  let live := s.jnlState == 1 || s.jnlState == 2 || s.jnlState == 3
  .next { s with pins := { s.pins with twinAliveOut := live && !s.pins.twinAliveOut } }

/-- TWIN_ALIVE_EDGE (R158). -/
def execTwinAliveEdge (s : State) : Host.Outcome State Fault Refusal := .next (s.fput R.PRM_STAT.TWIN_ALIVE true)

/-- TWIN_ALIVE_QUIET (R158). -/
def execTwinAliveQuiet (s : State) : Host.Outcome State Fault Refusal := .next (s.fput R.PRM_STAT.TWIN_ALIVE false)

/-! ## Pairing -/

/-- The device attests its peer: GET_CERTIFICATE, CHALLENGE and GET_MEASUREMENTS go out in PAIRING frames (R151; log entry 7). -/
def State.askAttest (s : State) : State := ([0, 1, 2] : List (Fin 3)).foldl (fun s n => s.sendTwin 0x0C (Config.spdmRequest n)) s

/-- ESTABLISH (R150): none where it is refused with FAULT. -/
def State.establish? (s : State) : Option State :=
  if s.dbgOpen ∨ s.assignedExts ≠ [] ∨ s.prm.secret.isSome ∨ s.prmState ≠ 0 then none
  else some ({ s with prm := { s.prm with establishing := true, attested := false } }.fset R.PRM_STAT.STATE 1).askAttest

/-- START_SOLO (R154): while it waits in PHASE 6 for its pairing, or is READONLY. -/
def State.startSolo? (s : State) : Option State :=
  if s.prm.secret.isNone ∨ s.prm.lost ∨ s.prm.stale then none
  else if (s.prmState ≤ 1 ∧ s.fget R.SUP_START_STAT.PHASE = 6) ∨ s.prmState = 4 then some (s.goSolo true)
  else none

/-- The stored copies of the level-3 tiles under their own tag versions (R155 step 1): the generations a new root names. -/
def State.anchorTops (s : State) (l3 : List StoredCopy) : State :=
  [0, 1].foldl (fun s i =>
    let t := sysBase + lvl3 + i
    match l3[i]? with
    | some c =>
      let v := tagVer c.tag
      if (s.checkCopy t v c.tag c.cipher).isSome then s.setGen t { s.genEntry t with zero := false, reloc := v.reloc, gen := v.gen } else s
    | none => s) s

/-- A root record under the next ROOT_SEQ with the generations the level-3 tiles hold now, journaled and appended to the record
log (R155 step 1). -/
def State.newRoot (s : State) : State :=
  let q := match s.jnl.root with | some (q, _, _) => q + 1 | none => 1
  let tops := fun i => (s.genEntry (sysBase + lvl3 + i)).gen
  let s := { s with jnl := { s.jnl with root := some (q, tops 0, tops 1), rootDue := true } }
  let s := s.admitOwn (.root q (tops 0) (tops 1))
  if s.fls.fenced then s else s.logAppend (.root q (tops 0) (tops 1))

/-- What FORCE_SOLO does (R155). -/
def State.forceSolo (s : State) (l3 : List StoredCopy) : State :=
  let s := ((s.anchorTops l3).newRoot).goSolo true
  let s := { s with
    prm := { s.prm with forced := true, anchored := [] }
    persist := { s.persist with forcedTerm := some (s.fget R.PRM_STAT.TERM) } }
  s.postD 0x0208 0 (s.fget R.PRM_STAT.TERM)

/-- FORCE_SOLO (R155): none where it is refused with FAULT. -/
def State.forceSolo? (s : State) (l3 : List StoredCopy) : Option State :=
  if s.prm.secret.isNone ∨ !(s.prm.lost ∨ s.prm.stale) ∨ (s.sendGrp.isSome ∧ !s.prm.peerLost) ∨ s.fget R.SUP_START_STAT.PHASE < 6 then none
  else some (s.forceSolo l3)

/-- ADMIT_REPLACEMENT (R156, R157) on a survivor: FAULT outside SOLO and while one is in progress (log entry 132), EXHAUSTED where PAIR_INC
cannot rise. -/
def State.admitReplacement? (s : State) : Except Status State :=
  if s.prm.secret.isNone ∨ s.prmState ≠ 3 ∨ s.prm.replacing then .error .fault
  else if s.prm.pairInc = 0xFFFF then .error .exhausted
  else .ok { s with prm := { s.prm with pairInc := s.prm.pairInc + 1, replacing := true, attested := false } }.askAttest

/-- ESTABLISH (R150). -/
def execEstablish (s : State) : Host.Outcome State Fault Refusal := .next (s.establish?.getD s)

/-- START_SOLO (R154). -/
def execStartSolo (s : State) : Host.Outcome State Fault Refusal := .next (s.startSolo?.getD s)

/-- FORCE_SOLO (R155). -/
def execForceSolo (l3 : List StoredCopy) (s : State) : Host.Outcome State Fault Refusal := .next ((s.forceSolo? l3).getD s)

/-- ADMIT_REPLACEMENT (R156). -/
def execAdmitReplacement (s : State) : Host.Outcome State Fault Refusal :=
  .next (match s.admitReplacement? with | .ok t => t | .error _ => s)

/-- A tile is re-anchored on its stored copy (R155 steps 2 and 3): an accepted version goes through a TABLE record; what does not verify is
quarantined, but for a tile whose entry is ZERO, which then has no copy (log entry 134). -/
def State.reanchor (s : State) (t : Nat) (copy : StoredCopy) : State :=
  let v := tagVer copy.tag
  let s := { s with prm := { s.prm with anchored := s.prm.anchored ++ [t] } }
  if (s.checkCopy t v copy.tag copy.cipher).isSome then s.changeEntry t { s.genEntry t with zero := false, reloc := v.reloc, gen := v.gen }
  else if (s.genEntry t).zero then s
  else if isSys t then (s.dataUnder t).foldl State.quarantine s
  else s.quarantine t

/-- REANCHOR_TILE (R155 steps 2 and 3): one step of the background walk, with an entry of the rebuild share (R196). -/
def execReanchorTile (t : Nat) (copy : StoredCopy) (s : State) : Host.Outcome State Fault Refusal :=
  .next (if !s.unanchored t ∨ lvl3 ≤ t - sysBase ∧ isSys t then s
    else match s.takeEntry .maint { kind := .maint t } with
      | some (tag, s) => (s.reanchor t copy).resolve tag .ok
      | none => s)

/-- A pairing that fails leaves the device UNPAIRED (R151); a survivor stays solo. -/
def State.pairFails (s : State) : State :=
  let s := { s with prm := { s.prm with establishing := false, replacing := false, attested := false } }
  if s.prmState = 1 then s.fset R.PRM_STAT.STATE 0 else s

/-- Equal SENIOR straps (R153). -/
def State.roleClash (s : State) : State := s.pairFails.postD 0x0203 0 0

/-- The custodian hash staged in GTH_TEN_HASH (R452, R473). -/
def State.stagedHash (s : State) : BitVec 384 :=
  (List.range 6).foldl (fun (h : BitVec 384) w => h ||| BitVec.ofNat 384 (s.fget (R.GTH_TEN_HASH.HASH w) * 2 ^ (64 * w))) 0

/-- The secret of a hybrid exchange (R150): SP 800-108 keyed by the ML-KEM secret, over the P-384 x-coordinate and the transcript's hash. -/
def exchangeKey (ss x transcript : Bytes) : Bytes := kdf ss (x ++ sha3_384 transcript) 256

/-- Both senders of a group on a Promenade epoch, the KEY_SEL of its parity (R137, R153). -/
def Grp.onEpoch (k : Grp) (mine peer : Nat) : Grp :=
  { k with epoch := mine, keySel := mine % 2 == 1, nctr := 0, peerEpoch := peer, peerSel := peer % 2 == 1, peerNext := none }

/-- A new pair (R150, R152, R157): TERM 0, incarnations 0, the entry of tenant 0 with the staged hash, the configuration sector due. -/
def State.newPair (s : State) (secret : BitVec 256) : State :=
  let hash := s.stagedHash
  let ep := s.fget R.GTH_TEN_STAT.NEXT_EPOCH
  let a : Attr := .tenantCreate 0 hash (BitVec.ofNat 32 ep)
  let s := { s with
    persist := s.persist.take a
    prm := { s.prm with secret := some secret, pairInc := 0, joinInc := 0, establishing := false, attested := false }
    fls := { s.fls with autoCfg := true } }
  let s := (s.applyAttr a).fput R.GTH_STAT.PAIR_KEY true
  ((s.fset R.PRM_STAT.TERM 0).fset R.PRM_STAT.STATE 2).serve

/-- A message of the exchange: ML-KEM part of 1,568 bytes, P-384 public key of 96, the staged custodian hash (R150, R152; log entry 7). -/
def State.kexMsg (s : State) (kem pub : Bytes) : Bytes := slice kem 0 1568 ++ slice pub 0 96 ++ natLe 48 s.stagedHash.toNat

/-- The senior opens the exchange of R150. -/
def State.offerKeys (s : State) : State :=
  let (seed, s) := s.drawBytes 64
  let (priv, s) := s.drawBytes 48
  let (ek, dk) := Config.mlkemKeys seed
  let m := s.kexMsg ek (Config.p384Public priv)
  ({ s with prm := { s.prm with kex := some (dk, priv, m) } }).sendTwin 0x0C m

/-- A survivor's transfer to its replacement (R156 step 2): secret, PAIR_INC, TERM and the epoch of each group, under the transfer key. Both
senders of each group take a fresh epoch first, so that no key comes back with its counters at 0 (log entry 135). -/
def State.sendTransfer (s : State) (key : Bytes) : State :=
  let up := fun (k : Grp) => max k.epoch k.peerEpoch + 1
  let body := s.pairSecret ++ natLe 2 s.prm.pairInc.toNat ++ natLe 4 (s.fget R.PRM_STAT.TERM) ++ natLe 4 (up s.prm.a) ++ natLe 4 (up s.prm.b)
  let enc := gcmSeal key (List.replicate 12 0) [] body
  let s := s.sendTwin 0x0C (enc.1 ++ enc.2)
  let s := { s with
    prm := { s.prm with replacing := false, attested := false, a := s.prm.a.onEpoch (up s.prm.a) (up s.prm.a), b := s.prm.b.onEpoch (up s.prm.b) (up s.prm.b) }
    fls := { s.fls with autoCfg := true } }
  s.beginSource ((s.assignedExts.map granulesOf).flatten) false 0

/-- What an exchange amounts to (R150, R152, R156): a new pair if both staged one hash, the survivor's transfer, or a replacement's transfer key. -/
def State.exchanged (s : State) (key : Bytes) (peerHash : BitVec 384) : State :=
  let s := { s with prm := { s.prm with kex := none } }
  if s.prm.replacing then s.sendTransfer key
  else if s.prm.establishing then (if s.stagedHash ≠ peerHash then s.pairFails else s.newPair (BitVec.ofNat 256 (beNat key)))
  else if s.prm.secret.isNone then { s with prm := { s.prm with xferKey := some key } }
  else s

/-- A message of the exchange (R150): the junior answers the senior's, the senior takes the junior's. -/
def State.takeExchange (s : State) (m : Bytes) : State :=
  let (kem, pub, hash) := (slice m 0 1568, slice m 1568 96, BitVec.ofNat 384 (fieldAt m 1664 48))
  if s.isSenior then
    match s.prm.kex with
    | some (dk, priv, sent) => s.exchanged (exchangeKey (Config.mlkemDecaps dk kem) (Config.p384Shared priv pub) (sent ++ m)) hash
    | none => s
  else
    let (seed, s) := s.drawBytes 32
    let (priv, s) := s.drawBytes 48
    let (ct, ss) := Config.mlkemEncaps kem seed
    let ans := s.kexMsg ct (Config.p384Public priv)
    (s.sendTwin 0x0C ans).exchanged (exchangeKey ss (Config.p384Shared priv pub) (m ++ ans)) hash

/-- A replacement takes the pair from the survivor's transfer (R156 step 3, R157), if it opens under the transfer key. -/
def State.takeTransfer (s : State) (key m : Bytes) : State :=
  match gcmOpen key (List.replicate 12 0) [] (m.take (m.length - 16)) (m.drop (m.length - 16)) with
  | none => s
  | some b =>
    let inc := BitVec.ofNat 16 (fieldAt b 32 2)
    let term := fieldAt b 34 4
    let s := { s with
      prm := { s.prm with
        secret := some (BitVec.ofNat 256 (beNat (slice b 0 32))), pairInc := inc, joinInc := inc, establishing := false, attested := false, xferKey := none
        a := s.prm.a.onEpoch (fieldAt b 38 4) (fieldAt b 38 4), b := s.prm.b.onEpoch (fieldAt b 42 4) (fieldAt b 42 4) }
      fls := { s.fls with autoCfg := true } }
    ((s.fput R.GTH_STAT.PAIR_KEY true).fset R.PRM_STAT.TERM term).beginTarget false false term

/-- What a PAIRING message does (R150, R151, R152, R156). -/
def State.pairStep (s : State) (m : PairMsg) (f : PrmFrame) : State :=
  match m with
  | .request n => s.sendTwin 0x0C (Config.spdmAnswer n f.body)
  | .attested ok =>
    if s.dbgOpen ∨ s.prmState = 2 ∨ s.prmState = 5 ∨ s.prmState = 6 then s
    else if !ok then s.pairFails
    else
      let s := { (if s.prmState = 0 then s.fset R.PRM_STAT.STATE 1 else s) with prm := { s.prm with attested := true } }
      if s.isSenior ∧ (s.prm.secret.isNone ∨ s.prm.replacing) then s.offerKeys else s
  | .exchange =>
    if !s.prm.attested then s
    else if f.fromSenior = s.isSenior then s.roleClash
    else s.takeExchange f.body
  | .transfer =>
    match s.prm.xferKey with
    | some key => if s.prm.secret.isSome then s else if f.fromSenior = s.isSenior then s.roleClash else s.takeTransfer key f.body
    | none => s

/-- PAIRING (R150, R151, R156): the frame's SPDM message by its kind or outcome, or a message of the exchange (log entry 7). -/
def execPairing (f : PrmFrame) (m : PairMsg) (s : State) : Host.Outcome State Fault Refusal :=
  .next (s.prmRx f 0x0C fun s _ => if f.tag = 0 then s.pairStep m f else s)

/-! ## Resuming a pair (R153, R162) -/

/-- STATE of the pair-state record this device brings to a pairing (R161). -/
def State.myPairState (s : State) : Nat := if s.prmState ≤ 1 then s.prm.bootState else s.pairRecState

/-- Both senders of a group move to the next Promenade epoch (R153). -/
def nextKeys (k : Grp) : Grp := k.onEpoch (k.epoch + 1) (k.peerEpoch + 1)

/-- The key-confirmation MAC of a sender over both nonces (R153), under the PAIR_ID key (log entry 7). -/
def State.confirmMac (s : State) (fromSenior : Bool) (mine peer : Bytes) : Bytes :=
  cmac (kdf s.pairSecret (keyLabel 0x08 0 0 0 0) 256) (natLe 1 fromSenior.toNat ++ mine ++ peer)

/-- A nonce serves once. -/
def State.endNonce (s : State) : State := { s with prm := { s.prm with nonce := none } }

/-- Opens the resumption of the pair (R151, R153): SPDM requests and a fresh nonce. -/
def State.askResume (s : State) : State :=
  let (n, s) := s.askAttest.drawBytes 32
  let s := { s with prm := { s.prm with nonce := some n } }
  (if s.prmState = 0 then s.fset R.PRM_STAT.STATE 1 else s).sendTwin 0x0C n

/-- Proves the pair secret and sends the pair-state record with what the twin must know of this start (R153, R161, R163; log entry 47). -/
def State.sendResume (s : State) (mine peer : Bytes) : State :=
  let flags := (s.prm.lost || s.prm.stale).toNat + 2 * (s.persist.forcedTerm == some (s.fget R.PRM_STAT.TERM)).toNat + 4 * s.prm.dirtyLost.toNat
  s.sendTwin 0x0C (s.confirmMac s.isSenior mine peer ++ s.logBytes (.pair s.pairRecState (s.fget R.PRM_STAT.TERM) s.prm.seqHigh) ++ natLe 1 flags
    ++ natLe 4 s.divergedExts.length ++ (s.divergedExts.map (natLe 4)).flatten ++ (s.ownGranules.map (natLe 8)).flatten)

/-- A record goes to the twin again under its PAIR_SEQ (R145, R163). -/
def State.sendAgain (s : State) (r : Rec) : State := s.sendImage 0x01 r.pairSeq (recImage r)

/-- No resync (R162 last row, R163): PAIRED, and the recovered records above MIRROR_JSN go out again in PAIR_SEQ order; the watermark then moves
with their acknowledgements. -/
def State.pairEqual (s : State) (p : PeerState) : State :=
  let s := s.fset R.PRM_STAT.STATE 2
  let s := { s with
    jnl := { s.jnl with durTo := none }
    prm := { s.prm with pairGiven := max s.prm.pairGiven p.seqHigh.toNat } }
  let again := (s.jnl.recs.filter fun (r : Rec) => r.mirror && !r.twin && !r.acked && s.homeOf r.body)
  (again.foldl State.sendAgain s.noteLag).serve

/-- The decision of R162, by its first row that applies. With equal TERMs a solo device and one that is not are the source and the target of a resync
that was cut short, which begins again (R167; log entry 133). -/
def State.settlePair (s : State) (p : PeerState) : State :=
  let all := (s.assignedExts.map granulesOf).flatten
  let marks := ((s.divergedExts ++ p.diverged).map granulesOf).flatten
  let meLost := (s.prm.lost || s.prm.stale) && !s.prm.healed
  let term := s.fget R.PRM_STAT.TERM
  let forced := s.persist.forcedTerm == some term
  let high := p.seqHigh.toNat
  let mine := if s.prm.dirtyLost then all else s.prm.dirty ++ marks ++ p.own
  if forced ∧ !p.forced then s.beginSource all false high
  else if p.forced ∧ !forced then s.beginTarget true false p.term.toNat
  else if meLost ∧ !p.lost then s.beginTarget false false p.term.toNat
  else if p.lost ∧ !meLost then s.beginSource all false high
  else if meLost then (if s.prmState ≤ 1 then s.fset R.PRM_STAT.STATE 1 else s)
  else if p.term.toNat < term then s.beginSource mine false high
  else if term < p.term.toNat then s.beginTarget true false p.term.toNat
  else if s.myPairState = 2 ∧ p.state = 2 then
    let s := s.postD 0x0205 0 term
    if s.isSenior then s.beginSource all false high else s.beginTarget true false term
  else if s.myPairState = 2 ∧ (p.state = 3 ∨ p.state = 4) then s.beginSource mine false high
  else if p.state = 2 ∧ (s.myPairState = 3 ∨ s.myPairState = 4) then s.beginTarget true false term
  else
    let s := s.pairEqual p
    if s.divergedExts = [] ∧ p.diverged = [] then s
    else if s.divergedExts = [] ∨ (p.diverged ≠ [] ∧ !s.isSenior) then
      s.beginSource ((p.diverged.map granulesOf).flatten) true high
    else ({ s with prm := { s.prm with peerDiv := p.diverged } }).beginTarget false true term

/-- The twin has proved itself (R151, R153): attested, its MAC over both nonces right, the pair the same. -/
def State.confirms (s : State) (mine : Bytes) (p : PeerState) : Bool :=
  p.attestOk && natBe 16 p.mac.toNat == s.confirmMac p.senior (natLe 32 p.nonce.toNat) mine && p.pairId == s.pairId

/-- PAIR_RESUME (R151, R153, R161, R162): after recovery, with a group up. The first opens it; the next, with what the twin has sent, settles
it. -/
def execPairResume (p : PeerState) (s : State) : Host.Outcome State Fault Refusal :=
  .next (if s.prm.secret.isNone ∨ s.jnlState ≠ 2 ∨ s.sendGrp.isNone ∨ s.linked then s
    else match s.prm.nonce with
      | none => s.askResume
      | some n =>
        let s := (s.sendResume n (natLe 32 p.nonce.toNat)).endNonce
        if p.senior = s.isSenior then s.roleClash
        else if !s.confirms n p then s.pairFails
        else ({ s with prm := { s.prm with peerLost := p.lost, a := nextKeys s.prm.a, b := nextKeys s.prm.b } }).settlePair p)

end Sys2Proof.Machine
end

