-- ==== Sys2Proof/Machine/Gatehouse.lean ====
section
/-! DEFINITION. The Gatehouse's commands: the tenant table (R451, R452), enrolment (R453 to R455) and the cipher cores
(R464 to R467). -/

namespace Sys2Proof.Machine

/-- An attribute change of a management task enters as a record (R27, R649); `who` is the number of the task that waits for its outcome, 0
for none. -/
def State.formAttr (s : State) (a : Attr) (owner : Owner) : State :=
  (s.formRec { id := 0, body := .attr a, mirror := true, tenant := 0, origin := 4, owner := owner }).2

/-! ## Tenants (R452) -/

/-- GTH_TEN_CMD CREATE. -/
def State.createTenant (s : State) (t : BitVec 24) (who : Nat) : State :=
  let a := Attr.tenantCreate t s.stagedHash (BitVec.ofNat 32 (s.fget R.GTH_TEN_STAT.NEXT_EPOCH))
  if t = 0 ∨ (s.attrCheck a).isSome then s.fset R.GTH_TEN_STAT.REFUSED 1 else s.formAttr a (.mgmt who)

/-- GTH_TEN_CMD DESTROY. -/
def State.destroyTenant (s : State) (t : BitVec 24) (who : Nat) : State :=
  if t = 0 ∨ (s.attrCheck (.tenantDestroy t)).isSome then s.fset R.GTH_TEN_STAT.REFUSED 1
  else s.formAttr (.tenantDestroy t) (.mgmt who)

/-- CREATE (R452). -/
def execCreate (t : BitVec 24) (s : State) : Host.Outcome State Fault Refusal := .next (s.createTenant t 0)

/-- DESTROY (R452). -/
def execDestroy (t : BitVec 24) (s : State) : Host.Outcome State Fault Refusal := .next (s.destroyTenant t 0)

/-! ## Enrolment (R453 to R455) -/

/-- The first `n` bytes of the request buffer. -/
def State.reqBytes (s : State) (n : Nat) : Bytes :=
  ((List.range ((n + 7) / 8)).flatMap fun i => natLe 8 (s.fget (R.GTH_REQ_BUF.DATA i))).take n

/-- What refuses a request, in the order its checks are named (R454; the order among them is the model's). -/
def State.enrolRefusal (s : State) (r : Bytes) (sigs : Bool) : Option Status :=
  let t := BitVec.ofNat 24 (fieldAt r 4 3)
  let flags := fieldAt r 3 1
  let rotate := flags % 2 = 1
  if r.length ≠ 9117 ∨ fieldAt r 0 2 ≠ 0x3E77 ∨ fieldAt r 2 1 ≠ 1 ∨ 4 ≤ flags ∨ fieldAt r 7 1 ≠ 0 then some .malformed
  else match s.tenant t with
    | none => some .access
    | some e =>
      if leNat (sha3_384 (slice r 1705 2689)) ≠ e.hash.toNat ∨ !sigs ∨ (rotate ∧ !e.enrolled) ∨ s.dbgOpen then some .access
      else if rotate ∧ s.fget R.GTH_TEN_STAT.NEXT_EPOCH = 0xFFFFFFFF then some .exhausted
      else if s.prmState = 4 then some .readonly
      else none

/-- Words `l` of the response buffer take the response's bytes. -/
def State.putWords (s : State) (all : Bytes) (l : List Nat) : State :=
  l.foldl (fun s i => s.fset (R.GTH_RESP_BUF.DATA i) (fieldAt all (8 * i) 8)) s

/-- A response with its two signatures (R455): `body` is its bytes 0 to 1,816. -/
def signedResponse (body : Bytes) : Bytes :=
  let b := slice body 0 1817
  b ++ slice (Config.signMldsa b) 0 4627 ++ slice (Config.signEcdsa b) 0 96

/-- A response is signed and written to the response buffer (R455). -/
def State.putResponse (s : State) (body : Bytes) : State :=
  (s.putWords (signedResponse body) (List.range 818)).fset R.GTH_ENROL_STAT.RESP_BYTES 6540

/-- Bytes 0 to 7 of a response. -/
def enrolHead (st : Nat) (tenant : Nat) : Bytes := natLe 2 0x3E78 ++ [1] ++ natLe 1 st ++ natLe 3 tenant ++ [0]

/-- The response to a refused request (R455). -/
def State.refuseEnrol (s : State) (tenant st : Nat) : State :=
  ((s.fset R.GTH_ENROL_STAT.STATUS st).sat R.GTH_CNT1.ENROL_REFUSED).putResponse (enrolHead st tenant)

/-- GTH_ENROL_CMD PROCESS (R454). The signature verdicts are the command's: FIPS 204 and ECDSA are not evaluated. -/
def State.enrol (s : State) (n : Nat) (sigs : Bool) : State :=
  if s.flag R.GTH_ENROL_STAT.BUSY then s.fset R.GTH_STAT.CMD_REFUSED 1
  else
    let r := s.reqBytes n
    let t := fieldAt r 4 3
    match s.enrolRefusal r sigs with
    | some st => s.refuseEnrol t st.code
    | none =>
      let flags := fieldAt r 3 1
      let a := Attr.tenantEnrol (BitVec.ofNat 24 t)
        (if flags % 2 = 1 then some (BitVec.ofNat 32 (s.fget R.GTH_TEN_STAT.NEXT_EPOCH)) else none) (flags / 2 % 2 = 1)
        (BitVec.ofNat 384 (leNat (sha3_384 (slice r 4297 97))))
      ({ s with gth := { s.gth with req := r } }.fset R.GTH_ENROL_STAT.BUSY 1).formAttr a .enrol

/-- PROCESS (R454). -/
def execProcess (bytes : BitVec 16) (sigMldsaOk sigEcdsaOk : Bool) (s : State) : Host.Outcome State Fault Refusal :=
  .next (if bytes = 0 ∨ 32768 < bytes.toNat then s.fset R.GTH_STAT.CMD_REFUSED 1 else s.enrol bytes.toNat (sigMldsaOk && sigEcdsaOk))

/-- An enrolment's record has no outcome yet: it stands before its sequencer step, at the twin, or waits to be mirror-durable. -/
def State.enrolOpen (s : State) : Bool :=
  (s.jnl.formed ++ s.jnl.waiting ++ s.jnl.reserved).any (fun (r : Rec) => r.owner == .enrol)
    || s.jnl.unacked.any (fun (u : Unacked) => u.owner == .enrol && u.wait)
    || s.prm.fwd.any (fun (p : Nat × Rec) => p.2.owner == .enrol)

/-- Bytes 0 to 1,816 of the response to an enrolment that is durable (R455). -/
def State.enrolBody (s : State) (st : Nat) (e : Ten) (kemCt : Bytes) (kemSecret : BitVec 256) (ecdhPub ecdhX : Bytes) : Bytes :=
  let t := BitVec.ofNat 24 (fieldAt s.gth.req 4 3)
  let head := enrolHead st t.toNat ++ natLe 4 e.epoch.toNat ++ natLe 4 0 ++ slice s.gth.req 8 32 ++ natLe 48 e.hash.toNat
    ++ natLe 8 s.pairId.toNat
  let open' := head ++ slice kemCt 0 1568 ++ slice ecdhPub 0 97
  let key := kdf (natBe 32 kemSecret.toNat) (ecdhX ++ sha3_384 (s.gth.req ++ open')) 256
  let w := gcmSeal key (List.replicate 12 0) head (s.tenantKey t e.epoch.toNat)
  open' ++ w.1 ++ w.2

/-- ENROL_RESPONSE (R454, R455): once the record has its outcome, the response is written. -/
def execEnrolResponse (kemCt : Bytes) (kemSecret : BitVec 256) (ecdhPub ecdhX : Bytes) (s : State) :
    Host.Outcome State Fault Refusal :=
  .next (if !s.flag R.GTH_ENROL_STAT.BUSY ∨ s.enrolOpen then s
    else
      let st := s.fget R.GTH_ENROL_STAT.STATUS
      let t := fieldAt s.gth.req 4 3
      let done := match s.tenant (BitVec.ofNat 24 t) with
        | some e => if 1 < st then s.refuseEnrol t st
            else s.putResponse (s.enrolBody (s.say .ok).code e kemCt kemSecret ecdhPub ecdhX) |>.fset R.GTH_ENROL_STAT.STATUS (s.say .ok).code
        | none => s.refuseEnrol t (if 1 < st then st else Status.access.code)
      { done with gth := { done.gth with req := [] } }.fset R.GTH_ENROL_STAT.BUSY 0)

/-! ## Cipher cores (R464 to R467) -/

/-- GTH_CORE_CMD FENCE. -/
def State.coreFence (s : State) (i : Nat) : State :=
  if s.coreUp i then s.fenceCore i 1 else s.fset R.GTH_STAT.CMD_REFUSED 1

/-- GTH_CORE_CMD RESTORE: the known-answer tests first (R467). -/
def State.coreRestore (s : State) (i : Nat) (kat : Bool) : State :=
  if s.fget (R.GTH_CORE_STAT.STATE i) ≠ 2 ∨ s.fget R.PWR_STAT.WAVE < coreWave i then s.fset R.GTH_STAT.CMD_REFUSED 1
  else if kat then ((s.fset (R.GTH_CORE_STAT.STATE i) 0).fset (R.GTH_CORE_STAT.CAUSE i) 0).noteCores
  else (s.sat R.GTH_CNT1.KAT_FAIL).fenceCore i 2

/-- CIPHER_CORE_FENCE (R464). -/
def execCipherCoreFence (i : Fin 96) (s : State) : Host.Outcome State Fault Refusal := .next (s.coreFence i.val)

/-- CIPHER_CORE_RESTORE (R464, R467). -/
def execCipherCoreRestore (i : Fin 96) (katOk : Bool) (s : State) : Host.Outcome State Fault Refusal :=
  .next (s.coreRestore i.val katOk)

/-- KAT_TIMER (R467). -/
def execKatTimer (i : Fin 96) (ok : Bool) (s : State) : Host.Outcome State Fault Refusal :=
  .next (if ok ∨ !s.coreUp i.val then s else (s.sat R.GTH_CNT1.KAT_FAIL).fenceCore i.val 2)

end Sys2Proof.Machine
end

