-- ==== Sys2Proof/Machine/Media.lean ====
section
/-! DEFINITION. The media commands: flits received from the modules (R177 to R183), training (R184, R185), fences, replacement and
rebuild (R191 to R197), and the Sweeper (R198 to R200). -/

namespace Sys2Proof.Machine

/-! ## Flits -/

/-- A lane whose receiver takes flits: in service, draining or rebuilding, and not training. -/
def State.laneHears (s : State) (l : Nat) : Bool :=
  (s.laneState l == 2 || s.laneState l == 3 || s.laneState l == 5) && (s.link l).stage == .none

/-- ACK_SEQ frees the flits up to it from the replay buffer; the next one has not been replayed (R182). -/
def State.flitAck (s : State) (l : Nat) (ack : BitVec 12) : State :=
  let k := s.link l
  if k.sent.any fun f => f.fseq = ack then
    (s.setLink l { k with sent := (k.sent.dropWhile fun f => f.fseq ≠ ack).drop 1, replays := 0, retrained := false }).issueWaiting l
  else s

/-- Fences a lane for a protocol fault; the command it concerns ends, its codewords unused (R181). -/
def State.protocolFault (s : State) (l : Nat) (tag : Option Nat) : State :=
  let s := s.fenceLane l 7
  let s := match tag with | some t => s.endCmd l t false | none => s
  s.fenceDone l

/-- A codeword of a READ in INDEX order is kept until its RESP, any other DATA is a protocol fault (R180, R181). -/
def State.takeData (s : State) (l tag index : Nat) (cw : Bytes) : State :=
  match AMap.find? s.med.cmds (l * 128 + tag) with
  | some c =>
    if c.opcode = 1 ∧ index = c.data ∧ c.data < c.count then
      { s with med := { s.med with cmds := AMap.put s.med.cmds (l * 128 + tag) { c with data := c.data + 1, cws := c.cws ++ [cw] } } }
    else s.protocolFault l (some tag)
  | none => s.protocolFault l none

/-- A fence with a cause, and the end of the command that brought it. -/
def State.faultCmd (s : State) (l tag cause : Nat) : State := ((s.fenceLane l cause).endCmd l tag false).fenceDone l

/-- What a module status does (R173, R179, R181). -/
def State.takeResp (s : State) (l tag : Nat) (status : Byte) : State :=
  match AMap.find? s.med.cmds (l * 128 + tag) with
  | none => s.protocolFault l none
  | some c =>
    if c.opcode = 1 ∧ c.data ≠ c.count then s.protocolFault l (some tag)
    else if status = 0 then (s.endCmd l tag true).fenceDone l
    else if status = 2 ∧ c.opcode = 1 then ((s.sat (R.MED_LANE_CNT.MEDIA_ERRORS l)).endCmd l tag true).fenceDone l
    else if status = 3 then s.faultCmd l tag 5
    else s.faultCmd l tag 7

/-- A quick retrain begins: LOCK, ALIGN, IDENTIFY (R184). The lane keeps its state and its commands (log entry 53). -/
def State.quickRetrain (s : State) (l : Nat) : State := s.setLink l { s.link l with stage := .lock, quick := true }

/-- Resends every flit that is not acknowledged (R182). -/
def State.resend (s : State) (l : Nat) : State :=
  let fs := (s.link l).sent
  if fs = [] then s else fs.foldl (fun s f => s.putFlit l f) (s.sat (R.MED_LANE_CNT.REPLAYS l) fs.length)

/-- What a REPLAY_REQ leads to: a resend, after REPLAYS of one flit a quick retrain, after that one a fence (R182). -/
def State.replayAsked (s : State) (l : Nat) : State :=
  let k := s.link l
  if k.sent = [] then s
  else if k.replays < s.fget R.MED_LINK_CTL.REPLAYS then (s.setLink l { k with replays := k.replays + 1 }).resend l
  else if !k.retrained then (s.setLink l { k with retrained := true }).quickRetrain l
  else (s.fenceLane l 3).fenceDone l

/-- The fields of a received flit (R177). -/
structure RxFlit where
  ftype : Nat
  fseq : BitVec 12
  ack : BitVec 12
  tag : Nat
  index : Nat
  status : Byte
  /-- A reserved header bit is set. -/
  rsvd : Bool
  /-- A DATA flit's codeword. -/
  cw : Bytes
  deriving DecidableEq, Repr

/-- Reads a flit's fields (R177). -/
def readFlit (b : Bytes) : RxFlit :=
  let h := fieldAt b 0 8
  { ftype := h % 16
    fseq := BitVec.ofNat 12 (h / 2 ^ 4)
    ack := BitVec.ofNat 12 (h / 2 ^ 16)
    tag := h / 2 ^ 28 % 128
    index := h / 2 ^ 35 % 8
    status := BitVec.ofNat 8 (h / 2 ^ 40)
    rsvd := h / 2 ^ 38 % 4 != 0 || h / 2 ^ 52 != 0
    cw := slice b 8 300 }

/-- Whether a flit has its length and its CRC-64 (R177). -/
def flitIntact (b : Bytes) : Bool := b.length == 320 && fieldAt b 312 8 == (crc64 0 (slice b 0 312)).toNat

/-- REPLAY_REQ: its ACK_SEQ is the last good FSEQ (R182). -/
def State.askReplay (s : State) (l : Nat) : State := s.putFlit l { ftype := 4 }

/-- An intact flit: reserved bits or a type a module must not send are a protocol fault (R181); DATA and RESP are taken in FSEQ order
alone (R182; log entry 23); every flit's ACK_SEQ counts. -/
def State.takeFlit (s : State) (l : Nat) (f : RxFlit) : State :=
  let numbered := f.ftype == 2 || f.ftype == 3
  if f.rsvd ∨ f.ftype = 1 ∨ 4 < f.ftype then s.protocolFault l (if numbered then some f.tag else none)
  else if !numbered then
    let s := s.flitAck l f.ack
    if f.ftype = 4 then s.replayAsked l else s
  else if f.fseq ≠ (s.link l).lastGood + 1 then s
  else
    let s := (s.setLink l { s.link l with lastGood := f.fseq }).flitAck l f.ack
    if f.ftype = 2 then s.takeData l f.tag f.index f.cw else s.takeResp l f.tag f.status

/-- A flit from the line: descrambled, checked, and taken by its FTYPE, or asked for again (R177, R182; log entry 136). -/
def State.hearFlit (s : State) (l : Nat) (line : Bytes) : State :=
  if !s.laneHears l then s
  else
    let p := descramble (s.link l).rx line
    let s := s.setLink l { s.link l with rx := p.2 }
    if flitIntact p.1 then s.takeFlit l (readFlit p.1) else s.askReplay l

/-- MED_DATA_FLIT (R177, R180, R181). -/
def execMedDataFlit (lane : Fin 128) (head cw pad crc : Bytes) (s : State) : Host.Outcome State Fault Refusal :=
  .next (s.hearFlit lane.val (head ++ cw ++ pad ++ crc))

/-- MED_RESP_FLIT (R173, R179, R180). -/
def execMedRespFlit (lane : Fin 128) (head body crc : Bytes) (s : State) : Host.Outcome State Fault Refusal :=
  .next (s.hearFlit lane.val (head ++ body ++ crc))

/-- MED_REPLAY_REQ (R182). -/
def execMedReplayReq (lane : Fin 128) (line : Bytes) (s : State) : Host.Outcome State Fault Refusal := .next (s.hearFlit lane.val line)

/-- MED_IDLE_FLIT (R178): nothing but its ACK_SEQ counts. -/
def execMedIdleFlit (lane : Fin 128) (line : Bytes) (s : State) : Host.Outcome State Fault Refusal := .next (s.hearFlit lane.val line)

/-- MED_ALIGN_FLIT (R178): it marks boundaries and is discarded. -/
def execMedAlignFlit (_lane : Fin 128) (s : State) : Host.Outcome State Fault Refusal := .next s

/-- MED_CMD_TIMEOUT (R183, R191; log entry 5): the lane is fenced, and the command ends at once; a lane already QUIESCING keeps its
commands until they complete or the drain bound comes. -/
def execMedCmdTimeout (lane : Fin 128) (tag : Fin 128) (s : State) : Host.Outcome State Fault Refusal :=
  .next (if (AMap.find? s.med.cmds (lane.val * 128 + tag.val)).isNone ∨ s.laneState lane.val = 3 then s
    else (s.sat (R.MED_LANE_CNT.TIMEOUTS lane.val)).faultCmd lane.val tag.val 4)

/-! ## Training (R184, R185) -/

/-- A lane begins full training (R184). Its flit numbers start afresh. -/
def State.startTraining (s : State) (l : Nat) (waive : Bool) : State :=
  (s.fset (R.MED_LANE_STAT.STATE l) 1).setLink l { stage := .detect, waive := waive, back := s.med.owe.contains l }

/-- Streets trained (R515, R542): wave 16 is out, no media rail ramps and no lane trains. -/
def State.streetsTrained (s : State) : Bool :=
  decide (16 ≤ s.fget R.PWR_STAT.WAVE) && ((List.range 32).all fun i => s.fget (R.PWR_RAIL_STAT.STATE (24 + i)) != 1)
    && (List.range 128).all fun l => s.laneState l != 1

/-- Journal recovery can begin once the streets have trained (R542). -/
def State.noteTrained (s : State) : State :=
  if s.fget R.SUP_START_STAT.PHASE = 3 ∧ s.jnlState = 0 ∧ s.streetsTrained then
    (s.fset R.SUP_START_STAT.PHASE 4).fset R.JNL_STAT.STATE 1
  else s

/-- Whether a module's serial is not that of its lane's entry (R184). -/
def State.wrongSerial (s : State) (l : Nat) (i : Ident) : Bool :=
  s.med.mtLoaded && !(s.link l).waive && s.fget (R.MED_MODULE_ID.SERIAL l) != i.serial.toNat

/-- A lane has passed its training: into service, or to rebuild; a replacement's serial enters the table (R185, R194). -/
def State.trained (s : State) (l : Nat) : State :=
  let k := s.link l
  let s := s.setLink l { k with stage := .none, waive := false, back := false }
  let s := match k.ident with
    | some i =>
      if k.waive ∧ s.fget (R.MED_MODULE_ID.SERIAL l) ≠ i.serial.toNat then
        ((s.fset (R.MED_MODULE_ID.SERIAL l) i.serial.toNat).fput (R.MED_LANE_STAT.PARTIAL l) false).writeModuleTable
      else s
    | none => s
  if k.back then s.beginRebuild l else (s.fset (R.MED_LANE_STAT.STATE l) 2).fset (R.MED_LANE_STAT.CAUSE l) 0

/-- The cause of a failed training: LINK where the quick retrain of R182 fails, else TRAIN (R182, R184). -/
def Link.failCause (k : Link) : Nat := if k.quick ∧ k.retrained then 3 else 2

/-- LANE_TRAIN_STAGE_DONE (R172, R184): the next stage, or service; `ident` is what IDENTIFY returned, `replays` those of TEST. -/
def execLaneTrainStageDone (lane : Fin 128) (ident : Ident) (replays : Nat) (s : State) : Host.Outcome State Fault Refusal :=
  let l := lane.val
  let k := s.link l
  .next (match k.stage with
    | .none => s
    | .detect => s.setLink l { k with stage := .lock }
    | .lock => s.setLink l { k with stage := .align }
    | .align => s.setLink l { k with stage := .identify }
    | .identify =>
      if ident.version ≠ 1 ∨ ident.slots.toNat < 19595788288 then ((s.fenceLane l k.failCause).fenceDone l).noteTrained
      else if s.wrongSerial l ident then ((s.fenceLane l 7).fenceDone l).noteTrained
      else if k.quick then (s.setLink l { k with stage := .none, quick := false, replays := 0 }).resend l
      else s.setLink l { k with stage := .test, ident := some ident }
    | .test => (if replays ≤ 1 then s.trained l else (s.fenceLane l 2).fenceDone l).noteTrained)

/-- LANE_TRAIN_TIMEOUT (R182, R184; log entry 5). -/
def execLaneTrainTimeout (lane : Fin 128) (s : State) : Host.Outcome State Fault Refusal :=
  let l := lane.val
  let k := s.link l
  .next (if k.stage = .none then s else ((s.fenceLane l k.failCause).fenceDone l).noteTrained)

/-- The module table in an image of 1,200 bytes that verifies: MT_SEQ and serials (R185; log entry 54). -/
def tableOf (b : Bytes) : Option (Nat × List Nat) :=
  if deviceMac 6 (0x4D :: slice b 0 1040) = BitVec.ofNat 64 (fieldAt b 1040 8) then
    some (fieldAt b 0 8, (List.range 128).map fun i => fieldAt b (8 + 8 * i) 8)
  else none

/-- MODULE_TABLE_LOAD (R185): the copy of highest MT_SEQ that verifies, against which the serials are compared. With none, the table is
entered afresh: at a first start by JOURNAL_RECOVERY, at a later one with MODULE_TABLE_REBUILT. -/
def execModuleTableLoad (copies : List Bytes) (s : State) : Host.Outcome State Fault Refusal :=
  .next (if s.med.mtLoaded ∨ !s.streetsTrained then s
    else
      let best := (copies.filterMap tableOf).foldl (fun (m : Option (Nat × List Nat)) x => match m with
        | some y => if y.1 < x.1 then some x else some y
        | none => some x) none
      let s := { s with med := { s.med with mtLoaded := true } }
      match best with
      | some (q, ser) =>
        let s := { s with med := { s.med with mtSeq := q } }
        let s := ser.zipIdx.foldl (fun s p => s.fset (R.MED_MODULE_ID.SERIAL p.2) p.1) s
        (List.range 128).foldl (fun s l => match (s.link l).ident with
          | some i => if s.wrongSerial l i then (s.fenceLane l 7).fenceDone l else s
          | none => s) s
      | none => if s.flashRoot.isSome ∨ s.hasWrap then s.rebuildTable else s)

/-! ## Management actions (R203) -/

/-- An action that does not fit is ignored and sets CMD_REFUSED (R203). -/
def State.laneRefused (s : State) : State := s.fput R.MED_STREET_STAT.CMD_REFUSED true

/-- FENCE (R191): of a lane that trains, serves or rebuilds. -/
def State.laneFence (s : State) (l : Nat) : State :=
  if s.laneState l = 1 ∨ s.laneState l = 2 ∨ s.laneState l = 5 then ((s.fenceLane l 1).fenceDone l).noteRebuild.noteTrained else s.laneRefused

/-- REPLACE (R195): a FENCED lane trains with the serial check waived. -/
def State.laneReplace (s : State) (l : Nat) : State := if s.laneState l = 4 ∧ s.groupOn (8 + l / 8) then s.startTraining l true else s.laneRefused

/-- RETRAIN: a quick retrain of an IN_SERVICE lane. -/
def State.laneRetrain (s : State) (l : Nat) : State :=
  if s.laneState l = 2 ∧ (s.link l).stage = .none then s.quickRetrain l else s.laneRefused

/-- LANE_FENCE (R191). -/
def execLaneFence (lane : Fin 128) (s : State) : Host.Outcome State Fault Refusal := .next (s.laneFence lane.val)
/-- LANE_REPLACE (R195). -/
def execLaneReplace (lane : Fin 128) (s : State) : Host.Outcome State Fault Refusal := .next (s.laneReplace lane.val)
/-- LANE_RETRAIN (R184). -/
def execLaneRetrain (lane : Fin 128) (s : State) : Host.Outcome State Fault Refusal := .next (s.laneRetrain lane.val)

/-! ## Rebuild and Sweeper -/

/-- Turnstile entries that a kind of maintenance read holds, one a waiter (R196). -/
def State.readsOf (s : State) (p : Waiter → Bool) : Nat := (s.med.fetch.map fun f => (f.waiters.filter p).length).sum

/-- The reads of the rebuild share: rebuilds and loads of PINNED extents (R196, R236). -/
def Waiter.rebuilds : Waiter → Bool
  | .rebuild _ _ | .pin _ => true
  | _ => false

/-- The reads of the Sweeper (R196). -/
def Waiter.sweeps : Waiter → Bool
  | .sweep _ => true
  | _ => false

/-- The next stripe of a rebuild: the first with two lost codewords, else the first (R195). -/
def State.rebuildNext (s : State) (r : Rebuild) : Option Nat :=
  match r.todo.find? fun t => decide (2 ≤ s.lostOn t) with
  | some t => some t
  | none => r.todo.head?

/-- REBUILD_STRIPE (R195, R196): the next stripe of a lane's rebuild is read; a tile that has become ZERO or whose extent is not ASSIGNED
is skipped. -/
def execRebuildStripe (lane : Fin 128) (s : State) : Host.Outcome State Fault Refusal :=
  .next (match AMap.find? s.med.rebuild lane.val with
    | none => s
    | some r => match s.rebuildNext r with
      | none => s
      | some t =>
        let rest := r.todo.erase t
        let put := fun (s : State) (r : Rebuild) => { s with med := { s.med with rebuild := AMap.put s.med.rebuild lane.val r } }
        if s.flag R.MED_REBUILD_CTL.PAUSE then s
        else if !s.storedKeys.contains t ∨ (!isSys t ∧ (s.extent (extOf t)).state ≠ .assigned) then
          (put s { r with todo := rest }).rebuildStep lane.val
        else if 1024 ≤ s.readsOf Waiter.rebuilds then s
        else match s.takeEntry .maint { kind := .maint t } with
          | none => s
          | some (tag, s) =>
            let s := put s { r with todo := rest, busy := r.busy ++ [t] }
            (s.fetchOp t (.rebuild lane.val tag) .cold tag).noteRebuild)

/-- Percent of a pass that lies below the Sweeper's position. -/
def State.sweepPercent (s : State) (ks : List Nat) : Nat :=
  if ks = [] then 0 else (ks.filter (· < s.med.sweepNext)).length * 100 / ks.length

/-- A pass ends (R199, R200). -/
def State.endSweep (s : State) : State :=
  let hours := (s.timeNs - s.med.sweepStartNs) / 3600000000000
  let s := (s.sat R.MED_SWEEP_STAT.PASSES).fset R.MED_SWEEP_STAT.LAST_HOURS (min hours 0xFFFF)
  let s := s.postD 0x0304 (s.fget R.MED_SWEEP_STAT.PASSES) hours
  let s := (List.range 128).foldl (fun s l =>
    let n := AMap.get 0 s.med.sweepRead l
    let ppm := 1000000 * AMap.get 0 s.med.sweepFix l / n
    if n ≠ 0 ∧ s.fget R.MED_SWEEP_CTL.DEGRADE_PER_M * n < 1000000 * AMap.get 0 s.med.sweepFix l then s.postD 0x0305 l ppm else s) s
  { s.fset R.MED_SWEEP_STAT.PERCENT 0 with
    med := { s.med with sweepNext := 0, sweepStartNs := s.timeNs, sweepRead := [], sweepFix := [] } }

/-- SWEEP_TILE (R196, R198, R199): all 18 codewords of the next tile of the pass; after the last, the pass ends. -/
def execSweepTile (s : State) : Host.Outcome State Fault Refusal :=
  let out := s.readsOf Waiter.sweeps
  let ks := s.storedKeys.filter fun t => isSys t || (s.extent (extOf t)).state == .assigned
  .next (if !s.flag R.MED_SWEEP_CTL.ENABLE ∨ s.jnlState ≠ 2 then s
    else match ks.find? (s.med.sweepNext ≤ ·) with
      | none => if out = 0 then s.endSweep else s
      | some t =>
        if 256 ≤ out then s
        else match s.takeEntry .maint { kind := .maint t } with
          | none => s
          | some (tag, s) =>
            let s := { s with med := { s.med with sweepNext := t + 1 } }
            let s := s.fset R.MED_SWEEP_STAT.PERCENT (s.sweepPercent ks)
            let s := match s.fetchOf t with
              | some f =>
                if f.held ∨ f.repairing then s.setFetch { f with all18 := true, waiters := f.waiters ++ [Waiter.sweep tag] }
                else (s.setFetch { f with all18 := true, waiters := f.waiters ++ [Waiter.sweep tag] }).readPositions t
                  ((List.range 18).filter fun i => !f.issued.contains i)
              | none => s.newFetch { tile := t, waiters := [.sweep tag], all18 := true }
            s.oweResults tag 1)

end Sys2Proof.Machine
end

