-- ==== Sys2Proof/Machine/Power.lean ====
section
/-! DEFINITION. Power sequencing and supervision (R501 to R536, R641): rails, waves, rail groups, warning and committed shutdown,
SEQ_SYNC, and the latch. -/

namespace Sys2Proof.Machine

/-! ## Rail groups (R501, R515, R517) -/

/-- The islands of a rail group (R483, R501). -/
def groupIslands (g : Nat) : List Nat :=
  if g < 4 then (List.range 4).map (4 * g + ·)
  else if g < 6 then (List.range 4).map (16 + 4 * (g - 4) + ·)
  else if g < 8 then [18 + g]
  else [18 + g]

/-- The two rails of a group: VSD_A, VSD_H. -/
def groupRails (g : Nat) : List Nat := [8 + 2 * g, 9 + 2 * g]

/-- A group's units leave reset: links and lanes begin to train (R515, R542). -/
def State.startUnits (s : State) (g : Nat) : State :=
  let s := (groupIslands g).foldl (fun s i => s.fset (R.SUP_ISL_STAT.STATE i) 1) s
  if g < 4 then
    (List.finRange 64).foldl (fun s p =>
      if s.portOk p.val ∧ s.portLanes * p.val / 16 = g ∧ s.portState p.val = 0 then s.fset (R.NET_PORT_STAT.STATE p.val) 1 else s) s
  else if g < 6 then s
  else if g < 8 then
    (if s.cxl.perst.getLsbD (g - 6) then s.fset (R.SUP_ISL_STAT.STATE (18 + g)) 0
     else if s.fget (R.CXL_PORT_STAT.STATE (g - 6)) = 0 then s.fset (R.CXL_PORT_STAT.STATE (g - 6)) 1 else s)
  else
    ((List.range 8).map (8 * (g - 8) + ·)).foldl (fun s l => if s.laneState l = 0 then s.startTraining l false else s) s

/-- A fenced group's units: streets under R192, or R122 in a drain, network ports under R365, a Promenade group under R159, a CXL port DOWN
with cause RESET (R517). -/
def State.fenceUnits (s : State) (g : Nat) : State :=
  let s :=
    if g < 4 then
      (List.finRange 64).foldl (fun s p =>
        if s.portOk p.val ∧ s.portLanes * p.val / 16 = g ∧ s.portState p.val ≤ 2 then s.fencePort p 4 else s) s
    else if g < 6 then s.downGroup (g - 4) 0
    else if g < 8 then s.cxlReset (if g = 6 then 0 else 1)
    else
      let s := (s.spillStreet (g - 8)).setBit R.MED_STREET_STAT.RAIL_FAIL (g - 8) true
      (((List.range 8).map (8 * (g - 8) + ·)).foldl (fun s l => s.fenceLane l 6) s).noteRebuild.noteTrained
  (groupIslands g).foldl (fun s i => s.fset (R.SUP_ISL_STAT.STATE i) 0) s

/-- A rail group is fenced after one of its rails failed (R517, R524): in native mode its rails are switched off. -/
def State.fenceGroup (s : State) (g mv : Nat) : State :=
  let s := s.setBit R.PWR_STAT.GROUPS_FENCED g true
  let s := if s.flag R.PWR_STAT.SEQ_MODE then s
    else (groupRails g).foldl (fun s r =>
      if s.railState r = 1 ∨ s.railState r = 2 then
        ((s.pm r 0x01 0x40).railIsOff r (s.fget (R.PWR_RAIL_STAT.MON_MV r))).fset (R.PWR_RAIL_STAT.STATE r) 4
      else s) s
  ((s.supLog 0x21 0 g).fenceUnits g).postD 0x0B01 g mv

/-- A restored group (R518): its islands are reset and run once its wave has come; its units stay fenced until their own restore
commands. -/
def State.groupRestored (s : State) (g : Nat) : State :=
  let s := (s.setBit R.PWR_STAT.GROUPS_FENCED g false).supLog 0x22 0 g
  let s := if 8 ≤ g then s.setBit R.MED_STREET_STAT.RAIL_FAIL (g - 8) false else s
  (groupIslands g).foldl (fun s i =>
    let s := s.resetIsland i
    if groupWave g ≤ s.fget R.PWR_STAT.WAVE then s.fset (R.SUP_ISL_STAT.STATE i) 1 else s) s

/-- Whether any group rail is coming up. -/
def State.ramping (s : State) : Bool := (List.range 48).any fun i => s.railState (8 + i) == 1

/-- The next step of powering a group in native mode: VSD_A, then VSD_H, then its units (R517). -/
def State.powerGroup (s : State) (g : Nat) : State :=
  let a := s.railState (8 + 2 * g)
  let h := s.railState (9 + 2 * g)
  if a = 1 ∨ h = 1 then s
  else if a ≠ 2 then s.railOn (8 + 2 * g)
  else if h ≠ 2 then s.railOn (9 + 2 * g)
  else if s.pwr.restores.head? = some g then { s.groupRestored g with pwr := { s.pwr with restores := s.pwr.restores.tail } }
  else s.startUnits g

/-- Restorations go one at a time (R518). -/
def State.pumpRestores (s : State) : State :=
  match s.pwr.restores with
  | g :: _ => if s.ramping ∨ s.pwr.off.isSome then s else s.powerGroup g
  | [] => s

/-- PWR_WAVE_CMD RESTORE_GROUP (R518). On a SEQ_SYNC board both rails must be power-good. -/
def State.restoreGroupCmd (s : State) (g : Nat) : State :=
  let st := s.fget R.PWR_STAT.STATE
  if !(s.fget R.PWR_STAT.GROUPS_FENCED).testBit g ∨ (st ≠ 2 ∧ st ≠ 3) ∨ s.pwr.restores.contains g ∨ s.pwr.off.isSome then s.fset R.PWR_STAT.CMD_REFUSED 1
  else if s.flag R.PWR_STAT.SEQ_MODE then
    (if (groupRails g).all fun r => s.railState r == 2 then s.groupRestored g else s.fset R.PWR_STAT.CMD_REFUSED 1)
  else ({ s with pwr := { s.pwr with restores := s.pwr.restores ++ [g] } }).pumpRestores

/-- RESTORE_GROUP (R518). -/
def execRestoreGroup (g : Fin 24) (s : State) : Host.Outcome State Fault Refusal := .next (s.restoreGroupCmd g.val)

/-! ## Going down (R513, R525, R532) -/

/-- The rails have gone down (R513, R525, R535, R641). -/
def State.offEnds (s : State) (why : OffWhy) : State :=
  let s := { s with pwr := { s.pwr with off := none } }
  match why with
  | .shutdown =>
    let trip := s.pwr.tripAfter
    let s := ({ s with pwr := { s.pwr with tripAfter := false } }.supLog 0x13 s.pwr.endFlags 0).resetCore.fset R.PWR_STAT.WAVE 0
    if trip then s.latch 0 6 else s.fset R.PWR_STAT.STATE 6
  | .comeUp rail cause | .critical rail cause => (s.resetCore.fset R.PWR_STAT.WAVE 0).latch rail cause

/-- Begins the next stage of going down: soft off to its rails, the end of the drain, or the release of SEQ_SYNC. -/
def State.nextOff : Nat → State → State
  | 0, s => s
  | n + 1, s =>
    match s.pwr.off with
    | none => s
    | some ([], why) => s.offEnds why
    | some (.drained :: r, why) =>
      if s.jnlState = 3 then s else State.nextOff n { s with pwr := { s.pwr with off := some (r, why) } }
    | some (.rails l :: r, why) =>
      let on := l.filter fun q => s.railState q == 1 || s.railState q == 2
      if on = [] then State.nextOff n { s with pwr := { s.pwr with off := some (r, why) } }
      else on.foldl (fun s q => s.pm q 0x01 0x40) s
    | some (.seq :: r, why) =>
      if s.fget R.PWR_STAT.SEQ_STATE = 0 then State.nextOff n { s with pwr := { s.pwr with off := some (r, why) } }
      else { s with pwr := { s.pwr with seqHeld := false } }

/-- Begins to go down. -/
def State.goDown (s : State) (l : List OffStep) (why : OffWhy) : State :=
  State.nextOff 80 { s with pwr := { s.pwr with off := some (l, why) } }

/-- A stage has ended. -/
def State.stageEnds (s : State) : State :=
  match s.pwr.off with
  | some (_ :: r, why) => State.nextOff 80 { s with pwr := { s.pwr with off := some (r, why) } }
  | _ => s

/-- Where only the drain was awaited, the stages go on. -/
def State.afterDrainOff (s : State) : State := match s.pwr.off with | some (.drained :: _, _) => State.nextOff 80 s | _ => s

/-- The stages of a committed shutdown (R532). -/
def State.shutdownSteps (s : State) : List OffStep :=
  if s.flag R.PWR_STAT.SEQ_MODE then [.drained, .seq]
  else
    [OffStep.rails ((List.range 8).map (9 + 2 * ·)), .rails ((List.range 8).map (8 + 2 * ·)), .drained,
      .rails ((List.range 16).map (25 + 2 * ·)), .rails ((List.range 16).map (24 + 2 * ·))]
      ++ [6, 5, 7, 4, 3].map fun r => OffStep.rails [r]

/-- Rails in reverse of the order in which they come up: the groups by their waves, then R512 (R513, R525). -/
def reverseRails : List Nat :=
  ([7, 6, 3, 2, 1, 0, 5, 4] ++ (List.range 16).map (23 - ·)).flatMap (fun g => [9 + 2 * g, 8 + 2 * g]) ++ [6, 5, 7, 4, 3]

/-- The stages after a critical failure. -/
def State.reverseSteps (s : State) : List OffStep :=
  if s.flag R.PWR_STAT.SEQ_MODE then [.seq] else reverseRails.map fun r => OffStep.rails [r]

/-- The device stops at once, without a drain (R525, R527). -/
def State.criticalStop (s : State) (rail cause : Nat) : State :=
  ((s.setServing false).resetCore.jnlStop 4).goDown s.reverseSteps (.critical rail cause)

/-- A drain stops, and its record stays incomplete (R534). -/
def State.stopDrain (s : State) : State :=
  if s.jnlState = 3 then
    let s := (s.dropRetires fun _ => true).jnlStop 0
    { s with jnl := { s.jnl with drain := none }, pwr := { s.pwr with endFlags := 0 } }
  else s

/-- RAIL_OFF_STAGE (R513, R532): a stage's rails read below 20 % of nominal, or 2 ms have passed. -/
def execRailOffStage (mons : List (Fin 56 × BitVec 16)) (s : State) : Host.Outcome State Fault Refusal :=
  .next (match s.pwr.off with
    | some (.rails l :: _, _) =>
      (l.foldl (fun s r => s.railIsOff r (match mons.find? fun m => m.1.val == r with
        | some m => m.2.toNat
        | none => s.fget (R.PWR_RAIL_STAT.MON_MV r))) s).stageEnds
    | _ => s)

/-! ## SEQ_SYNC (R519 to R522) -/

/-- The rails of power-up in order (R512). -/
def upRails : List Nat := [3, 4, 7, 5, 6]

/-- A participant enters a state of R519; what the board switches shows in the rails. -/
def State.enterSeq (s : State) (n : Nat) : State :=
  let s := (s.fset R.PWR_STAT.SEQ_STATE n).supLog 0x34 n 0
  let hold := fun (s : State) (b : Bool) => ({ s with pwr := { s.pwr with seqHeld := b } } : State)
  let up := fun (s : State) (l : List Nat) =>
    l.foldl (fun s r => (s.fset (R.PWR_RAIL_STAT.STATE r) 1).fset (R.PWR_RAIL_STAT.CAUSE r) 0) s
  let down := fun (s : State) (l : List Nat) =>
    l.foldl (fun s r => (s.railIsOff r (s.fget (R.PWR_RAIL_STAT.MON_MV r))).fset (R.PWR_RAIL_STAT.STATE r) 0) s
  if n = 0 then (if s.pwr.off.isSome then State.nextOff 80 (hold s false) else hold s false)
  else if n ≤ 5 then hold (up s ((upRails.drop (n - 1)).take 1)) true
  else if n = 6 then hold (up s ((List.range 24).map (8 + 2 * ·))) true
  else if n = 7 then hold (up s ((List.range 24).map (9 + 2 * ·))) true
  else if n = 8 then hold s (!(match s.pwr.off with | some (.seq :: _, _) => true | _ => false))
  else if n = 9 then hold (down s ((List.range 24).map (9 + 2 * ·))) false
  else if n = 10 then hold (down s ((List.range 24).map (8 + 2 * ·))) false
  else hold (down s ((([6, 5, 7, 4, 3] : List Nat).drop (n - 11)).take 1)) false

/-- In states 6 and 7 the device releases the line once each rail is good or has failed (R519). -/
def State.seqSettle (s : State) : State :=
  let n := s.fget R.PWR_STAT.SEQ_STATE
  if (n = 6 ∨ n = 7) ∧ ((List.range 24).all fun g => s.railState (2 + n + 2 * g) != 1) then { s with pwr := { s.pwr with seqHeld := false } } else s

/-- SEQ_SYNC_STEP (R520): the line has been high for 10 µs, which no participant that still holds it allows. -/
def execSeqSyncStep (s : State) : Host.Outcome State Fault Refusal :=
  .next (let n := s.fget R.PWR_STAT.SEQ_STATE
    if !s.flag R.PWR_STAT.SEQ_MODE ∨ n = 0 ∨ s.pwr.seqHeld then s else s.enterSeq (if n = 15 then 0 else n + 1))

/-- An abort: rails off in reverse of R519, state 0, and the latch (R521). -/
def State.seqAbort (s : State) (rail cause : Nat) : State :=
  let s := reverseRails.foldl (fun s r => s.railIsOff r (s.fget (R.PWR_RAIL_STAT.MON_MV r))) s
  let s := (s.fset R.PWR_STAT.SEQ_STATE 0).supLog 0x34 0 0
  { s with pwr := { s.pwr with seqHeld := false } }.offEnds (.comeUp rail cause)

/-- SEQ_SYNC_ABORT (R521): 10 ms of low in states 1 to 7 that are not this device's own. -/
def execSeqSyncAbort (s : State) : Host.Outcome State Fault Refusal :=
  .next (let n := s.fget R.PWR_STAT.SEQ_STATE
    if !s.flag R.PWR_STAT.SEQ_MODE ∨ n = 0 ∨ 7 < n then s else s.seqAbort 0 7)

/-! ## Coming up (R502, R512 to R517, R538) -/

/-- A power-up begins, from the first rail of R512 or state 1 of SEQ_SYNC. -/
def State.startPowerUp (s : State) : State :=
  let s := ((s.fset R.PWR_STAT.STATE 1).fset R.PWR_STAT.COMMITTED 0).fset R.PWR_STAT.WAVE 0
  let s := { s.fset R.SUP_START_STAT.PHASE 1 with sup := { s.sup with startNs := s.timeNs } }
  if s.flag R.PWR_STAT.SEQ_MODE then s.enterSeq 1 else s.railOn 3

/-- The straps are sampled and the always-on islands run (R538, R542). -/
def State.sampleStraps (s : State) (senior seqMode : Bool) : State :=
  let s := { s with pwr := { s.pwr with por := false }, sup := { s.sup with senior := senior, seqMode := seqMode } }
  let s := (s.fput R.PRM_STAT.SENIOR senior).fput R.PWR_STAT.SEQ_MODE seqMode
  (s.fset (R.TWB_CFG.TARGET_ADDR 1) (0x52 + senior.toNat)).aonIslands 0

/-- POWER_ON_RESET_END (R502, R538). -/
def execPowerOnResetEnd (senior seqMode : Bool) (s : State) : Host.Outcome State Fault Refusal :=
  .next (if s.pwr.por then (s.sampleStraps senior seqMode).startPowerUp else s)

/-- A critical rail or VFL did not come up (R513, R521). -/
def State.comeUpFails (s : State) (rail cause : Nat) : State :=
  if s.flag R.PWR_STAT.SEQ_MODE then s.seqAbort rail cause
  else s.goDown ([6, 5, 7, 4, 3].map fun r => OffStep.rails [r]) (.comeUp rail cause)

/-- One of rails 3 to 7 is power-good: the next one, or the waves (R512). -/
def State.upNext (s : State) (r : Nat) : State :=
  let s := if r = 7 then { s with fls := { s.fls with fenced := false } } else s
  let s := if s.flag R.PWR_STAT.SEQ_MODE then { s with pwr := { s.pwr with seqHeld := false } } else s
  if s.fget R.PWR_STAT.STATE ≠ 1 ∨ s.pwr.off.isSome then s
  else if r = 6 then s.fset R.PWR_STAT.STATE 2
  else if s.flag R.PWR_STAT.SEQ_MODE then s
  else match (upRails.dropWhile (· ≠ r)).drop 1 with
    | q :: _ => s.railOn q
    | [] => s

/-- RAIL_POWER_GOOD (R503, R512, R517, R519). A failed rail of a SEQ_SYNC board may become good again by the board's own means (R518). -/
def execRailPowerGood (rail : Fin 56) (mv : BitVec 16) (s : State) : Host.Outcome State Fault Refusal :=
  .next (let r := rail.val
    let seq := s.flag R.PWR_STAT.SEQ_MODE
    if s.railState r ≠ 1 ∧ !(seq ∧ 8 ≤ r ∧ s.railState r = 3 ∧ s.fget R.PWR_STAT.SEQ_STATE = 8) then s
    else
      let s := ((s.fset (R.PWR_RAIL_STAT.STATE r) 2).fset (R.PWR_RAIL_STAT.MON_MV r) mv.toNat).fset (R.PWR_RAIL_STAT.CAUSE r) 0
      let s := s.supLog 0x02 mv.toNat r
      if r < 8 then s.upNext r
      else if seq then s.seqSettle
      else if s.pwr.off.isSome then s
      else
        let g := (r - 8) / 2
        let due := s.pwr.restores.head? == some g || (decide (groupWave g ≤ s.fget R.PWR_STAT.WAVE) && !(s.fget R.PWR_STAT.GROUPS_FENCED).testBit g)
        (if due then s.powerGroup g else s).pumpRestores)

/-- PWR_LATCH.CAUSE of a rail that did not come up, and its log code (R509, R513). -/
def railCodes : RailCause → Nat × Nat
  | .pgTimeout => (1, 0x03)
  | .pmbus _ => (4, 0x07)
  | .mode => (5, 0)

/-- Losses of arbitration among the attempts that failed (R592). -/
def railLost : RailCause → Nat
  | .pmbus n => n.val
  | .pgTimeout | .mode => 0

/-- RAIL_PG_TIMEOUT (R503, R509, R513, R517, R592). -/
def execRailPgTimeout (rail : Fin 56) (cause : RailCause) (mv : BitVec 16) (s : State) : Host.Outcome State Fault Refusal :=
  .next (let r := rail.val
    if s.railState r ≠ 1 then s
    else
      let s := (s.sat (R.TWB_CNT0.ARB_LOST 0) (railLost cause)).railFails r (railCodes cause).1 (railCodes cause).2 mv.toNat
      if s.pwr.off.isSome then s
      else if r < 8 then s.comeUpFails r (railCodes cause).1
      else
        let g := (r - 8) / 2
        let s := { s.fenceGroup g mv.toNat with pwr := { (s.fenceGroup g mv.toNat).pwr with restores := s.pwr.restores.filter (· ≠ g) } }
        s.seqSettle.pumpRestores)

/-! ## Waves (R515, R516) -/

/-- What a wave waits for beside its gap (R515). -/
def State.waveReady (s : State) (w : Nat) : Bool :=
  let trained := fun (st : Nat) => (List.range 8).all fun i => s.laneState (8 * st + i) != 1
  if s.fget R.PWR_STAT.STATE ≠ 2 ∨ s.pwr.off.isSome ∨ s.ramping then false
  else if w = 1 then !s.sup.sysRst && upRails.all fun r => s.railState r == 2
  else if !s.pwr.goGiven ∨ 24 < w then false
  else if s.flag R.PWR_STAT.SEQ_MODE ∧ 9 ≤ w ∧ s.fget R.PWR_STAT.SEQ_STATE ≠ 8 then false
  else if w = 5 then s.fget R.TER_STAT.STACK_UP &&& 3 == 3
  else if w = 9 then s.fget R.TER_STAT.STATE == 2
  else if 10 ≤ w ∧ w ≤ 16 then trained (2 * (w - 10)) && trained (2 * (w - 10) + 1)
  else if w = 17 then s.streetsTrained
  else true

/-- The rail groups of a wave. -/
def waveGroups (w : Nat) : List Nat := (List.range 24).filter fun g => groupWave g == w

/-- A group's wave: its rails first in native mode; a fenced group releases nothing (R517, R519). -/
def State.groupWaves (s : State) (g : Nat) : State :=
  if (s.fget R.PWR_STAT.GROUPS_FENCED).testBit g then s.fenceUnits g
  else if s.flag R.PWR_STAT.SEQ_MODE then s.startUnits g
  else s.powerGroup g

/-- What a wave releases (R515). -/
def State.releaseWave (s : State) (w : Nat) : State :=
  let s := (s.fset R.PWR_STAT.WAVE w).supLog 0x20 0 w
  let run := fun (s : State) (l : List Nat) => l.foldl (fun s i => s.fset (R.SUP_ISL_STAT.STATE i) 1) s
  let squares := fun (s : State) (l : List Nat) => l.foldl (fun s q => s.fset (R.KSK_SQUARE_STAT.KIOSKS_UP q) (s.kiosksUp q)) s
  let s :=
    if w = 1 then { (run s [46]).fset R.SUP_START_STAT.PHASE 2 with sup := { s.sup with bootDue := true, bootWarm := false } }
    else if w = 2 ∨ w = 3 then s.noteCores
    else if w = 4 then (run s [42, 43]).fset R.TER_STAT.STATE 1
    else if w = 5 then run s [44, 45]
    else if w = 19 then squares s (List.range 8)
    else if w = 20 then squares s ((List.range 8).map (8 + ·))
    else (waveGroups w).foldl (fun s g => s.groupWaves g) s
  let s := if w = 16 then s.noteTrained else s
  if w = 24 then s.fset R.PWR_STAT.STATE 3 else s

/-- WAVE_RELEASE (R515; log entry 5). -/
def execWaveRelease (s : State) : Host.Outcome State Fault Refusal :=
  .next (let w := s.fget R.PWR_STAT.WAVE + 1
    if s.waveReady w then s.releaseWave w else s)

/-- PWR_WAVE_CMD GO (R507, R516). -/
def State.goCmd (s : State) : State :=
  if s.pwr.goGiven ∨ s.fget R.PWR_STAT.STATE ≠ 2 ∨ s.fget R.PWR_STAT.WAVE = 0 then s.fset R.PWR_STAT.CMD_REFUSED 1
  else if !s.flag R.PWR_STAT.SEQ_MODE ∧ (List.range 48).any fun i => !s.flag (R.PWR_RAIL_CFG.VALID (8 + i)) then s
  else { s.fset R.SUP_START_STAT.PHASE 3 with pwr := { s.pwr with goGiven := true } }

/-- GO (R516). -/
def execGo (s : State) : Host.Outcome State Fault Refusal := .next s.goCmd

/-! ## Failures in service (R504, R524 to R527, R534) -/

/-- Cause and log code of a rail below or above its window. -/
def outOf (high : Bool) : Nat × Nat := if high then (3, 0x05) else (2, 0x04)

/-- GROUP_RAIL_FAIL (R524, R534). -/
def execGroupRailFail (rail : Fin 56) (high : Bool) (mv : BitVec 16) (s : State) : Host.Outcome State Fault Refusal :=
  .next (let r := rail.val
    let g := (r - 8) / 2
    if r < 8 ∨ s.railState r ≠ 2 then s
    else
      let s := s.railFails r (outOf high).1 (outOf high).2 mv.toNat
      if s.flag R.PWR_STAT.COMMITTED ∨ s.pwr.off.isSome then
        (if 8 ≤ g then (s.spillStreet (g - 8)).setBit R.MED_STREET_STAT.RAIL_FAIL (g - 8) true else s)
      else
        let t := s.fenceGroup g mv.toNat
        ({ t with pwr := { t.pwr with restores := t.pwr.restores.filter (· ≠ g) } }).pumpRestores)

/-- CRITICAL_RAIL_FAIL (R501, R525, R534). -/
def execCriticalRailFail (rail : Fin 56) (high : Bool) (mv : BitVec 16) (s : State) : Host.Outcome State Fault Refusal :=
  .next (let r := rail.val
    if r < 3 ∨ 6 < r ∨ s.railState r ≠ 2 then s
    else
      let s := s.railFails r (outOf high).1 (outOf high).2 mv.toNat
      let why := (outOf high).1
      match s.pwr.off with
      | some _ => s.stopDrain.afterDrainOff
      | none =>
        if s.fget R.PWR_STAT.STATE = 1 then s.comeUpFails r why else s.criticalStop r why)

/-- VFL_FAIL (R526, R534; while rails come up, R513). -/
def execVflFail (high : Bool) (mv : BitVec 16) (s : State) : Host.Outcome State Fault Refusal :=
  .next (if s.railState 7 ≠ 2 then s
    else
      let s := s.railFails 7 (outOf high).1 (outOf high).2 mv.toNat
      if s.fget R.PWR_STAT.STATE = 1 ∧ s.pwr.off.isNone then s.comeUpFails 7 (outOf high).1
      else
        let s := { s with fls := { s.fls with fenced := true } }
        if s.flag R.PWR_STAT.COMMITTED ∨ s.pwr.off.isSome then s else s.postD 0x0B01 0x107 mv.toNat)

/-- VCORE_LOW (R504). -/
def execVcoreLow (mv : BitVec 16) (s : State) : Host.Outcome State Fault Refusal :=
  .next (if s.railState 3 ≠ 2 then s
    else ((s.fset (R.PWR_RAIL_STAT.MON_MV 3) mv.toNat).supLog 0x33 mv.toNat 3).postD 0x0B02 0 mv.toNat)

/-- THERMAL_TRIP (R527, R641, R643). -/
def execThermalTrip (sensor : Fin 48) (temp : BitVec 8) (s : State) : Host.Outcome State Fault Refusal :=
  .next (let s := (s.fset R.PWR_TEMP_STAT.HOTTEST_C temp.toNat).fset R.PWR_TEMP_STAT.SENSOR sensor.val
    let s := ((s.peak R.PWR_TEMP_STAT.PEAK_C temp.toNat).sat R.PWR_TEMP_STAT.TRIPS).supLog 0x32 temp.toNat 0
    let st := s.fget R.PWR_STAT.STATE
    if s.flag R.PWR_STAT.COMMITTED ∧ st = 4 then { s with pwr := { s.pwr with tripAfter := true } }
    else if st = 0 ∨ st = 5 ∨ st = 6 ∨ s.pwr.off.isSome then s
    else s.criticalStop 0 6)

/-! ## Warning and committed shutdown (R530 to R535) -/

/-- A shutdown is committed (R530, R540): counted, logged, and begun (R120). -/
def State.commit (s : State) : State :=
  let s := ((s.fset R.PWR_STAT.COMMITTED 1).sat R.PWR_WARN_STAT.COMMITS).supLog 0x12 (s.fget R.JNL_STAT.OCC_KIB / 1024) 0
  (s.fset R.PWR_STAT.STATE 4).commitShutdown

/-- PWR_WARN_COMMIT (R530, R532, R533; R541 where a device reset's drain is under way). -/
def execPwrWarnCommit (s : State) : Host.Outcome State Fault Refusal :=
  .next (if s.pwr.por then s
    else
      let s := (s.fset R.PWR_STAT.WARN 1).supLog 0x10 0 0
      let st := s.fget R.PWR_STAT.STATE
      if st = 0 ∨ st = 5 ∨ st = 6 ∨ s.pwr.off.isSome then s
      else
        let s := if s.flag R.PWR_STAT.COMMITTED then s else s.commit
        { s with sup := { s.sup with resetWait := none } }.goDown s.shutdownSteps .shutdown)

/-- WARN_GLITCH (R530). -/
def execWarnGlitch (us : BitVec 5) (s : State) : Host.Outcome State Fault Refusal :=
  .next (if s.pwr.por ∨ 20 ≤ us.toNat then s else (s.sat R.PWR_WARN_STAT.GLITCHES).supLog 0x11 us.toNat 0)

/-- INPUT_STABLE (R535). -/
def execInputStable (s : State) : Host.Outcome State Fault Refusal :=
  .next (let s := s.fset R.PWR_STAT.WARN 0
    if s.fget R.PWR_STAT.STATE = 6 then (s.supLog 0x14 0 0).startPowerUp else s)

/-- PWR_LATCH_CMD.CLEAR_LATCH (R514). -/
def State.clearLatch (s : State) : State :=
  if s.flag R.PWR_LATCH.LATCHED then
    ((s.fset R.PWR_LATCH.LATCHED 0).supLog 0x31 (s.fget R.PWR_LATCH.CAUSE) (s.fget R.PWR_LATCH.RAIL)).startPowerUp
  else s

/-- CLEAR_LATCH (R514). -/
def execClearLatch (s : State) : Host.Outcome State Fault Refusal := .next s.clearLatch

/-! ## Attention and telemetry (R510, R528, R600, R643) -/

/-- A regulator's address answers an attention request: STATUS_WORD of its rails, each nonzero value logged, its faults cleared (R510). -/
def State.attend (s : State) (addr : Nat) (status : List (Fin 56 × BitVec 16)) : State :=
  let s := s.sat (R.TWB_CNT1.ATTENTIONS 0)
  ((List.finRange 56).filter fun r => s.flag (R.PWR_RAIL_CFG.VALID r.val) && s.fget (R.PWR_RAIL_CFG.ADDR r.val) == addr).foldl
    (fun s r =>
      let s := s.pm r.val 0x79 0
      match status.find? fun p => p.1 == r with
      | some (_, v) => if v = 0 then s else (s.supLog 0x08 v.toNat r.val).pm r.val 0x03 0
      | none => s) s

/-- PWRBUS_ATTENTION (R510, R600): at most eight answers of one request. -/
def execPwrbusAttention (answers : List (BitVec 7 × List (Fin 56 × BitVec 16))) (s : State) : Host.Outcome State Fault Refusal :=
  .next (if s.pwr.por ∨ !s.flag (R.TWB_CFG.ATTN_EN 0) then s
    else (answers.take 8).foldl (fun s a => s.attend a.1.toNat a.2) s)

/-- One read of a rail's telemetry: where four attempts fail, PMBUS_FAULT (R509); a VCORE step that waits goes next (R511). Answers whether
the read succeeded. -/
def State.readRail (s : State) (rail code : Nat) (tries : List PmTry) : Bool × List PmTry × State :=
  let q := State.pmTry rail code 4 tries s
  (q.1, q.2.1, (if q.1 then q.2.2 else q.2.2.supLog 0x07 4 rail).heldStep)

/-- TELEMETRY (R509, R511, R528, R592): `tries` are the outcomes of the attempts, transaction after transaction. -/
def execTelemetry (rail : Fin 56) (tries : List PmTry) (_vout iout _temp : BitVec 16) (s : State) : Host.Outcome State Fault Refusal :=
  .next (if s.pwr.por ∨ !s.flag (R.PWR_RAIL_CFG.VALID rail.val) then s
    else
      let a := s.readRail rail.val 0x79 tries
      let b := a.2.2.readRail rail.val 0x8B a.2.1
      let c := b.2.2.readRail rail.val 0x8C b.2.1
      let s := if c.1 then c.2.2.fset (R.PWR_RAIL_STAT.IOUT_DA rail.val) iout.toNat else c.2.2
      (s.readRail rail.val 0x8D c.2.1).2.2)

/-- PWR_TEMP_CMD.CLEAR_PEAK. -/
def State.clearPeak (s : State) : State := s.fset R.PWR_TEMP_STAT.PEAK_C (s.fget R.PWR_TEMP_STAT.HOTTEST_C)

/-- CLEAR_PEAK (R643). -/
def execClearPeak (s : State) : Host.Outcome State Fault Refusal := .next s.clearPeak

end Sys2Proof.Machine
end

