-- ==== Sys2Proof/Machine/Reset.lean ====
section
/-! DEFINITION. Resets and starts: the end of a drain (R126), device reset (R540, R541), the boot ROM (R544, R545, R582), warm restarts
(R552 to R554), and loss of VAON (R502, R539). -/

namespace Sys2Proof.Machine

/-! ## Device reset (R540, R541) -/

/-- The FLS, SUP and data-path domains and every island are reset, and the device starts again from wave 1 (R540). Rails that are coming up
go on doing so (R541). -/
def State.restart (s : State) (cause : Nat) : State :=
  let up := s.fget R.PWR_STAT.STATE == 1
  let s := ((s.resetCore.fset R.PWR_STAT.WAVE 0).fset R.PWR_STAT.COMMITTED 0).fset R.SUP_BOOT_STAT.CAUSE cause
  let s := { s with sup := { s.sup with resetTaken := s.sup.sysRst, startNs := s.timeNs } }
  if up then s.fset R.SUP_START_STAT.PHASE 1 else (s.fset R.PWR_STAT.STATE 2).fset R.SUP_START_STAT.PHASE 2

/-- The drain of a device reset has ended: the reset is taken, or the latch of R641 comes first. -/
def State.takeReset (s : State) : State :=
  match s.sup.resetWait with
  | none => s
  | some c =>
    let s := s.supLog 0x13 s.pwr.endFlags 0
    if s.pwr.tripAfter then
      ({ s with pwr := { s.pwr with tripAfter := false } }).resetCore.goDown s.reverseSteps (.critical 0 6)
    else s.restart c

/-- A device reset is requested (R540): a shutdown is committed and drains; without a running journal, it is taken at once (R541). One
that finds a shutdown committed shares it. -/
def State.requestReset (s : State) (cause : Nat) : State :=
  let st := s.fget R.PWR_STAT.STATE
  if s.pwr.por ∨ st = 0 ∨ 4 ≤ st ∨ s.pwr.off.isSome then s
  else if s.jnlState ≠ 2 then s.restart cause
  else ({ s with sup := { s.sup with resetWait := some cause } }).commit

/-- What follows the end of a drain: the reset that waited for it, or the next stage of going down. -/
def State.drainEnded (s : State) : State := if s.sup.resetWait.isSome then s.takeReset else s.afterDrainOff

/-- DRAIN_COMPLETE (R126): every drain codeword is acknowledged. -/
def execDrainComplete (s : State) : Host.Outcome State Fault Refusal :=
  .next (if s.jnlState = 3 ∧ s.jnl.drain.isSome ∧ s.drainCmds = [] then (s.finishDrain true).drainEnded else s)

/-- DRAIN_ABANDON (R123): the drain is still running 81 ms after commitment (log entry 5). -/
def execDrainAbandon (s : State) : Host.Outcome State Fault Refusal :=
  .next (if s.jnlState = 3 then (s.finishDrain false).drainEnded else s)

/-- SYS_RST_ASSERT (R540). -/
def execSysRstAssert (s : State) : Host.Outcome State Fault Refusal :=
  .next (if s.sup.sysRst then s else ({ s with sup := { s.sup with sysRst := true } }).requestReset 1)

/-- Instructions that drive pins (R644). -/
def TapInstr.drives : TapInstr → Bool
  | .extest | .clamp | .highz | .pulse | .train => true
  | .idcode | .bypass | .sample | .flsRecover | .dbgUnlock => false

/-- An instruction is loaded with the data register it selects; pins that boundary scan drove go back to what drives them in reset. -/
def State.loadTap (s : State) (i : TapInstr) (dr : List Bool) : State :=
  let s := if s.jtag.ir.drives then
      { s with pins := { serving := s.flag R.SUP_START_STAT.SERVING, twinAliveOut := false, floating := false } } else s
  { s with jtag := { s.jtag with ir := i, dr := dr } }

/-- SYS_RST_DEASSERT (R540): wave 1 may follow. A boundary-scan instruction that drives pins gives way to BYPASS (R644). -/
def execSysRstDeassert (s : State) : Host.Outcome State Fault Refusal :=
  .next (let s := { s with sup := { s.sup with sysRst := false, resetTaken := false } }
    if s.jtag.ir.drives then s.loadTap .bypass [false] else s)

/-- SUP_RESET_CMD DEVICE_RESET (R540); during a warm restart it is taken once the setup program runs again. -/
def State.deviceResetCmd (s : State) : State :=
  if s.sup.bootDue ∧ s.sup.bootWarm then { s with sup := { s.sup with resetAfterBoot := true } }
  else if s.flag R.PWR_STAT.COMMITTED ∨ s.pwr.off.isSome ∨ s.pwr.por ∨ s.fget R.PWR_STAT.STATE = 0 ∨ 4 ≤ s.fget R.PWR_STAT.STATE then
    s.fset R.SUP_BOOT_STAT.CMD_REFUSED 1
  else s.requestReset 2

/-- DEVICE_RESET (R540). -/
def execDeviceReset (s : State) : Host.Outcome State Fault Refusal := .next s.deviceResetCmd

/-! ## Warm restarts (R552 to R554) -/

/-- A warm restart: the SUP domain alone. A program that runs ends with ABORTED (R318), and the boot ROM is to run. -/
def State.warmRestart (s : State) (cause : Nat) : State :=
  let s := (s.belvEnd .aborted).resetSup
  let s := ((s.fset R.SUP_BOOT_STAT.WARM 1).fset R.SUP_BOOT_STAT.CAUSE cause).sat R.SUP_START_STAT.WARM_RESTARTS
  { s with
    sup := { s.sup with bootDue := true, bootWarm := true }
    fls := { s.fls with lines := [], branches := [] } }

/-- A firmware image runs (R555). -/
def State.imageRuns (s : State) : Bool := s.fget R.SUP_BOOT_STAT.STATE == 1 || s.fget R.SUP_BOOT_STAT.STATE == 2

/-- A restart that activates an image: the current commit record names one on trial that does not run (R582). -/
def State.activates (s : State) : Bool :=
  match s.commitRec with
  | some b => fieldAt b 2 1 == 1 && fieldAt b 3 1 % 2 != s.fget R.SUP_BOOT_STAT.IMAGE
  | none => false

/-- SUP_RESET_CMD BELVEDERE_RESTART. -/
def State.belvedereRestartCmd (s : State) : State :=
  if s.imageRuns then s.warmRestart (if s.activates then 5 else 4) else s.fset R.SUP_BOOT_STAT.CMD_REFUSED 1

/-- BELVEDERE_RESTART (R552). -/
def execBelvedereRestart (s : State) : Host.Outcome State Fault Refusal := .next s.belvedereRestartCmd

/-- BELVEDERE_FAULT (R552). -/
def execBelvedereFault (s : State) : Host.Outcome State Fault Refusal := .next (if s.imageRuns then s.warmRestart 6 else s)

/-- WATCHDOG_EXPIRE (R554; log entry 5): it counts while a program of the image runs. -/
def execWatchdogExpire (s : State) : Host.Outcome State Fault Refusal :=
  .next (if s.imageRuns ∧ s.flag R.SUP_WDOG_CTL.ENABLE ∧ (s.ctx 4096).task.isSome then s.warmRestart 3 else s)

/-- SUP_WDOG_KICK.KICK. -/
def State.kick (s : State) : State := { s with sup := { s.sup with kickNs := s.timeNs } }

/-- KICK (R554). -/
def execKick (s : State) : Host.Outcome State Fault Refusal := .next s.kick

/-! ## The boot ROM (R544, R545, R582) -/

/-- Whether an image may run: the verdict on its signatures, keys and layout, and its security version (R470). -/
def State.imageOk (s : State) (img : Nat) (verdict : Bool) : Bool :=
  verdict && decide ((match s.config with | some d => fieldAt d 8 4 | none => 0) ≤ s.imageVersion img)

/-- Appends a commit record on behalf of the boot ROM, whose selected image makes its bank the running one (R561, R582). -/
def State.romCommit (s : State) (st img fb tries : Nat) : State :=
  let q := match s.commitRec with | some b => fieldAt b 8 8 + 1 | none => 1
  (s.fset R.FLS_STAT.RUN_BANK img).commitAppend (commitBytes st img fb tries q (s.imageVersion img))

/-- Selects the image to run (R582). -/
def State.selectImage (s : State) (ok : Nat → Bool) : Option Nat × State :=
  match s.commitRec with
  | none => (([0, 1] : List Nat).find? ok, s)
  | some b =>
    let act := fieldAt b 3 1 % 2
    let fb := fieldAt b 3 1 / 2 % 2
    let trial := fieldAt b 2 1 == 1
    let tries := fieldAt b 4 4
    let spent := trial && decide (3 ≤ tries)
    let s := if trial && !spent then s.romCommit 1 act fb (tries + 1) else s
    if ok act && !spent then (some act, s)
    else if fb = 1 ∧ ok (1 - act) then (some (1 - act), s.romCommit 2 (1 - act) 0 0)
    else (none, s)

/-- The SRAM section of an image goes to offsets 0x8_0000 on (R578). -/
def State.loadSram (s : State) (img : Nat) : State :=
  let n := leNat (s.imageBytes img 20 4)
  if leNat (s.imageBytes img 0 4) = 0x2E1F0A77 ∧ n ≤ 262144 then
    { s with ksk := { s.ksk with sram := storeBytes s.ksk.sram 0x80000 (s.imageBytes img (leNat (s.imageBytes img 16 4)) n) } }
  else s

/-- The setup program starts (R544); it answers to no descriptor. -/
def State.startSetup (s : State) : State :=
  let t : Task := { num := 0, queue := 0, tenant := 0, prog := s.setupProg, userTag := 0, insn := 0, tiles := 0, timeUs := 0, args := [] }
  ({ s with ksk := { s.ksk with mgmtSrc := none, stores := [] }, sup := { s.sup with kickNs := s.timeNs } }).setCtx 4096 { task := some t }

/-- BOOT_ROM_RUN (R544, R545, R552, R582). On a cold start the DICE layering locks UDS, and a token accepted before takes DBG to unlocked
(R468, R471, R646). -/
def execBootRomRun (aOk bOk : Bool) (s : State) : Host.Outcome State Fault Refusal :=
  .next (if !s.sup.bootDue ∨ s.fls.job0.isSome ∨ s.fls.job1.isSome ∨ s.fls.fenced then s
    else
      let warm := s.sup.bootWarm
      let after := s.sup.resetAfterBoot
      let (img, s) := s.selectImage fun i => s.imageOk i (if i = 0 then aOk else bOk)
      let s := { s with sup := { s.sup with bootDue := false, bootWarm := false, resetAfterBoot := false } }
      match img with
      | none =>
        let s := s.fset R.SUP_BOOT_STAT.STATE 3
        if warm then s else s.fset R.SUP_START_STAT.PHASE 8
      | some i =>
        let s := if warm then s
          else ((s.fset R.GTH_STAT.UDS_LOCKED 1).fput R.GTH_STAT.DEBUG s.jtag.unlockNext).loadPair
        let s := ((s.fset R.SUP_BOOT_STAT.IMAGE i).fset R.SUP_BOOT_STAT.SEC_VERSION (s.imageVersion i)).fset R.SUP_BOOT_STAT.STATE 1
        let s := ((s.fset R.FLS_STAT.RUN_BANK i).loadSram i).startSetup
        if after then s.requestReset 2 else s)

/-! ## VAON (R502, R539) -/

/-- VAON_LEAVES_WINDOW: power-on reset. Beside what media and flash keep, nothing survives (R529, R539). -/
def execVaonLeavesWindow (s : State) : Host.Outcome State Fault Refusal :=
  .next (let s := s.resetCore
    { s.fput R.PRM_STAT.SENIOR false with
      ctl := (s.fput R.PRM_STAT.SENIOR false).ctl.filter fun (p : Nat × Nat) => decide (p.1 < 64) || decide (0x400000 * 64 ≤ p.1)
      fls := { words := s.fls.words }
      pwr := {}
      sup := { sysRst := s.sup.sysRst }
      twb := {}
      jtag := {}
      pins := {}
      timeNs := 0 })

/-- VFUSE_VOLTAGE (R502): a voltage on VFUSE is logged, as an overvoltage of rail 2 (log entry 79). -/
def execVfuseVoltage (mv : BitVec 16) (s : State) : Host.Outcome State Fault Refusal :=
  .next (if s.pwr.por then s else s.supLog 0x05 mv.toNat 2)

end Sys2Proof.Machine
end

