-- ==== Sys2Proof/Machine/Flash.lean ====
section
/-! DEFINITION. The flash controller's commands (R556 to R585). -/

namespace Sys2Proof.Machine

/-! ## Results and protection (R567 to R570) -/

/-- FLS_STAT.RESULT codes (R585). -/
inductive FlsResult where
  | ok | reprog | prot | busy | busFault | range | half | verifyFail | locked | ecc
  deriving DecidableEq, Repr

/-- The code of a result. -/
def FlsResult.code : FlsResult → Nat
  | .ok => 0 | .reprog => 1 | .prot => 2 | .busy => 3 | .busFault => 4 | .range => 5 | .half => 6 | .verifyFail => 7 | .locked => 8 | .ecc => 9

/-- Ends or refuses a command with a result. -/
def State.flsSay (s : State) (r : FlsResult) : State := s.fset R.FLS_STAT.RESULT r.code

/-- The job of a bank. -/
def State.flsJob (s : State) (bank : Nat) : Option FlsJob := if bank = 0 then s.fls.job0 else s.fls.job1

/-- A bank begins or ends a job. -/
def State.setJob (s : State) (bank : Nat) (j : Option FlsJob) : State :=
  if bank = 0 then { s.fput R.FLS_STAT.BUSY0 j.isSome with fls := { s.fls with job0 := j } }
  else { s.fput R.FLS_STAT.BUSY1 j.isSome with fls := { s.fls with job1 := j } }

/-- Protection regions that cover a sector, by number (R568). -/
def State.regionsAt (s : State) (sec : Nat) : List (Nat × (Nat × Nat × Bool × Bool × Word)) :=
  (s.fls.regions.zipIdx.map fun p => (p.2, p.1)).filter fun p => decide (p.2.1 ≤ sec ∧ sec < p.2.1 + p.2.2.1)

/-- A region forbids a command until its password opens it; an execute-only one forbids READ for good (R568). -/
def State.flsForbids (s : State) (sec : Nat) (read : Bool) : Bool :=
  (s.regionsAt sec).any fun p => (read && p.2.2.2.1) || (p.2.2.2.2.1 && !(s.fget R.FLS_PROT_STAT.UNLOCKED).testBit p.1)

/-- A region over a sector is locked out (R569). -/
def State.flsLocked (s : State) (sec : Nat) : Bool := (s.regionsAt sec).any fun p => (s.fget R.FLS_PROT_STAT.LOCKED_OUT).testBit p.1

/-- Sectors that the controller alone writes: commit log, configuration, record log (R561, R567). -/
def ownSector (sec : Nat) : Bool := let k := sec % 2048; decide (k < 4 ∨ (8 ≤ k ∧ k < 16))

/-- The first refusal of R567 that applies to a PROGRAM, ERASE or READ of `n` code words from index `i`. -/
def State.flsRefusal (s : State) (op i n : Nat) : Option FlsResult :=
  let sec := i / 2048
  if (s.flsJob (sec / 2048)).isSome then some .busy
  else if n = 0 ∨ 2048 < n ∨ (op = 2 ∧ n ≠ 1) ∨ (op ≠ 2 ∧ 2048 < i % 2048 + n) then some .range
  else if (op = 1 ∧ i % 2048 = 0) ∨ (op ≠ 3 ∧ ownSector sec) ∨ s.flsForbids sec (op = 3) then some .prot
  else if s.flsLocked sec then some .locked
  else if op = 1 ∧ s.isHalf sec then some .half
  else none

/-! ## The commands (R566) -/

/-- A code word as READ returns it: a configuration sector shows zeros for its passwords and PAIR_WRAP (R570). -/
def State.readWord (s : State) (i : Nat) : Bytes :=
  let w := (s.codeWord i).getD (List.replicate 32 0xFF)
  if i / 2048 % 2048 = 2 ∨ i / 2048 % 2048 = 3 then
    w.zipIdx.map fun p =>
      let d := (i % 2048) * 32 + p.2 - 64
      if 2 ≤ i % 2048 ∧ ((16 ≤ d ∧ d < 528 ∧ 8 ≤ (d - 16) % 32 ∧ (d - 16) % 32 < 16) ∨ (528 ≤ d ∧ d < 576)) then 0 else p.1
  else w

/-- Puts a code word into FLS_BUF. -/
def State.putBuf (s : State) (k : Nat) (b : Bytes) : State :=
  (List.range 4).foldl (fun s j => s.fset (R.FLS_BUF.DATA (4 * k + j)) (fieldAt b (8 * j) 8)) s

/-- READ from its `k`-th word on: a corrected bit is counted, and an uncorrectable word ends it (R558). -/
def State.readWords (i : Nat) (ecc : List (Nat × EccResult)) : Nat → Nat → State → State
  | 0, k, s => (s.fset R.FLS_STAT.DONE k).flsSay .ok
  | n + 1, k, s =>
    match (ecc.find? fun (p : Nat × EccResult) => p.1 == k).map (fun (p : Nat × EccResult) => p.2) with
    | some .bad => (s.fset R.FLS_STAT.DONE k).flsSay .ecc
    | some .corrected => State.readWords i ecc n (k + 1) ((s.sat R.FLS_CNT.ECC_CORRECTED).putBuf k (s.readWord (i + k)))
    | none => State.readWords i ecc n (k + 1) (s.putBuf k (s.readWord (i + k)))

/-- A command starts: the last result goes. -/
def State.flsStart (s : State) (op : Nat) (arg : Word) : State :=
  (((s.flsSay .ok).fset R.FLS_STAT.DONE 0).fset R.FLS_CMD.OP op).fset R.FLS_ARG.ARG arg.toNat

/-- UNLOCK (R569). A password that fits opens the regions it fits; one that fits none is a wrong try of every region there (log entry
87). -/
def State.flsUnlock (s : State) (sec : Nat) (pw : Word) : State :=
  if (s.flsJob (sec / 2048)).isSome then s.flsSay .busy
  else if s.flsLocked sec then s.flsSay .locked
  else
    let rs := (s.regionsAt sec).filter fun p => p.2.2.2.2.1
    let hit := rs.filter fun p => p.2.2.2.2.2 == pw
    let s := s.flsStart 4 0
    if hit ≠ [] then
      hit.foldl (fun s p => { s.setBit R.FLS_PROT_STAT.UNLOCKED p.1 true with fls := { s.fls with tries := AMap.set 0 s.fls.tries p.1 0 } }) s
    else if rs = [] then s
    else rs.foldl (fun s p =>
      let n := AMap.get 0 s.fls.tries p.1 + 1
      let s := { s with fls := { s.fls with tries := AMap.set 0 s.fls.tries p.1 n } }
      if 3 ≤ n then s.setBit R.FLS_PROT_STAT.LOCKED_OUT p.1 true else s) (s.flsSay .prot)

/-- The data WRITE_CONFIG writes from FLS_BUF: passwords carried forward where R577 lets them. -/
def State.configFromBuf (s : State) : Bytes :=
  let d := (s.flsBufWords 2046).flatten
  match s.config with
  | none => d
  | some old => (List.range 16).foldl (fun d i =>
      let (n, o) := (regionOf d i, regionOf old i)
      if n.2.2.2.1 ∧ n.1 = o.1 ∧ n.2.1 = o.2.1 ∧ n.2.2.2.2 = 0 then overlay d (24 + 32 * i) (slice old (24 + 32 * i) 8) else d) d

/-- A command of R566 with its FLS_CMD.COUNT field, address and argument. -/
def State.flsCommand (s : State) (op count addr : Nat) (arg : Word) (ecc : List (Nat × EccResult)) : State :=
  let n := count + 1
  let i := addr / 32
  let bank := i / 2048 / 2048
  let rb := s.recordBank
  if s.fls.fenced then s
  else if op = 1 ∨ op = 2 ∨ op = 3 then
    match s.flsRefusal op i n with
    | some r => s.flsSay r
    | none =>
      let s1 := s.flsStart op 0
      if op = 1 then s1.setJob bank (some (.program i n true))
      else if op = 2 then s1.setJob bank (some (.erase (i / 2048) 0 true))
      else if bank = rb ∧ s.fls.recq ≠ [] then (s.fset R.FLS_STAT.BUS_FAULT 1).flsSay .busFault
      else State.readWords i ecc n 0 s1
  else if op = 4 then s.flsUnlock (i / 2048) arg
  else if op = 5 ∨ op = 6 then
    if (s.flsJob rb).isSome then s.flsSay .busy
    else if op = 5 ∧ ((List.range 16).any fun k => let r := regionOf s.configFromBuf k; r.2.2.2.1 && r.2.2.2.2 == 0) then s.flsSay .range
    else (s.flsStart op arg).setJob rb (some .write)
  else s.flsSay .range

/-! ## The command sequence (R565) -/

/-- The controller drops a sequence. -/
def State.flsDrop (s : State) : State := { s.fset R.FLS_STAT.SEQ_ERR 1 with fls := { s.fls with seq := .idle } }

/-- A register other than FLS_BUF is written outside its turn: within a sequence it drops the sequence. -/
def State.flsStray (s : State) : State := if s.fls.seq = .idle then s else s.flsDrop

/-- A write of FLS_KEY. -/
def State.flsKeyWrite (s : State) (v : Word) : State :=
  let k := v.toNat % 65536
  let go := fun (q : FlsSeq) => ({ s with fls := { s.fls with seq := q } } : State)
  match s.fls.seq with
  | .idle => if k = 0x6F1A then go .key1 else s.flsDrop
  | .key1 => if k = 0x90E5 then go .key2 else s.flsDrop
  | .key2 | .cmd _ _ | .addr _ _ _ => s.flsDrop

/-- A write of FLS_CMD. -/
def State.flsCmdWrite (s : State) (v : Word) : State :=
  match s.fls.seq with
  | .key2 => { s with fls := { s.fls with seq := .cmd (v.toNat / 2 ^ 56) (v.toNat / 2 ^ 32 % 4096) } }
  | _ => s.flsStray

/-- A write of FLS_ADDR: commands but UNLOCK and WRITE_COMMIT start. -/
def State.flsAddrWrite (s : State) (v : Word) : State :=
  let a := v.toNat % 2 ^ 28
  match s.fls.seq with
  | .cmd op n =>
    if op = 4 ∨ op = 6 then { s with fls := { s.fls with seq := .addr op n a } }
    else ({ s with fls := { s.fls with seq := .idle } }).flsCommand op n a 0 []
  | _ => s.flsStray

/-- A write of FLS_ARG: UNLOCK and WRITE_COMMIT start. -/
def State.flsArgWrite (s : State) (v : Word) : State :=
  match s.fls.seq with
  | .addr op n a => ({ s with fls := { s.fls with seq := .idle } }).flsCommand op n a v []
  | _ => s.flsStray

/-- A command of firmware whose two keys have been written (R565). -/
def State.keyed (s : State) (op count addr : Nat) (arg : Word) (ecc : List (Nat × EccResult)) : State :=
  if s.fls.seq = .key2 then ({ s with fls := { s.fls with seq := .idle } }).flsCommand op count addr arg ecc else s.flsStray

/-- FLS_KEY (R565). -/
def execFlsKey (v : Word) (s : State) : Host.Outcome State Fault Refusal := .next (s.flsKeyWrite v)

/-- PROGRAM (R566). -/
def execProgram (count : BitVec 12) (addr : BitVec 28) (s : State) : Host.Outcome State Fault Refusal :=
  .next (s.keyed 1 count.toNat addr.toNat 0 [])

/-- ERASE (R563, R566). -/
def execErase (count : BitVec 12) (addr : BitVec 28) (s : State) : Host.Outcome State Fault Refusal :=
  .next (s.keyed 2 count.toNat addr.toNat 0 [])

/-- READ (R558, R566). -/
def execRead (count : BitVec 12) (addr : BitVec 28) (ecc : List (Nat × EccResult)) (s : State) : Host.Outcome State Fault Refusal :=
  .next (s.keyed 3 count.toNat addr.toNat 0 ecc)

/-- UNLOCK (R569). -/
def execUnlock (addr : BitVec 28) (arg : Word) (s : State) : Host.Outcome State Fault Refusal :=
  .next (s.keyed 4 0 addr.toNat arg [])

/-- WRITE_CONFIG (R577). -/
def execWriteConfig (count : BitVec 12) (addr : BitVec 28) (s : State) : Host.Outcome State Fault Refusal :=
  .next (s.keyed 5 count.toNat addr.toNat 0 [])

/-- WRITE_COMMIT (R581). -/
def execWriteCommit (count : BitVec 12) (addr : BitVec 28) (arg : Word) (s : State) : Host.Outcome State Fault Refusal :=
  .next (s.keyed 6 count.toNat addr.toNat arg [])

/-! ## Completion, records, the scan -/

/-- PROGRAM's words go into flash up to the first that is not erased (R559, R567). -/
def State.programWords (i : Nat) : Nat → List Bytes → State → State
  | k, [], s => (s.fset R.FLS_STAT.DONE k).flsSay .ok
  | k, b :: r, s =>
    if (s.codeWord (i + k)).isSome then ((s.sat R.FLS_CNT.REPROG).fset R.FLS_STAT.DONE k).flsSay .reprog
    else State.programWords i (k + 1) r (s.putWord (i + k) b)

/-- A bank's lines leave the prefetch buffer and the branch cache (R571). -/
def State.dropLines (s : State) (bank : Nat) : State :=
  let keep := fun (a : Nat) => a / 2 ^ 22 != bank
  { s with fls := { s.fls with lines := s.fls.lines.filter keep, branches := s.fls.branches.filter keep } }

/-- A commit record from FLS_ARG (R581). -/
def State.commitFromArg (s : State) : State :=
  let a := s.fget R.FLS_ARG.ARG
  let act := a % 2
  let q := match s.commitRec with | some b => fieldAt b 8 8 + 1 | none => 1
  s.commitAppend (commitBytes (a / 256 % 4) act (a / 65536 % 2) 0 q (s.imageVersion act))

/-- FLASH_COMMAND_DONE (R559, R563, R566): a bank's engine is done; for an ERASE, `ok` says whether the read-back held. -/
def execFlashCommandDone (bank : Fin 2) (ok : Bool) (s : State) : Host.Outcome State Fault Refusal :=
  .next (if s.fls.fenced then s
    else match s.flsJob bank.val with
      | none => s
      | some (.program i n _) => ((State.programWords i 0 (s.flsBufWords n) s).setJob bank.val none).dropLines bank.val
      | some (.erase sec tries fw) =>
        if ok then (((s.clearSector sec true).fset R.FLS_STAT.DONE 1).flsSay .ok).setJob bank.val none |>.dropLines bank.val
        else if tries < 2 then s.setJob bank.val (some (.erase sec (tries + 1) fw))
        else ((s.clearSector sec false).flsSay .verifyFail).setJob bank.val none |>.dropLines bank.val
      | some .write =>
        let s := s.setJob bank.val none
        (if s.fget R.FLS_CMD.OP = 5 then s.writeConfigSector s.configFromBuf else s.commitFromArg).flsSay .ok)

/-- FLASH_RECORD_APPEND (R572, R575): the next queued record; an erase of firmware in the bank is suspended meanwhile. -/
def execFlashRecordAppend (s : State) : Host.Outcome State Fault Refusal :=
  .next (match s.fls.recq with
    | r :: rest => if s.fls.fenced then s else ({ s with fls := { s.fls with recq := rest } }).logAppend r
    | [] => s)

/-- FLASH_SCAN (R564, R568), after a reset of the FLS domain and before the boot ROM: half-erased sectors, and the regions of the
current configuration. -/
def execFlashScan (s : State) : Host.Outcome State Fault Refusal :=
  .next (if !s.sup.bootDue ∨ s.sup.bootWarm ∨ s.fls.fenced then s
    else
      let half := (s.fls.words.map (·.1 / 2048)).eraseDups.filter s.halfErased
      let regions := match s.config with | some d => (List.range 16).map (regionOf d) | none => []
      let s := { s with fls := { s.fls with half := half, regions := regions } }
      (s.fset R.FLS_HALF.FOUND half.length).fset R.FLS_HALF.LEFT half.length)

/-- CONFIG_AUTO_WRITE (R577): after a pair is established or a replacement admitted. -/
def execConfigAutoWrite (s : State) : Host.Outcome State Fault Refusal :=
  .next (if !s.fls.autoCfg ∨ s.fls.fenced then s
    else ({ s with fls := { s.fls with autoCfg := false } }).writeConfigSector (s.config.getD (List.replicate 65472 0)))

end Sys2Proof.Machine
end

