-- ==== Sys2Proof/Machine/Status.lean ====
section
/-! DEFINITION. Completion queues against their hosts (R614, R615), delivery targets (R608) and status pages (R620 to R625). -/

namespace Sys2Proof.Machine

/-! ## Completion queues -/

/-- CQ_CI_POLL (R614): the consumer index as a read of CI_ADDR found it. -/
def execCqCiPoll (cq : Fin 65536) (ci : BitVec 32) (s : State) : Host.Outcome State Fault Refusal :=
  .next (let c := cq.val
    if (s.cq c).waiting = [] ∨ s.fget (R.STA_CQ0.STATE c) = 3 ∨ !s.targetReady (s.fget (R.STA_CQ0.TARGET c)) then s
    else ((s.setCq c { s.cq c with ci := ci.toNat }).cqFlush c).cqAdmitOverflow)

/-- A queue becomes OVERRUN: what waits is discarded and counted, and CQ_OVERRUN is posted (R615). -/
def State.cqOverrun (s : State) (c : Nat) : State :=
  let n := (s.cq c).waiting.length
  let late := s.sta.overflow.filter fun p => p.1 = c
  let ten := s.fget (R.STA_CQ0.TENANT c)
  let s := (s.setCq c { s.cq c with waiting := [] }).fset (R.STA_CQ0.STATE c) 3
  let s := (s.dec R.STA_STAT.PENDING n).sat (R.STA_CQ3.LOST c) (n + late.length)
  let was := AMap.get (0, 0) s.sta.overruns ten
  let s := { s with sta := { s.sta with
    overflow := s.sta.overflow.filter fun p => p.1 ≠ c
    overruns := AMap.set (0, 0) s.sta.overruns ten ((was.1 + 1) % 2 ^ 32, c) } }
  let s := late.foldl (fun s p => s.holdBack p.2.2) s
  (s.postT (BitVec.ofNat 24 ten) 0x0705 c (s.fget (R.STA_CQ3.LOST c))).cqAdmitOverflow

/-- CQ_FULL_TIMEOUT (R615; log entry 5). -/
def execCqFullTimeout (cq : Fin 65536) (s : State) : Host.Outcome State Fault Refusal :=
  .next (if s.fget (R.STA_CQ0.STATE cq.val) = 2 then s.cqOverrun cq.val else s)

/-- A write of STA_CQ1 (R612, R614, R615): the numbering and the cached consumer index begin again, and waiting records follow. -/
def State.cqBase (s : State) (c : Nat) (v : Word) : State :=
  let s := s.fset (R.STA_CQ1.BASE c) (v.toNat / 4096)
  let s := (s.setCq c { s.cq c with n := 0, ci := 0 }).fset (R.STA_CQ0.STATE c) 1
  (s.cqFlush c).cqAdmitOverflow

/-- CQ_BASE_WRITE (R615). -/
def execCqBaseWrite (cq : Fin 65536) (v : Word) (s : State) : Host.Outcome State Fault Refusal := .next (s.cqBase cq.val v)

/-! ## Delivery targets (R608) -/

/-- The tenant of the endpoint a target names, if it has one. -/
def State.endpointTenant (s : State) (path endpoint : Nat) : Option Nat :=
  if path = 0 then
    (if endpoint % 32 = endpoint ∧ s.flag (R.CXL_LD_CFG.VALID endpoint) then some (s.fget (R.CXL_LD_CFG.TENANT endpoint)) else none)
  else
    let k := s.conn (endpoint - 0x400000)
    if 0x400000 ≤ endpoint ∧ k.state ≠ .free then some k.tenant.toNat else none

/-- A setup program refuses a VALID target whose TENANT differs from its endpoint's (R608). -/
def State.targetOk (s : State) (v : Word) : Bool :=
  let n := v.toNat
  n / 2 ^ 63 == 0 || s.endpointTenant (n / 2 ^ 60 % 2) (n % 2 ^ 24) == some (n / 2 ^ 24 % 2 ^ 24)

/-- Completion queues with records that wait on a target try again. -/
def State.flushTarget (s : State) (t : Nat) : State :=
  ((s.sta.cqs.map (·.1)).filter fun c => (s.cq c).waiting ≠ [] && s.fget (R.STA_CQ0.TARGET c) == t).foldl (fun s c => s.cqFlush c) s

/-- A write of STA_TGT0: a VALID target becomes READY (R608, R626). -/
def State.targetWrite (s : State) (t : Nat) (v : Word) : State :=
  let n := v.toNat
  let s := ((s.fset (R.STA_TGT0.VALID t) (n / 2 ^ 63)).fset (R.STA_TGT0.PATH t) (n / 2 ^ 60)).fset (R.STA_TGT0.TENANT t) (n / 2 ^ 24)
  let s := (s.fset (R.STA_TGT0.ENDPOINT t) n).fset (R.STA_TGT0.STATE t) (n / 2 ^ 63)
  (s.flushTarget t).cqAdmitOverflow

/-- TARGET_WRITE (R608). -/
def execTargetWrite (t : Fin 4096) (v : Word) (s : State) : Host.Outcome State Fault Refusal :=
  .next (if s.targetOk v then s.targetWrite t.val v else s)

/-! ## Status pages (R620 to R623) -/

/-- DEVICE_STATE (R622). -/
def State.deviceWord (s : State) : Nat :=
  let ph := s.fget R.SUP_START_STAT.PHASE
  let stale := s.prm.stale || (6 ≤ ph && ph ≤ 7 && !s.flag R.JNL_GEN_STAT.ROOT_OK)
  s.fget R.SUP_START_STAT.SERVING * 2 ^ 63 + s.prmState * 2 ^ 60 + s.jnlState * 2 ^ 57 + (s.fget R.TER_STAT.STATE == 3).toNat * 2 ^ 56
    + ph * 2 ^ 52 + (decide (3 ≤ s.prmState ∧ s.prmState ≤ 6)).toNat * 2 ^ 51 + s.fget R.JNL_SHUT_STAT.JOURNAL_LOST * 2 ^ 50
    + stale.toNat * 2 ^ 49 + s.fget R.PRM_STAT.TERM

/-- A bit vector of what holds of the first `n` numbers. -/
def bitsOf (n : Nat) (f : Nat → Bool) : Nat := (List.range n).foldl (fun x i => if f i then x + 2 ^ i else x) 0

/-- Words of the global page, by offset (R622). -/
def State.globalPage (s : State) (q : Nat) : List (Nat × Nat) :=
  let cxl := fun p => s.fget (R.CXL_PORT_STAT.WIDTH p) * 2 + s.fget (R.CXL_PORT_STAT.GTS p)
  let up := fun p => (s.fget (R.CXL_PORT_STAT.STATE p) == 2).toNat
  [(0x000, s.deviceWord), (0x008, q), (0x010, s.timeNs), (0x018, (s.regRead 0).toNat),
   (0x040, ((List.range 16).foldl (fun n k => n + s.fget (R.KSK_SQUARE_STAT.KIOSKS_UP k)) 0) * 2 ^ 48 + s.fget R.GTH_STAT.AES_UP * 2 ^ 40
     + s.fget R.GTH_STAT.GHASH_UP * 2 ^ 32 + bitsOf 16 s.sliceUp),
   (0x048, bitsOf 64 fun l => s.laneState l == 2), (0x050, bitsOf 64 fun l => s.laneState (64 + l) == 2),
   (0x058, bitsOf (64 >>> s.fget R.NET_MODE.MODE) fun p => s.fget (R.NET_PORT_STAT.STATE p) == 2),
   (0x060, up 1 * 2 ^ 63 + up 0 * 2 ^ 62 + cxl 1 * 2 ^ 58 + cxl 0 * 2 ^ 54 + s.fget R.PRM_STAT.GRP_B_UP * 2 ^ 53
     + s.fget R.PRM_STAT.GRP_A_UP * 2 ^ 52 + s.fget R.PWR_STAT.GROUPS_FENCED),
   (0x068, s.fget R.JNL_STAT.OCC_KIB * 2 ^ 32 + s.fget R.PRM_LAG_STAT.BYTES_KIB),
   (0x070, s.fget R.TST_STAT.STALLED * 2 ^ 58 + s.fget R.TST_STAT.IN_USE), (0x078, s.fget R.STA_STAT.EVLOG_SEQ), (0xFF8, q)]
  ++ (List.range 4).map (fun w => (0x020 + 8 * w, (List.range 4).foldl (fun n i => n + s.fget (R.KSK_PACE.PACE (4 * w + i)) * 2 ^ (16 * i)) 0))
  ++ s.sta.ring.flatMap fun r => (List.range 4).map fun w => (0x800 + 32 * (fieldAt r 4 4 % 32) + 8 * w, fieldAt r (8 * w) 8)

/-- Words of a tenant's page but the live ones, by offset (R623). -/
def State.tenantPage (s : State) (k q : Nat) : List (Nat × Nat) :=
  let n := s.fget (R.STA_TPAGE0.TENANT k)
  let t := BitVec.ofNat 24 n
  let e := s.eq k
  let owns := fun (p : Nat × Ext) => p.2.state == .assigned && p.2.owner == t
  let quar := s.gen.filter fun p => p.2.quar && p.1 < 2 ^ 37 && owns (0, s.extent (p.1 / 2 ^ 18))
  let keys := s.xpt.keys.filter fun p => p.2.state == .valid && p.2.tenant == t
  let conns := s.xpt.conns.filter fun p => p.2.state != .free && p.2.tenant == t
  let ov := AMap.get (0, 0) s.sta.overruns n
  [(0x000, (match s.tenant t with
      | some x => x.enrolled.toNat * 2 ^ 63 + x.cxlAuth.toNat * 2 ^ 62 + x.epoch.toNat * 2 ^ 24
      | none => 0) + n),
   (0x008, q), (0x010, s.deviceWord), (0x018, e.written * 2 ^ 32 + e.lost),
   (0x020, quar.length * 2 ^ 32 + (s.ext.filter owns).length), (0x028, keys.length * 2 ^ 32 + conns.length),
   (0x030, AMap.get 0 s.sta.tasks n * 2 ^ 32 + AMap.get 0 s.sta.conflicts n), (0x038, ov.1 * 2 ^ 32 + ov.2), (0xFF8, q)]

/-- Puts a page's words at its place. -/
def putPage (m : AMap Word) (at' : Nat) (l : List (Nat × Nat)) : AMap Word :=
  l.foldl (fun m p => AMap.set 0 m (at' + p.1) (BitVec.ofNat 64 p.2)) m

/-- PAGE_REFRESH (R620, R621): every page is built anew with the next PAGE_SEQ. -/
def execPageRefresh (s : State) : Host.Outcome State Fault Refusal :=
  .next (let q := s.sta.pageSeq + 1
    let slots := s.listed R.STA_TPAGE0.VALID 2048
    let m := putPage [] 0x3000000 (s.globalPage q)
    let m := slots.foldl (fun m k => putPage m (0x3600000 + 0x1000 * k) (s.tenantPage k q)) m
    let m := (List.range 32).foldl (fun m l =>
      if s.flag (R.CXL_LD_CFG.VALID l) then
        match s.pageSlot (BitVec.ofNat 24 (s.fget (R.CXL_LD_CFG.TENANT l))) with
        | some k => putPage m (0x3001000 + 0x1000 * l) (s.tenantPage k q)
        | none => m
      else m) m
    { s with sta := { s.sta with pageSeq := q, pages := m } })

/-- PAGE_MIRROR (R625): the tenant's page and the global page, unless the target is BROKEN. -/
def execPageMirror (slot : Fin 2048) (s : State) : Host.Outcome State Fault Refusal :=
  .next (let k := slot.val
    let tg := s.fget (R.STA_TPAGE0.MIRROR_TARGET k)
    if !s.flag (R.STA_TPAGE0.VALID k) ∨ !s.flag (R.STA_TPAGE0.MIRROR_EN k) ∨ !s.targetReady tg then s
    else
      let page := fun base => (List.range 512).flatMap fun w => natLe 8 (s.pageWord (base + 8 * w)).toNat
      s.hostXfer tg (s.fget (R.STA_TPAGE3.MIRROR_BASE k) * 8192) (page (0x3600000 + 0x1000 * k) ++ page 0x3000000))

end Sys2Proof.Machine
end

