-- ==== Sys2Proof/Machine/Tiers.lean ====
section
/-! DEFINITION. The tier commands: locks (R223 to R225), range invalidation (R238), slices (R226), scratchpad (R219 to R222), the
Loggia and plans (R227, R230), PINNED loads (R236, R237), and the Terrace's training (R206). -/

namespace Sys2Proof.Machine

/-! ## Locked lines -/

/-- The line's bytes where they may enter the Orangery without media: Loggia, a VALID frame, the zero tile (R218). -/
def State.lineSource (s : State) (k : Nat) : Option Bytes :=
  let t := k / 16
  if s.remote t ∨ s.pendingFor t ≠ [] ∨ (s.genEntry t).quar then none
  else match s.loggiaLine k with
    | some b => some b.bytes
    | none => match s.frame t with
      | some f => (match f.state with
        | .valid => some (slice f.bytes (k % 16 * 256) 256)
        | .moving _ w => if w then none else some (slice f.bytes (k % 16 * 256) 256)
        | _ => none)
      | none => if (s.genEntry t).zero then some (List.replicate 256 0) else none

/-- A line is locked into way `w` of its set, which holds it if it is valid, and is filled otherwise (R223). -/
def State.lockInto (s : State) (k w : Nat) : State :=
  let old := s.orgLine k
  let s := ((s.setLines k).filter fun p => p.2.way == w && p.1 != k).foldl (fun (s : State) (p : Nat × Line) => s.dropLine p.1) s
  let s := s.inc R.ORG_LOCK_STAT.LOCKED
  match old with
  | some l => s.putLine k { l with way := w, locked := true }
  | none => match s.lineSource k with
    | some b =>
      let s := if (s.loggiaLine k).isSome then s.loggiaDrop k else (s.copyOut (k / 16)).inc R.ORG_CNT0.MISSES
      s.putLine k { way := w, locked := true, bytes := b }
    | none =>
      let s := s.putLine k { way := w, valid := false, locked := true }
      if s.pendingFor (k / 16) ≠ [] ∨ (s.genEntry (k / 16)).quar then s
      else s.missFor (k / 16) (k % 16 * 256) 1 (.line k) (s.clsOf (k / 16))

/-- LOCK (R223): refused where no lockable way of the set is free, where the class does not permit it, where the extent is not ASSIGNED, or
where the slice is fenced (log entry 58). A line that is locked already stays so. -/
def State.lockLine (s : State) (k : Nat) : State :=
  let m := s.fget R.ORG_WAYMODE.LOCK_WAYS
  let x := s.extent (extOf (k / 16))
  let refused := s.fput R.ORG_LOCK_STAT.REFUSED true
  if (AMap.find? s.tier.lines k).any (·.locked) then s
  else if x.state ≠ .assigned ∨ !x.cls.caches ∨ !s.sliceUp (sliceOf k) then refused
  else
    let locked := fun w => (s.setLines k).any fun p => p.2.way == w && p.2.locked
    match (match AMap.find? s.tier.lines k with | some l => if l.way < m then some l.way else none | none => none) with
    | some w => s.lockInto k w
    | none => match (List.range m).find? fun w => !locked w with
      | some w => s.lockInto k w
      | none => refused

/-- LINE_LOCK (R223). -/
def execLineLock (line : BitVec 41) (s : State) : Host.Outcome State Fault Refusal := .next (s.lockLine line.toNat)
/-- LINE_UNLOCK (R225). -/
def execLineUnlock (line : BitVec 41) (s : State) : Host.Outcome State Fault Refusal := .next (s.unlockLine line.toNat)

/-! ## Range invalidation -/

/-- A range invalidation starts, or is refused while one runs (R238). Its sweep takes effect when it is done (log entry 57). -/
def State.startInval (s : State) (release : Bool) (count first : Nat) : State :=
  if s.tier.inval.isSome then s.fput R.ORG_INVAL_STAT.REFUSED true
  else { s.fput R.ORG_INVAL_STAT.BUSY true with tier := { s.tier with inval := some (first, count, release) } }

/-- RANGE_INVALIDATION (R238). -/
def execRangeInvalidation (release : Bool) (count : BitVec 20) (first : Fin 524288) (s : State) : Host.Outcome State Fault Refusal :=
  .next (s.startInval release count.toNat first.val)

/-- RANGE_INVALIDATION_DONE (R238). -/
def execRangeInvalidationDone (s : State) : Host.Outcome State Fault Refusal :=
  .next (match s.tier.inval with
    | none => s
    | some (first, count, release) =>
      (({ s with tier := { s.tier with inval := none } }).fput R.ORG_INVAL_STAT.BUSY false).invalidateRange first (first + count) release)

/-! ## Slices -/

/-- FENCE (R226): allocations stop, locks are released and counted, no line of the slice is served any more, and reads that wait for its
miss registers go on without. -/
def State.fenceSlice (s : State) (sl : Fin 16) : State :=
  if !s.sliceUp sl.val then s
  else
    let mine := s.tier.lines.filter fun p => sliceOf p.1 == sl.val
    let n := (mine.filter fun p => p.2.locked).length
    let s := (s.dec R.ORG_LOCK_STAT.LOCKED n).sat R.ORG_CNT2.LOCK_LOST n
    let s := mine.foldl (fun (s : State) (p : Nat × Line) => s.dropLine p.1) s
    let s := { s with tier := { s.tier with loggia := s.tier.loggia.filter fun p => sliceOf p.line != sl.val } }
    (((s.fset (R.ORG_SLICE_STAT.STATE sl.val) 1).startDrain (.slice sl)).retryMisses).sliceSettle sl.val

/-- RESTORE (R226): a QUIESCED slice returns empty, its scratchpad bytes zero. -/
def State.restoreSlice (s : State) (sl : Fin 16) : State :=
  if s.fget (R.ORG_SLICE_STAT.STATE sl.val) ≠ 2 then s
  else { s.fset (R.ORG_SLICE_STAT.STATE sl.val) 0 with
    tier := { s.tier with scratch := s.tier.scratch.filter fun p => p.1 / 256 % 16 != sl.val } }

/-- SLICE_FENCE (R226). -/
def execSliceFence (sl : Fin 16) (s : State) : Host.Outcome State Fault Refusal := .next (s.fenceSlice sl)
/-- SLICE_RESTORE (R226). -/
def execSliceRestore (sl : Fin 16) (s : State) : Host.Outcome State Fault Refusal := .next (s.restoreSlice sl)

/-! ## Scratchpad -/

/-- ORG_WAYMODE takes new values (R219, R220, R223): converted ways lose their lines, returned ones their bytes; refused outside the
ranges and while a returned block has an owner. A line locked in a way that is no longer lockable stays locked (log entry 138). -/
def State.setWays (s : State) (lock scratch : Nat) : Option State :=
  let old := s.fget R.ORG_WAYMODE.SCRATCH_WAYS
  let held := (List.range 192).any fun b => 16 * scratch ≤ b && b < 16 * old &&
    (s.fget (R.ORG_SCR_OWNER.TENANT b) != 0 || s.flag (R.ORG_SCR_OWNER.ZEROING b))
  if 4 < lock ∨ 12 < scratch ∨ held then none
  else
    let s := (s.tier.lines.filter fun p => 16 - scratch ≤ p.2.way).foldl (fun (s : State) (p : Nat × Line) => s.dropLine p.1) s
    let s := { s with tier := { s.tier with scratch := s.tier.scratch.filter fun p => decide (p.1 < scratch * 2 ^ 24) } }
    some ((s.fset R.ORG_WAYMODE.LOCK_WAYS lock).fset R.ORG_WAYMODE.SCRATCH_WAYS scratch)

/-- WAYMODE_WRITE (R220). -/
def execWaymodeWrite (lock : BitVec 4) (scratch : BitVec 4) (s : State) : Host.Outcome State Fault Refusal :=
  .next ((s.setWays lock.toNat scratch.toNat).getD s)

/-- A block is assigned: unassigned at once while it is zeroed, or for good with tenant 0 (R221; log entry 59). -/
def State.assignBlock (s : State) (b : Nat) (tenant : BitVec 24) : State :=
  let s := (s.fset (R.ORG_SCR_OWNER.TENANT b) 0).fput (R.ORG_SCR_OWNER.ZEROING b) (tenant != 0)
  { s with tier := { s.tier with zeroing := AMap.set 0 s.tier.zeroing b tenant } }

/-- SCRATCH_OWNER_ASSIGN (R221). -/
def execScratchOwnerAssign (b : Fin 192) (tenant : BitVec 24) (s : State) : Host.Outcome State Fault Refusal :=
  .next (s.assignBlock b.val tenant)

/-- SCRATCH_ZERO_DONE (R221): the block's bytes are 0 and the assignment takes effect. -/
def execScratchZeroDone (b : Fin 192) (s : State) : Host.Outcome State Fault Refusal :=
  .next (match AMap.find? s.tier.zeroing b.val with
    | none => s
    | some t =>
      let s := { s with tier := { s.tier with
        zeroing := AMap.set 0 s.tier.zeroing b.val 0
        scratch := s.tier.scratch.filter fun p => p.1 / 2 ^ 20 != b.val } }
      (s.fput (R.ORG_SCR_OWNER.ZEROING b.val) false).fset (R.ORG_SCR_OWNER.TENANT b.val) t.toNat)

/-! ## Loggia, plans, PINNED loads, training -/

/-- LOGGIA_TTL_EXPIRE (R227; log entry 5). -/
def execLoggiaTtlExpire (line : BitVec 41) (s : State) : Host.Outcome State Fault Refusal :=
  .next (if (s.loggiaLine line.toNat).isSome then (s.loggiaDrop line.toNat).inc R.ORG_CNT1.PF_WASTED else s)

/-- PLAN_IDLE_EXPIRE (R230; log entry 5): of a host plan. -/
def execPlanIdleExpire (r : PlanReader) (s : State) : Host.Outcome State Fault Refusal :=
  .next (match r with | .ctx _ => s | .conn _ | .ld _ => s.endPlan r)

/-- PIN_LOAD_TILE (R236, R237): the background load fetches a stored tile of a PINNED extent that the Terrace does not hold, in the rebuild
share of the maintenance entries. -/
def execPinLoadTile (t : Nat) (s : State) : Host.Outcome State Fault Refusal :=
  .next (if !s.flag R.SUP_START_STAT.SERVING ∨ isSys t ∨ (s.extent (extOf t)).state ≠ .assigned ∨ s.clsOf t ≠ .pinned ∨
      (s.genEntry t).zero ∨ (s.genEntry t).quar ∨ (s.frame t).isSome ∨ 1024 ≤ s.readsOf Waiter.rebuilds then s.notePins
    else match s.takeEntry .maint { kind := .maint t } with
      | none => s
      | some (tag, s) => s.fetchOp t (.pin tag) .pinned tag)

/-- TERRACE_TRAIN_DONE (R206, R515): stacks that waves 4 and 5 have released and that finish training; with all four the Terrace runs. -/
def execTerraceTrainDone (up : BitVec 4) (s : State) : Host.Outcome State Fault Refusal :=
  let w := s.fget R.PWR_STAT.WAVE
  let out := if 5 ≤ w then 15 else if 4 ≤ w then 3 else 0
  .next (if s.fget R.TER_STAT.STATE ≠ 1 then s
    else
      let now := s.fget R.TER_STAT.STACK_UP ||| (up.toNat &&& out)
      let s := s.fset R.TER_STAT.STACK_UP now
      if now = 15 then s.fset R.TER_STAT.STATE 2 else s)

end Sys2Proof.Machine
end

