-- ==== Sys2Proof/Machine/RegCheck.lean ====
section
/-! DEFINITION. What setup and management programs refuse before their stores are applied (R649): values outside the ranges of the
register tables, and broken relations between fields, judged on the values that will stand after the COMMIT (R334). -/

namespace Sys2Proof.Machine

/-- A control-space store by the access codes of R16: RW fields are set, a 1 clears a W1C bit, RO, RO-V and WO fields and reserved
bits keep nothing. -/
def State.putReg (s : State) (off : Nat) (v : Word) : State :=
  (fieldsAt off).foldl (fun (s : State) p =>
    match p.1 with
    | .rw => s.fset p.2 (v.toNat / 2 ^ p.2.lo)
    | .w1c => if v.getLsbD p.2.lo then s.fset p.2 0 else s
    | _ => s) s

/-- The number of a register of an array, where an offset lies in it. -/
def nthAt (base stride count off : Nat) : Option Nat :=
  if base ≤ off ∧ (off - base) % stride = 0 ∧ (off - base) / stride < count then some ((off - base) / stride) else none

/-- The range of a field, or of one field of every register of an array. -/
structure FldRange where
  fld    : Fld
  stride : Nat := 8
  count  : Nat := 1
  lo     : Nat
  hi     : Nat

/-- Whether a stored value keeps a range. -/
def FldRange.keeps (r : FldRange) (off : Nat) (v : Word) : Bool :=
  (nthAt r.fld.off r.stride r.count off).isNone ||
    (let x := v.toNat / 2 ^ r.fld.lo % 2 ^ r.fld.wid; decide (r.lo ≤ x) && decide (x ≤ r.hi))

/-- Ranges of the journal, Promenade, media and tier registers (R92, R132, R170, R203, R238, R240). -/
def ranges0 : List FldRange :=
  [{ fld := R.JNL_GEN_CTL.ROOT_PERIOD_MS, lo := 100, hi := 60000 },
   { fld := R.JNL_LIMIT_CTL.HOLD_US, lo := 0, hi := 10000 }, { fld := R.JNL_LIMIT_CTL.HIGH_WATER, lo := 10, hi := 90 },
   { fld := R.JNL_LIMIT_CTL.DRAIN_LIMIT, lo := 4, hi := 52 },
   { fld := R.PRM_LINK_CTL.HB_MISS, lo := 3, hi := 15 }, { fld := R.PRM_LINK_CTL.HB_US, lo := 5, hi := 100 },
   { fld := R.PRM_LINK_CTL.RETRIES, lo := 1, hi := 8 }, { fld := R.PRM_LINK_CTL.RTO_NS, lo := 1000, hi := 10000 },
   { fld := R.PRM_LAG_CTL.LAG_US, lo := 2, hi := 20 }, { fld := R.PRM_LAG_CTL.LAG_MIB, lo := 1, hi := 64 },
   { fld := R.PRM_REPAIR_CTL.TIMEOUT_US, lo := 100, hi := 10000 }, { fld := R.PRM_RESYNC_CTL.RATE_GBPS, lo := 1, hi := 200 },
   { fld := R.MED_LINK_CTL.REPLAYS, lo := 1, hi := 8 },
   { fld := R.MED_CMD_CTL.TIMEOUT_US, lo := 4100, hi := 40000 }, { fld := R.MED_CMD_CTL.HEDGE_US, lo := 5, hi := 1000 },
   { fld := R.MED_SWEEP_CTL.PASS_HOURS, lo := 24, hi := 720 }, { fld := R.MED_REBUILD_CTL.RATE_MBPS, lo := 100, hi := 2500 },
   { fld := R.ORG_WAYMODE.LOCK_WAYS, lo := 0, hi := 4 }, { fld := R.ORG_WAYMODE.SCRATCH_WAYS, lo := 0, hi := 12 },
   { fld := R.ORG_INVAL_CMD.COUNT, lo := 1, hi := 524288 },
   { fld := R.ORG_PF_CTL.PLAN_IDLE_US, lo := 100, hi := 60000 }, { fld := R.ORG_PF_CTL.PF_TRACKERS, lo := 0, hi := 8192 },
   { fld := R.ORG_PF_CTL.PF_MISS, lo := 0, hi := 384 }, { fld := R.ORG_PF_CTL.LOGGIA_TTL_US, lo := 10, hi := 10000 },
   { fld := R.TER_PIN_CTL.MAX_GIB, lo := 0, hi := 120 }]

/-- Ranges of the Kiosk, Turnstile and network registers (R301, R322, R335, R342, R372). -/
def ranges1 : List FldRange :=
  [{ fld := R.KSK_QCFG0.LS_SIZE 0, stride := 32, count := 1024, lo := 0, hi := 4 },
   { fld := R.KSK_QCFG0.WEIGHT 0, stride := 32, count := 1024, lo := 1, hi := 255 },
   { fld := R.KSK_QCFG0.MAX_CTX 0, stride := 32, count := 1024, lo := 1, hi := 256 },
   { fld := R.KSK_QCFG1.INSN_DEF 0, stride := 32, count := 1024, lo := 1000, hi := 100000000 },
   { fld := R.KSK_QCFG1.TIME_DEF_US 0, stride := 32, count := 1024, lo := 10, hi := 10000 },
   { fld := R.KSK_QCFG1.TILES_DEF 0, stride := 32, count := 1024, lo := 1, hi := 16384 },
   { fld := R.KSK_QCFG2.INSN_MAX 0, stride := 32, count := 1024, lo := 1000, hi := 100000000 },
   { fld := R.KSK_QCFG2.TIME_MAX_US 0, stride := 32, count := 1024, lo := 10, hi := 10000 },
   { fld := R.KSK_QCFG2.TILES_MAX 0, stride := 32, count := 1024, lo := 1, hi := 16384 },
   { fld := R.KSK_QCFG3.POOL_MAX 0, stride := 32, count := 1024, lo := 1, hi := 4096 },
   { fld := R.TST_TMO_CTL.MAINT_MS, lo := 1, hi := 45 }, { fld := R.TST_TMO_CTL.PRM_MS, lo := 1, hi := 45 },
   { fld := R.TST_TMO_CTL.TASK_MS, lo := 1, hi := 45 }, { fld := R.TST_TMO_CTL.CXL_MS, lo := 1, hi := 45 },
   { fld := R.TST_TMO_CTL.NET_MS, lo := 1, hi := 45 }, { fld := R.TST_NET_CTL.RNR_TIMER, lo := 1, hi := 31 },
   { fld := R.NET_PORT_CFG.PMD 0, count := 64, lo := 0, hi := 2 },
   { fld := R.NET_PORT_CFG.UNCORR_MAX 0, count := 64, lo := 1, hi := 255 },
   { fld := R.NET_PORT_CFG.FLAP_MAX 0, count := 64, lo := 1, hi := 15 },
   { fld := R.NET_PFC_CTL.PFC_WD_MS, lo := 1, hi := 255 },
   { fld := R.NET_CC_CTL0.WIN_INIT_KIB, lo := 4, hi := 16384 }, { fld := R.NET_CC_CTL0.AI_KIB, lo := 1, hi := 1024 },
   { fld := R.NET_CC_CTL0.MD, lo := 1, hi := 255 }, { fld := R.NET_CC_CTL0.HAI_ROUNDS, lo := 1, hi := 255 },
   { fld := R.NET_CC_CTL1.TARGET_RTT_US, lo := 2, hi := 1000 }, { fld := R.NET_CC_CTL1.BASE_RTT_US, lo := 1, hi := 1000 },
   { fld := R.NET_CC_CTL1.CNP_INTERVAL_US, lo := 1, hi := 1000 }]

/-- Ranges of the transport, CXL, Gatehouse, power, start, two-wire and status registers (R417, R444, R473, R481, R500, R536, R555, R605,
R626). -/
def ranges2 : List FldRange :=
  [{ fld := R.XPT_CONN_CTL.ERROR_HOLD_MS, lo := 10, hi := 60000 }, { fld := R.XPT_CONN_CTL.RESP_RES, lo := 1, hi := 128 },
   { fld := R.XPT_CONN_CTL.INIT_DEPTH, lo := 1, hi := 16 }, { fld := R.XPT_CONN_CTL.MAX_MGMT, lo := 0, hi := 4 },
   { fld := R.XPT_REQ_CTL.ACK_TMO_US, lo := 100, hi := 20000 }, { fld := R.XPT_WR_CTL.PER_CONN, lo := 1, hi := 1024 },
   { fld := R.CXL_PORT_CFG.MAX_WIDTH 0, count := 2, lo := 0, hi := 2 },
   { fld := R.CXL_DC_CTL.RESP_MS, lo := 10, hi := 60000 }, { fld := R.CXL_DC_CTL.WITHDRAW_MS, lo := 10, hi := 60000 },
   { fld := R.GTH_SHARE.MEDIA, lo := 1, hi := 255 }, { fld := R.GTH_SHARE.NET, lo := 1, hi := 255 },
   { fld := R.GTH_SHARE.PROM, lo := 1, hi := 255 }, { fld := R.GTH_SHARE.CXL, lo := 1, hi := 255 },
   { fld := R.GTH_SHARE.TASK, lo := 1, hi := 255 }, { fld := R.GTH_SHARE.KDF, lo := 1, hi := 255 },
   { fld := R.GTH_KAT_CTL.PERIOD_US, lo := 100, hi := 60000 },
   { fld := R.PWR_VCORE_CTL.FIXED_MV, lo := 620, hi := 900 }, { fld := R.PWR_VCORE_CTL.VMAX_MV, lo := 620, hi := 900 },
   { fld := R.PWR_VCORE_CTL.VMIN_MV, lo := 620, hi := 900 }, { fld := R.PWR_VCORE_CTL.PACE_TARGET, lo := 900, hi := 1600 },
   { fld := R.PWR_VCORE_CTL.PACE_HYST, lo := 5, hi := 63 }, { fld := R.PWR_VCORE_CTL.STEP_US, lo := 10, hi := 1000 },
   { fld := R.PWR_VCORE_CAP.POWER_CAP_W, lo := 60, hi := 240 },
   { fld := R.PWR_WAVE_CTL.GAP_US, lo := 200, hi := 10000 }, { fld := R.PWR_MON_CTL.TELEM_MS, lo := 10, hi := 1000 },
   { fld := R.SUP_RESET_CMD.ACTION, lo := 0, hi := 2 }, { fld := R.SUP_WDOG_CTL.TIMEOUT_MS, lo := 100, hi := 60000 },
   { fld := R.TWB_CFG.SPEED 0, count := 2, lo := 0, hi := 2 },
   { fld := R.STA_CTL.FULL_MS, lo := 10, hi := 10000 }, { fld := R.STA_CTL.MIRROR_US, lo := 100, hi := 60000 },
   { fld := R.STA_CTL.REFRESH_US, lo := 10, hi := 10000 },
   { fld := R.STA_CQ0.SIZE 0, stride := 32, count := 65536, lo := 0, hi := 12 },
   { fld := R.STA_TPAGE0.EQ_SIZE 0, stride := 32, count := 2048, lo := 0, hi := 12 }]

/-- Every field of a stored value lies in its range. -/
def inRanges (off : Nat) (v : Word) : Bool := (ranges0 ++ ranges1 ++ ranges2).all fun r => r.keeps off v

/-- Queues that are enabled. -/
def State.enabledQueues (s : State) : List Nat := s.listed R.KSK_QCFG0.ENABLE 1024

/-- The smallest source timeout, in ms. -/
def State.leastTimeout (s : State) : Nat :=
  [R.TST_TMO_CTL.PRM_MS, R.TST_TMO_CTL.TASK_MS, R.TST_TMO_CTL.CXL_MS, R.TST_TMO_CTL.NET_MS].foldl (fun m f => min m (s.fget f))
    (s.fget R.TST_TMO_CTL.MAINT_MS)

/-- The rows of R334, and R339. -/
def State.timeoutsOk (s : State) : Bool :=
  let hb := s.fget R.PRM_LINK_CTL.HB_US * s.fget R.PRM_LINK_CTL.HB_MISS
  let med := s.fget R.MED_CMD_CTL.TIMEOUT_US
  let rep := s.fget R.PRM_REPAIR_CTL.TIMEOUT_US
  decide (2 * (s.fget R.MED_LINK_CTL.REPLAYS * 2 + 2000) ≤ med)
    && decide (2 * (s.fget R.PRM_LINK_CTL.RTO_NS * (s.fget R.PRM_LINK_CTL.RETRIES + 1)) ≤ hb * 1000)
    && decide (2 * hb ≤ rep)
    && decide (2 * (med + rep + 50) ≤ s.leastTimeout * 1000)
    && decide (2 * (s.fget R.XPT_REQ_CTL.ACK_TMO_US * (s.fget R.XPT_REQ_CTL.RETRY_CNT + 1)) ≤ s.fget R.TST_TMO_CTL.NET_MS * 1000)
    && (s.enabledQueues.all fun q => decide (2 * s.fget (R.KSK_QCFG2.TIME_MAX_US q) ≤ s.fget R.TST_TMO_CTL.TASK_MS * 1000))
    && decide (1 ≤ s.fget R.TST_DRAIN_CTL.DRAIN_MS) && decide (s.fget R.TST_DRAIN_CTL.DRAIN_MS + 1 ≤ s.leastTimeout)

/-- How many bits of a byte are set. -/
def bitsSet (n : Nat) : Nat := ((List.range 8).filter fun i => n.testBit i).length

/-- PFC and congestion relations (R353, R355, R356, R371). -/
def State.netOk (s : State) : Bool :=
  let share := 768 * 2 ^ s.fget R.NET_MODE.MODE
  let mask := s.fget R.NET_PFC_CTL.PRIO_MASK
  decide (bitsSet mask ≤ 2)
    && (mask == 0 || (decide (s.fget R.NET_PFC_CTL.XOFF_KIB + 36 ≤ share)
      && decide (s.fget R.NET_PFC_CTL.XON_KIB < s.fget R.NET_PFC_CTL.XOFF_KIB)
      && decide (2 * s.fget R.NET_PFC_CTL.PFC_WD_MS ≤ s.fget R.TST_TMO_CTL.NET_MS)))
    && decide (s.fget R.NET_CC_CTL1.BASE_RTT_US ≤ s.fget R.NET_CC_CTL1.TARGET_RTT_US)

/-- A tenant number, not 0, that has an entry (R452). -/
def State.hasEntry (s : State) (t : Nat) : Bool := t != 0 && (s.tenant (BitVec.ofNat 24 t)).isSome

/-- A target in use that another tenant owns. -/
def State.foreign (s : State) (tgt ten : Nat) : Bool := s.flag (R.STA_TGT0.VALID tgt) && s.fget (R.STA_TGT0.TENANT tgt) != ten

/-- Task queue `q` (R287, R302, R410, R452, R626). -/
def State.queueOk (s t : State) (q : Nat) : Bool :=
  let ten := t.fget (R.KSK_QCFG0.TENANT q)
  let cq := t.fget (R.KSK_QCFG3.CQ q)
  (ten == 0 || t.hasEntry ten) && (ten != 0 || !t.flag (R.KSK_QCFG0.ENABLE q))
    && (ten == s.fget (R.KSK_QCFG0.TENANT q) || s.fget (R.KSK_QSTAT.STATE q) == 0 || s.fget (R.KSK_QSTAT.STATE q) == 3)
    && decide (t.fget (R.KSK_QCFG0.CHILD_CTX q) < t.fget (R.KSK_QCFG0.MAX_CTX q))
    && decide (t.fget (R.KSK_QCFG1.INSN_DEF q) ≤ t.fget (R.KSK_QCFG2.INSN_MAX q))
    && decide (t.fget (R.KSK_QCFG1.TIME_DEF_US q) ≤ t.fget (R.KSK_QCFG2.TIME_MAX_US q))
    && decide (t.fget (R.KSK_QCFG1.TILES_DEF q) ≤ t.fget (R.KSK_QCFG2.TILES_MAX q))
    && (ten == 0 || !t.flag (R.STA_CQ0.VALID cq) || t.fget (R.STA_CQ0.TENANT cq) == ten)

/-- The pool the enabled queues may fill (R289). -/
def State.poolOk (t : State) : Bool :=
  decide ((t.enabledQueues.foldl (fun n q => n + t.fget (R.KSK_QCFG3.POOL_MAX q)) 0) ≤ 32768)

/-- Whether a key index lies in a VALID range, and whose (R404). -/
def State.rangeHolds (s : State) (i k : Nat) : Option Nat :=
  let f := s.fget (R.XPT_KRANGE1.FIRST i)
  if s.flag (R.XPT_KRANGE0.VALID i) ∧ f ≤ k ∧ k < f + s.fget (R.XPT_KRANGE1.COUNT i) then some (s.fget (R.XPT_KRANGE0.TENANT i)) else none

/-- Key range `i` (R417, R452). -/
def State.keyRangeOk (s t : State) (i : Nat) : Bool :=
  let f := t.fget (R.XPT_KRANGE1.FIRST i)
  let n := t.fget (R.XPT_KRANGE1.COUNT i)
  let apart := fun j =>
    let g := t.fget (R.XPT_KRANGE1.FIRST j)
    j == i || decide (f + n ≤ g) || decide (g + t.fget (R.XPT_KRANGE1.COUNT j) ≤ f)
  (!t.flag (R.XPT_KRANGE0.VALID i) || (t.hasEntry (t.fget (R.XPT_KRANGE0.TENANT i)) && decide (1 ≤ n) && decide (f + n ≤ 16777216)
      && ((t.listed R.XPT_KRANGE0.VALID 4096).all apart)))
    && s.xpt.keys.all fun p => s.rangeHolds i p.1 == t.rangeHolds i p.1

/-- Page slot `k` (R452, R626). -/
def State.pageOk (t : State) (k : Nat) : Bool :=
  let ten := t.fget (R.STA_TPAGE0.TENANT k)
  !t.flag (R.STA_TPAGE0.VALID k) ||
    ((t.tenant (BitVec.ofNat 24 ten)).isSome
      && ((t.listed R.STA_TPAGE0.VALID 2048).all fun j => j == k || t.fget (R.STA_TPAGE0.TENANT j) != ten)
      && !t.foreign (t.fget (R.STA_TPAGE0.EQ_TARGET k)) ten
      && !(t.flag (R.STA_TPAGE0.MIRROR_EN k) && t.foreign (t.fget (R.STA_TPAGE0.MIRROR_TARGET k)) ten))

/-- PWRBUS and MGMTBUS (R508, R601, R605). -/
def State.busOk (t : State) (b : Nat) : Bool :=
  if b = 0 then t.flag R.PWR_STAT.SEQ_MODE || t.fget (R.TWB_CFG.SPEED 0) == 2
  else
    let a := t.fget (R.TWB_CFG.TARGET_ADDR 1)
    !t.flag (R.TWB_CFG.ATTN_EN 1) && decide (8 ≤ a) && decide (a ≤ 0x77) && a != 0x0C

/-- Rail configuration `n`: of a rail group only before GO, or while the group is fenced (R507, R536). -/
def State.railCfgOk (s : State) (n : Nat) : Bool := n < 8 || !s.pwr.goGiven || (s.fget R.PWR_STAT.GROUPS_FENCED).testBit ((n - 8) / 2)

/-- GO in native mode needs an entry for every group rail (R507). -/
def State.goOk (t : State) : Bool := t.flag R.PWR_STAT.SEQ_MODE || (List.range 48).all fun i => t.flag (R.PWR_RAIL_CFG.VALID (8 + i))

/-- NET_MODE changes while every port of the mode is QUIESCED (R345). -/
def State.modeOk (s t : State) : Bool :=
  s.fget R.NET_MODE.MODE == t.fget R.NET_MODE.MODE
    || (List.range (64 / 2 ^ s.fget R.NET_MODE.MODE)).all fun p => s.fget (R.NET_PORT_STAT.STATE p) == 4

/-- An array register's check, where the offset lies in the array. -/
def whereAt (base stride count off : Nat) (p : Nat → Bool) : Bool := ((nthAt base stride count off).map p).getD true

/-- What one store of a COMMIT must keep, with `t` the registers as they will stand (R334). -/
def State.storeOk (s t : State) (off : Nat) (v : Word) : Bool :=
  inRanges off v
    && whereAt 0x01C00000 8 4096 off (fun n => s.queueOk t (n / 4))
    && whereAt 0x01C10000 16 1024 off (fun p =>
        let o := t.fget (R.KSK_PROG0.OWNER p)
        o == s.fget (R.KSK_PROG0.OWNER p) || ((o == 0 || t.hasEntry o) && s.fget (R.KSK_PROG0.STATE p) == 0))
    && whereAt 0x02810000 8 8192 off (fun n => s.keyRangeOk t (n / 2))
    && whereAt 0x02C00100 8 32 off (fun l => !t.flag (R.CXL_LD_CFG.VALID l) || t.hasEntry (t.fget (R.CXL_LD_CFG.TENANT l)))
    && whereAt 0x00801000 8 192 off (fun b => t.fget (R.ORG_SCR_OWNER.TENANT b) == 0 || t.hasEntry (t.fget (R.ORG_SCR_OWNER.TENANT b)))
    && whereAt 0x03100000 32 4096 off (fun _ => t.targetOk v)
    && whereAt 0x03200000 32 65536 off (fun c =>
        !t.flag (R.STA_CQ0.VALID c) || !t.foreign (t.fget (R.STA_CQ0.TARGET c)) (t.fget (R.STA_CQ0.TENANT c)))
    && whereAt 0x03400000 32 2048 off t.pageOk
    && whereAt 0x00200000 8 2 off t.busOk
    && whereAt 0x00100100 8 56 off s.railCfgOk
    && (off != 0x00100028 || v.toNat / 2 ^ 62 != 1 || t.goOk)
    && (off != 0x00800000 || (s.setWays (t.fget R.ORG_WAYMODE.LOCK_WAYS) (t.fget R.ORG_WAYMODE.SCRATCH_WAYS)).isSome)
    && (off != 0x00180000 || decide (t.fget R.PWR_VCORE_CTL.VMIN_MV ≤ t.fget R.PWR_VCORE_CTL.VMAX_MV))
    && whereAt 0x01440000 8 49152 off (fun w => s.ext.all fun p => p.2.state != .assigned || p.2.map != w / 192)

/-- The registers as they will stand after a program's stores. -/
def State.putAll (s : State) (l : List (Nat × Word)) : State := l.foldl (fun (s : State) p => s.putReg p.1 p.2) s

/-- What a program's stores must keep (R649), but for the validity of whole lane maps. -/
def State.storesOk (s : State) (l : List (Nat × Word)) : Bool :=
  let t := s.putAll l
  (l.all fun p => s.storeOk t p.1 p.2) && t.timeoutsOk && t.netOk && t.poolOk && s.modeOk t

/-- A lane map is valid (R175). -/
def State.mapOk (s : State) (m : Nat) : Bool :=
  let row := fun r => (List.range 18).map (s.mapLane m r)
  ((List.range 64).all fun r => decide (row r).Nodup && (row r).all fun l => decide (((row r).filter fun k => k / 8 == l / 8).length ≤ 2))
    && (List.range 128).all fun l => ((List.range 64).filter fun r => (row r).contains l).length == 9

/-- The lane maps whose words a program stores are valid after them (R176). -/
def State.mapsOk (s : State) (l : List (Nat × Word)) : Bool :=
  let ms := (l.filterMap fun p => nthAt 0x01440000 8 49152 p.1).map (· / 192)
  ms.eraseDups.all (s.putAll l).mapOk

end Sys2Proof.Machine
end

