-- ==== Sys2Proof/Machine/Registers.lean ====
section
/-! DEFINITION. The control-space write engine (R16, R32, R33): a store of the Belvedere to a command register acts, a store to a
register with an effect of its own has it, and every other store sets its fields. -/

namespace Sys2Proof.Machine

/-- What a store answers: the state, and the status of a pair command that was refused (R150, R154 to R156). -/
abbrev Stored := State × Status

/-! ## Command registers -/

/-- Copies of the level-3 tiles for a FORCE_SOLO that a store starts: what the modules hold is a free value (log entry 70). -/
def State.drawCopies (s : State) : List StoredCopy × State :=
  let (t0, s) := s.drawBytes 64
  let (c0, s) := s.drawBytes 4096
  let (t1, s) := s.drawBytes 64
  let (c1, s) := s.drawBytes 4096
  ([⟨t0, c0⟩, ⟨t1, c1⟩], s)

/-- A store to PRM_PAIR_CMD (R150, R154, R155, R156); of several bits the lowest alone acts (log entry 132). -/
def State.pairCmd (s : State) (n : Nat) : Stored :=
  let opt := fun (o : Option State) (s : State) => (match o with | some t => (t, .ok) | none => (s, .fault) : Stored)
  if n.testBit 0 then opt s.establish? s
  else if n.testBit 1 then opt s.startSolo? s
  else if n.testBit 2 then (match s.admitReplacement? with | .ok t => (t, .ok) | .error e => (s, e))
  else if n.testBit 3 then (let (l, t) := s.drawCopies; opt (t.forceSolo? l) s)
  else (s, .ok)

/-- MED_LANE_CMD (R203). -/
def State.laneCmd (s : State) (n : Nat) : State :=
  let l := n % 128
  match n / 256 % 8 with
  | 0 => s
  | 1 => s.laneFence l
  | 2 => s.laneReplace l
  | 3 => s.laneRetrain l
  | _ => s.laneRefused

/-- ORG_LOCK_CMD (R223, R225). -/
def State.lockCmd (s : State) (n : Nat) : State :=
  let k := n / 256 % 2 ^ 41
  match n / 2 ^ 62 with
  | 1 => s.lockLine k
  | 2 => s.unlockLine k
  | _ => s

/-- ORG_SLICE_CMD (R226). -/
def State.sliceCmd (s : State) (n : Nat) : State :=
  match n / 2 ^ 62 with
  | 1 => s.fenceSlice (Fin.ofNat 16 n)
  | 2 => s.restoreSlice (Fin.ofNat 16 n)
  | _ => s

/-- KSK_KIOSK_CMD (R319, R322). -/
def State.kioskCmd (s : State) (n : Nat) : State :=
  match n / 2 ^ 62 with
  | 0 => s
  | 1 => s.fenceKiosk (Fin.ofNat 512 n)
  | 2 => s.restoreKiosk (Fin.ofNat 512 n)
  | _ => s.fset R.KSK_STAT.CMD_REFUSED 1

/-- KSK_PROG_CMD (R313, R322). -/
def State.progCmd (s : State) (n : Nat) : State :=
  match n / 2 ^ 62 with
  | 0 => s
  | 1 => s.clearProgram (n % 1024)
  | _ => s.fset R.KSK_STAT.CMD_REFUSED 1

/-- NET_PORT_CMD (R372). -/
def State.netCmd (s : State) (n : Nat) : State :=
  let p := Fin.ofNat 64 n
  match n / 2 ^ 62 with
  | 0 => s
  | 1 => s.netFence p
  | 2 => s.netRestore p
  | _ => s.netRetrain p

/-- CXL_PORT_CMD (R444). -/
def State.cxlCmd (s : State) (n : Nat) : State :=
  let p := Fin.ofNat 2 n
  match n / 2 ^ 62 with
  | 0 => s
  | 1 => s.cxlFence p
  | 2 => s.cxlRestore p
  | _ => s.cxlRetrain p

/-- CXL_DC_CMD (R428, R430). -/
def State.dcCmd (s : State) (n : Nat) : State :=
  let l := Fin.ofNat 32 (n / 2 ^ 52)
  let e := Fin.ofNat 524288 n
  match n / 2 ^ 62 with
  | 1 => s.dcOffer l e
  | 2 => s.dcWithdraw l e
  | _ => s

/-- GTH_CORE_CMD (R467, R473); the outcome of the known-answer tests of a RESTORE is a free value (log entry 70). -/
def State.coreCmd (s : State) (n : Nat) : State :=
  let refused := s.fset R.GTH_STAT.CMD_REFUSED 1
  let i := n % 128
  match n / 2 ^ 62 with
  | 0 => s
  | 1 => if i < 96 then s.coreFence i else refused
  | 2 => if i < 96 then (let (w, t) := s.drawWord; t.coreRestore i (w.getLsbD 0)) else refused
  | _ => refused

/-- GTH_TEN_CMD (R452). -/
def State.tenCmd (s : State) (who n : Nat) : State :=
  match n / 2 ^ 62 with
  | 0 => s
  | 1 => s.createTenant (BitVec.ofNat 24 n) who
  | 2 => s.destroyTenant (BitVec.ofNat 24 n) who
  | _ => s.fset R.GTH_TEN_STAT.REFUSED 1

/-- GTH_ENROL_CMD (R454); the verdict on the request's signatures is a free value (log entry 70). -/
def State.enrolCmd (s : State) (n : Nat) : State :=
  let len := n % 65536
  match n / 2 ^ 62 with
  | 0 => s
  | 1 =>
    if len = 0 ∨ 32768 < len then s.fset R.GTH_STAT.CMD_REFUSED 1
    else (let (w, t) := s.drawWord; t.enrol len (w.getLsbD 0))
  | _ => s.fset R.GTH_STAT.CMD_REFUSED 1

/-- PWR_WAVE_CMD (R516, R518). -/
def State.waveCmd (s : State) (n : Nat) : State :=
  match n / 2 ^ 62 with
  | 0 => s
  | 1 => s.goCmd
  | 2 => s.restoreGroupCmd (n % 32)
  | _ => s.fset R.PWR_STAT.CMD_REFUSED 1

/-- SUP_RESET_CMD (R540, R552). -/
def State.resetCmd (s : State) (n : Nat) : State :=
  match n / 2 ^ 62 with
  | 1 => s.belvedereRestartCmd
  | 2 => s.deviceResetCmd
  | _ => s

/-! ## Registers with an effect of their own -/

/-- KSK_QCFG0 (R287, R293, R321). -/
def State.queueWrite (s : State) (q off : Nat) (v : Word) : State :=
  let t := s.putReg off v
  if v.getLsbD 63 then t.enableQueue q else t.disableQueue (Fin.ofNat 1024 q)

/-- CXL_LD_CFG: what is presented changes, and an LD that loses its binding breaks its targets (R426, R444, R608). -/
def State.ldWrite (s : State) (l off : Nat) (v : Word) : State :=
  let t := (s.putReg off v).noteBound (portOf l)
  let lost := s.flag (R.CXL_LD_CFG.VALID l) && (!t.flag (R.CXL_LD_CFG.VALID l) || s.fget (R.CXL_LD_CFG.TENANT l) != t.fget (R.CXL_LD_CFG.TENANT l))
  if lost then t.breakTargets 0 l else t

/-- CXL_RING_CFG: a slot that is no longer VALID is UNBOUND (R440). -/
def State.ringWrite (s : State) (j off : Nat) (v : Word) : State :=
  if v.getLsbD 63 then s.putReg off v else (s.putReg off v).ringUnbind j

/-- PWR_VCORE_CTL: FIXED holds the setpoint at FIXED_MV (R481); a SEQ_SYNC board's setpoint is not commanded (R480). -/
def State.vcoreWrite (s : State) (off : Nat) (v : Word) : State :=
  let s := s.putReg off v
  if s.fget R.PWR_VCORE_CTL.MODE = 0 ∧ !s.flag R.PWR_STAT.SEQ_MODE ∧ (s.railState 3 = 1 ∨ s.railState 3 = 2) then
    s.setVcore (s.fget R.PWR_VCORE_CTL.FIXED_MV)
  else s

/-- STA_CQ0: records that wait are tried on the queue as it now stands (R612, R615). -/
def State.cqWriteReg (s : State) (c off : Nat) (v : Word) : State := ((s.putReg off v).cqFlush c).cqAdmitOverflow

/-- STA_TPAGE0: a slot made VALID begins its event numbers at 0 (R617). -/
def State.pageWrite (s : State) (k off : Nat) (v : Word) : State :=
  let fresh := v.getLsbD 63 && !s.flag (R.STA_TPAGE0.VALID k)
  let s := s.putReg off v
  if fresh then s.setEq k {} else s

/-- STA_TPAGE1: a write of EQ_BASE restarts the ring's entries and drops the cached consumer index (R612, R614, R617). -/
def State.eqBaseWrite (s : State) (k off : Nat) (v : Word) : State :=
  let s := s.putReg off v
  s.setEq k { s.eq k with n := 0, ci := 0 }

/-- A store to an FLS register that is no step of a command sequence drops one that has begun (R565); SEQ_ERR, which that sets, then
reads 1 though the same store would clear it (R17). -/
def State.flsOther (s : State) (off : Nat) (v : Word) : State :=
  let t := s.putReg off v
  if fieldsAt off = [] then t else t.flsStray

/-- A store to an array register, where `off` lies in the array. -/
def arrayStore (base stride count off : Nat) (f : Nat → State) (otherwise : State) : State :=
  match nthAt base stride count off with
  | some n => f n
  | none => otherwise

/-! ## Every register -/

/-- A store to a register of the KSK, CXL or STA arrays, to a scratchpad owner, or to any register without an effect of its own. -/
def State.arrayWrite (s : State) (off : Nat) (v : Word) : State :=
  arrayStore 0x01C00000 32 1024 off (fun q => s.queueWrite q off v) <|
  arrayStore 0x02C00100 8 32 off (fun l => s.ldWrite l off v) <|
  arrayStore 0x02C00400 8 256 off (fun j => s.ringWrite j off v) <|
  arrayStore 0x00801000 8 192 off (fun b => s.assignBlock b (BitVec.ofNat 24 v.toNat)) <|
  arrayStore 0x03100000 32 4096 off (fun t => s.targetWrite t v) <|
  arrayStore 0x03200000 32 65536 off (fun c => s.cqWriteReg c off v) <|
  arrayStore 0x03200008 32 65536 off (fun c => s.cqBase c v) <|
  arrayStore 0x03400000 32 2048 off (fun k => s.pageWrite k off v) <|
  arrayStore 0x03400008 32 2048 off (fun k => s.eqBaseWrite k off v) <|
  if 0x00300000 ≤ off ∧ off < 0x00310000 then s.flsOther off v else s.putReg off v

/-- A store to control space that its checks let through; `who` is the task whose record outcome is awaited, 0 for none. DBG ignores it
(R32, R646). -/
def State.regStore (s : State) (who off : Nat) (v : Word) : Stored :=
  let n := v.toNat
  let ok := fun (t : State) => ((t, .ok) : Stored)
  if isDbg off then (s, .ok)
  else if 0x02E00000 ≤ off ∧ off < 0x03000000 then ok (s.doorStore (Fin.ofNat 32 (off / 65536)) (off % 65536) v)
  else if off = 0x01800040 then s.pairCmd n
  else if off = 0x01400400 then ok (s.laneCmd n)
  else if off = 0x00800000 then ok ((s.setWays (n / 256 % 16) (n % 16)).getD s)
  else if off = 0x00800010 then ok (s.lockCmd n)
  else if off = 0x00800020 then ok (s.startInval (v.getLsbD 63) (n / 2 ^ 32 % 2 ^ 20) (n % 2 ^ 19))
  else if off = 0x00800030 then ok (s.sliceCmd n)
  else if off = 0x00C00008 then ok (s.formAttr (.maxGib (n % 256)) (.mgmt who))
  else if off = 0x01C0A000 then ok (s.kioskCmd n)
  else if off = 0x01C0A008 then ok (s.progCmd n)
  else if off = 0x00400020 then ok (if v.getLsbD 0 then s.clearHigh else s)
  else if off = 0x02400400 then ok (s.netCmd n)
  else if off = 0x02C00020 then ok (s.cxlCmd n)
  else if off = 0x02C00038 then ok (s.dcCmd n)
  else if off = 0x02000008 then ok (s.coreCmd n)
  else if off = 0x02000230 then ok (s.tenCmd who n)
  else if off = 0x02000240 then ok (s.enrolCmd n)
  else if off = R.KSK_PACE_CMD.CLEAR_MINMAX.off then ok (if v.getLsbD 0 then s.clearMinmax else s)
  else if off = 0x00180000 then ok (s.vcoreWrite off v)
  else if off = 0x00100010 then ok (if v.getLsbD 0 then s.clearLatch else s)
  else if off = 0x00100028 then ok (s.waveCmd n)
  else if off = 0x00100040 then ok (if v.getLsbD 0 then s.clearPeak else s)
  else if off = 0x00000100 then ok (s.resetCmd n)
  else if off = 0x00000118 then ok (if v.getLsbD 0 then s.kick else s)
  else if off = 0x00300000 then ok (s.flsKeyWrite v)
  else if off = 0x00300008 then ok (s.flsCmdWrite v)
  else if off = 0x00300010 then ok (s.flsAddrWrite v)
  else if off = 0x00300018 then ok (s.flsArgWrite v)
  else ok (s.arrayWrite off v)

/-- REGISTER_WRITE (R16, R33): one store of a program, which the checks of R649 let through or refuse; the validity of a lane map is a
matter of the COMMIT that stores it whole (R176). No control register changes while the Belvedere is down (R49). -/
def execRegisterWrite (off : BitVec 32) (v : Word) (s : State) : Host.Outcome State Fault Refusal :=
  .next (if s.imageRuns ∧ off.toNat % 8 = 0 ∧ s.storesOk [(off.toNat, v)] then (s.regStore 0 off.toNat v).1 else s)

end Sys2Proof.Machine
end

