-- ==== Sys2Proof/Machine/AeloCommit.lean ====
section
/-! DEFINITION. COMMIT (R268, R269): a task's staged bytes become one DATA record, and a program of the Belvedere has its staged
stores applied (R317, R318, R649). -/

namespace Sys2Proof.Machine

/-! ## Tasks on the Kiosks -/

/-- The staged bytes of a task exceed what one record may hold (R103). -/
def commitTooLarge (x : CtxSt) : Bool := decide (1048576 < x.staged.length) || decide (8192 < (stagedSegs x.staged).length)

/-- COMMIT on a Kiosk (R47, R254, R268): nothing staged ends the task with OK where its read set still holds; otherwise the record is
formed and the context waits for its outcome. -/
def State.commitTask (s : State) (c : Ctx) (x : CtxSt) (t : Task) (result : Word) : State :=
  if x.staged = [] then (if s.readSetOk x.readSet then s.endTask c.val .ok 0 result.toNat else s.endTask c.val .conflict 0 0)
  else if commitTooLarge x then s.endTask c.val .limit 0 0
  else if (stagedSegs x.staged).any fun g => !s.homeHere (extOf g.tile) then s.endTask c.val .conflict 0 0
  else
    let s := match AMap.find? s.tst.ops x.tag with
      | some o => s.setOp x.tag { o with kind := .task t result }
      | none => s
    let (id, s) := s.formRec { id := 0, body := .data (stagedSegs x.staged), mirror := true, tenant := t.tenant, origin := 3
                               owner := .ops [x.tag], readSet := x.readSet }
    s.setCtx c.val { x with wait := .commit id }

/-! ## Programs of the Belvedere -/

/-- Applies staged stores in program order, with the first status of a pair command that was refused. -/
def State.applyStores (s : State) (who : Nat) (l : List (Nat × Word)) : Stored :=
  l.foldl (fun (p : Stored) q =>
    let (s, e) := p.1.regStore who q.1 q.2
    (s, if p.2 = .ok then e else p.2)) (s, .ok)

/-- A record of a program stands before its outcome (R649). -/
def State.awaits (s : State) (who : Nat) : Bool := s.jnl.formed.any fun r => r.owner == .mgmt who

/-- COMMIT of a program of the Belvedere (R317, R649): refused stores leave none applied. The program is over before its stores are
applied, so that a restart among them finds it committed (R318). -/
def State.commitStores (s : State) (t : Task) : State :=
  let l := s.ksk.stores
  if !(s.storesOk l && s.mapsOk l) then s.belvEnd .malformed
  else
    let src := s.ksk.mgmtSrc
    let s := (s.endPlan (.ctx 4096)).setCtx 4096 {}
    let s := { s with ksk := { s.ksk with stores := [], mgmtSrc := none, mgmtWait := (src.map fun m => (t, m)).orElse fun _ => s.ksk.mgmtWait } }
    let (s, st) := s.applyStores t.num l
    if src.isNone then (if s.fget R.SUP_BOOT_STAT.STATE = 1 then s.fset R.SUP_BOOT_STAT.STATE 2 else s)
    else if st ≠ .ok then s.mgmtOutcome t.num st
    else if s.awaits t.num then s
    else s.mgmtOutcome t.num .ok

/-- COMMIT (R268): result word a[A]; D and B are 0. -/
def execCommit (c : Ctx) (gp : BitVec 3) (d a b : BitVec 5) (s : State) : Host.Outcome State Fault Refusal :=
  .next (s.issue c gp (d != 0 || b != 0) fun x =>
    match x.task with
    | some t => if c.val = 4096 then s.commitStores t else s.commitTask c x t (x.ra a)
    | none => s)

end Sys2Proof.Machine
end

