-- ==== Sys2Proof/Machine/AeloInt.lean ====
section
/-! DEFINITION. Aelo's integer, compare, predicate, special-register and branch instructions (R244, R257, R259). -/

namespace Sys2Proof.Machine

/-- Leading zeros of a word; 64 for 0. -/
def clz (a : Word) : Nat := ((List.range 64).find? fun i => a.getMsbD i).getD 64
/-- Ones of a word. -/
def popc (a : Word) : Nat := ((List.range 64).filter fun i => a.getLsbD i).length

/-- The ALU operations of MAJ 0x01 by FN, none where FN is unassigned (R259). -/
def aluResult (fn : BitVec 8) (a b : Word) : Option Word :=
  let sh := b.toNat % 64
  match fn.toNat with
  | 0x00 => some (a + b)
  | 0x01 => some (a - b)
  | 0x02 => some (a &&& b)
  | 0x03 => some (a ||| b)
  | 0x04 => some (a ^^^ b)
  | 0x05 => some (a &&& ~~~b)
  | 0x06 => some (a <<< sh)
  | 0x07 => some (a >>> sh)
  | 0x08 => some (a.sshiftRight sh)
  | 0x09 => some (a.rotateRight sh)
  | 0x0A => some (if a.ult b then a else b)
  | 0x0B => some (if a.ult b then b else a)
  | 0x0C => some (if a.slt b then a else b)
  | 0x0D => some (if a.slt b then b else a)
  | 0x10 => some ((a.setWidth 8).signExtend 64)
  | 0x11 => some ((a.setWidth 16).signExtend 64)
  | 0x12 => some ((a.setWidth 32).signExtend 64)
  | 0x13 => some (BitVec.ofNat 64 (clz a))
  | 0x14 => some (BitVec.ofNat 64 (popc a))
  | 0x15 => some (BitVec.ofNat 64 (leNat (natBe 8 a.toNat)))
  | 0x20 => some (a * b)
  | 0x21 => some (BitVec.ofNat 64 (a.toNat * b.toNat / 2 ^ 64))
  | 0x22 => some (BitVec.ofInt 64 (a.toInt * b.toInt / 2 ^ 64))
  | 0x23 => some (if b = 0 then -1 else a / b)
  | 0x24 => some (if b = 0 then a else a % b)
  | 0x25 => some (if b = 0 then -1 else a.sdiv b)
  | 0x26 => some (if b = 0 then a else a.srem b)
  | _ => none

/-- The FN values that take one operand and want B to be 0 (R259). -/
def aluUnary (fn : BitVec 8) : Bool := 0x10 ≤ fn.toNat && fn.toNat ≤ 0x15

/-- ALU_OP (R259): a[D] := a[A] op a[B], by FN. -/
def execAluOp (c : Ctx) (gp : BitVec 3) (d a b : BitVec 5) (fn : BitVec 8) (s : State) : Host.Outcome State Fault Refusal :=
  .next (s.issue c gp ((aluResult fn 0 0).isNone || (aluUnary fn && b != 0)) fun x =>
    s.advance c (x.wa d ((aluResult fn (x.ra a) (x.ra b)).getD 0)))

/-- ADDI (R257): a[D] := a[A] + sext(IMM13). -/
def execAddi (c : Ctx) (gp : BitVec 3) (d a : BitVec 5) (imm : BitVec 13) (s : State) : Host.Outcome State Fault Refusal :=
  .next (s.issue c gp false fun x => s.advance c (x.wa d (x.ra a + imm.signExtend 64)))

/-- ANDI, ORI, XORI (R257), the immediate sign-extended (R255: IMM13 is signed). -/
def execAndiOriXori (c : Ctx) (op : LogicOp) (gp : BitVec 3) (d a : BitVec 5) (imm : BitVec 13) (s : State) :
    Host.Outcome State Fault Refusal :=
  .next (s.issue c gp false fun x =>
    let i : Word := imm.signExtend 64
    s.advance c (x.wa d (match op with | .and => x.ra a &&& i | .or => x.ra a ||| i | .xor => x.ra a ^^^ i)))

/-- SHI (R257): IMM13[12:11] selects SLL, SRL, SRA or ROR, [10:6] are 0, [5:0] is the amount. -/
def execShi (c : Ctx) (gp : BitVec 3) (d a : BitVec 5) (imm : BitVec 13) (s : State) : Host.Outcome State Fault Refusal :=
  .next (s.issue c gp (imm.extractLsb' 6 5 != 0) fun x =>
    let n := (imm.extractLsb' 0 6).toNat
    s.advance c (x.wa d (match (imm.extractLsb' 11 2).toNat with
      | 0 => x.ra a <<< n
      | 1 => x.ra a >>> n
      | 2 => (x.ra a).sshiftRight n
      | _ => (x.ra a).rotateRight n)))

/-- LI (R257): a[D] := sext(IMM18). -/
def execLi (c : Ctx) (gp : BitVec 3) (d : BitVec 5) (imm : BitVec 18) (s : State) : Host.Outcome State Fault Refusal :=
  .next (s.issue c gp false fun x => s.advance c (x.wa d (imm.signExtend 64)))

/-- LIS (R257): a[D] := (a[D] << 16) or IMM18[15:0]; IMM18[17:16] are 0. -/
def execLis (c : Ctx) (gp : BitVec 3) (d : BitVec 5) (imm : BitVec 18) (s : State) : Host.Outcome State Fault Refusal :=
  .next (s.issue c gp (imm.extractLsb' 16 2 != 0) fun x =>
    s.advance c (x.wa d ((x.ra d <<< 16) ||| (imm.extractLsb' 0 16).setWidth 64)))

/-- CMP (R259): p[D[2:0]] := a[A] compared with a[B], by FN. -/
def execCmp (c : Ctx) (gp : BitVec 3) (d a b : BitVec 5) (fn : BitVec 8) (s : State) : Host.Outcome State Fault Refusal :=
  .next (s.issue c gp ((cmpResult fn 0 0).isNone || !pOk d) fun x =>
    s.advance c (x.wp (d.toNat % 8) ((cmpResult fn (x.ra a) (x.ra b)).getD false)))

/-- CMPI (R257): p[D[2:0]] := a[A] compared with sext(IMM13) under the condition in D[4:3]. -/
def execCmpi (c : Ctx) (gp : BitVec 3) (d a : BitVec 5) (imm : BitVec 13) (s : State) : Host.Outcome State Fault Refusal :=
  .next (s.issue c gp false fun x =>
    s.advance c (x.wp (d.toNat % 8) (cmpiResult (d.toNat / 8) (x.ra a) (imm.signExtend 64))))

/-- Fields of the predicate operations: PAND to PANDN name three p registers, PTOA and ATOP one with B 0 (R256, R259). -/
def predBad (d a b : BitVec 5) (fn : BitVec 8) : Bool :=
  if fn.toNat < 4 then !pOk d || !pOk a || !pOk b
  else if fn.toNat = 4 then !pOk a || b != 0
  else if fn.toNat = 5 then !pOk d || b != 0
  else true

/-- PREDICATE_OP (R259). -/
def execPredicateOp (c : Ctx) (gp : BitVec 3) (d a b : BitVec 5) (fn : BitVec 8) (s : State) : Host.Outcome State Fault Refusal :=
  .next (s.issue c gp (predBad d a b fn) fun x =>
    s.advance c (
      if fn.toNat = 4 then x.wa d (BitVec.ofNat 64 (x.rp (a.toNat % 8)).toNat)
      else if fn.toNat = 5 then x.wp (d.toNat % 8) (x.ra a != 0)
      else x.wp (d.toNat % 8) (predResult fn.toNat (x.rp (a.toNat % 8)) (x.rp (b.toNat % 8)))))

/-- Special registers that have a value on a Kiosk alone: on the Belvedere the manual gives them none (log entry 35). -/
def kioskOnly (n : Nat) : Bool := [0x002, 0x003, 0x005, 0x006, 0x007, 0x008, 0x00C].contains n

/-- A special register (R244). -/
def State.sprRead (s : State) (c : Ctx) (x : CtxSt) (t : Task) (n : Nat) : Nat :=
  match n with
  | 0x000 => t.num
  | 0x001 => t.tenant.toNat
  | 0x002 => t.queue
  | 0x003 => c.val
  | 0x004 => match t.parent with | some (p, _) => p | none => 0
  | 0x005 => x.insnLeft
  | 0x006 => x.tilesLeft
  | 0x007 => x.endNs - s.timeNs
  | 0x008 => x.lsSize
  | 0x009 => x.staged.length
  | 0x00A => (stagedSegs x.staged).length
  | 0x00B => s.timeNs
  | 0x00C => s.fget (R.KSK_PACE.PACE (c.val / 256))
  | 0x00D => if 3 ≤ s.prmState ∧ s.prmState ≤ 6 then 1 else 0
  | _ => 0

/-- SPR (R244): a[D] := special register IMM13; A 0. -/
def execSpr (c : Ctx) (gp : BitVec 3) (d a : BitVec 5) (imm : BitVec 13) (s : State) : Host.Outcome State Fault Refusal :=
  .next (s.issue c gp (a != 0) fun x =>
    match x.task with
    | none => s
    | some t =>
      if c.val = 4096 ∧ kioskOnly imm.toNat then
        let (w, s) := s.drawWord
        s.advance c (x.wa d w)
      else s.advance c (x.wa d (BitVec.ofNat 64 (s.sprRead c x t imm.toNat))))

/-- Where a J-format branch leads: pc + 4 × OFF23. -/
def branchTo (x : CtxSt) (off : BitVec 23) : Word := x.pc + 4 * off.signExtend 64

/-- BR (R257): taken where the guard reads 1 (R243). -/
def execBr (c : Ctx) (gp : BitVec 3) (off : BitVec 23) (s : State) : Host.Outcome State Fault Refusal :=
  .next (s.issueAny c false fun x => if x.rp gp.toNat then s.jump c x (branchTo x off) else s.advance c x)

/-- BRN (R257): taken where the guard reads 0 (R243). -/
def execBrn (c : Ctx) (gp : BitVec 3) (off : BitVec 23) (s : State) : Host.Outcome State Fault Refusal :=
  .next (s.issueAny c false fun x => if x.rp gp.toNat then s.advance c x else s.jump c x (branchTo x off))

/-- CALL (R257): a31 := pc + 4; pc := pc + 4 × OFF23. -/
def execCall (c : Ctx) (gp : BitVec 3) (off : BitVec 23) (s : State) : Host.Outcome State Fault Refusal :=
  .next (s.issue c gp false fun x => s.jump c (x.wa 31 (x.pc + 4)) (branchTo x off))

/-- JR (R257): a[D] := pc + 4; pc := a[A]; ALIGN where a[A][1:0] is not 0. B and FN are 0. -/
def execJr (c : Ctx) (gp : BitVec 3) (d a b : BitVec 5) (fn : BitVec 8) (s : State) : Host.Outcome State Fault Refusal :=
  .next (s.issue c gp (b != 0 || fn != 0) fun x =>
    if (x.ra a).toNat % 4 ≠ 0 then s.raise c .align
    else s.jump c (x.wa d (x.pc + 4)) (x.ra a))

end Sys2Proof.Machine
end

