-- ==== Sys2Proof/Machine/AeloVec.lean ====
section
/-! DEFINITION. Aelo's vector, field, CRC and Keccak instructions (R260 to R264). -/

namespace Sys2Proof.Machine

/-- The elements of `w` bits of a v register, element 0 first. -/
def lanes (w : Nat) (v : Vec) : List (BitVec w) := (List.range (512 / w)).map fun i => v.extractLsb' (w * i) w
/-- A v register of its elements. -/
def ofLanes {w : Nat} (l : List (BitVec w)) : Vec := l.foldr (fun e acc => (acc <<< w) ||| e.setWidth 512) 0
/-- Works element by element. -/
def mapLanes (w : Nat) (f : BitVec w → BitVec w → BitVec w) (a b : Vec) : Vec := ofLanes (List.zipWith f (lanes w a) (lanes w b))
/-- The 64 bytes of a v register. -/
def vecBytes (v : Vec) : Bytes := natLe 64 v.toNat
/-- A v register of 64 bytes. -/
def bytesVec (b : Bytes) : Vec := BitVec.ofNat 512 (leNat (b.take 64))

/-- Element results of VALU by FN[5:0] (R260), none where unassigned. -/
def valuElem (w : Nat) (op : Nat) (a b : BitVec w) : Option (BitVec w) :=
  match op with
  | 0x00 => some (a + b)
  | 0x01 => some (a - b)
  | 0x02 => some (a &&& b)
  | 0x03 => some (a ||| b)
  | 0x04 => some (a ^^^ b)
  | 0x05 => some (a &&& ~~~b)
  | 0x06 => some (a <<< (b.toNat % w))
  | 0x07 => some (a >>> (b.toNat % w))
  | 0x08 => some (if a.ult b then a else b)
  | 0x09 => some (if a.ult b then b else a)
  | 0x0A => some (if a = b then BitVec.allOnes w else 0)
  | _ => none

/-- Element width of FN[7:6]. -/
def elemWidth (fn : BitVec 8) : Nat := 8 * 2 ^ (fn.toNat / 64)

/-- VALU (R260). -/
def execValu (c : Ctx) (gp : BitVec 3) (d a b : BitVec 5) (fn : BitVec 8) (s : State) : Host.Outcome State Fault Refusal :=
  let w := elemWidth fn
  let op := fn.toNat % 64
  .next (s.issue c gp (!vOk d || !vOk a || !vOk b || 0x0B ≤ op) fun x =>
    s.advance c (x.wv d (mapLanes w (fun p q => (valuElem w op p q).getD 0) (x.rv a) (x.rv b))))

/-- Fields of the moves (R256, R261). -/
def moveBad (d a b : BitVec 5) (fn : BitVec 8) : Bool :=
  match fn.toNat with
  | 0 => !vOk d || 8 ≤ b.toNat
  | 1 => !vOk a || 8 ≤ b.toNat
  | 2 | 3 => !vOk d || b != 0
  | 4 => !pOk d || !vOk a || b != 0
  | _ => true

/-- VECTOR_MOVE (R261): VINS, VEXT, VBC64, VBC8, VTEST. -/
def execVectorMove (c : Ctx) (gp : BitVec 3) (d a b : BitVec 5) (fn : BitVec 8) (s : State) : Host.Outcome State Fault Refusal :=
  .next (s.issue c gp (moveBad d a b fn) fun x =>
    s.advance c (match fn.toNat with
      | 0 => x.wv d (ofLanes ((lanes 64 (x.rv d)).set (b.toNat % 8) (x.ra a)))
      | 1 => x.wa d ((lanes 64 (x.rv a)).getD (b.toNat % 8) 0)
      | 2 => x.wv d (ofLanes (List.replicate 8 (x.ra a)))
      | 3 => x.wv d (ofLanes (List.replicate 64 ((x.ra a).setWidth 8)))
      | _ => x.wp (d.toNat % 8) (x.rv a != 0)))

/-- Fields of the field operations: VGFMACS takes an a register in B (R256, R262). -/
def fieldBad (d a b : BitVec 5) (fn : BitVec 8) : Bool :=
  !vOk d || !vOk a || 5 ≤ fn.toNat || (fn.toNat != 2 && !vOk b)

/-- FIELD_OP (R262). -/
def execFieldOp (c : Ctx) (gp : BitVec 3) (d a b : BitVec 5) (fn : BitVec 8) (s : State) : Host.Outcome State Fault Refusal :=
  .next (s.issue c gp (fieldBad d a b fn) fun x =>
    let va := x.rv a
    s.advance c (x.wv d (match fn.toNat with
      | 0 => mapLanes 8 gf8 va (x.rv b)
      | 1 => x.rv d ^^^ mapLanes 8 gf8 va (x.rv b)
      | 2 => x.rv d ^^^ ofLanes ((lanes 8 va).map fun e => gf8 e ((x.ra b).setWidth 8))
      | 3 => mapLanes 64 (fun p q => BitVec.ofNat 64 (clmul p.toNat q.toNat)) va (x.rv b)
      | _ => mapLanes 64 (fun p q => BitVec.ofNat 64 (clmul p.toNat q.toNat / 2 ^ 64)) va (x.rv b))))

/-- CRC_OP (R263): a running value, without initial value or inversion. -/
def crcResult (fn : Nat) (bytes : Bytes) (start : Word) : Word :=
  if fn % 2 = 0 then crc64 start bytes else (crc32 (start.setWidth 32) bytes).setWidth 64

/-- CRC_OP (R263). -/
def execCrcOp (c : Ctx) (gp : BitVec 3) (d a b : BitVec 5) (fn : BitVec 8) (s : State) : Host.Outcome State Fault Refusal :=
  .next (s.issue c gp (6 ≤ fn.toNat || (fn.toNat < 2 && !vOk a)) fun x =>
    let bytes := if fn.toNat < 2 then vecBytes (x.rv a)
      else if fn.toNat < 4 then natLe 8 (x.ra a).toNat else natLe 1 (x.ra a).toNat
    s.advance c (x.wa d (crcResult fn.toNat bytes (x.ra b))))

/-- KECCAK (R264): one round on the 25 lanes of v[D] to v[D+3]; D is 0, 4, 8 or 12 (log entry 36). -/
def execKeccak (c : Ctx) (gp : BitVec 3) (d a b : BitVec 5) (fn : BitVec 8) (s : State) : Host.Outcome State Fault Refusal :=
  .next (s.issue c gp (!vOk d || d.toNat % 4 != 0 || a != 0 || b != 0 || 24 ≤ fn.toNat) fun x =>
    let all := ((List.range 4).map fun i => lanes 64 (x.rv (d + BitVec.ofNat 5 i))).flatten
    let new := keccakRound fn.toNat (all.take 25) ++ all.drop 25
    s.advance c ((List.range 4).foldl (fun x i =>
      x.wv (d + BitVec.ofNat 5 i) (ofLanes ((new.drop (8 * i)).take 8))) x))

end Sys2Proof.Machine
end

