-- ==== Sys2Proof/Machine/AeloMem.lean ====
section
/-! DEFINITION. Aelo's loads and stores (R245 to R254, R257, R258, R316, R317, R648). -/

namespace Sys2Proof.Machine

/-- The address of an I-format access: a[A] plus `k` times the immediate. -/
def memAddr (x : CtxSt) (a : BitVec 5) (k : Nat) (imm : BitVec 13) : Word := x.ra a + BitVec.ofNat 64 k * imm.signExtend 64

/-- LD8, LD16, LD32, LD64 (R251, R257): a[D] := zero-extended load at a[A] + sext(IMM13). -/
def execLd (c : Ctx) (sz : Size) (gp : BitVec 3) (d a : BitVec 5) (imm : BitVec 13) (s : State) : Host.Outcome State Fault Refusal :=
  .next (s.issue c gp false fun x =>
    match s.readAt c x (memAddr x a 1 imm) sz.bytes sz.bytes with
    | (some (x, b), s) => s.advance c (x.wa d (BitVec.ofNat 64 (leNat b)))
    | (none, s) => s)

/-- ST8, ST16, ST32, ST64 (R252, R257): the low bytes of a[D] at a[A] + sext(IMM13). -/
def execSt (c : Ctx) (sz : Size) (gp : BitVec 3) (d a : BitVec 5) (imm : BitVec 13) (s : State) : Host.Outcome State Fault Refusal :=
  .next (s.issue c gp false fun x =>
    match s.writeAt c x (memAddr x a 1 imm) sz.bytes (natLe sz.bytes (x.ra d).toNat) with
    | (some x, s) => s.advance c x
    | (none, s) => s)

/-- VLD (R257): v[D] := 64 bytes at a[A] + 64 × sext(IMM13). -/
def execVld (c : Ctx) (gp : BitVec 3) (d a : BitVec 5) (imm : BitVec 13) (s : State) : Host.Outcome State Fault Refusal :=
  .next (s.issue c gp (!vOk d) fun x =>
    match s.readAt c x (memAddr x a 64 imm) 64 64 with
    | (some (x, b), s) => s.advance c (x.wv d (bytesVec b))
    | (none, s) => s)

/-- VST (R252, R257): the 64 bytes of v[D] at a[A] + 64 × sext(IMM13). -/
def execVst (c : Ctx) (gp : BitVec 3) (d a : BitVec 5) (imm : BitVec 13) (s : State) : Host.Outcome State Fault Refusal :=
  .next (s.issue c gp (!vOk d) fun x =>
    match s.writeAt c x (memAddr x a 64 imm) 64 (vecBytes (x.rv d)) with
    | (some x, s) => s.advance c x
    | (none, s) => s)

end Sys2Proof.Machine
end

