-- ==== Sys2Proof/Machine/AeloWin.lean ====
section
/-! DEFINITION. Aelo's window, walk-plan and journal instructions but COMMIT (R247, R248, R265 to R267). -/

namespace Sys2Proof.Machine

/-- TMAP and TMAPR (R247): ALIGN, RANGE, ACCESS, else the mapping. -/
def State.mapTiles (s : State) (c : Ctx) (x : CtxSt) (w : Nat) (dpa count : Nat) (ro : Bool) : State :=
  let e := s.extent (dpa / 2 ^ 30)
  if dpa % 4096 ≠ 0 then s.raise c .align
  else if count = 0 ∨ 262144 < count ∨ 2 ^ 49 ≤ dpa ∨ 2 ^ 30 < dpa % 2 ^ 30 + count * 4096 then s.raise c .range
  else if e.state ≠ .assigned ∨ (x.task.any fun t => t.tenant != e.owner) then s.raise c .access
  else s.advance c { x with wins := AMap.put x.wins w (.dpa dpa count ro) }

/-- TMAP (R247, R265): a read-write window. -/
def execTmap (c : Ctx) (gp : BitVec 3) (d a b : BitVec 5) (s : State) : Host.Outcome State Fault Refusal :=
  .next (s.issue c gp (!pOk d) fun x => s.mapTiles c x d.toNat (x.ra a).toNat (x.ra b).toNat false)

/-- TMAPR (R265): a read-only window. -/
def execTmapr (c : Ctx) (gp : BitVec 3) (d a b : BitVec 5) (s : State) : Host.Outcome State Fault Refusal :=
  .next (s.issue c gp (!pOk d) fun x => s.mapTiles c x d.toNat (x.ra a).toNat (x.ra b).toNat true)

/-- TMAPS (R248): a window onto owned scratchpad blocks; a base that is not a multiple of 1 MiB raises ALIGN (log entry 37). -/
def execTmaps (c : Ctx) (gp : BitVec 3) (d a b : BitVec 5) (s : State) : Host.Outcome State Fault Refusal :=
  .next (s.issue c gp (!pOk d) fun x =>
    let base := (x.ra a).toNat
    let n := (x.ra b).toNat
    if base % 1048576 ≠ 0 then s.raise c .align
    else if n = 0 ∨ 192 < n ∨ s.fget R.ORG_WAYMODE.SCRATCH_WAYS * 16 < base / 1048576 + n then s.raise c .range
    else if (List.range n).any fun i => !s.ownsBlock x (base / 1048576 + i) then s.raise c .access
    else s.advance c { x with wins := AMap.put x.wins d.toNat (.scratch base n) })

/-- TUNMAP (R265): unmapped; the read set and staging stay (R247). -/
def execTunmap (c : Ctx) (gp : BitVec 3) (d a b : BitVec 5) (s : State) : Host.Outcome State Fault Refusal :=
  .next (s.issue c gp (!pOk d || a != 0 || b != 0) fun x => s.advance c { x with wins := AMap.del x.wins d.toNat })

/-- WALK (R266): reads header and entries, and declares the plan; a[D] := OK or MALFORMED. -/
def execWalk (c : Ctx) (gp : BitVec 3) (d a _b : BitVec 5) (s : State) : Host.Outcome State Fault Refusal :=
  .next (s.issue c gp false fun x =>
    match s.readAt c x (x.ra a) 32 1 with
    | (none, s) => s
    | (some (x, h), s) =>
      let n := fieldAt h 4 2
      let good := 1 ≤ n ∧ n ≤ 4096
      match (if good then s.readAt c x (x.ra a + 32) (16 * n) 1 else (some (x, []), s)) with
      | (none, s) => s
      | (some (x, e), s) =>
        match (if good then parsePlan (h ++ e) x.tenant s.timeNs else none) with
        | some p => (s.declarePlan (.ctx c) p).advance c (x.wa d 0)
        | none => s.advance c (x.wa d (BitVec.ofNat 64 Status.malformed.code)))

/-- WCANCEL (R265): the context's plan ends. -/
def execWcancel (c : Ctx) (gp : BitVec 3) (d a b : BitVec 5) (s : State) : Host.Outcome State Fault Refusal :=
  .next (s.issue c gp (d != 0 || a != 0 || b != 0) fun x => (s.endPlan (.ctx c)).advance c x)

/-- What JSTG raises before it touches a byte: both addresses in the order of R648, and then a count out of range (R267; log entry 38). -/
def State.jstgCheck (s : State) (c : Ctx) (x : CtxSt) (n : Nat) (src dst : Word) : Option Cause :=
  match s.locate c x src n 1 false, s.locate c x dst n 1 true with
  | .error e, _ | .ok _, .error e => some e
  | .ok _, .ok _ => if n = 0 ∨ 65536 < n then some .range else none

/-- JSTG (R267): stages 1 to 65,536 bytes as stores of them would; the source is taken as it was before. A length out of range
raises RANGE (log entry 38). -/
def execJstg (c : Ctx) (gp : BitVec 3) (d a b : BitVec 5) (s : State) : Host.Outcome State Fault Refusal :=
  .next (s.issue c gp false fun x =>
    let n := (x.ra b).toNat
    match s.jstgCheck c x n (x.ra a) (x.ra d) with
    | some k => s.raise c k
    | none => match s.readAt c x (x.ra a) n 1 with
      | (none, s) => s
      | (some (x, bytes), s) =>
        match s.writeAt c x (x.ra d) 1 bytes with
        | (some x, s) => s.advance c x
        | (none, s) => s)

/-- JDROP (R267): staged bytes go, the read set and the touched tiles stay. On the Belvedere the staged stores go (R317). -/
def execJdrop (c : Ctx) (gp : BitVec 3) (d a b : BitVec 5) (s : State) : Host.Outcome State Fault Refusal :=
  .next (s.issue c gp (d != 0 || a != 0 || b != 0) fun x =>
    let s := s.stageBack x
    let s := if c.val = 4096 then { s with ksk := { s.ksk with stores := [] } } else s
    s.advance c { x with staged := [] })

/-- JFENCE (R114, R267): captures the current JSN; FENCE_COMPLETE ends the wait. -/
def execJfence (c : Ctx) (gp : BitVec 3) (d a b : BitVec 5) (s : State) : Host.Outcome State Fault Refusal :=
  .next (s.issue c gp (a != 0 || b != 0) fun x =>
    let id := s.jnl.nextId
    let f : Fence := ⟨id, s.fget R.JNL_JSN.JSN, .task c.val d.toNat⟩
    let s := { s with jnl := { s.jnl with nextId := id + 1, fences := s.jnl.fences ++ [f] } }
    s.setCtx c.val { x with wait := .fence id })

end Sys2Proof.Machine
end

