-- ==== Sys2Proof/Machine/Jtag.lean ====
section
/-! DEFINITION. The JTAG port: its instructions and the conditions under which they are accepted (R644), the boundary register
(R645), flash recovery (R584) and the debug token (R646). -/

namespace Sys2Proof.Machine

/-- The low `n` bits, bit 0 first. -/
def bitList (n v : Nat) : List Bool := (List.range n).map v.testBit

/-- The IDCODE register (R645). -/
def idcodeBits : List Bool := bitList 32 ((Config.stepMinor.toNat % 16) * 2 ^ 28 + 0x9640 * 2 ^ 12 + 0x4B7 * 2 + 1)

/-- IDCODE (R645). -/
def execIdcode (s : State) : Host.Outcome State Fault Refusal := .next (s.loadTap .idcode idcodeBits)

/-- BYPASS (R644). -/
def execBypass (s : State) : Host.Outcome State Fault Refusal := .next (s.loadTap .bypass [false])

/-- What a pin's cell samples, for the pins whose levels the state holds (R645). -/
def State.pinLevel (s : State) (cell : Nat) : Option Bool :=
  match cell with
  | 12 => some (!s.flag R.PWR_STAT.WARN)
  | 18 => some (!s.sup.sysRst)
  | 22 => some s.pins.serving
  | 28 => some s.pins.twinAliveOut
  | 36 => some (!s.cxl.perst.getLsbD 0)
  | 39 => some (!s.cxl.perst.getLsbD 1)
  | _ => none

/-- SAMPLE/PRELOAD (R644): the pins are captured, levels outside the state as free values, and the cells are preloaded. -/
def execSamplePreload (cells : List Bool) (s : State) : Host.Outcome State Fault Refusal :=
  .next (let (b, t) := s.drawBytes 554
    let got := b.zipIdx.map fun p => (s.pinLevel p.2).getD (p.1.getLsbD 0)
    let t := t.loadTap .sample got
    { t with jtag := { t.jtag with cells := cells } })

/-- SYS_RST_N holds the device in reset after its drain (R644). -/
def State.heldInReset (s : State) : Bool := s.sup.sysRst && s.sup.resetTaken

/-- An instruction that drives pins from the boundary cells, or BYPASS outside its condition. -/
def State.driveTap (s : State) (i : TapInstr) (dr : List Bool) : State :=
  if s.heldInReset then
    let s := s.loadTap i dr
    { s with pins := { serving := s.jtag.cells.getD 22 false, twinAliveOut := s.jtag.cells.getD 28 false, floating := false } }
  else s.loadTap .bypass [false]

/-- EXTEST (R644). -/
def execExtest (s : State) : Host.Outcome State Fault Refusal := .next (s.driveTap .extest s.jtag.cells)

/-- CLAMP (R644). -/
def execClamp (s : State) : Host.Outcome State Fault Refusal := .next (s.driveTap .clamp [false])

/-- HIGHZ (R644). -/
def execHighz (s : State) : Host.Outcome State Fault Refusal :=
  .next (if s.heldInReset then { s.loadTap .highz [false] with pins := { (s.loadTap .highz [false]).pins with floating := true } }
    else s.loadTap .bypass [false])

/-- EXTEST_PULSE (R644). -/
def execExtestPulse (s : State) : Host.Outcome State Fault Refusal := .next (s.driveTap .pulse s.jtag.cells)

/-- EXTEST_TRAIN (R644). -/
def execExtestTrain (s : State) : Host.Outcome State Fault Refusal := .next (s.driveTap .train s.jtag.cells)

/-- A flash command of FLS_RECOVER: image slots alone, READ of the commit log beside them (R584). -/
def State.recover (s : State) (op : RecoverOp) : State :=
  let slot := fun (a : Nat) => let k := a / 65536 % 2048; decide (64 ≤ k ∧ k < 576)
  match op with
  | .program n a => if slot a.toNat then s.flsCommand 1 n.toNat a.toNat 0 [] else s.flsSay .prot
  | .erase a => if slot a.toNat then s.flsCommand 2 0 a.toNat 0 [] else s.flsSay .prot
  | .read n a => if slot a.toNat ∨ a.toNat / 65536 % 2048 < 2 then s.flsCommand 3 n.toNat a.toNat 0 [] else s.flsSay .prot
  | .writeCommit v => s.flsCommand 6 0 0 v []
  | .buf i v => s.fset (R.FLS_BUF.DATA i.val) v.toNat

/-- FLS_RECOVER (R584). -/
def execFlsRecover (op : RecoverOp) (s : State) : Host.Outcome State Fault Refusal :=
  .next (if s.fget R.SUP_BOOT_STAT.STATE = 3 then (s.loadTap .flsRecover []).recover op else s.loadTap .bypass [false])

/-- DBG_UNLOCK (R646). Without a token it shifts out a fresh challenge, a free value; with one it checks the device's hash, the
challenge, and both signatures, whose verdicts the command brings. -/
def execDbgUnlock (token : Bytes) (sigMldsaOk sigEcdsaOk : Bool) (s : State) : Host.Outcome State Fault Refusal :=
  .next (if !s.heldInReset then s.loadTap .bypass [false]
    else if token = [] then
      let (c, s) := s.drawBytes 32
      let s := s.loadTap .dbgUnlock (bitList 256 (leNat c))
      { s with jtag := { s.jtag with challenge := c } }
    else
      let good := sigMldsaOk && sigEcdsaOk && s.jtag.challenge != [] && slice token 0 48 == natLe 48 Config.deviceIdHash.toNat
        && slice token 48 32 == s.jtag.challenge
      let s := s.loadTap .dbgUnlock []
      { s with jtag := { s.jtag with unlockNext := s.jtag.unlockNext || good, challenge := [] } })

/-- TRST (R537, R646): the JTAG island alone; a verified token stays in force. -/
def execTrst (s : State) : Host.Outcome State Fault Refusal :=
  .next (let s := s.loadTap .idcode idcodeBits
    { s with jtag := { s.jtag with cells := [], challenge := [] } })

end Sys2Proof.Machine
end

