-- ==== Sys2Proof/Machine/TwoWire.lean ====
section
/-! DEFINITION. The two-wire buses: MGMTBUS as target (R593 to R595), the MCTP endpoint and its sessions (R597 to R599), timeouts and
recovery (R602 to R604). -/

namespace Sys2Proof.Machine

/-! ## MGMTBUS as target (R593 to R595) -/

/-- The MGMTBUS controller answers: power-on reset is over and its island's clock runs. -/
def State.busUp (s : State) : Bool := !s.pwr.por && s.fget (R.SUP_ISL_STAT.STATE 48) == 1

/-- A byte is NACKed; `pec` for a PEC byte that fails (R593, R595). -/
def State.busNack (s : State) (pec : Bool) : State :=
  let s := if pec then s.sat (R.TWB_CNT0.PEC_ERR 1) else s
  (s.sat (R.TWB_CNT0.NACKS 1)).emit .mgmtNack

/-- A packet reaches the target at its address: checked here; what the message asks for has rows of its own (R593, R597). -/
def State.hearMctp (s : State) (p : MctpPacket) : State :=
  if p.addr.toNat ≠ s.fget (R.TWB_CFG.TARGET_ADDR 1) then s
  else if !p.formOk then s.busNack false
  else if !p.pecOk then s.busNack true
  else s

/-- The device loses the arbitration between its own packet to `dst` and another's, bit by bit from the first address bit: the one that sends
the first 1 against a 0 (R590). -/
def arbWon (p : MctpPacket) (dst : BitVec 7) : Bool := p.addr.toNat < dst.toNat || (p.addr == dst && p.losesLater)

/-- The device has lost MGMTBUS to another controller: it serves the transfer if that names it, and sends its own again after the STOP (R590,
R591). -/
def State.arbLost (s : State) (p : MctpPacket) : State :=
  let s := s.sat (R.TWB_CNT0.ARB_LOST 1)
  let s := if p.addr.toNat = s.fget (R.TWB_CFG.TARGET_ADDR 1) then (s.sat (R.TWB_CNT1.ROLE_SWITCHES 1)).hearMctp p else s
  s.flushMctp

/-- MCTP_PACKET (R590, R591, R593, R597): with a packet of the device's own begun at the same instant, the bus is arbitrated first; a sender
that loses repeats its packet of itself (log entry 141). -/
def execMctpPacket (p : MctpPacket) (s : State) : Host.Outcome State Fault Refusal :=
  .next (if !s.busUp then s
    else match (if p.atOnce then s.twb.txq.head? else none) with
      | some m => if arbWon p m.1 then s.arbLost p else s.flushMctp
      | none => s.hearMctp p)

/-- Offsets that MGMTBUS may read: SUP, PWR, TWB and the global status page (R34, R594). -/
def mgmtReadable (off : Nat) : Bool := decide (off < 0x300000 ∨ (0x3000000 ≤ off ∧ off < 0x3001000))

/-- MGMT_REGISTER_READ (R594). -/
def execMgmtRegisterRead (off : BitVec 32) (pecOk : Bool) (s : State) : Host.Outcome State Fault Refusal :=
  .next (if !s.busUp then s
    else if !pecOk then s.busNack true
    else if off.toNat % 8 ≠ 0 ∨ 0x04000000 ≤ off.toNat then s.emit (.mgmtRead 0x0E 0)
    else if mgmtReadable off.toNat then s.emit (.mgmtRead 0 (s.regRead off.toNat))
    else s.emit (.mgmtRead 0x04 0))

/-- MGMT_CLEAR_LATCH (R593, R595). -/
def execMgmtClearLatch (data : Byte) (pecOk : Bool) (s : State) : Host.Outcome State Fault Refusal :=
  .next (if !s.busUp then s else if data ≠ 0x5A then s.busNack false else if !pecOk then s.busNack true else s.clearLatch)

/-! ## MCTP control (R597) -/

/-- A control response: message type 0, the command, a completion code and its data (log entry 76). -/
def State.mctpAnswer (s : State) (dst : BitVec 7) (cmd : Byte) (d : Bytes) : State := s.sendMctp dst ([0x00, 0x00, cmd] ++ d)

/-- SET_ENDPOINT_ID. The null and broadcast IDs are no assignment (log entry 76). -/
def execSetEndpointId (src : BitVec 7) (eid : Byte) (s : State) : Host.Outcome State Fault Refusal :=
  .next (if !s.busUp then s
    else if eid = 0 ∨ eid = 0xFF then s.mctpAnswer src 0x01 [0x02]
    else (s.fset R.TWB_MCTP_STAT.EID eid.toNat).mctpAnswer src 0x01 [0x00, 0x00, eid, 0x00])

/-- GET_ENDPOINT_ID. -/
def execGetEndpointId (src : BitVec 7) (s : State) : Host.Outcome State Fault Refusal :=
  .next (if !s.busUp then s else s.mctpAnswer src 0x02 [0x00, BitVec.ofNat 8 (s.fget R.TWB_MCTP_STAT.EID), 0x00, 0x00])

/-- GET_MCTP_VERSION_SUPPORT, for the base specification and the types the endpoint knows; which version it reports is a free value (log
entry 76). -/
def execGetMctpVersionSupport (src : BitVec 7) (typ : Byte) (s : State) : Host.Outcome State Fault Refusal :=
  .next (if !s.busUp then s
    else if ([0xFF, 0x00, 0x05, 0x06] : List Byte).contains typ then
      let (v, s) := s.drawBytes 4
      s.mctpAnswer src 0x04 ([0x00, 0x01] ++ v)
    else s.mctpAnswer src 0x04 [0x80])

/-- GET_MESSAGE_TYPE_SUPPORT: SPDM and secured messages. -/
def execGetMessageTypeSupport (src : BitVec 7) (s : State) : Host.Outcome State Fault Refusal :=
  .next (if !s.busUp then s else s.mctpAnswer src 0x05 [0x00, 0x02, 0x05, 0x06])

/-! ## Sessions (R598) -/

/-- A session slot. -/
def State.session (s : State) (n : Nat) : Option Session := if n = 0 then s.twb.s0 else s.twb.s1

/-- Opens or ends a session; SESSIONS follows. -/
def State.setSession (s : State) (n : Nat) (x : Option Session) : State :=
  let s := { s with twb := if n = 0 then { s.twb with s0 := x } else { s.twb with s1 := x } }
  s.fset R.TWB_MCTP_STAT.SESSIONS (s.twb.s0.isSome.toNat + s.twb.s1.isSome.toNat)

/-- An SPDM session completes in a free slot (R598, R152). -/
def State.openSession (s : State) (both : Bool) (hash : BitVec 384) : State :=
  let ten := s.tenant 0
  let x : Session :=
    { bothAuth := both
      qualifies := both && ten.any fun e => e.enrolled && e.ecdsaHash == hash
      provision := both && s.prmState == 0 && ten.isNone }
  if s.twb.s0.isNone then s.setSession 0 (some x) else if s.twb.s1.isNone then s.setSession 1 (some x) else s

/-- MCTP_SPDM (R421, R597, R598). -/
def execMctpSpdm (src : BitVec 7) (m : SpdmStep) (s : State) : Host.Outcome State Fault Refusal :=
  .next (if !s.busUp ∨ s.fget R.TWB_MCTP_STAT.EID = 0 then s
    else match m with
      | .request _ => s.sendMctp src [0x05]
      | .opened both hash => (s.openSession both hash).sendMctp src [0x05]
      | .closed n => (s.setSession n.val none).sendMctp src [0x05])

/-- MCTP_SECURED_MESSAGE (R598): one management descriptor, in a session that qualifies; else the session ends. A full queue completes it
with NOSPACE (log entry 90). -/
def execMctpSecuredMessage (src : BitVec 7) (session : Fin 2) (desc : Bytes) (s : State) : Host.Outcome State Fault Refusal :=
  .next (if !s.busUp ∨ s.fget R.TWB_MCTP_STAT.EID = 0 then s
    else match s.session session.val with
      | none => s
      | some x =>
        let named := (s.progFlags (descOf desc).prog).all fun f => f.testBit 2
        if !s.sessionOk x ∨ (!x.qualifies ∧ !named) then s.setSession session.val none
        else if 64 ≤ s.ksk.mgmt.length then
          let t := (descOf desc).task s.ksk.mgmtSeq 0 0 none
          ({ s with ksk := { s.ksk with mgmtSeq := s.ksk.mgmtSeq + 1 } }).mgmtDone t (.mctp session.val src) .nospace
        else s.acceptMgmt desc (.mctp session.val src))

/-- MCTP_SEND_TIMEOUT (R599; log entry 5): the message is dropped. -/
def execMctpSendTimeout (s : State) : Host.Outcome State Fault Refusal :=
  .next (match s.twb.txq with
    | _ :: r => ({ s with twb := { s.twb with txq := r } }).sat (R.TWB_CNT1.MCTP_DROP 1)
    | [] => s)

/-! ## Timeouts and recovery (R602 to R604) -/

/-- CLOCK_LOW_TIMEOUT (R602). -/
def execClockLowTimeout (bus : Fin 2) (s : State) : Host.Outcome State Fault Refusal :=
  .next (if s.pwr.por then s
    else (((s.sat (R.TWB_CNT0.TIMEOUTS bus.val)).fset (R.TWB_STAT.STRETCH_TMO bus.val) 1).fset (R.TWB_STAT.ROLE bus.val) 0).emit (.busStop bus.val))

/-- BUS_RECOVERY (R603): SDA reads high after so many clocks, or 0 where it is still low after the ninth. -/
def execBusRecovery (bus : Fin 2) (clocks : Fin 10) (s : State) : Host.Outcome State Fault Refusal :=
  .next (if s.pwr.por ∨ !s.flag (R.TWB_CFG.RECOVER_EN bus.val) then s
    else
      let s := (s.sat (R.TWB_CNT1.RECOVERIES bus.val)).emit (.busClocks bus.val (if clocks = 0 then 9 else clocks.val))
      let s := (s.emit (.busStop bus.val)).fput (R.TWB_STAT.BUS_STUCK bus.val) (clocks == 0)
      if bus = 1 ∧ clocks ≠ 0 then s.flushMctp else s)

end Sys2Proof.Machine
end

