-- ==== Sys2Proof/Machine/Dispatch.lean ====
section
/-! DEFINITION. One arm for each command: its meaning, called once, or a rejection by name. -/

namespace Sys2Proof.Machine

/-- What a command does to everything but the queue. -/
def exec (i : Instr) (s : State) : Host.Outcome State Fault Refusal :=
  match i with
  | .aluOp c gp d a b fn => Sys2Proof.Machine.execAluOp c gp d a b fn s
  | .addi c gp d a imm => Sys2Proof.Machine.execAddi c gp d a imm s
  | .andiOriXori c op gp d a imm => Sys2Proof.Machine.execAndiOriXori c op gp d a imm s
  | .shi c gp d a imm => Sys2Proof.Machine.execShi c gp d a imm s
  | .li c gp d imm => Sys2Proof.Machine.execLi c gp d imm s
  | .lis c gp d imm => Sys2Proof.Machine.execLis c gp d imm s
  | .cmp c gp d a b fn => Sys2Proof.Machine.execCmp c gp d a b fn s
  | .cmpi c gp d a imm => Sys2Proof.Machine.execCmpi c gp d a imm s
  | .predicateOp c gp d a b fn => Sys2Proof.Machine.execPredicateOp c gp d a b fn s
  | .spr c gp d a imm => Sys2Proof.Machine.execSpr c gp d a imm s
  | .br c gp off => Sys2Proof.Machine.execBr c gp off s
  | .brn c gp off => Sys2Proof.Machine.execBrn c gp off s
  | .call c gp off => Sys2Proof.Machine.execCall c gp off s
  | .jr c gp d a b fn => Sys2Proof.Machine.execJr c gp d a b fn s
  | .ld c sz gp d a imm => Sys2Proof.Machine.execLd c sz gp d a imm s
  | .st c sz gp d a imm => Sys2Proof.Machine.execSt c sz gp d a imm s
  | .vld c gp d a imm => Sys2Proof.Machine.execVld c gp d a imm s
  | .vst c gp d a imm => Sys2Proof.Machine.execVst c gp d a imm s
  | .valu c gp d a b fn => Sys2Proof.Machine.execValu c gp d a b fn s
  | .vectorMove c gp d a b fn => Sys2Proof.Machine.execVectorMove c gp d a b fn s
  | .fieldOp c gp d a b fn => Sys2Proof.Machine.execFieldOp c gp d a b fn s
  | .crcOp c gp d a b fn => Sys2Proof.Machine.execCrcOp c gp d a b fn s
  | .keccak c gp d a b fn => Sys2Proof.Machine.execKeccak c gp d a b fn s
  | .tmap c gp d a b => Sys2Proof.Machine.execTmap c gp d a b s
  | .tmapr c gp d a b => Sys2Proof.Machine.execTmapr c gp d a b s
  | .tmaps c gp d a b => Sys2Proof.Machine.execTmaps c gp d a b s
  | .tunmap c gp d a b => Sys2Proof.Machine.execTunmap c gp d a b s
  | .walk c gp d a b => Sys2Proof.Machine.execWalk c gp d a b s
  | .wcancel c gp d a b => Sys2Proof.Machine.execWcancel c gp d a b s
  | .jstg c gp d a b => Sys2Proof.Machine.execJstg c gp d a b s
  | .jdrop c gp d a b => Sys2Proof.Machine.execJdrop c gp d a b s
  | .jfence c gp d a b => Sys2Proof.Machine.execJfence c gp d a b s
  | .commit c gp d a b => Sys2Proof.Machine.execCommit c gp d a b s
  | .cas64 c gp d a b => Sys2Proof.Machine.execCas64 c gp d a b s
  | .cas128 c gp d a b => Sys2Proof.Machine.execCas128 c gp d a b s
  | .fadd64 c gp d a b => Sys2Proof.Machine.execFadd64 c gp d a b s
  | .fadd128 c gp d a b => Sys2Proof.Machine.execFadd128 c gp d a b s
  | .gcmEnc c gp d a b fnHi => Sys2Proof.Machine.execGcmEnc c gp d a b fnHi s
  | .gcmDec c gp d a b fnHi => Sys2Proof.Machine.execGcmDec c gp d a b fnHi s
  | .xtsEnc c gp d a b fnHi => Sys2Proof.Machine.execXtsEnc c gp d a b fnHi s
  | .xtsDec c gp d a b fnHi => Sys2Proof.Machine.execXtsDec c gp d a b fnHi s
  | .cmac c gp d a b fnHi => Sys2Proof.Machine.execCmac c gp d a b fnHi s
  | .gwait c gp d a b => Sys2Proof.Machine.execGwait c gp d a b s
  | .gpoll c gp d a b => Sys2Proof.Machine.execGpoll c gp d a b s
  | .gadd c gp d a b => Sys2Proof.Machine.execGadd c gp d a b s
  | .grecv c gp d a b => Sys2Proof.Machine.execGrecv c gp d a b s
  | .gpost c gp d a b => Sys2Proof.Machine.execGpost c gp d a b s
  | .spawn c gp d a b => Sys2Proof.Machine.execSpawn c gp d a b s
  | .abort c gp d a b => Sys2Proof.Machine.execAbort c gp d a b s
  | .taskWaitEnd c => Sys2Proof.Machine.execTaskWaitEnd c s
  | .insnBudget c => Sys2Proof.Machine.execInsnBudget c s
  | .timeBudget c => Sys2Proof.Machine.execTimeBudget c s
  | .taskStart sq => Sys2Proof.Machine.execTaskStart sq s
  | .childMsgDeliver c => Sys2Proof.Machine.execChildMsgDeliver c s
  | .loadDescriptor p => Sys2Proof.Machine.execLoadDescriptor p s
  | .loadComplete p => Sys2Proof.Machine.execLoadComplete p s
  | .loadOldImageFreed p => Sys2Proof.Machine.execLoadOldImageFreed p s
  | .cancelDescriptor q => Sys2Proof.Machine.execCancelDescriptor q s
  | .programClear p => Sys2Proof.Machine.execProgramClear p s
  | .kioskFence k => Sys2Proof.Machine.execKioskFence k s
  | .kioskRestore k => Sys2Proof.Machine.execKioskRestore k s
  | .queueDisable q => Sys2Proof.Machine.execQueueDisable q s
  | .mgmtTaskStart => Sys2Proof.Machine.execMgmtTaskStart s
  | .recordSubmit w => Sys2Proof.Machine.execRecordSubmit w s
  | .recordSpaceGranted id => Sys2Proof.Machine.execRecordSpaceGranted id s
  | .recordSequencerStep id => Sys2Proof.Machine.execRecordSequencerStep id s
  | .lagAgeBound => Sys2Proof.Machine.execLagAgeBound s
  | .releaseFinish e => Sys2Proof.Machine.execReleaseFinish e s
  | .fenceComplete id => Sys2Proof.Machine.execFenceComplete id s
  | .retirementStart t => Sys2Proof.Machine.execRetirementStart t s
  | .retirementComplete t => Sys2Proof.Machine.execRetirementComplete t s
  | .attrPersistDone => Sys2Proof.Machine.execAttrPersistDone s
  | .rootRecordProgram => Sys2Proof.Machine.execRootRecordProgram s
  | .drainComplete => Sys2Proof.Machine.execDrainComplete s
  | .drainAbandon => Sys2Proof.Machine.execDrainAbandon s
  | .journalRecovery img => Sys2Proof.Machine.execJournalRecovery img s
  | .genRootCheck l3 => Sys2Proof.Machine.execGenRootCheck l3 s
  | .mediaFillComplete t terr => Sys2Proof.Machine.execMediaFillComplete t terr s
  | .hedgeTimer t => Sys2Proof.Machine.execHedgeTimer t s
  | .repairTimeout t => Sys2Proof.Machine.execRepairTimeout t s
  | .repairRetry t => Sys2Proof.Machine.execRepairRetry t s
  | .repairDeferredAccept t => Sys2Proof.Machine.execRepairDeferredAccept t s
  | .copyOutEnd t => Sys2Proof.Machine.execCopyOutEnd t s
  | .prmRecord f => Sys2Proof.Machine.execPrmRecord f s
  | .rack f => Sys2Proof.Machine.execRack f s
  | .forward f => Sys2Proof.Machine.execForward f s
  | .fwdResp f => Sys2Proof.Machine.execFwdResp f s
  | .heartbeat f => Sys2Proof.Machine.execHeartbeat f s
  | .repairReq f => Sys2Proof.Machine.execRepairReq f s
  | .repairData f => Sys2Proof.Machine.execRepairData f s
  | .resyncMap f => Sys2Proof.Machine.execResyncMap f s
  | .resyncData f => Sys2Proof.Machine.execResyncData f s
  | .resyncTileInstall t => Sys2Proof.Machine.execResyncTileInstall t s
  | .resyncTileSend => Sys2Proof.Machine.execResyncTileSend s
  | .nack f => Sys2Proof.Machine.execNack f s
  | .rekey f => Sys2Proof.Machine.execRekey f s
  | .pairing f m => Sys2Proof.Machine.execPairing f m s
  | .home f => Sys2Proof.Machine.execHome f s
  | .idle f => Sys2Proof.Machine.execIdle f s
  | .prmRtoExpire g => Sys2Proof.Machine.execPrmRtoExpire g s
  | .prmHeartbeatSend => Sys2Proof.Machine.execPrmHeartbeatSend s
  | .prmHeartbeatMiss g => Sys2Proof.Machine.execPrmHeartbeatMiss g s
  | .prmGroupTrained g width flightNs => Sys2Proof.Machine.execPrmGroupTrained g width flightNs s
  | .twinAliveToggle => Sys2Proof.Machine.execTwinAliveToggle s
  | .twinAliveEdge => Sys2Proof.Machine.execTwinAliveEdge s
  | .twinAliveQuiet => Sys2Proof.Machine.execTwinAliveQuiet s
  | .establish => Sys2Proof.Machine.execEstablish s
  | .startSolo => Sys2Proof.Machine.execStartSolo s
  | .forceSolo l3 => Sys2Proof.Machine.execForceSolo l3 s
  | .admitReplacement => Sys2Proof.Machine.execAdmitReplacement s
  | .reanchorTile t copy => Sys2Proof.Machine.execReanchorTile t copy s
  | .pairResume p => Sys2Proof.Machine.execPairResume p s
  | .medDataFlit lane head cw pad crc => Sys2Proof.Machine.execMedDataFlit lane head cw pad crc s
  | .medRespFlit lane head body crc => Sys2Proof.Machine.execMedRespFlit lane head body crc s
  | .medReplayReq lane line => Sys2Proof.Machine.execMedReplayReq lane line s
  | .medIdleFlit lane line => Sys2Proof.Machine.execMedIdleFlit lane line s
  | .medAlignFlit lane => Sys2Proof.Machine.execMedAlignFlit lane s
  | .medCmdTimeout lane tag => Sys2Proof.Machine.execMedCmdTimeout lane tag s
  | .laneTrainStageDone lane ident replays => Sys2Proof.Machine.execLaneTrainStageDone lane ident replays s
  | .laneTrainTimeout lane => Sys2Proof.Machine.execLaneTrainTimeout lane s
  | .laneFence lane => Sys2Proof.Machine.execLaneFence lane s
  | .laneReplace lane => Sys2Proof.Machine.execLaneReplace lane s
  | .laneRetrain lane => Sys2Proof.Machine.execLaneRetrain lane s
  | .rebuildStripe lane => Sys2Proof.Machine.execRebuildStripe lane s
  | .sweepTile => Sys2Proof.Machine.execSweepTile s
  | .moduleTableLoad copies => Sys2Proof.Machine.execModuleTableLoad copies s
  | .lineLock line => Sys2Proof.Machine.execLineLock line s
  | .lineUnlock line => Sys2Proof.Machine.execLineUnlock line s
  | .rangeInvalidation release count first => Sys2Proof.Machine.execRangeInvalidation release count first s
  | .rangeInvalidationDone => Sys2Proof.Machine.execRangeInvalidationDone s
  | .sliceFence sl => Sys2Proof.Machine.execSliceFence sl s
  | .sliceRestore sl => Sys2Proof.Machine.execSliceRestore sl s
  | .waymodeWrite lock scratch => Sys2Proof.Machine.execWaymodeWrite lock scratch s
  | .scratchOwnerAssign b tenant => Sys2Proof.Machine.execScratchOwnerAssign b tenant s
  | .scratchZeroDone b => Sys2Proof.Machine.execScratchZeroDone b s
  | .loggiaTtlExpire line => Sys2Proof.Machine.execLoggiaTtlExpire line s
  | .planIdleExpire r => Sys2Proof.Machine.execPlanIdleExpire r s
  | .pinLoadTile t => Sys2Proof.Machine.execPinLoadTile t s
  | .terraceTrainDone up => Sys2Proof.Machine.execTerraceTrainDone up s
  | .opTimeout tag => Sys2Proof.Machine.execOpTimeout tag s
  | .drainBound u => Sys2Proof.Machine.execDrainBound u s
  | .clearHigh => Sys2Proof.Machine.execClearHigh s
  | .roceFrame port f => Sys2Proof.Machine.execRoceFrame port f s
  | .arpRequest port ip mac => Sys2Proof.Machine.execArpRequest port ip mac s
  | .neighborSolicitation port ip mac => Sys2Proof.Machine.execNeighborSolicitation port ip mac s
  | .pfcFrame port prio quanta => Sys2Proof.Machine.execPfcFrame port prio quanta s
  | .pauseFrame port => Sys2Proof.Machine.execPauseFrame port s
  | .pfcRefresh port prio => Sys2Proof.Machine.execPfcRefresh port prio s
  | .pfcWatchdog port prio => Sys2Proof.Machine.execPfcWatchdog port prio s
  | .pfcWatchdogClear port prio => Sys2Proof.Machine.execPfcWatchdogClear port prio s
  | .netLinkUp port polarity => Sys2Proof.Machine.execNetLinkUp port polarity s
  | .netTrainTimeout port => Sys2Proof.Machine.execNetTrainTimeout port s
  | .netRetrainTimer port => Sys2Proof.Machine.execNetRetrainTimer port s
  | .netLinkDown port cause => Sys2Proof.Machine.execNetLinkDown port cause s
  | .netPortFence port => Sys2Proof.Machine.execNetPortFence port s
  | .netPortRestore port => Sys2Proof.Machine.execNetPortRestore port s
  | .netPortRetrain port => Sys2Proof.Machine.execNetPortRetrain port s
  | .ccRoundEnd conn => Sys2Proof.Machine.execCcRoundEnd conn s
  | .srttReset conn => Sys2Proof.Machine.execSrttReset conn s
  | .cnp conn port => Sys2Proof.Machine.execCnp conn port s
  | .cmReq port r => Sys2Proof.Machine.execCmReq port r s
  | .cmRtu conn => Sys2Proof.Machine.execCmRtu conn s
  | .cmDreq conn => Sys2Proof.Machine.execCmDreq conn s
  | .cmDrep conn => Sys2Proof.Machine.execCmDrep conn s
  | .contextFetchDone conn => Sys2Proof.Machine.execContextFetchDone conn s
  | .rdmaWrite conn => Sys2Proof.Machine.execRdmaWrite conn s
  | .rdmaRead conn => Sys2Proof.Machine.execRdmaRead conn s
  | .compareAndSwap conn => Sys2Proof.Machine.execCompareAndSwap conn s
  | .fetchAndAdd conn => Sys2Proof.Machine.execFetchAndAdd conn s
  | .atomicWrite conn => Sys2Proof.Machine.execAtomicWrite conn s
  | .flush conn => Sys2Proof.Machine.execFlush conn s
  | .roceAcknowledge conn => Sys2Proof.Machine.execRoceAcknowledge conn s
  | .rdmaReadResponse conn => Sys2Proof.Machine.execRdmaReadResponse conn s
  | .rnrNak conn psn timer => Sys2Proof.Machine.execRnrNak conn psn timer s
  | .roceUnsupported conn => Sys2Proof.Machine.execRoceUnsupported conn s
  | .sendTaskDescriptors conn => Sys2Proof.Machine.execSendTaskDescriptors conn s
  | .sendWalkPlan conn => Sys2Proof.Machine.execSendWalkPlan conn s
  | .sendPlanCancel conn => Sys2Proof.Machine.execSendPlanCancel conn s
  | .register conn => Sys2Proof.Machine.execRegister conn s
  | .revoke conn => Sys2Proof.Machine.execRevoke conn s
  | .workRequestPost conn => Sys2Proof.Machine.execWorkRequestPost conn s
  | .wrIssue conn => Sys2Proof.Machine.execWrIssue conn s
  | .reqAckTimeout conn => Sys2Proof.Machine.execReqAckTimeout conn s
  | .errorHoldExpire conn => Sys2Proof.Machine.execErrorHoldExpire conn s
  | .memRd ld dpa tag => Sys2Proof.Machine.execMemRd ld dpa tag s
  | .memWr ld dpa tag data be poison => Sys2Proof.Machine.execMemWr ld dpa tag data be poison s
  | .memSpecRd ld dpa => Sys2Proof.Machine.execMemSpecRd ld dpa s
  | .cxlBadReq port isRead tag => Sys2Proof.Machine.execCxlBadReq port isRead tag s
  | .combineWindowExpire ld t => Sys2Proof.Machine.execCombineWindowExpire ld t s
  | .globalPersistentFlush port => Sys2Proof.Machine.execGlobalPersistentFlush port s
  | .identifyMemoryDevice ld => Sys2Proof.Machine.execIdentifyMemoryDevice ld s
  | .getHealthInfo ld => Sys2Proof.Machine.execGetHealthInfo ld s
  | .getEventRecords ld => Sys2Proof.Machine.execGetEventRecords ld s
  | .clearEventRecords ld n => Sys2Proof.Machine.execClearEventRecords ld n s
  | .getPoisonList ld => Sys2Proof.Machine.execGetPoisonList ld s
  | .getDcConfiguration ld => Sys2Proof.Machine.execGetDcConfiguration ld s
  | .getDcExtentList ld => Sys2Proof.Machine.execGetDcExtentList ld s
  | .addDcResponse ld exts => Sys2Proof.Machine.execAddDcResponse ld exts s
  | .releaseDc ld ext => Sys2Proof.Machine.execReleaseDc ld ext s
  | .mailboxUnsupported ld opcode => Sys2Proof.Machine.execMailboxUnsupported ld opcode s
  | .getLdInfo port => Sys2Proof.Machine.execGetLdInfo port s
  | .getLdAllocations port => Sys2Proof.Machine.execGetLdAllocations port s
  | .fmApiRefused port opcode => Sys2Proof.Machine.execFmApiRefused port opcode s
  | .spdmMessage ld m => Sys2Proof.Machine.execSpdmMessage ld m s
  | .ideKm port stream key => Sys2Proof.Machine.execIdeKm port stream key s
  | .cdatRead ld => Sys2Proof.Machine.execCdatRead ld s
  | .ideStateChange port active => Sys2Proof.Machine.execIdeStateChange port active s
  | .cxlLinkTrained port width gts32 mld => Sys2Proof.Machine.execCxlLinkTrained port width gts32 mld s
  | .cxlPortReset port why => Sys2Proof.Machine.execCxlPortReset port why s
  | .functionLevelReset ld => Sys2Proof.Machine.execFunctionLevelReset ld s
  | .cxlPortFence port => Sys2Proof.Machine.execCxlPortFence port s
  | .cxlPortRestore port => Sys2Proof.Machine.execCxlPortRestore port s
  | .cxlPortRetrain port => Sys2Proof.Machine.execCxlPortRetrain port s
  | .offer ld ext => Sys2Proof.Machine.execOffer ld ext s
  | .withdraw ld ext => Sys2Proof.Machine.execWithdraw ld ext s
  | .offerLapse ld ext => Sys2Proof.Machine.execOfferLapse ld ext s
  | .forcedRelease ld ext => Sys2Proof.Machine.execForcedRelease ld ext s
  | .ringBase ld slot v => Sys2Proof.Machine.execRingBase ld slot v s
  | .ciAddr ld slot v => Sys2Proof.Machine.execCiAddr ld slot v s
  | .doorbell ld slot v => Sys2Proof.Machine.execDoorbell ld slot v s
  | .ringFetchDone ld slot ok descs => Sys2Proof.Machine.execRingFetchDone ld slot ok descs s
  | .planStatAddr ld v => Sys2Proof.Machine.execPlanStatAddr ld v s
  | .planSubmit ld v => Sys2Proof.Machine.execPlanSubmit ld v s
  | .planReadDone ld plan => Sys2Proof.Machine.execPlanReadDone ld plan s
  | .cxlDeniedAccess ld write a => Sys2Proof.Machine.execCxlDeniedAccess ld write a s
  | .create tenant => Sys2Proof.Machine.execCreate tenant s
  | .destroy tenant => Sys2Proof.Machine.execDestroy tenant s
  | .process bytes sigMldsaOk sigEcdsaOk => Sys2Proof.Machine.execProcess bytes sigMldsaOk sigEcdsaOk s
  | .enrolResponse kemCt kemSecret ecdhPub ecdhX => Sys2Proof.Machine.execEnrolResponse kemCt kemSecret ecdhPub ecdhX s
  | .cipherCoreFence core => Sys2Proof.Machine.execCipherCoreFence core s
  | .cipherCoreRestore core katOk => Sys2Proof.Machine.execCipherCoreRestore core katOk s
  | .katTimer core ok => Sys2Proof.Machine.execKatTimer core ok s
  | .paceWindow sq samples => Sys2Proof.Machine.execPaceWindow sq samples s
  | .clearMinmax => Sys2Proof.Machine.execClearMinmax s
  | .vcoreStep powerW => Sys2Proof.Machine.execVcoreStep powerW s
  | .islandClockStopped isl => Sys2Proof.Machine.execIslandClockStopped isl s
  | .islandHeartbeatReturn isl => Sys2Proof.Machine.execIslandHeartbeatReturn isl s
  | .timebaseLost => Sys2Proof.Machine.execTimebaseLost s
  | .timebaseReturn => Sys2Proof.Machine.execTimebaseReturn s
  | .powerOnResetEnd senior seqMode => Sys2Proof.Machine.execPowerOnResetEnd senior seqMode s
  | .railPowerGood rail mv => Sys2Proof.Machine.execRailPowerGood rail mv s
  | .railPgTimeout rail cause mv => Sys2Proof.Machine.execRailPgTimeout rail cause mv s
  | .groupRailFail rail high mv => Sys2Proof.Machine.execGroupRailFail rail high mv s
  | .criticalRailFail rail high mv => Sys2Proof.Machine.execCriticalRailFail rail high mv s
  | .vflFail high mv => Sys2Proof.Machine.execVflFail high mv s
  | .vcoreLow mv => Sys2Proof.Machine.execVcoreLow mv s
  | .thermalTrip sensor temp => Sys2Proof.Machine.execThermalTrip sensor temp s
  | .pwrWarnCommit => Sys2Proof.Machine.execPwrWarnCommit s
  | .warnGlitch us => Sys2Proof.Machine.execWarnGlitch us s
  | .inputStable => Sys2Proof.Machine.execInputStable s
  | .railOffStage mons => Sys2Proof.Machine.execRailOffStage mons s
  | .waveRelease => Sys2Proof.Machine.execWaveRelease s
  | .go => Sys2Proof.Machine.execGo s
  | .restoreGroup g => Sys2Proof.Machine.execRestoreGroup g s
  | .clearLatch => Sys2Proof.Machine.execClearLatch s
  | .seqSyncStep => Sys2Proof.Machine.execSeqSyncStep s
  | .seqSyncAbort => Sys2Proof.Machine.execSeqSyncAbort s
  | .pwrbusAttention answers => Sys2Proof.Machine.execPwrbusAttention answers s
  | .telemetry rail tries vout iout temp => Sys2Proof.Machine.execTelemetry rail tries vout iout temp s
  | .clearPeak => Sys2Proof.Machine.execClearPeak s
  | .sysRstAssert => Sys2Proof.Machine.execSysRstAssert s
  | .sysRstDeassert => Sys2Proof.Machine.execSysRstDeassert s
  | .deviceReset => Sys2Proof.Machine.execDeviceReset s
  | .belvedereRestart => Sys2Proof.Machine.execBelvedereRestart s
  | .belvedereFault => Sys2Proof.Machine.execBelvedereFault s
  | .watchdogExpire => Sys2Proof.Machine.execWatchdogExpire s
  | .kick => Sys2Proof.Machine.execKick s
  | .bootRomRun aOk bOk => Sys2Proof.Machine.execBootRomRun aOk bOk s
  | .flsKey v => Sys2Proof.Machine.execFlsKey v s
  | .program count addr => Sys2Proof.Machine.execProgram count addr s
  | .erase count addr => Sys2Proof.Machine.execErase count addr s
  | .read count addr ecc => Sys2Proof.Machine.execRead count addr ecc s
  | .unlock addr arg => Sys2Proof.Machine.execUnlock addr arg s
  | .writeConfig count addr => Sys2Proof.Machine.execWriteConfig count addr s
  | .writeCommit count addr arg => Sys2Proof.Machine.execWriteCommit count addr arg s
  | .flashCommandDone bank ok => Sys2Proof.Machine.execFlashCommandDone bank ok s
  | .flashRecordAppend => Sys2Proof.Machine.execFlashRecordAppend s
  | .flashScan => Sys2Proof.Machine.execFlashScan s
  | .configAutoWrite => Sys2Proof.Machine.execConfigAutoWrite s
  | .mctpPacket p => Sys2Proof.Machine.execMctpPacket p s
  | .mgmtRegisterRead off pecOk => Sys2Proof.Machine.execMgmtRegisterRead off pecOk s
  | .mgmtClearLatch data pecOk => Sys2Proof.Machine.execMgmtClearLatch data pecOk s
  | .setEndpointId src eid => Sys2Proof.Machine.execSetEndpointId src eid s
  | .getEndpointId src => Sys2Proof.Machine.execGetEndpointId src s
  | .getMctpVersionSupport src typ => Sys2Proof.Machine.execGetMctpVersionSupport src typ s
  | .getMessageTypeSupport src => Sys2Proof.Machine.execGetMessageTypeSupport src s
  | .mctpSpdm src m => Sys2Proof.Machine.execMctpSpdm src m s
  | .mctpSecuredMessage src session desc => Sys2Proof.Machine.execMctpSecuredMessage src session desc s
  | .mctpSendTimeout => Sys2Proof.Machine.execMctpSendTimeout s
  | .clockLowTimeout bus => Sys2Proof.Machine.execClockLowTimeout bus s
  | .busRecovery bus clocks => Sys2Proof.Machine.execBusRecovery bus clocks s
  | .cqCiPoll cq ci => Sys2Proof.Machine.execCqCiPoll cq ci s
  | .cqFullTimeout cq => Sys2Proof.Machine.execCqFullTimeout cq s
  | .cqBaseWrite cq v => Sys2Proof.Machine.execCqBaseWrite cq v s
  | .targetWrite t v => Sys2Proof.Machine.execTargetWrite t v s
  | .pageRefresh => Sys2Proof.Machine.execPageRefresh s
  | .pageMirror slot => Sys2Proof.Machine.execPageMirror slot s
  | .idcode => Sys2Proof.Machine.execIdcode s
  | .bypass => Sys2Proof.Machine.execBypass s
  | .samplePreload cells => Sys2Proof.Machine.execSamplePreload cells s
  | .extest => Sys2Proof.Machine.execExtest s
  | .clamp => Sys2Proof.Machine.execClamp s
  | .highz => Sys2Proof.Machine.execHighz s
  | .extestPulse => Sys2Proof.Machine.execExtestPulse s
  | .extestTrain => Sys2Proof.Machine.execExtestTrain s
  | .flsRecover op => Sys2Proof.Machine.execFlsRecover op s
  | .dbgUnlock token sigMldsaOk sigEcdsaOk => Sys2Proof.Machine.execDbgUnlock token sigMldsaOk sigEcdsaOk s
  | .trst => Sys2Proof.Machine.execTrst s
  | .registerWrite off v => Sys2Proof.Machine.execRegisterWrite off v s
  | .vaonLeavesWindow => Sys2Proof.Machine.execVaonLeavesWindow s
  | .cxlRetrainTimer port => Sys2Proof.Machine.execCxlRetrainTimer port s
  | .cxlPerstDeassert port => Sys2Proof.Machine.execCxlPerstDeassert port s
  | .rnrRetryTimer conn => Sys2Proof.Machine.execRnrRetryTimer conn s
  | .pfcQuantaExpire port prio => Sys2Proof.Machine.execPfcQuantaExpire port prio s
  | .vfuseVoltage mv => Sys2Proof.Machine.execVfuseVoltage mv s

end Sys2Proof.Machine
end

