-- ==== Sys2Proof/Machine/Idle.lean ====
section
/-! DEFINITION. What one period of the timebase does when no command waits (log entry 1): device time rises, and work that waited for
room goes on. -/

namespace Sys2Proof.Machine

/-- Credit a receiver owed while the Turnstile was at its bound goes out with an IDLE frame (R143, R144). -/
def State.creditTick (s : State) (g : Nat) : State :=
  if (s.grp g).owed = 0 ∨ !s.grpUp g ∨ s.prm.secret.isNone ∨ Src.prm.quota ≤ s.fget (R.TST_SRC_STAT.IN_USE Src.prm.num) then s
  else (s.giveCredit g 0).sendOn g 0x0E false []

/-- An idle period of 40 ns, one period of the 25 MHz timebase (R244). -/
def State.idle (s : State) : State :=
  let s : State := { s with timeNs := s.timeNs + 40 }
  let s := (s.xing.map (·.1)).foldl State.xingTick s
  ((((s.cxlTick.prmPump.creditTick 0).creditTick 1).netTick).startXfers).flushMctp.heldStep

end Sys2Proof.Machine
end

