-- ==== Sys2Proof/Safety.lean ====
section
/-! DEFINITION. The words claims are stated in: what it is for a context to issue an instruction, for an operation to enter the Turnstile, and for the
hard-wired identification to read as the manual says. -/

namespace Sys2Proof.Machine

/-! ## Aelo (R241 to R243, R256, R258, R280, R282) -/

/-- Context `c` issues its next instruction: it runs a task, waits for nothing, its pc lies in its image at a word that is an instruction,
and on a Kiosk its program store is good and it has an instruction left. -/
abbrev State.Runs (s : State) (c : Ctx) : Prop :=
  (s.ctx c.val).task.isSome = true ∧ (s.ctx c.val).wait = .none ∧ (c.val ≠ 4096 → s.imageBad (s.ctx c.val) = false)
    ∧ s.pcOutside c (s.ctx c.val) = false ∧ s.noWord c (s.ctx c.val) = false ∧ ((s.ctx c.val).charged = true ∨ c.val = 4096 ∨ (s.ctx c.val).insnLeft ≠ 0)

/-- The context with the instruction counted once against its budget (R282). -/
def State.counted (s : State) (c : Ctx) : CtxSt :=
  let x := s.ctx c.val
  if x.charged then x else { x with insnLeft := x.insnLeft - 1, charged := true }

/-- The context after an instruction: at the next word, with nothing of the instruction left. -/
def CtxSt.after (x : CtxSt) : CtxSt := { x with pc := x.pc + 4, charged := false, fills := [] }

/-- The context gone to another word. -/
def CtxSt.goto (x : CtxSt) (pc : Word) : CtxSt := { x with pc := pc, charged := false, fills := [] }

/-- An instruction of a context that issues and whose guard reads 1 changes that context alone: `f` of the counted context, at the
next word. -/
def Does (i : Instr) (c : Ctx) (gp : BitVec 3) (f : State → CtxSt → CtxSt) : Prop :=
  ∀ s : State, s.Runs c → (s.ctx c.val).rp gp.toNat = true → exec i s = .next (s.setCtx c.val (f s (s.counted c)).after)

/-- The register operations of R259: FN, and what a[D] receives of a[A] and a[B]. -/
def aluRows : List (BitVec 8 × (Word → Word → Word)) :=
  [(0x00, fun a b => a + b), (0x01, fun a b => a - b), (0x02, fun a b => a &&& b), (0x03, fun a b => a ||| b), (0x04, fun a b => a ^^^ b),
   (0x05, fun a b => a &&& ~~~b), (0x06, fun a b => a <<< (b.toNat % 64)), (0x07, fun a b => a >>> (b.toNat % 64)),
   (0x08, fun a b => a.sshiftRight (b.toNat % 64)), (0x09, fun a b => a.rotateRight (b.toNat % 64)),
   (0x0A, fun a b => if a.toNat < b.toNat then a else b), (0x0B, fun a b => if a.toNat < b.toNat then b else a),
   (0x0C, fun a b => if a.toInt < b.toInt then a else b), (0x0D, fun a b => if a.toInt < b.toInt then b else a),
   (0x10, fun a _ => (a.setWidth 8).signExtend 64), (0x11, fun a _ => (a.setWidth 16).signExtend 64),
   (0x12, fun a _ => (a.setWidth 32).signExtend 64), (0x13, fun a _ => BitVec.ofNat 64 (clz a)),
   (0x14, fun a _ => BitVec.ofNat 64 (popc a)), (0x15, fun a _ => BitVec.ofNat 64 (leNat (natBe 8 a.toNat))),
   (0x20, fun a b => a * b), (0x21, fun a b => BitVec.ofNat 64 (a.toNat * b.toNat / 2 ^ 64)),
   (0x22, fun a b => BitVec.ofInt 64 (a.toInt * b.toInt / 2 ^ 64)), (0x23, fun a b => if b = 0 then -1 else a / b),
   (0x24, fun a b => if b = 0 then a else a % b), (0x25, fun a b => if b = 0 then -1 else a.sdiv b),
   (0x26, fun a b => if b = 0 then a else a.srem b)]

/-! ## Entries of the Turnstile (R323, R325) -/

/-- A source holds fewer entries than its quota. -/
abbrev State.HasRoom (s : State) (src : Src) : Prop := s.fget (R.TST_SRC_STAT.IN_USE src.num) < src.quota

/-- The tag that its next operation gets. -/
def State.newTag (s : State) (src : Src) : Nat := firstFree s.tst.ops src.base

/-- The state in which an operation holds that entry; the same state where the source is at its quota. -/
def State.entered (s : State) (src : Src) (o : Op) : State := match s.takeEntry src o with | some (_, v) => v | none => s

/-! ## Promenade frames (R137 to R143) -/

/-- A frame of TYPE `typ` is taken in: its group is up, it opens to the payload `p`, and it is unnumbered or the next in order; its payload
acts on `u`, in which its header has been heeded and its credit given back. -/
def State.Takes (s : State) (f : PrmFrame) (typ : Nat) (p : Bytes) (u : State) : Prop :=
  s.grpUp f.grp.val = true ∧ ∃ k, s.openFrame f typ = some (p, k) ∧
    let v := (s.setGrp f.grp.val k).takeAck f.grp.val f.ackFsn.toNat f.credit.toNat
    if unnumbered typ then u = v
    else f.fsn.toNat = (v.grp f.grp.val).rxNext
      ∧ u = (v.setGrp f.grp.val { v.grp f.grp.val with rxNext := (f.fsn.toNat + 1) % 2 ^ 48 }).giveCredit f.grp.val (credits typ f.body.length)

/-! ## Requests of a connection (R388, R395) -/

/-- Packet `p` is the request at the head of connection `c`, which is RTS, and its turn has come: it is the next in sequence, no write or
atomic ahead of it waits for admission, and no shutdown is committed. -/
def State.Turn (s : State) (c : Conn) (p : Pkt) : Prop :=
  (∃ r, (s.conn c.val).rxq = p :: r) ∧ (s.conn c.val).stopped = false ∧ (s.conn c.val).state = .rts
    ∧ psnDist p.psn (s.conn c.val).epsn = 0 ∧ s.reqAhead c.val = false ∧ s.jnl.closed = false

/-- The state in which it is judged: it has left the queue. -/
def State.judged (s : State) (c : Conn) : State := s.popReq c.val

/-! ## The hard-wired register (R3, R20) -/

/-- SUP_IDENT reads family 0xF7A, part 0x9640, major step 1 and this device's minor step. -/
def State.Ident (s : State) : Prop :=
  s.fget R.SUP_IDENT.FAMILY = 0xF7A ∧ s.fget R.SUP_IDENT.PART = 0x9640 ∧ s.fget R.SUP_IDENT.STEP_MAJOR = 1
    ∧ s.fget R.SUP_IDENT.STEP_MINOR = Config.stepMinor.toNat

end Sys2Proof.Machine
end

