-- ==== Sys2Proof/Certificates/Slice0/Obligations.lean ====
section
/-! DEFINITION. The statements for the provers: what commands and the whole block do, by the rules R<n> of spec/. A statement of several
clauses says them of every state and operand its hypotheses admit; an equation `exec i s = .next t` says that the command completes, and in
which state. -/

open Sys2Proof Sys2Proof.Machine

/-! ## The whole block -/

/-- A step takes the command at the front of the queue and runs it with the queue's rest; nothing is added around it. -/
def Obligations.StepRunsFront : Prop :=
  ∀ (i : Instr) (r : List Instr) (s : State), step { s with pending := i :: r } = exec i { s with pending := r }

/-- On an empty queue a step is one idle period and leaves the queue empty; while nothing in the device waits for room, only device time
changes, by the 40 ns of the 25 MHz timebase. The model's choice (log entry 1). -/
def Obligations.StepIdles : Prop :=
  ∀ s : State, s.pending = [] → step s = .next s.idle ∧ s.idle.pending = []
    ∧ (s.cxl.rxq = [] → s.listed R.CXL_RING_CFG.VALID 256 = [] → s.prm.rxRecs = [] → s.prm.rxWait = [] → s.prm.a.owed = 0 →
        s.prm.b.owed = 0 → s.ports = [] → s.xpt.conns = [] → s.sta.xfers = [] → s.xing = [] → (∀ p ∈ s.tst.ops, p.2.after = []) → s.twb.txq = [] → s.pwr.stepHeld = none →
        s.idle = { s with timeNs := s.timeNs + 40 })

/-- Every step that answers a next state takes one command from the front and puts none in: the queue is first in, first out. -/
def Obligations.QueueIsFifo : Prop := ∀ s t : State, step s = .next t → t.pending = s.pending.tail

/-- Every command of every row completes in every state: none is refused and none stops the block, and none touches the commands that
wait. -/
def Obligations.EveryCommandAnswers : Prop := ∀ (i : Instr) (s : State), ∃ t, exec i s = .next t ∧ t.pending = s.pending

/-- R3: SUP_IDENT reads family 0xF7A, part 0x9640, major step 1 and the device's minor step at reset, and lies at offset 0 with its
reserved bits 0. -/
def Obligations.IdentAtReset : Prop :=
  State.reset.Ident
    ∧ State.reset.regRead 0 = BitVec.ofNat 64 (0xF7A * 2 ^ 48 + 0x9640 * 2 ^ 32 + 2 ^ 24 + Config.stepMinor.toNat * 2 ^ 16)

/-- R3: SUP_IDENT keeps reading as the manual gives it, whatever is commanded. -/
def Obligations.IdentStays : Prop := ∀ s t : State, s.Ident → step s = .next t → t.Ident

/-- R20, R132, R170, R372, R500 and R555: at power-on reset every field of every register reads its Reset column, a field that the fuses
or straps give reads its reset value of the register map; among the values other than 0, those of JNL_LIMIT_CTL, PRM_LINK_CTL,
NET_CC_CTL0, NET_CC_CTL1, PWR_VCORE_CTL and SUP_WDOG_CTL are these; the power-on reset holds the device, and no command waits. -/
def Obligations.ResetValues : Prop :=
  (∀ f : Fld, State.reset.fget f = f.rst)
  ∧ (∀ r ∈ ([(R.JNL_LIMIT_CTL.DRAIN_LIMIT, 52), (R.JNL_LIMIT_CTL.HIGH_WATER, 50), (R.JNL_LIMIT_CTL.HOLD_US, 100), (R.PRM_LINK_CTL.HB_MISS, 5),
      (R.PRM_LINK_CTL.HB_US, 10), (R.PRM_LINK_CTL.RETRIES, 4), (R.PRM_LINK_CTL.RTO_NS, 2000), (R.NET_CC_CTL0.WIN_INIT_KIB, 512),
      (R.NET_CC_CTL0.AI_KIB, 8), (R.NET_CC_CTL0.MD, 64), (R.NET_CC_CTL0.DELAY_MD, 32), (R.NET_CC_CTL0.HAI_ROUNDS, 5),
      (R.NET_CC_CTL1.TARGET_RTT_US, 20), (R.NET_CC_CTL1.BASE_RTT_US, 8), (R.NET_CC_CTL1.CNP_INTERVAL_US, 8), (R.PWR_VCORE_CTL.MODE, 1),
      (R.PWR_VCORE_CTL.FIXED_MV, 800), (R.PWR_VCORE_CTL.VMAX_MV, 900), (R.PWR_VCORE_CTL.VMIN_MV, 620), (R.PWR_VCORE_CTL.PACE_TARGET, 1250),
      (R.PWR_VCORE_CTL.PACE_HYST, 25), (R.PWR_VCORE_CTL.STEP_US, 50), (R.SUP_WDOG_CTL.ENABLE, 1), (R.SUP_WDOG_CTL.TIMEOUT_MS, 1000)] :
      List (Fld × Nat)), State.reset.fget r.1 = r.2)
  ∧ State.reset.pwr.por = true ∧ State.reset.pending = []

/-- R16 and R33: a store of a program that its checks let through is a store of a whole register. RW fields take the bits stored and no
other register changes (JNL_LIMIT_CTL and PRM_LINK_CTL); a 1 clears a W1C bit and a 0 leaves it (NET_STAT); RO and RO-V fields ignore it
(SUP_IDENT, JNL_STAT). A store at no multiple of 8, one the checks refuse, and any store while no firmware image runs (R49), changes
nothing. -/
def Obligations.StoresWriteFields : Prop :=
  ∀ (v : Word) (s : State),
    (∀ off : BitVec 32, s.imageRuns = false ∨ off.toNat % 8 ≠ 0 ∨ s.storesOk [(off.toNat, v)] = false →
      exec (.registerWrite off v) s = .next s)
    ∧ (s.imageRuns = true → s.storesOk [(0x01000020, v)] = true → ∃ t, exec (.registerWrite 0x01000020 v) s = .next t ∧
        t = { s with ctl := t.ctl } ∧ t.fget R.JNL_LIMIT_CTL.HOLD_US = v.toNat / 2 ^ 32 % 2 ^ 16
        ∧ t.fget R.JNL_LIMIT_CTL.HIGH_WATER = v.toNat / 2 ^ 8 % 2 ^ 8 ∧ t.fget R.JNL_LIMIT_CTL.DRAIN_LIMIT = v.toNat % 2 ^ 6
        ∧ ∀ f : Fld, f.lo < 64 → f.off ≠ 0x01000020 → t.fget f = s.fget f)
    ∧ (s.imageRuns = true → s.storesOk [(0x01800010, v)] = true → ∃ t, exec (.registerWrite 0x01800010 v) s = .next t ∧
        t = { s with ctl := t.ctl } ∧ t.fget R.PRM_LINK_CTL.HB_MISS = v.toNat / 2 ^ 32 % 2 ^ 4
        ∧ t.fget R.PRM_LINK_CTL.HB_US = v.toNat / 2 ^ 24 % 2 ^ 8 ∧ t.fget R.PRM_LINK_CTL.RETRIES = v.toNat / 2 ^ 16 % 2 ^ 4
        ∧ t.fget R.PRM_LINK_CTL.RTO_NS = v.toNat % 2 ^ 16
        ∧ ∀ f : Fld, f.lo < 64 → f.off ≠ 0x01800010 → t.fget f = s.fget f)
    ∧ (s.imageRuns = true → s.storesOk [(0x02400408, v)] = true →
        exec (.registerWrite 0x02400408 v) s = .next (if v.getLsbD 63 then s.fset R.NET_STAT.CMD_REFUSED 0 else s))
    ∧ (s.imageRuns = true → s.storesOk [(0, v)] = true → exec (.registerWrite 0 v) s = .next s)
    ∧ (s.imageRuns = true → s.storesOk [(0x01000000, v)] = true → exec (.registerWrite 0x01000000 v) s = .next s)

/-- R646: the DBG region reads 0 and a store to it changes nothing while it is locked; while it is unlocked the manual describes no
register of it, and the same holds (R32). -/
def Obligations.DebugRegionIsLocked : Prop :=
  ∀ (off : BitVec 32) (v : Word) (s : State), isDbg off.toNat = true → s.regRead off.toNat = 0 ∧ exec (.registerWrite off v) s = .next s

/-- A byte memory keeps its one canonical form under every store: addresses strictly rising, no entry equal to what an unlisted byte
reads as; a stored byte reads back, and every other address reads as before. -/
def Obligations.StoresKeepTheirForm : Prop :=
  ∀ (m : AMap Byte) (i : Nat) (b : Bytes), Memory.wf m →
    Memory.wf (storeBytes m i b) ∧ loadBytes (storeBytes m i b) i b.length = b
    ∧ ∀ a n, a + n ≤ i ∨ i + b.length ≤ a → loadBytes (storeBytes m i b) a n = loadBytes m a n

/-! ## Aelo: integers, predicates, branches (R243, R244, R255 to R259) -/

/-- R259, MAJ 0x01: a row's FN writes its result to a[D] and nothing else but the context's own progress changes; SEXT8 to BSWAP want B
to be 0. R259 and R257: compares and the predicate logic write one predicate, PTOA one a register; CMPI takes its condition from D[4:3]. -/
def Obligations.AluAndPredicatesWriteTheirRow : Prop :=
  (∀ r ∈ aluRows, ∀ (c : Ctx) (gp : BitVec 3) (d a b : BitVec 5), (0x10 ≤ r.1.toNat → r.1.toNat ≤ 0x15 → b = 0) →
     Does (.aluOp c gp d a b r.1) c gp fun _ x => x.wa d (r.2 (x.ra a) (x.ra b)))
  ∧
  ((∀ r ∈ ([(0, fun a b => decide (a = b)), (1, fun a b => decide (a ≠ b)), (2, fun a b => decide (a.toInt < b.toInt)),
       (3, fun a b => decide (b.toInt ≤ a.toInt)), (4, fun a b => decide (a.toNat < b.toNat)),
       (5, fun a b => decide (b.toNat ≤ a.toNat))] : List (BitVec 8 × (Word → Word → Bool))),
     ∀ (c : Ctx) (gp : BitVec 3) (d a b : BitVec 5), d.toNat < 8 →
       Does (.cmp c gp d a b r.1) c gp fun _ x => x.wp d.toNat (r.2 (x.ra a) (x.ra b)))
   ∧ (∀ r ∈ ([(0, fun a b => decide (a = b)), (1, fun a b => decide (a ≠ b)), (2, fun a b => decide (a.toInt < b.toInt)),
       (3, fun a b => decide (a.toNat < b.toNat))] : List (Nat × (Word → Word → Bool))),
     ∀ (c : Ctx) (gp : BitVec 3) (p : Fin 8) (a : BitVec 5) (imm : BitVec 13),
       Does (.cmpi c gp (BitVec.ofNat 5 (8 * r.1 + p.val)) a imm) c gp fun _ x => x.wp p.val (r.2 (x.ra a) (imm.signExtend 64)))
   ∧ (∀ r ∈ ([(0, fun p q => p && q), (1, fun p q => p || q), (2, fun p q => p != q), (3, fun p q => p && !q)] :
       List (BitVec 8 × (Bool → Bool → Bool))),
     ∀ (c : Ctx) (gp : BitVec 3) (d a b : BitVec 5), d.toNat < 8 → a.toNat < 8 → b.toNat < 8 →
       Does (.predicateOp c gp d a b r.1) c gp fun _ x => x.wp d.toNat (r.2 (x.rp a.toNat) (x.rp b.toNat)))
   ∧ (∀ (c : Ctx) (gp : BitVec 3) (d a : BitVec 5), a.toNat < 8 →
       Does (.predicateOp c gp d a 0 4) c gp fun _ x => x.wa d (if x.rp a.toNat then 1 else 0))
   ∧ (∀ (c : Ctx) (gp : BitVec 3) (d a : BitVec 5), d.toNat < 8 →
       Does (.predicateOp c gp d a 0 5) c gp fun _ x => x.wp d.toNat (decide (x.ra a ≠ 0))))

/-- R257: the integer immediates and constants, with IMM13 and IMM18 sign-extended; every other register stays. -/
def Obligations.IntegerImmediatesWriteD : Prop :=
  (∀ (c : Ctx) (gp : BitVec 3) (d a : BitVec 5) (imm : BitVec 13),
    Does (.addi c gp d a imm) c gp fun _ x => x.wa d (x.ra a + imm.signExtend 64))
  ∧ (∀ (c : Ctx) (gp : BitVec 3) (d a : BitVec 5) (imm : BitVec 13),
    Does (.andiOriXori c .and gp d a imm) c gp (fun _ x => x.wa d (x.ra a &&& imm.signExtend 64))
    ∧ Does (.andiOriXori c .or gp d a imm) c gp (fun _ x => x.wa d (x.ra a ||| imm.signExtend 64))
    ∧ Does (.andiOriXori c .xor gp d a imm) c gp (fun _ x => x.wa d (x.ra a ^^^ imm.signExtend 64)))
  ∧ (∀ (c : Ctx) (gp : BitVec 3) (d a : BitVec 5) (n : Nat), n < 64 →
    Does (.shi c gp d a (BitVec.ofNat 13 n)) c gp (fun _ x => x.wa d (x.ra a <<< n))
    ∧ Does (.shi c gp d a (BitVec.ofNat 13 (2048 + n))) c gp (fun _ x => x.wa d (x.ra a >>> n))
    ∧ Does (.shi c gp d a (BitVec.ofNat 13 (4096 + n))) c gp (fun _ x => x.wa d ((x.ra a).sshiftRight n))
    ∧ Does (.shi c gp d a (BitVec.ofNat 13 (6144 + n))) c gp (fun _ x => x.wa d ((x.ra a).rotateRight n)))
  ∧ (∀ (c : Ctx) (gp : BitVec 3) (d : BitVec 5) (imm : BitVec 18), Does (.li c gp d imm) c gp fun _ x => x.wa d (imm.signExtend 64))
  ∧ (∀ (c : Ctx) (gp : BitVec 3) (d : BitVec 5) (imm : BitVec 18), imm.toNat < 65536 →
    Does (.lis c gp d imm) c gp fun _ x => x.wa d ((x.ra d <<< 16) ||| BitVec.ofNat 64 imm.toNat))

/-- R244: SPR reads the number it names: the task's identity, budgets and place, the device's time, the Square's pace and whether the
device is solo; a number the table does not assign reads 0. On the Belvedere a number that tells of a Kiosk's task alone is a free value
(the model's, log entry 35). -/
def Obligations.SprReadsItsTable : Prop :=
  ∀ (c : Ctx) (gp : BitVec 3) (d : BitVec 5) (imm : BitVec 13) (s : State) (t : Task), s.Runs c → (s.ctx c.val).rp gp.toNat = true →
    (s.ctx c.val).task = some t →
    let x := s.counted c
    let solo := s.fget R.PRM_STAT.STATE = 3 ∨ s.fget R.PRM_STAT.STATE = 4 ∨ s.fget R.PRM_STAT.STATE = 5 ∨ s.fget R.PRM_STAT.STATE = 6
    (∀ r ∈ ([(0x000, t.num), (0x001, t.tenant.toNat), (0x004, match t.parent with | some (p, _) => p | none => 0), (0x009, x.staged.length),
        (0x00A, (stagedSegs x.staged).length), (0x00B, s.timeNs), (0x00D, if solo then 1 else 0)] : List (BitVec 13 × Nat)),
      exec (.spr c gp d 0 r.1) s = .next (s.setCtx c.val (x.wa d (BitVec.ofNat 64 r.2)).after))
    ∧ (∀ r ∈ ([(0x002, t.queue), (0x003, c.val), (0x005, x.insnLeft), (0x006, x.tilesLeft), (0x007, x.endNs - s.timeNs), (0x008, x.lsSize),
        (0x00C, s.fget (R.KSK_PACE.PACE (c.val / 256)))] : List (BitVec 13 × Nat)),
      (c.val ≠ 4096 → exec (.spr c gp d 0 r.1) s = .next (s.setCtx c.val (x.wa d (BitVec.ofNat 64 r.2)).after))
      ∧ (c.val = 4096 → exec (.spr c gp d 0 r.1) s = .next (s.drawWord.2.setCtx c.val (x.wa d s.drawWord.1).after)))
    ∧ (0x00D < imm.toNat → exec (.spr c gp d 0 imm) s = .next (s.setCtx c.val (x.wa d 0).after))

/-- R257: BR and BRN take their guard as condition, CALL links a31, JR links a[D] and raises ALIGN, with nothing else done, at an address
that is no multiple of 4. -/
def Obligations.BranchesMoveThePc : Prop :=
  (∀ (c : Ctx) (gp : BitVec 3) (off : BitVec 23) (s : State), s.Runs c →
    exec (.br c gp off) s = .next (s.setCtx c.val
      (if (s.ctx c.val).rp gp.toNat then (s.counted c).goto ((s.ctx c.val).pc + 4 * off.signExtend 64) else (s.counted c).after)))
  ∧ (∀ (c : Ctx) (gp : BitVec 3) (off : BitVec 23) (s : State), s.Runs c →
    exec (.brn c gp off) s = .next (s.setCtx c.val
      (if (s.ctx c.val).rp gp.toNat then (s.counted c).after else (s.counted c).goto ((s.ctx c.val).pc + 4 * off.signExtend 64))))
  ∧ (∀ (c : Ctx) (gp : BitVec 3) (off : BitVec 23) (s : State), s.Runs c → (s.ctx c.val).rp gp.toNat = true →
    exec (.call c gp off) s = .next (s.setCtx c.val
      (((s.counted c).wa 31 ((s.ctx c.val).pc + 4)).goto ((s.ctx c.val).pc + 4 * off.signExtend 64))))
  ∧ (∀ (c : Ctx) (gp : BitVec 3) (d a : BitVec 5) (s : State), s.Runs c → (s.ctx c.val).rp gp.toNat = true →
    exec (.jr c gp d a 0 0) s = .next (
      if ((s.ctx c.val).ra a).toNat % 4 = 0 then
        s.setCtx c.val (((s.counted c).wa d ((s.ctx c.val).pc + 4)).goto ((s.ctx c.val).ra a))
      else s.raise c .align))

/-- R255 to R257: every Aelo instruction, with every operand at every value its fields admit, is the one that its 32-bit word decodes to,
and a word that decodes to an instruction is that instruction's word: no bit of an encoding is dropped and no two instructions share a
word. A word of an unassigned MAJ, or of an FN that names no instruction of its MAJ, is none. -/
def Obligations.AeloWordsReadBack : Prop :=
  (∀ (i : Instr) (c : Ctx) (w : Nat), encodeAelo i = some (c, w) → w < 2 ^ 32 ∧ decodeAelo c w = some i)
  ∧ (∀ (i : Instr) (c : Ctx) (w : Nat), w < 2 ^ 32 → decodeAelo c w = some i → encodeAelo i = some (c, w))
  ∧ (∀ (c : Ctx) (w : Nat), (w / 2 ^ 26 % 64 = 0 ∨ 0x0D ≤ w / 2 ^ 26 % 64 ∧ w / 2 ^ 26 % 64 ≤ 0x0F ∨ 0x14 ≤ w / 2 ^ 26 % 64 ∧ w / 2 ^ 26 % 64 ≤ 0x17
      ∨ w / 2 ^ 26 % 64 = 0x27 ∨ w / 2 ^ 26 % 64 = 0x29 ∨ 0x2F ≤ w / 2 ^ 26 % 64) → decodeAelo c w = none)

/-- R243: an instruction whose guard reads 0 changes no state but its own count and the pc, in every guarded row of the program's
instructions named here. R256 and R280: an unassigned FN, a field that must be 0 and is not, and a field that names no register end the
task with cause ILLEGAL, whatever the guard reads. -/
def Obligations.GuardsAndIllegalWords : Prop :=
  (∀ (c : Ctx) (gp : BitVec 3) (d a b : BitVec 5) (imm : BitVec 13) (l : BitVec 18) (off : BitVec 23) (s : State), s.Runs c →
     (s.ctx c.val).rp gp.toNat = false →
     ∀ i ∈ ([.aluOp c gp d a b 0, .addi c gp d a imm, .andiOriXori c .xor gp d a imm, .shi c gp d a 5, .li c gp d l, .cmpi c gp d a imm,
         .spr c gp d 0 imm, .call c gp off, .ld c .b64 gp d a imm, .st c .b64 gp d a imm, .walk c gp d a b, .jstg c gp d a b,
         .commit c gp 0 a 0, .cas64 c gp d a b, .fadd64 c gp d a b, .gpost c gp d a b, .abort c gp d a b] : List Instr),
       exec i s = .next (s.setCtx c.val (s.counted c).after))
  ∧
  (∀ (c : Ctx) (gp : BitVec 3) (d a b : BitVec 5) (fn : BitVec 8) (imm : BitVec 13) (l : BitVec 18) (s : State), s.Runs c →
     (fn.toNat = 0x0E ∨ fn.toNat = 0x0F ∨ (0x16 ≤ fn.toNat ∧ fn.toNat < 0x20) ∨ 0x26 < fn.toNat →
       exec (.aluOp c gp d a b fn) s = .next (s.raise c .illegal))
     ∧ (6 ≤ fn.toNat ∨ 8 ≤ d.toNat → exec (.cmp c gp d a b fn) s = .next (s.raise c .illegal))
     ∧ (65536 ≤ l.toNat → exec (.lis c gp d l) s = .next (s.raise c .illegal))
     ∧ (a ≠ 0 → exec (.spr c gp d a imm) s = .next (s.raise c .illegal))
     ∧ (b ≠ 0 ∨ fn ≠ 0 → exec (.jr c gp d a b fn) s = .next (s.raise c .illegal))
     ∧ (16 ≤ d.toNat → exec (.vld c gp d a imm) s = .next (s.raise c .illegal) ∧ exec (.vst c gp d a imm) s = .next (s.raise c .illegal))
     ∧ (8 ≤ d.toNat → exec (.tmap c gp d a b) s = .next (s.raise c .illegal))
     ∧ (4 ≤ b.toNat → exec (.gwait c gp d a b) s = .next (s.raise c .illegal) ∧ exec (.gadd c gp d a b) s = .next (s.raise c .illegal))
     ∧ (d ≠ 0 ∨ b ≠ 0 → exec (.commit c gp d a b) s = .next (s.raise c .illegal)))

/-! ## Aelo: vectors and memory (R245, R246, R251, R252, R257, R258, R260 to R264, R648) -/

/-- R260: VALU works element by element in the width of FN[7:6]; VAND to VANDN ignore it. -/
def Obligations.ValuWorksByElement : Prop :=
  ∀ (k : Fin 4) (r : Nat × (BitVec (8 * 2 ^ k.val) → BitVec (8 * 2 ^ k.val) → BitVec (8 * 2 ^ k.val))),
    r ∈ ([(0, fun a b => a + b), (1, fun a b => a - b), (2, fun a b => a &&& b), (3, fun a b => a ||| b), (4, fun a b => a ^^^ b),
      (5, fun a b => a &&& ~~~b), (6, fun a b => a <<< (b.toNat % (8 * 2 ^ k.val))), (7, fun a b => a >>> (b.toNat % (8 * 2 ^ k.val))),
      (8, fun a b => if a.toNat < b.toNat then a else b), (9, fun a b => if a.toNat < b.toNat then b else a),
      (10, fun a b => if a = b then BitVec.allOnes _ else 0)] : List (Nat × (BitVec (8 * 2 ^ k.val) → BitVec (8 * 2 ^ k.val) → BitVec (8 * 2 ^ k.val)))) →
    ∀ (c : Ctx) (gp : BitVec 3) (d a b : BitVec 5), d.toNat < 16 → a.toNat < 16 → b.toNat < 16 →
      Does (.valu c gp d a b (BitVec.ofNat 8 (64 * k.val + r.1))) c gp fun _ x => x.wv d (mapLanes (8 * 2 ^ k.val) r.2 (x.rv a) (x.rv b))

/-- R261 to R264: the moves, the field operations with the polynomial of R54, the CRC steps and the Keccak round write one register, or
the four of the Keccak state, and nothing else. -/
def Obligations.VectorMovesFieldsAndHashes : Prop :=
  ∀ (c : Ctx) (gp : BitVec 3) (d a b : BitVec 5),
    (d.toNat < 16 → b.toNat < 8 →
      Does (.vectorMove c gp d a b 0) c gp fun _ x => x.wv d (ofLanes ((lanes 64 (x.rv d)).set b.toNat (x.ra a))))
    ∧ (a.toNat < 16 → b.toNat < 8 → Does (.vectorMove c gp d a b 1) c gp fun _ x => x.wa d ((lanes 64 (x.rv a)).getD b.toNat 0))
    ∧ (d.toNat < 16 → Does (.vectorMove c gp d a 0 2) c gp (fun _ x => x.wv d (ofLanes (List.replicate 8 (x.ra a))))
        ∧ Does (.vectorMove c gp d a 0 3) c gp (fun _ x => x.wv d (ofLanes (List.replicate 64 ((x.ra a).setWidth 8)))))
    ∧ (d.toNat < 8 → a.toNat < 16 → Does (.vectorMove c gp d a 0 4) c gp fun _ x => x.wp d.toNat (decide (x.rv a ≠ 0)))
    ∧ (d.toNat < 16 → a.toNat < 16 → b.toNat < 16 →
        Does (.fieldOp c gp d a b 0) c gp (fun _ x => x.wv d (mapLanes 8 gf8 (x.rv a) (x.rv b)))
        ∧ Does (.fieldOp c gp d a b 1) c gp (fun _ x => x.wv d (x.rv d ^^^ mapLanes 8 gf8 (x.rv a) (x.rv b)))
        ∧ Does (.fieldOp c gp d a b 3) c gp (fun _ x =>
            x.wv d (mapLanes 64 (fun p q => BitVec.ofNat 64 (clmul p.toNat q.toNat)) (x.rv a) (x.rv b)))
        ∧ Does (.fieldOp c gp d a b 4) c gp (fun _ x =>
            x.wv d (mapLanes 64 (fun p q => BitVec.ofNat 64 (clmul p.toNat q.toNat / 2 ^ 64)) (x.rv a) (x.rv b))))
    ∧ (d.toNat < 16 → a.toNat < 16 → Does (.fieldOp c gp d a b 2) c gp fun _ x =>
        x.wv d (x.rv d ^^^ ofLanes ((lanes 8 (x.rv a)).map fun e => gf8 e ((x.ra b).setWidth 8))))
    ∧ (a.toNat < 16 → Does (.crcOp c gp d a b 0) c gp (fun _ x => x.wa d (crc64 (x.ra b) (vecBytes (x.rv a))))
        ∧ Does (.crcOp c gp d a b 1) c gp (fun _ x => x.wa d ((crc32 ((x.ra b).setWidth 32) (vecBytes (x.rv a))).setWidth 64)))
    ∧ Does (.crcOp c gp d a b 2) c gp (fun _ x => x.wa d (crc64 (x.ra b) (natLe 8 (x.ra a).toNat)))
    ∧ Does (.crcOp c gp d a b 3) c gp (fun _ x => x.wa d ((crc32 ((x.ra b).setWidth 32) (natLe 8 (x.ra a).toNat)).setWidth 64))
    ∧ Does (.crcOp c gp d a b 4) c gp (fun _ x => x.wa d (crc64 (x.ra b) (natLe 1 (x.ra a).toNat)))
    ∧ Does (.crcOp c gp d a b 5) c gp (fun _ x => x.wa d ((crc32 ((x.ra b).setWidth 32) (natLe 1 (x.ra a).toNat)).setWidth 64))
    ∧ (∀ r : Fin 24, d.toNat = 0 ∨ d.toNat = 4 ∨ d.toNat = 8 ∨ d.toNat = 12 → Does (.keccak c gp d 0 0 (BitVec.ofNat 8 r.val)) c gp fun _ x =>
        let all := ((List.range 4).map fun i => lanes 64 (x.rv (d + BitVec.ofNat 5 i))).flatten
        let new := keccakRound r.val (all.take 25) ++ all.drop 25
        (List.range 4).foldl (fun x i => x.wv (d + BitVec.ofNat 5 i) (ofLanes ((new.drop (8 * i)).take 8))) x)

/-- R245, R246, R257 and R258: an aligned access inside the local-store partition of a Kiosk's task loads or stores its bytes,
little-endian, and changes that context alone; no tile, extent or register of the device. -/
def Obligations.LocalStoreAccesses : Prop :=
  ∀ (c : Ctx) (gp : BitVec 3) (d a : BitVec 5) (imm : BitVec 13) (s : State), s.Runs c → (s.ctx c.val).rp gp.toNat = true → c.val ≠ 4096 →
    (∀ (sz : Size) (off : Nat), ((s.ctx c.val).ra a + imm.signExtend 64).toNat = off → off % sz.bytes = 0 →
      off + sz.bytes ≤ (s.ctx c.val).lsSize → off + sz.bytes ≤ 2 ^ 32 →
      exec (.ld c sz gp d a imm) s = .next (s.setCtx c.val
        ((s.counted c).wa d (BitVec.ofNat 64 (leNat (loadBytes (s.ctx c.val).ls off sz.bytes)))).after)
      ∧ exec (.st c sz gp d a imm) s = .next (s.setCtx c.val
        ({ s.counted c with ls := storeBytes (s.ctx c.val).ls off (natLe sz.bytes ((s.ctx c.val).ra d).toNat) } : CtxSt).after))
    ∧ (∀ off : Nat, ((s.ctx c.val).ra a + 64 * imm.signExtend 64).toNat = off → off % 64 = 0 →
      off + 64 ≤ (s.ctx c.val).lsSize → off + 64 ≤ 2 ^ 32 → d.toNat < 16 →
      exec (.vld c gp d a imm) s = .next (s.setCtx c.val
        ((s.counted c).wv d (bytesVec (loadBytes (s.ctx c.val).ls off 64))).after)
      ∧ exec (.vst c gp d a imm) s = .next (s.setCtx c.val
        ({ s.counted c with ls := storeBytes (s.ctx c.val).ls off (vecBytes ((s.counted c).rv d)) } : CtxSt).after))

/-- R648: where one access breaks several rules, the cause is the first of the order the rule gives, up to the read-only window. R247,
R248, R252, R258: a load or a store whose address is refused, for whichever cause, ends the task with that cause; the same cause for the
vector forms. -/
def Obligations.AccessesAreRefusedInOrder : Prop :=
  (∀ (s : State) (c : Ctx) (x : CtxSt) (addr : Word) (n al : Nat) (wr : Bool), c.val ≠ 4096 → 0 < al →
     let sp := addr.toNat / 2 ^ 32 % 16
     let off := addr.toNat % 2 ^ 32
     (2 ^ 36 ≤ addr.toNat ∨ 9 ≤ sp → s.locate c x addr n al wr = .error .range)
     ∧ (addr.toNat < 2 ^ 36 → sp = 0 →
         (off % al ≠ 0 → s.locate c x addr n al wr = .error .align)
         ∧ (off % al = 0 → x.lsSize < off + n → s.locate c x addr n al wr = .error .range)
         ∧ (off % al = 0 → off + n ≤ x.lsSize → s.locate c x addr n al wr = .ok (.ls off)))
     ∧ (addr.toNat < 2 ^ 36 → 1 ≤ sp → sp ≤ 8 →
         (AMap.find? x.wins (sp - 1) = none → s.locate c x addr n al wr = .error .unmapped)
         ∧ (∀ w, AMap.find? x.wins (sp - 1) = some w →
             (off % al ≠ 0 → s.locate c x addr n al wr = .error .align)
             ∧ (off % al = 0 → w.len < off + n → s.locate c x addr n al wr = .error .range)
             ∧ (off % al = 0 → off + n ≤ w.len → wr = true → w.ro = true → s.locate c x addr n al wr = .error .readOnly)
             ∧ (off % al = 0 → off + n ≤ w.len → (wr = false ∨ w.ro = false) → s.locate c x addr n al wr = .ok (w.at off)))))
  ∧
  (∀ (c : Ctx) (gp : BitVec 3) (d a : BitVec 5) (imm : BitVec 13) (s : State) (k : Cause), s.Runs c → (s.ctx c.val).rp gp.toNat = true →
     (∀ sz : Size, s.locate c (s.counted c) ((s.ctx c.val).ra a + imm.signExtend 64) sz.bytes sz.bytes false = .error k →
       exec (.ld c sz gp d a imm) s = .next (s.raise c k))
     ∧ (∀ sz : Size, s.locate c (s.counted c) ((s.ctx c.val).ra a + imm.signExtend 64) sz.bytes sz.bytes true = .error k →
       exec (.st c sz gp d a imm) s = .next (s.raise c k))
     ∧ (d.toNat < 16 → s.locate c (s.counted c) ((s.ctx c.val).ra a + 64 * imm.signExtend 64) 64 64 false = .error k →
       exec (.vld c gp d a imm) s = .next (s.raise c k))
     ∧ (d.toNat < 16 → s.locate c (s.counted c) ((s.ctx c.val).ra a + 64 * imm.signExtend 64) 64 64 true = .error k →
       exec (.vst c gp d a imm) s = .next (s.raise c k)))

/-! ## Aelo: windows, walks, journal, atomics, cipher (R229, R246 to R248, R265 to R274) -/

/-- R247, R248 and R265: a mapping instruction raises ALIGN, RANGE or ACCESS for a bad mapping, in that order, and otherwise writes
window D and nothing else but the context's own progress; TUNMAP removes the window and keeps the read set and the staged bytes. -/
def Obligations.WindowsMapAfterTheirChecks : Prop :=
  ∀ (c : Ctx) (gp : BitVec 3) (d a b : BitVec 5) (s : State) (t : Task), s.Runs c → (s.ctx c.val).rp gp.toNat = true →
    (s.ctx c.val).task = some t → d.toNat < 8 →
    let x := s.counted c
    let base := ((s.ctx c.val).ra a).toNat
    let n := ((s.ctx c.val).ra b).toNat
    (base % 4096 ≠ 0 → exec (.tmap c gp d a b) s = .next (s.raise c .align) ∧ exec (.tmapr c gp d a b) s = .next (s.raise c .align))
    ∧ (base % 4096 = 0 → n = 0 ∨ 262144 < n ∨ 2 ^ 49 ≤ base ∨ 2 ^ 30 < base % 2 ^ 30 + n * 4096 →
        exec (.tmap c gp d a b) s = .next (s.raise c .range) ∧ exec (.tmapr c gp d a b) s = .next (s.raise c .range))
    ∧ (base % 4096 = 0 → 0 < n → n ≤ 262144 → base < 2 ^ 49 → base % 2 ^ 30 + n * 4096 ≤ 2 ^ 30 →
        let e := s.extent (base / 2 ^ 30)
        (e.state ≠ .assigned ∨ t.tenant ≠ e.owner →
          exec (.tmap c gp d a b) s = .next (s.raise c .access) ∧ exec (.tmapr c gp d a b) s = .next (s.raise c .access))
        ∧ (e.state = .assigned → t.tenant = e.owner →
          exec (.tmap c gp d a b) s = .next (s.setCtx c.val ({ x with wins := AMap.put x.wins d.toNat (.dpa base n false) } : CtxSt).after)
          ∧ exec (.tmapr c gp d a b) s = .next (s.setCtx c.val ({ x with wins := AMap.put x.wins d.toNat (.dpa base n true) } : CtxSt).after)))
    ∧ (base % 2 ^ 20 = 0 → (n = 0 ∨ 192 < n ∨ s.fget R.ORG_WAYMODE.SCRATCH_WAYS * 16 < base / 2 ^ 20 + n → exec (.tmaps c gp d a b) s = .next (s.raise c .range))
        ∧ (0 < n → n ≤ 192 → base / 2 ^ 20 + n ≤ s.fget R.ORG_WAYMODE.SCRATCH_WAYS * 16 →
            ((t.tenant = 0 ∨ ∃ i, i < n ∧ s.fget (R.ORG_SCR_OWNER.TENANT (base / 2 ^ 20 + i)) ≠ t.tenant.toNat) →
              exec (.tmaps c gp d a b) s = .next (s.raise c .access))
            ∧ (t.tenant ≠ 0 → (∀ i, i < n → s.fget (R.ORG_SCR_OWNER.TENANT (base / 2 ^ 20 + i)) = t.tenant.toNat) →
              exec (.tmaps c gp d a b) s = .next (s.setCtx c.val ({ x with wins := AMap.put x.wins d.toNat (.scratch base n) } : CtxSt).after))))
    ∧ exec (.tunmap c gp d 0 0) s = .next (s.setCtx c.val ({ x with wins := AMap.del x.wins d.toNat } : CtxSt).after)

/-- R229, R265 and R266: WALK in the local store declares the plan its bytes hold and writes OK to a[D], or writes MALFORMED and declares
none; WCANCEL ends the context's plan. -/
def Obligations.WalkPlansBeginAndEnd : Prop :=
  ∀ (c : Ctx) (gp : BitVec 3) (d a b : BitVec 5) (s : State) (t : Task) (off : Nat), s.Runs c → (s.ctx c.val).rp gp.toNat = true → c.val ≠ 4096 →
    (s.ctx c.val).task = some t → ((s.ctx c.val).ra a).toNat = off → (s.ctx c.val).lsSize ≤ 65536 → off + 32 ≤ (s.ctx c.val).lsSize →
    let h := loadBytes (s.ctx c.val).ls off 32
    let n := fieldAt h 4 2
    let e := loadBytes (s.ctx c.val).ls (off + 32) (16 * n)
    (∀ p, 1 ≤ n → n ≤ 4096 → off + 32 + 16 * n ≤ (s.ctx c.val).lsSize → parsePlan (h ++ e) t.tenant s.timeNs = some p →
      exec (.walk c gp d a b) s = .next ((s.declarePlan (.ctx c) p).setCtx c.val ((s.counted c).wa d 0).after))
    ∧ (n = 0 ∨ 4096 < n ∨ (off + 32 + 16 * n ≤ (s.ctx c.val).lsSize ∧ parsePlan (h ++ e) t.tenant s.timeNs = none) →
      exec (.walk c gp d a b) s = .next (s.setCtx c.val ((s.counted c).wa d (BitVec.ofNat 64 Status.malformed.code)).after))
    ∧ exec (.wcancel c gp 0 0 0) s = .next ((s.endPlan (.ctx c)).setCtx c.val (s.counted c).after)

/-- R267 and R114: JSTG copies a[B] bytes as stores of them would, out of the local store into it, and raises RANGE for none, for more
than 65,536 and for bytes outside it; JDROP discards every staged byte, gives their frames back and keeps the read set; JFENCE captures
JNL_JSN and waits. -/
def Obligations.JournalInstructionsStageDropAndFence : Prop :=
  ∀ (c : Ctx) (gp : BitVec 3) (d a b : BitVec 5) (s : State), s.Runs c → (s.ctx c.val).rp gp.toNat = true → c.val ≠ 4096 →
    let x := s.counted c
    let n := ((s.ctx c.val).ra b).toNat
    (∀ src dst : Nat, ((s.ctx c.val).ra a).toNat = src → ((s.ctx c.val).ra d).toNat = dst → src < 2 ^ 32 → dst < 2 ^ 32 →
        n = 0 ∨ 65536 < n ∨ x.lsSize < src + n ∨ x.lsSize < dst + n → exec (.jstg c gp d a b) s = .next (s.raise c .range))
    ∧ (∀ src dst : Nat, ((s.ctx c.val).ra a).toNat = src → ((s.ctx c.val).ra d).toNat = dst → 0 < n → n ≤ 65536 → src + n ≤ x.lsSize →
        dst + n ≤ x.lsSize → x.lsSize ≤ 2 ^ 32 →
        exec (.jstg c gp d a b) s = .next (s.setCtx c.val ({ x with ls := storeBytes x.ls dst (loadBytes x.ls src n) } : CtxSt).after))
    ∧ exec (.jdrop c gp 0 0 0) s = .next ((s.stageBack x).setCtx c.val ({ x with staged := [] } : CtxSt).after)
    ∧ exec (.jfence c gp d 0 0) s = .next
        (({ s with jnl := { s.jnl with
              nextId := s.jnl.nextId + 1
              fences := s.jnl.fences ++ [⟨s.jnl.nextId, s.fget R.JNL_JSN.JSN, .task c.val d.toNat⟩] } } : State).setCtx
          c.val { x with wait := .fence s.jnl.nextId })

/-- R246, R248, R270 and R272: an atomic on the scratchpad exchanges its bytes at once and writes the old value to a[D], for 128 bits
also to a[D+1]; CAS stores its new value only over the compare value. No other byte of the scratchpad and no other register changes. R270
and R271: an atomic on device memory forms one DATA record that holds its operation and waits for it; on bytes the task has staged it
raises ATOMIC_STAGED, and in the local store RANGE (R246). -/
def Obligations.AtomicsExchangeOnce : Prop :=
  (∀ (c : Ctx) (gp : BitVec 3) (d a b : BitVec 5) (s : State) (m : Nat), s.Runs c → (s.ctx c.val).rp gp.toNat = true →
     let x := s.counted c
     let new := fun (w : Nat) (op : Rmw) =>
       let bytes := natLe w (rmwResult op w (leNat (loadBytes s.tier.scratch m w)))
       ({ s with tier := { s.tier with scratch := storeBytes s.tier.scratch m bytes } } : State)
     (s.locate c x (x.ra a) 8 8 true = .ok (.scr m) → s.scratchCheck x m 8 = none →
       exec (.cas64 c gp d a b) s = .next ((new 8 (.cas (x.ra d).toNat (x.ra b).toNat)).setCtx c.val
         (x.wa d (BitVec.ofNat 64 (leNat (loadBytes s.tier.scratch m 8)))).after)
       ∧ exec (.fadd64 c gp d a b) s = .next ((new 8 (.add (x.ra b).toNat)).setCtx c.val
         (x.wa d (BitVec.ofNat 64 (leNat (loadBytes s.tier.scratch m 8)))).after))
     ∧ (s.locate c x (x.ra a) 16 16 true = .ok (.scr m) → s.scratchCheck x m 16 = none → d.toNat % 2 = 0 → b.toNat % 2 = 0 →
       let old := leNat (loadBytes s.tier.scratch m 16)
       exec (.cas128 c gp d a b) s = .next ((new 16 (.cas ((x.ra d).toNat + (x.ra (d + 1)).toNat * 2 ^ 64)
           ((x.ra b).toNat + (x.ra (b + 1)).toNat * 2 ^ 64))).setCtx c.val
         ((x.wa d (BitVec.ofNat 64 old)).wa (d + 1) (BitVec.ofNat 64 (old / 2 ^ 64))).after)
       ∧ exec (.fadd128 c gp d a b) s = .next ((new 16 (.add ((x.ra b).toNat + (x.ra (b + 1)).toNat * 2 ^ 64))).setCtx c.val
         ((x.wa d (BitVec.ofNat 64 old)).wa (d + 1) (BitVec.ofNat 64 (old / 2 ^ 64))).after))
     ∧ rmwResult (.cas 5 7) 8 5 = 7 ∧ rmwResult (.cas 5 7) 8 6 = 6 ∧ rmwResult (.add 1) 8 (2 ^ 64 - 1) = 0
     ∧ rmwResult (.add 1) 16 (2 ^ 64 - 1) = 2 ^ 64)
  ∧
  (∀ (c : Ctx) (gp : BitVec 3) (d a b : BitVec 5) (s : State) (t : Task) (m : Nat), s.Runs c → (s.ctx c.val).rp gp.toNat = true →
     (s.ctx c.val).task = some t →
     let x := s.counted c
     (s.locate c x (x.ra a) 8 8 true = .ok (.ls m) →
       exec (.cas64 c gp d a b) s = .next (s.raise c .range) ∧ exec (.fadd64 c gp d a b) s = .next (s.raise c .range))
     ∧ (s.locate c x (x.ra a) 8 8 true = .ok (.dpa m) → s.extentCheck x (m / 4096) true = none →
       ((∃ i, i < 8 ∧ (AMap.find? x.staged (m + i)).isSome = true) → exec (.cas64 c gp d a b) s = .next (s.raise c .atomicStaged))
       ∧ (∀ y, (∀ i, i < 8 → AMap.find? x.staged (m + i) = none) → x.touch (m / 4096) = some y →
         let r : Rmw → Rec := fun op => { id := s.jnl.nextId, body := .rmw (m / 4096) (m % 4096) 8 op, mirror := true, tenant := t.tenant
                                          origin := 3, owner := .atomic c.val d.toNat }
         let out : Rmw → State := fun op =>
           (({ s with jnl := { s.jnl with nextId := s.jnl.nextId + 1, formed := s.jnl.formed ++ [r op] } } : State).setCtx c.val
             { y with wait := .record s.jnl.nextId })
         exec (.cas64 c gp d a b) s = .next (out (.cas (x.ra d).toNat (x.ra b).toNat))
         ∧ exec (.fadd64 c gp d a b) s = .next (out (.add (x.ra b).toNat)))))

/-- R273 and R274: a cipher call whose block and buffers lie in the local store writes the result bytes at the destination and OK to
a[D]; GCM_ENC also writes its nonce into the block and counts it, GCM_DEC of a false tag writes 0x100 and no byte. The cipher functions
of R54, R273 and R449 give the bytes. -/
def Obligations.CipherCallsWriteTheirResult : Prop :=
  ∀ (c : Ctx) (gp : BitVec 3) (d a : BitVec 5) (s : State) (t : Task) (off : Nat), s.Runs c → (s.ctx c.val).rp gp.toNat = true → c.val ≠ 4096 →
    (s.ctx c.val).task = some t → ((s.ctx c.val).ra a).toNat = off → off % 64 = 0 → off + 64 ≤ (s.ctx c.val).lsSize → (s.ctx c.val).lsSize ≤ 65536 →
    let x := s.counted c
    let b := loadBytes x.ls off 64
    let len := fieldAt b 12 4
    let src := fieldAt b 16 8
    let dst := fieldAt b 24 8
    let aadLen := fieldAt b 40 4
    let aad := loadBytes x.ls (fieldAt b 32 8) aadLen
    let lbl := keyLabel (fieldAt b 0 1) t.tenant.toNat (fieldAt b 1 5) (fieldAt b 8 4) 0
    let root := s.taskRoot t.tenant (fieldAt b 0 1)
    let slot := s.keySlot (.label (BitVec.ofNat 256 (beNat lbl)) root.2)
    let out := fun (bytes : Bytes) => (({ x with ls := storeBytes x.ls dst bytes } : CtxSt).wa d 0).after
    (∀ (f : CiphFn) (g : Instr), (f, g) ∈ ([(.gcmEnc, .gcmEnc c gp d a 0 0), (.gcmDec, .gcmDec c gp d a 0 0), (.xtsEnc, .xtsEnc c gp d a 0 0),
        (.xtsDec, .xtsDec c gp d a 0 0), (.cmac, .cmac c gp d a 0 0)] : List (CiphFn × Instr)) →
      (f.purposes.contains (fieldAt b 0 1) = false ∨ s.dbgOpen = true →
        exec g s = .next ((s.sat R.GTH_CNT1.PURPOSE_REFUSED).raise c .cipherPurpose))
      ∧ (f.purposes.contains (fieldAt b 0 1) = true → s.dbgOpen = false → ciphBad f b = true →
          (∀ y, s.touchNamed c x (f.buffers b) = some y →
            exec g s = .next (s.setCtx c.val (y.wa d (BitVec.ofNat 64 Status.malformed.code)).after))
          ∧ (s.touchNamed c x (f.buffers b) = none → exec g s = .next (s.raise c .tileBudget))))
    ∧ (CiphFn.xtsEnc.purposes.contains (fieldAt b 0 1) = true → s.dbgOpen = false → ciphBad .xtsEnc b = false → src + len ≤ x.lsSize →
        dst + len ≤ x.lsSize →
        exec (.xtsEnc c gp d a 0 0) s = .next (slot.2.setCtx c.val (out (xtsEnc (kdf root.1 lbl 512) (slice b 48 16) (loadBytes x.ls src len))))
        ∧ exec (.xtsDec c gp d a 0 0) s = .next (slot.2.setCtx c.val (out (xtsDec (kdf root.1 lbl 512) (slice b 48 16) (loadBytes x.ls src len)))))
    ∧ (CiphFn.cmac.purposes.contains (fieldAt b 0 1) = true → s.dbgOpen = false → ciphBad .cmac b = false → src + len ≤ x.lsSize →
        dst + 16 ≤ x.lsSize →
        exec (.cmac c gp d a 0 0) s = .next (slot.2.setCtx c.val (out (cmac (kdf root.1 lbl 256) (loadBytes x.ls src len)))))
    ∧ (CiphFn.gcmDec.purposes.contains (fieldAt b 0 1) = true → s.dbgOpen = false → ciphBad .gcmDec b = false → src + len + 16 ≤ x.lsSize →
        dst + len ≤ x.lsSize → aadLen = 0 ∨ fieldAt b 32 8 + aadLen ≤ x.lsSize →
        let inp := loadBytes x.ls src (len + 16)
        (∀ p, gcmOpen (kdf root.1 lbl 256) (slice b 48 12) aad (inp.take len) (inp.drop len) = some p →
          exec (.gcmDec c gp d a 0 0) s = .next (slot.2.setCtx c.val (out p)))
        ∧ (gcmOpen (kdf root.1 lbl 256) (slice b 48 12) aad (inp.take len) (inp.drop len) = none →
          exec (.gcmDec c gp d a 0 0) s = .next (slot.2.setCtx c.val (x.wa d 0x100).after)))
    ∧ (CiphFn.gcmEnc.purposes.contains (fieldAt b 0 1) = true → s.dbgOpen = false → ciphBad .gcmEnc b = false → src + len ≤ x.lsSize →
        dst + len + 16 ≤ x.lsSize → aadLen = 0 ∨ fieldAt b 32 8 + aadLen ≤ x.lsSize → AMap.get 0 s.gth.counters slot.1 ≠ nonceEnd →
        let iv := s.taskNonce slot.1
        let e := gcmSeal (kdf root.1 lbl 256) iv aad (loadBytes x.ls src len)
        exec (.gcmEnc c gp d a 0 0) s = .next
          (({ slot.2 with gth := { slot.2.gth with
              counters := AMap.set 0 slot.2.gth.counters slot.1 (AMap.get 0 slot.2.gth.counters slot.1 + 1) } } : State).setCtx c.val
            (({ x with ls := storeBytes (storeBytes x.ls dst (e.1 ++ e.2)) (off + 48) iv } : CtxSt).wa d 0).after))

/-! ## Aelo: gates, messages, children, ends (R254, R268, R269, R275 to R281, R300) -/

/-- R275: GPOLL reads a gate counter, GADD adds to one, GWAIT reads it once it has reached a[A] and waits until then; a wait that is over
reads it too. -/
def Obligations.GatesCountAndWait : Prop :=
  ∀ (c : Ctx) (gp : BitVec 3) (d a : BitVec 5) (g : Fin 4) (s : State),
    (s.Runs c → (s.ctx c.val).rp gp.toNat = true →
      let x := s.counted c
      let b := BitVec.ofNat 5 g.val
      exec (.gpoll c gp d 0 b) s = .next (s.setCtx c.val (x.wa d (x.rg g.val)).after)
      ∧ exec (.gadd c gp 0 a b) s = .next (s.setCtx c.val (x.wg g.val (x.rg g.val + x.ra a)).after)
      ∧ ((x.ra a).toNat ≤ (x.rg g.val).toNat → exec (.gwait c gp d a b) s = .next (s.setCtx c.val (x.wa d (x.rg g.val)).after))
      ∧ ((x.rg g.val).toNat < (x.ra a).toNat →
          exec (.gwait c gp d a b) s = .next (s.setCtx c.val { x with wait := .gate g.val (x.ra a) d.toNat })))
    ∧ (∀ v : Word, (s.ctx c.val).wait = .gate g.val v d.toNat →
        (v.toNat ≤ ((s.ctx c.val).rg g.val).toNat → exec (.taskWaitEnd c) s = .next (s.setCtx c.val
          ((({ s.ctx c.val with wait := .none } : CtxSt).wa d ((s.ctx c.val).rg g.val)).after)))
        ∧ (((s.ctx c.val).rg g.val).toNat < v.toNat → exec (.taskWaitEnd c) s = .next s))

/-- R275 and R276: GRECV takes the oldest message with its tag, or the oldest for tag 0, and waits where there is none; GPOST puts a
message at the end of the inbox of a running task of the same tenant, and answers NOSPACE for a full inbox and ACCESS for no such task.
R277, R278 and R296: SPAWN of a good RUN descriptor in the local store queues one child of the task in its queue and writes the child's
number to a[D]; with 16 children, a descriptor that is no RUN or fails its checks, or no room, it writes 0 and queues nothing. A message
held for the parent enters its inbox when it has room. -/
def Obligations.MessagesAndChildren : Prop :=
  (∀ (c : Ctx) (gp : BitVec 3) (d a b : BitVec 5) (s : State), s.Runs c → (s.ctx c.val).rp gp.toNat = true →
     let x := s.counted c
     let tag := (x.ra a).toNat % 2 ^ 32
     (∀ l m r, x.inbox = l ++ m :: r → tag = 0 ∨ m.toNat / 2 ^ 32 = tag → (∀ k ∈ l, tag ≠ 0 ∧ k.toNat / 2 ^ 32 ≠ tag) →
       exec (.grecv c gp d a 0) s = .next (s.setCtx c.val (({ x with inbox := l ++ r } : CtxSt).wa d m).after))
     ∧ ((∀ k ∈ x.inbox, tag ≠ 0 ∧ k.toNat / 2 ^ 32 ≠ tag) →
       exec (.grecv c gp d a 0) s = .next (s.setCtx c.val { x with wait := .msg tag d.toNat }))
     ∧ (∀ e : Nat, s.ctxOfTask (x.ra a).toNat = some e → e ≠ c.val → (s.ctx e).task.map (·.tenant) = x.task.map (·.tenant) →
         ((s.ctx e).inbox.length < inboxSize → exec (.gpost c gp d a b) s = .next
           ((s.setCtx e { s.ctx e with inbox := (s.ctx e).inbox ++ [x.ra b] }).setCtx c.val (x.wa d 0).after))
         ∧ (inboxSize ≤ (s.ctx e).inbox.length → exec (.gpost c gp d a b) s = .next
           (s.setCtx c.val (x.wa d (BitVec.ofNat 64 Status.nospace.code)).after)))
     ∧ (s.ctxOfTask (x.ra a).toNat = none → exec (.gpost c gp d a b) s = .next
         (s.setCtx c.val (x.wa d (BitVec.ofNat 64 Status.access.code)).after)))
  ∧
  ((∀ (c : Ctx) (gp : BitVec 3) (d a : BitVec 5) (g : Fin 4) (s : State) (t : Task) (off : Nat), s.Runs c → (s.ctx c.val).rp gp.toNat = true →
     (s.ctx c.val).task = some t → c.val ≠ 4096 → ((s.ctx c.val).ra a).toNat = off → off + 128 ≤ (s.ctx c.val).lsSize →
     (s.ctx c.val).lsSize ≤ 65536 →
     let x := s.counted c
     let desc := loadBytes x.ls off 128
     (16 ≤ x.children ∨ (descOf desc).kind ≠ 0 ∨ s.descOk t.queue desc = false ∨ s.queueRoom t.queue 1 = false →
       exec (.spawn c gp d a (BitVec.ofNat 5 g.val)) s = .next (s.setCtx c.val (x.wa d 0).after))
     ∧ (x.children < 16 → (descOf desc).kind = 0 → s.descOk t.queue desc = true → s.queueRoom t.queue 1 = true →
       ∃ u, exec (.spawn c gp d a (BitVec.ofNat 5 g.val)) s = .next u ∧
         let num := t.queue * 2 ^ 54 + AMap.get 1 s.ksk.seq t.queue
         u.ksk.pool = s.ksk.pool ++ [(descOf desc).task num t.queue t.tenant (some (t.num, g.val))]
         ∧ u.ctx c.val = (({ x with children := x.children + 1 } : CtxSt).wa d (BitVec.ofNat 64 num)).after
         ∧ u.fget R.KSK_STAT.POOL_USED = (s.fget R.KSK_STAT.POOL_USED + 1) % 2 ^ 16
         ∧ AMap.get 1 u.ksk.seq t.queue = AMap.get 1 s.ksk.seq t.queue + 1
         ∧ (∀ e, e ≠ c.val → u.ctx e = s.ctx e) ∧ u.tier = s.tier ∧ u.jnl = s.jnl ∧ u.ext = s.ext ∧ u.gen = s.gen))
   ∧ (∀ (c : Ctx) (s : State) (m : Word) (r : List Word), (s.ctx c.val).held = m :: r →
     ((s.ctx c.val).inbox.length < inboxSize → exec (.childMsgDeliver c) s = .next
       (s.setCtx c.val { s.ctx c.val with inbox := (s.ctx c.val).inbox ++ [m], held := r }))
     ∧ (inboxSize ≤ (s.ctx c.val).inbox.length → exec (.childMsgDeliver c) s = .next s)))

/-- R279, R280 and R301: ABORT ends the task with ABORTED, cause 0 and result a[A]; a task without an instruction left ends with LIMIT
and cause INSN_BUDGET, and one whose run time is over with LIMIT and cause TIME_BUDGET. R280, R281, R300 and R611: the end of a task
frees its context, which holds nothing of the task after it, and leaves every other context's registers as they are. -/
def Obligations.TasksEndAndFreeTheirContext : Prop :=
  ((∀ (c : Ctx) (gp : BitVec 3) (d a b : BitVec 5) (s : State), s.Runs c → (s.ctx c.val).rp gp.toNat = true → c.val ≠ 4096 →
     exec (.abort c gp d a b) s = .next (s.endTask c.val .aborted 0 ((s.ctx c.val).ra a).toNat))
   ∧ (∀ (c : Ctx) (s : State), c.val ≠ 4096 → (s.ctx c.val).task.isSome = true → (s.ctx c.val).wait = .none → (s.ctx c.val).charged = false →
     (s.ctx c.val).insnLeft = 0 → exec (.insnBudget c) s = .next (s.endTask c.val .limit 0x10 0))
   ∧ (∀ (c : Ctx) (s : State), c.val ≠ 4096 → exec (.timeBudget c) s = .next (s.stopTask c.val .limit 0x12)))
  ∧
  (∀ (s : State) (c : Nat) (st : Status) (cause result : Nat) (t : Task), (s.ctx c).task = some t → t.parent = none →
     ((s.endTask c st cause result).ctx c = {})
     ∧ ∀ e, e ≠ c → ((s.endTask c st cause result).ctx e).a = (s.ctx e).a ∧ ((s.endTask c st cause result).ctx e).v = (s.ctx e).v
         ∧ ((s.endTask c st cause result).ctx e).p = (s.ctx e).p ∧ ((s.endTask c st cause result).ctx e).pc = (s.ctx e).pc
         ∧ ((s.endTask c st cause result).ctx e).ls = (s.ctx e).ls ∧ ((s.endTask c st cause result).ctx e).staged = (s.ctx e).staged)

/-- R47, R254, R268 and R269: COMMIT of a Kiosk's task with nothing staged ends it with OK and result a[A] where its read set still holds
and with CONFLICT where it does not; one too large for a record ends with LIMIT; one that writes an extent whose home is the twin ends
with CONFLICT; any other forms one DATA record of the staged segments with the task's read set and waits. On the Belvedere (R317, R649)
stores that a check refuses end the program with MALFORMED and none is applied; a setup program whose stores pass is over before they are
applied in program order, and the first that ends leaves SETUP for RUNNING. -/
def Obligations.CommitFormsOneRecord : Prop :=
  (∀ (c : Ctx) (gp : BitVec 3) (a : BitVec 5) (s : State) (t : Task), s.Runs c → (s.ctx c.val).rp gp.toNat = true → c.val ≠ 4096 →
    (s.ctx c.val).task = some t →
    let x := s.counted c
    (x.staged = [] → s.readSetOk x.readSet = true → exec (.commit c gp 0 a 0) s = .next (s.endTask c.val .ok 0 (x.ra a).toNat))
    ∧ (x.staged = [] → s.readSetOk x.readSet = false → exec (.commit c gp 0 a 0) s = .next (s.endTask c.val .conflict 0 0))
    ∧ (x.staged ≠ [] → commitTooLarge x = true → exec (.commit c gp 0 a 0) s = .next (s.endTask c.val .limit 0 0))
    ∧ (x.staged ≠ [] → commitTooLarge x = false → (∃ g ∈ stagedSegs x.staged, s.homeHere (extOf g.tile) = false) →
        exec (.commit c gp 0 a 0) s = .next (s.endTask c.val .conflict 0 0))
    ∧ (x.staged ≠ [] → commitTooLarge x = false → (∀ g ∈ stagedSegs x.staged, s.homeHere (extOf g.tile) = true) →
        ∃ u, exec (.commit c gp 0 a 0) s = .next u ∧
          u.jnl.formed = s.jnl.formed ++ [{ id := s.jnl.nextId, body := .data (stagedSegs x.staged), mirror := true, tenant := t.tenant, origin := 3
                                            owner := .ops [x.tag], readSet := x.readSet }]
          ∧ u.ctx c.val = { x with wait := .commit s.jnl.nextId } ∧ (∀ e, e ≠ c.val → u.ctx e = s.ctx e)
          ∧ u.ctl = s.ctl ∧ u.ext = s.ext ∧ u.gen = s.gen ∧ u.tier = s.tier ∧ u.out = s.out))
  ∧ (∀ (c : Ctx) (gp : BitVec 3) (a : BitVec 5) (s : State) (t : Task), s.Runs c → (s.ctx c.val).rp gp.toNat = true → c.val = 4096 →
    (s.ctx c.val).task = some t →
    ((s.storesOk s.ksk.stores && s.mapsOk s.ksk.stores) = false → exec (.commit c gp 0 a 0) s = .next (s.belvEnd .malformed))
    ∧ ((s.storesOk s.ksk.stores && s.mapsOk s.ksk.stores) = true → s.ksk.mgmtSrc = none →
        let v := (s.endPlan (.ctx 4096)).setCtx 4096 {}
        let u := (({ v with ksk := { v.ksk with stores := [], mgmtSrc := none, mgmtWait := v.ksk.mgmtWait } } : State).applyStores t.num s.ksk.stores).1
        exec (.commit c gp 0 a 0) s = .next (if u.fget R.SUP_BOOT_STAT.STATE = 1 then u.fset R.SUP_BOOT_STAT.STATE 2 else u)))

/-! ## Tasks (R242, R296 to R322) -/

/-- R242, R298, R299 and R301: the task whose turn it is starts on the place found for it, with its arguments in a1 to a8, every other
register 0, pc 0 and its budgets; it leaves the pool, and no other context changes. A task whose program is not its tenant's, or not
loaded, does not start: it completes with ACCESS. A management descriptor starts on the Belvedere when that runs nothing; one of a
program that the library does not hold, or that is a SETUP program, completes with ACCESS. -/
def Obligations.TasksStartWithTheirArguments : Prop :=
  (∀ (sq : Fin 16) (s : State) (q turn c base : Nat) (t : Task), s.pickQueue sq.val = some (q, turn) → s.startable sq.val q = some (t, c, base) →
    s.HasRoom .tasks → t.queue < 1024 → t.prog < 1024 → c < 4096 →
    s.fget (R.KSK_PROG0.STATE t.prog) = 2 ∨ s.fget (R.KSK_PROG0.STATE t.prog) = 3 → s.fget (R.KSK_PROG0.OWNER t.prog) = t.tenant.toNat →
    ∃ u, exec (.taskStart sq) s = .next u ∧
      u.ctx c = { task := some { t with slot := s.fget (R.KSK_PROG0.SLOT t.prog) }
                  tag := s.newTag .tasks
                  a := t.args.zipIdx.foldl (fun m p => AMap.set 0 m (p.2 + 1) p.1) []
                  lsBase := base
                  lsSize := 4096 * 2 ^ s.fget (R.KSK_QCFG0.LS_SIZE t.queue)
                  insnLeft := if t.insn = 0 then s.fget (R.KSK_QCFG1.INSN_DEF t.queue) else t.insn
                  tilesLeft := if t.tiles = 0 then s.fget (R.KSK_QCFG1.TILES_DEF t.queue) else t.tiles
                  endNs := s.timeNs + (if t.timeUs = 0 then s.fget (R.KSK_QCFG1.TIME_DEF_US t.queue) else t.timeUs) * 1000 }
      ∧ (∀ e, e ≠ c → u.ctx e = s.ctx e)
      ∧ u.ksk.pool = s.ksk.pool.filter (fun v => v.num ≠ t.num)
      ∧ u.fget (R.KSK_QSTAT.RUNNING t.queue) = (s.fget (R.KSK_QSTAT.RUNNING t.queue) + 1) % 2 ^ (R.KSK_QSTAT.RUNNING t.queue).wid
      ∧ u.jnl = s.jnl ∧ u.ext = s.ext ∧ u.gen = s.gen ∧ u.out = s.out)
  ∧ (∀ (sq : Fin 16) (s : State) (q turn c base : Nat) (t : Task), s.pickQueue sq.val = some (q, turn) → s.startable sq.val q = some (t, c, base) →
    s.HasRoom .tasks → t.queue < 1024 → t.prog < 1024 →
    (s.fget (R.KSK_PROG0.STATE t.prog) ≠ 2 ∧ s.fget (R.KSK_PROG0.STATE t.prog) ≠ 3) ∨ s.fget (R.KSK_PROG0.OWNER t.prog) ≠ t.tenant.toNat →
    let v := s.entered .tasks { kind := .task t 0 }
    let w : State := { v with ksk := { v.ksk with rr := AMap.set (0, 0) v.ksk.rr sq.val (q, turn), pool := v.ksk.pool.filter fun u => u.num ≠ t.num } }
    exec (.taskStart sq) s = .next (((w.poolDown t.queue).taskDone t (some (s.newTag .tasks)) .access 0 0 0x06).settleEntry (s.newTag .tasks)))
  ∧ (∀ (sq : Fin 16) (s : State), (s.pickQueue sq.val = none ∨ ¬ s.HasRoom .tasks) → exec (.taskStart sq) s = .next s)
  ∧ (∀ (s : State) (t : Task) (src : MgmtSrc) (rest : List (Task × MgmtSrc)), s.fget R.SUP_BOOT_STAT.STATE = 2 → (s.ctx 4096).task = none →
    s.ksk.mgmtWait = none → s.ksk.mgmt = (t, src) :: rest → t.prog < 256 → (s.progFlags t.prog).any (fun f => f.testBit 1) = false →
    exec .mgmtTaskStart s = .next (({ s with ksk := { s.ksk with mgmt := rest, mgmtSrc := some src, stores := [] } } : State).setCtx 4096
      { task := some t, a := t.args.zipIdx.foldl (fun m p => AMap.set 0 m (p.2 + 1) p.1) [] }))
  ∧ (∀ (s : State) (t : Task) (src : MgmtSrc) (rest : List (Task × MgmtSrc)), s.fget R.SUP_BOOT_STAT.STATE = 2 → (s.ctx 4096).task = none →
    s.ksk.mgmtWait = none → s.ksk.mgmt = (t, src) :: rest → 256 ≤ t.prog ∨ (s.progFlags t.prog).any (fun f => f.testBit 1) = true →
    exec .mgmtTaskStart s = .next (({ s with ksk := { s.ksk with mgmt := rest } } : State).mgmtDone t src .access))

/-- R308 to R313: a LOAD starts in its tenant's program, its completed image becomes current in one step when its CRC is right and the
LOAD fails with MALFORMED otherwise, a LOAD that waited for tasks on the old image goes on once none runs, and CLEAR empties a program
that is ACTIVE or MISSING. R303, R319, R321 and R322: a CANCEL ends the queued task it names and completes with OK, or with ACCESS where
the queue has no such task; ENABLE 0 leaves no task and no LOAD of the queue waiting; FENCE and RESTORE of a Kiosk change its STATE, and
are refused where they do not fit. -/
def Obligations.ProgramsAndQueuesGoOn : Prop :=
  (∀ (p : Fin 1024) (s : State),
     (∀ (t : Task) (dpa len : Nat) (crc : Word), s.ksk.loads.find? (fun l => l.1.prog == p.val) = some (t, dpa, len, crc) → (s.prog p.val).job = none →
       let less : State := { s with ksk := { s.ksk with loads := s.ksk.loads.erase (t, dpa, len, crc) } }
       (s.fget (R.KSK_PROG0.OWNER p.val) ≠ t.tenant.toNat →
         exec (.loadDescriptor p) s = .next (((less.poolDown t.queue).descDone t 0x02 .access).queueSettle t.queue))
       ∧ (s.fget (R.KSK_PROG0.OWNER p.val) = t.tenant.toNat → s.HasRoom .tasks →
         let v := s.entered .tasks { kind := .load p.val }
         exec (.loadDescriptor p) s = .next (((({ v with ksk := { v.ksk with loads := s.ksk.loads.erase (t, dpa, len, crc) } } : State).poolDown
           t.queue).queueSettle t.queue).beginLoad p.val t (s.newTag .tasks) dpa len crc)))
     ∧ (∀ j : LoadJob, (s.prog p.val).job = some j → j.status = none → j.len ≤ j.got.length →
         (crc64 0 j.got = j.crc → exec (.loadComplete p) s = .next ((s.flipProg p.val j).loadEnd p.val .ok)
           ∧ (s.flipProg p.val j).fget (R.KSK_PROG0.STATE p.val) = 2
           ∧ (s.flipProg p.val j).fget (R.KSK_PROG1.RUN_CUR p.val) = 0
           ∧ (s.fget (R.KSK_PROG0.SLOT p.val) = 0 → ((s.flipProg p.val j).prog p.val).img1 = j.got
               ∧ ((s.flipProg p.val j).prog p.val).img0 = (s.prog p.val).img0)
           ∧ (s.fget (R.KSK_PROG0.SLOT p.val) = 1 → ((s.flipProg p.val j).prog p.val).img0 = j.got
               ∧ ((s.flipProg p.val j).prog p.val).img1 = (s.prog p.val).img1))
         ∧ (crc64 0 j.got ≠ j.crc → exec (.loadComplete p) s = .next (s.loadEnd p.val .malformed)))
     ∧ (∀ (j : LoadJob) (st : Status), (s.prog p.val).job = some j → j.status = some st → exec (.loadComplete p) s = .next (s.loadEnd p.val st))
     ∧ (∀ j : LoadJob, (s.prog p.val).job = some j → j.waiting = true → s.fget (R.KSK_PROG1.RUN_OLD p.val) = 0 →
         exec (.loadOldImageFreed p) s = .next ((s.setProg p.val { s.prog p.val with job := some { j with waiting := false } }).loadPump p.val))
     ∧ (s.fget (R.KSK_PROG0.STATE p.val) = 2 ∨ s.fget (R.KSK_PROG0.STATE p.val) = 4 → ∃ u, exec (.programClear p) s = .next u ∧
         u.fget (R.KSK_PROG0.STATE p.val) = 0 ∧ u.fget (R.KSK_PROG1.LEN_WORDS p.val) = 0 ∧ (u.prog p.val).img0 = (s.prog p.val).img0
         ∧ u.ksk.ctx = s.ksk.ctx ∧ (∀ o, o ≠ p.val → u.prog o = s.prog o) ∧ u.out = s.out)
     ∧ (s.fget (R.KSK_PROG0.STATE p.val) ≠ 2 → s.fget (R.KSK_PROG0.STATE p.val) ≠ 4 →
         exec (.programClear p) s = .next (s.fput R.KSK_STAT.CMD_REFUSED true)))
  ∧
  ((∀ (q : Fin 1024) (s : State) (num : Nat) (t : Task), s.ksk.cancels.find? (fun c => c.1 == q.val) = some (q.val, num, t) →
     let less : State := { s with ksk := { s.ksk with cancels := s.ksk.cancels.erase (q.val, num, t) } }
     (∀ w, s.ksk.pool.find? (fun v => v.num == num && v.queue == q.val) = some w →
       exec (.cancelDescriptor q) s = .next ((((less.dropQueued w .aborted).poolDown q.val).descDone t 0x03 .ok).queueSettle q.val))
     ∧ (s.ksk.pool.find? (fun v => v.num == num && v.queue == q.val) = none → s.ctxOfTask num = none →
       exec (.cancelDescriptor q) s = .next (((less.poolDown q.val).descDone t 0x03 .access).queueSettle q.val))
     ∧ (∀ c, s.ksk.pool.find? (fun v => v.num == num && v.queue == q.val) = none → s.ctxOfTask num = some c →
         (s.ctx c).task.any (fun v => v.queue == q.val) = true →
       exec (.cancelDescriptor q) s = .next ((((less.stopTask c .aborted 0).poolDown q.val).descDone t 0x03 .ok).queueSettle q.val)))
   ∧ (∀ (q : Fin 1024) (s : State), s.fget (R.KSK_QSTAT.STATE q.val) = 1 → ∃ u, exec (.queueDisable q) s = .next u ∧
       u.fget (R.KSK_QCFG0.ENABLE q.val) = 0 ∧ (∀ l ∈ u.ksk.loads, l.1.queue ≠ q.val) ∧ (∀ l ∈ s.ksk.loads, l.1.queue ≠ q.val → l ∈ u.ksk.loads)
       ∧ u.gen = s.gen ∧ u.ext = s.ext ∧ u.jnl = s.jnl)
   ∧ (∀ (k : Fin 512) (s : State),
       (s.fget (R.KSK_KIOSK_STAT.STATE k.val) = 0 → s.fget (R.KSK_KIOSK_STAT.CTX_BUSY k.val) ≠ 0 → ∃ u, exec (.kioskFence k) s = .next u ∧
           u.fget (R.KSK_KIOSK_STAT.STATE k.val) = 1 ∧ u.ksk = s.ksk)
       ∧ (s.fget (R.KSK_KIOSK_STAT.STATE k.val) = 0 → s.fget (R.KSK_KIOSK_STAT.CTX_BUSY k.val) = 0 → ∃ u, exec (.kioskFence k) s = .next u ∧
           u.fget (R.KSK_KIOSK_STAT.STATE k.val) = 2 ∧ u.ksk = s.ksk)
       ∧ (s.fget (R.KSK_KIOSK_STAT.STATE k.val) ≠ 0 → exec (.kioskFence k) s = .next (s.fput R.KSK_STAT.CMD_REFUSED true))
       ∧ (s.fget (R.KSK_KIOSK_STAT.STATE k.val) = 2 → ∃ u, exec (.kioskRestore k) s = .next u ∧
           u.fget (R.KSK_KIOSK_STAT.STATE k.val) = 0 ∧ u.ksk = s.ksk ∧ u.tst = s.tst ∧ u.out = s.out)
       ∧ (s.fget (R.KSK_KIOSK_STAT.STATE k.val) ≠ 2 → exec (.kioskRestore k) s = .next (s.fput R.KSK_STAT.CMD_REFUSED true))))

/-! ## Journal (R76 to R130) -/

/-- R100, R73, R94, R96, R104 and R120: a submitted record that passes its early checks on the device that admits it gets its granules
and index entries, or waits for them; one that fails a check that no leaf can change, or comes after commitment, leaves every list and
its owner hears why. A record that waited gets both once both are there. A management program that ends with a change of an extent forms
that record. R100 step 4, R47, R73, R105 and R109: at the sequencer step a record that passes the checks again and whose read set holds
is admitted, an atomic as the bytes it computes from those it finds; one whose read set no longer holds ends with CONFLICT, one that a
check refuses with that status; a record of the twin's waits for every earlier PAIR_SEQ, one that mirror lag holds or whose checks need a
leaf waits too. -/
def Obligations.RecordsAreAdmittedInOrder : Prop :=
  (∀ (id : Nat) (s : State) (r : Rec),
     (s.jnl.formed.find? (fun q => q.id == id) = some r →
       (s.jnl.closed = true → exec (.recordSubmit (.formed id)) s = .next ((s.dropRec r.id).refuseRec r .aborted))
       ∧ (s.jnl.closed = false → s.jnlState = 2 → s.awayFrom r = false →
         (s.recCheck r = none → exec (.recordSubmit (.formed id)) s = .next ((s.dropRec r.id).reserveRec r))
         ∧ (∀ st, s.recCheck r = some st →
             (s.leafNeeded r ≠ none → exec (.recordSubmit (.formed id)) s = .next ((s.dropRec r.id).reserveRec r))
             ∧ (s.leafNeeded r = none → r.twin = false → exec (.recordSubmit (.formed id)) s = .next ((s.dropRec r.id).refuseRec r st))
             ∧ (s.leafNeeded r = none → r.twin = true →
                 exec (.recordSubmit (.formed id)) s = .next (((s.dropRec r.id).refuseRec r st).rackTwin r.pairSeq)))))
     ∧ (s.jnl.waiting.find? (fun q => q.id == id) = some r → s.recRoom r = false → exec (.recordSpaceGranted id) s = .next s)
     ∧ (s.jnl.waiting.find? (fun q => q.id == id) = some r → s.recRoom r = true →
         exec (.recordSpaceGranted id) s = .next ((s.dropRec id).reserveRec r)
         ∧ ((s.dropRec id).reserveRec r).jnl.waiting = s.jnl.waiting.filter (fun q => q.id ≠ id)
         ∧ ((s.dropRec id).reserveRec r).jnl.reserved =
             s.jnl.reserved.filter (fun q => q.id ≠ id) ++ [{ r with pos := s.placeFor r.body.granules }]
         ∧ ((s.dropRec id).reserveRec r).jnl.head = s.placeFor r.body.granules + r.body.granules
         ∧ ((s.dropRec id).reserveRec r).jnl.recs = s.jnl.recs)
     ∧ (∀ c : ExtChange, (s.ctx 4096).task = none → exec (.recordSubmit (.change c)) s = .next s)
     ∧ (∀ (c : ExtChange) (t : Task) (src : MgmtSrc), (s.ctx 4096).task = some t → s.ksk.mgmtSrc = some src →
         let e := (s.endPlan (.ctx 4096)).setCtx 4096 {}
         let v : State := { e with ksk := { e.ksk with stores := [], mgmtSrc := none, mgmtWait := some (t, src) } }
         let q : Rec := { id := 0, body := changeBody c, mirror := true, tenant := 0, origin := 4, owner := .mgmt t.num }
         exec (.recordSubmit (.change c)) s = .next ((v.formRec q).2.submitRec { q with id := (v.formRec q).1 })))
  ∧
  (∀ (id : Nat) (s : State) (r : Rec), s.jnl.reserved.find? (fun q => q.id == id) = some r → s.jnlState = 2 → s.jnl.closed = false →
     (s.lagHolds r = true → exec (.recordSequencerStep id) s = .next s)
     ∧ (r.twin = true → (∃ q ∈ s.jnl.formed ++ s.jnl.waiting ++ s.jnl.reserved, q.twin = true ∧ q.pairSeq < r.pairSeq) →
       exec (.recordSequencerStep id) s = .next s)
     ∧ (r.twin = false → s.lagHolds r = false → s.awayFrom r = false →
       (∀ t, s.leafNeeded r = some t → exec (.recordSequencerStep id) s = .next (s.askLeaf t (.recLeaf r.id)))
       ∧ (s.leafNeeded r = none →
         (∀ st, s.recCheck r = some st → exec (.recordSequencerStep id) s = .next ((s.dropRec r.id).refuseRec r st))
         ∧ (s.recCheck r = none → s.readSetOk r.readSet = false →
             exec (.recordSequencerStep id) s = .next ((s.dropRec r.id).refuseRec r .conflict))
         ∧ (∀ segs, s.recCheck r = none → s.readSetOk r.readSet = true → r.body = .data segs → s.oldWanted r = none →
             exec (.recordSequencerStep id) s = .next (((s.dropRec r.id).enter r).ownerAdmitted r 0 0))
         ∧ (∀ t off w op b, s.recCheck r = none → s.readSetOk r.readSet = true → r.body = .rmw t off w op → s.atomBytes r t = .data b →
             let old := fieldAt b off w
             exec (.recordSequencerStep id) s = .next (((s.dropRec r.id).enter
               { r with body := .data [⟨t, off, natLe w (rmwResult op w old)⟩] }).ownerAdmitted r old w)))))

/-- R107, R109 and R148: LAG_AGE_BOUND pauses admission while a record is unacknowledged; R31, R67 and R94: RELEASE_FINISH admits the
record that frees an extent in RECLAIMING once no operation on it is left, and the one of its emptied table tile after it, or lets it
wait; R114: a fence that the watermark has reached ends, one it has not goes on. R117 to R119, R76, R82 and R94: RETIREMENT_START begins
the oldest tile's retirement with an entry of its own once it is eligible; RETIREMENT_COMPLETE, once every lane has acknowledged and the
record of its entry has room, is the step that moves the table entry; ATTR_PERSIST_DONE puts the oldest ATTR record's change into system
space and retires it; ROOT_RECORD_PROGRAM puts the newest root record into flash. -/
def Obligations.LagFencesAndRetirement : Prop :=
  (∀ s : State,
     (s.jnl.unacked ≠ [] → s.mirrors = true → exec .lagAgeBound s = .next (s.noteLag.lagPause true)
       ∧ (s.noteLag.lagPause true).jnl.lagPaused = true)
     ∧ (s.jnl.unacked = [] → exec .lagAgeBound s = .next s)
     ∧ (∀ e : Fin 524288, (s.jnlOpen = false ∨ (s.extent e.val).state ≠ .reclaiming ∨ s.extentBusy e.val = true →
           exec (.releaseFinish e) s = .next s)
         ∧ (s.jnlOpen = true → s.homeHere e.val = true → s.prmState ≠ 4 → (s.extent e.val).state = .reclaiming → s.extentBusy e.val = false →
           s.freeing e.val = false →
             let b : Body := .attr (.freed e.val)
             let r : Rec := { id := s.jnl.nextId, body := b, mirror := true, tenant := 0, origin := 6, owner := .engine }
             let u : State := { s with jnl := { s.jnl with nextId := s.jnl.nextId + 1 } }
             (s.recRoom r = true → exec (.releaseFinish e) s = .next (((u.takePlace b.granules).enter
                 { r with pos := s.placeFor b.granules }).admitOwn (.table (childOf (sysBase + lvl1 + e.val) 0) {})))
             ∧ (s.recRoom r = false → exec (.releaseFinish e) s = .next (u.letWait r))))
     ∧ (∀ (id : Nat) (f : Fence), s.jnl.fences.find? (fun q => q.id == id) = some f →
         let less : State := { s with jnl := { s.jnl with fences := s.jnl.fences.filter (fun q => q.id ≠ f.id) } }
         (s.fenceReached f = false → exec (.fenceComplete id) s = .next s)
         ∧ (∀ p, s.fenceReached f = true → f.owner = .gpf p → exec (.fenceComplete id) s = .next (less.emit (.gpfDone p (s.say .ok))))
         ∧ (∀ c d, s.fenceReached f = true → f.owner = .task c d → (s.ctx c).wait = .fence f.id →
             let x := s.ctx c
             exec (.fenceComplete id) s = .next (less.setCtx c
               { x with a := if d = 0 then x.a else AMap.set 0 x.a d (BitVec.ofNat 64 (s.say .ok).code), pc := x.pc + 4, wait := .none
                        charged := false, fills := [] }))
         ∧ (∀ tag, s.fenceReached f = true → f.owner = .flush tag → exec (.fenceComplete id) s = .next (less.resolve tag .ok))))
  ∧
  (∀ s : State,
     (∀ t : Nat, s.jnlOpen = true → s.flag R.SUP_START_STAT.SERVING = true → s.retireTurn t = true → s.retireDue t = true → s.remote t = false →
       s.isMoving t = false → s.fetchOf t = none → s.readsLeft t = false → s.HasRoom .maint →
       exec (.retirementStart t) s = .next ((s.entered .maint { kind := .maint t }).beginRetire t (s.newTag .maint)))
     ∧ (∀ t : Nat, s.retireTurn t = false ∨ s.retireDue t = false → exec (.retirementStart t) s = .next s)
     ∧ (∀ (t : Nat) (r : Retire), s.retireOf t = some r →
       (r.reading = true ∨ r.lanes ≠ [] ∨ s.entryFits t = false → exec (.retirementComplete t) s = .next s)
       ∧ (r.reading = false → r.lanes = [] → s.entryFits t = true → exec (.retirementComplete t) s = .next (s.finishRetire r).tryDrain))
     ∧ (∀ (l m : List Rec) (r : Rec) (a : Attr), s.jnl.recs = l ++ r :: m → r.body = .attr a → (∀ q ∈ l, ∀ b, q.body ≠ .attr b) →
       ∃ t, exec .attrPersistDone s = .next t ∧ t.persist = s.persist.take a ∧ t.jnl.recs = s.jnl.recs.filter (fun q => q.id ≠ r.id)
         ∧ t.ext = s.ext ∧ t.gen = s.gen ∧ t.prm = s.prm)
     ∧ (∀ q a b : Nat, s.jnl.root = some (q, a, b) →
       (s.jnl.rootDue = true → s.fls.fenced = false → exec .rootRecordProgram s =
         .next ((({ s with jnl := { s.jnl with rootNs := s.timeNs } } : State).logAppend (.root q a b)).noteOcc))
       ∧ (s.jnl.rootDue = false → exec .rootRecordProgram s = .next s)))

/-- R123, R126 to R130 and R77: the drain ends with its shutdown record once its last codeword is acknowledged, and without COMPLETE
where it is abandoned; at a start a device without an image, root or pairing makes a first start, one whose newest shutdown record or
image does not verify loses its journal, and one whose image verifies takes up its records; the root check then lets the journal run. -/
def Obligations.DrainAndRecovery : Prop :=
  ∀ s : State,
    (s.jnlState = 3 → s.jnl.drain.isSome = true → s.drainCmds = [] → exec .drainComplete s = .next ((s.finishDrain true).drainEnded))
    ∧ (s.jnlState ≠ 3 ∨ s.jnl.drain = none ∨ s.drainCmds ≠ [] → exec .drainComplete s = .next s)
    ∧ (s.jnlState = 3 → exec .drainAbandon s = .next ((s.finishDrain false).drainEnded))
    ∧ (s.jnlState ≠ 3 → exec .drainAbandon s = .next s)
    ∧ (∀ img : RecoveryImage, s.jnlState = 1 → s.fget R.SUP_START_STAT.PHASE = 4 →
        let u := s.fset R.SUP_START_STAT.PHASE 5
        let seen := (u.shutWords img).any fun w => fieldAt w 0 4 == 0x5D0E7A11
        (seen = false → s.flashRoot = none → s.hasWrap = false → exec (.journalRecovery img) s = .next u.firstStart)
        ∧ (seen = true ∨ s.flashRoot.isSome = true ∨ s.hasWrap = true →
          let v := if s.med.mtLoaded = true ∧ s.med.mtSeq = 0 then u.rebuildTable else u
          let best := bestShut ((v.shutWords img).filterMap fun w => (rsDecode w).map fun d => slice d.1 0 64)
          (best = none → exec (.journalRecovery img) s = .next (v.loseJournal 0))
          ∧ (∀ x, best = some x →
            let w := ((((v.fput R.JNL_SHUT_STAT.VALID true).fset R.JNL_SHUT_STAT.COMPLETE (x.flags % 2)).fset R.JNL_SHUT_STAT.SPILLED
              (x.flags / 2 % 2)).fset R.JNL_SHUT_STAT.STREET_FAIL x.streetFail).fset R.JNL_SHUT_STAT.SHUT_SEQ x.seq
            let k : State := { w with jnl := { w.jnl with shutSeq := x.seq } }
            ((k.drainStripes img x).bind (drainRecs x) = none → exec (.journalRecovery img) s = .next (k.loseJournal x.flags))
            ∧ (∀ rs, (k.drainStripes img x).bind (drainRecs x) = some rs → exec (.journalRecovery img) s = .next (k.recoverAll x rs)))))
    ∧ (∀ img : RecoveryImage, s.jnlState ≠ 1 ∨ s.fget R.SUP_START_STAT.PHASE ≠ 4 → exec (.journalRecovery img) s = .next s)
    ∧ (∀ l3 : List StoredCopy, (s.fget R.SUP_START_STAT.PHASE ≠ 5 → exec (.genRootCheck l3) s = .next s)
        ∧ (s.fget R.SUP_START_STAT.PHASE = 5 → ∃ t, exec (.genRootCheck l3) s = .next t ∧
            t.fget R.JNL_STAT.STATE = 2 ∧ t.fget R.SUP_START_STAT.PHASE = 6))

/-- R78, R187, R85, R169 and R211: a fill goes its next step; the hedge timer reads parity for each codeword that is missing, once; a
repair that no copy came for fails; it is asked again once the watermark has reached the JSN noted; a copy that waited is judged once the
records are in; and the last copy-out of a frame ends its move. -/
def Obligations.FetchesAndRepairsGoOn : Prop :=
  ∀ (t : Nat) (s : State),
    (∀ e : TerErr, exec (.mediaFillComplete t e) s = .next ((s.terraceError e).fillStep t))
    ∧ (∀ f : Fetch, s.fetchOf t = some f → f.held = false → f.hedged = false → f.unhedged = false → f.repairing = false →
        let missing := (f.issued.filter (fun i => !(f.got.any fun g => g.1 == i))).length
        0 < missing → (∀ i ∈ f.issued, i < 16) →
        exec (.hedgeTimer t) s = .next (((s.setFetch { f with hedged := true }).sat R.MED_HEDGE_CNT.HEDGED).readPositions t
          (([16, 17] : List Nat).take missing)))
    ∧ (∀ f : Fetch, s.fetchOf t = some f → f.hedged = true → exec (.hedgeTimer t) s = .next s)
    ∧ (∀ r : Repair, s.prm.repairs.find? (fun q => q.tile == t) = some r →
        (r.step = .queued → exec (.repairTimeout t) s = .next s)
        ∧ (r.step ≠ .queued → exec (.repairTimeout t) s = .next (s.repairFail t))
        ∧ (∀ j, r.step = .again j → s.fget R.JNL_MIRROR_JSN.JSN < j → exec (.repairRetry t) s = .next s)
        ∧ (∀ j, r.step = .again j → j ≤ s.fget R.JNL_MIRROR_JSN.JSN → exec (.repairRetry t) s = .next (({ s with
            prm := { s.prm with repairs := s.prm.repairs.map fun q => if q.tile = t then { q with step := .askedAgain } else q } } : State).sendRepairReq t))
        ∧ (∀ b v, r.step = .deferred b v →
            ((s.liveVer t).lt v = true → exec (.repairDeferredAccept t) s = .next s)
            ∧ ((s.liveVer t).lt v = false → exec (.repairDeferredAccept t) s = .next (s.judgeCopy r b v))))
    ∧ (∀ (f : Frame) (n : Nat) (w : Bool), s.frame t = some f → f.state = .moving n w →
        (1 < n → exec (.copyOutEnd t) s = .next (s.setFrame t { f with state := .moving (n - 1) w }))
        ∧ (n ≤ 1 → (s.clsOf t).caches = true →
            exec (.copyOutEnd t) s = .next (s.setFrame t { f with state := if w = true then .base else .valid }))
        ∧ (n ≤ 1 → (s.clsOf t).caches = false → exec (.copyOutEnd t) s = .next (s.dropFrame t)))

/-! ## Promenade (R136 to R165) -/

/-- R137, R140 to R142 and R145 to R147: a frame of each TYPE that is taken in acts on its payload; one on a group that is down does
nothing, one that does not open is answered with NACK, and one out of order acts on nothing but the group. -/
def Obligations.FramesActOnTheirPayload : Prop :=
  ∀ (f : PrmFrame) (s u : State) (p : Bytes),
    (s.Takes f 0x01 p u → exec (.prmRecord f) s = .next (if u.linked then (u.takeRecord f p).homeTarget else u))
    ∧ (s.Takes f 0x02 p u → exec (.rack f) s = .next (if u.linked then u.ackPair (fieldAt p 0 8) else u))
    ∧ (s.Takes f 0x03 p u → exec (.forward f) s = .next (if u.linked then u.takeForward f p else u))
    ∧ (s.Takes f 0x04 p u → ∀ k r, u.prm.fwd.find? (fun q => q.1 == fieldAt p 0 8) = some (k, r) →
        let v : State := { u with prm := { u.prm with fwd := u.prm.fwd.filter (fun q => q.1 ≠ k) } }
        exec (.fwdResp f) s = .next (v.tellOwner r.owner (statusOf (fieldAt p 8 1)))
        ∧ (∀ tags, r.owner = .ops tags → exec (.fwdResp f) s = .next (tags.foldl (fun v t => v.resolve t (statusOf (fieldAt p 8 1))) v))
        ∧ (r.owner = .enrol → exec (.fwdResp f) s = .next (v.fset R.GTH_ENROL_STAT.STATUS (statusOf (fieldAt p 8 1)).code)))
    ∧ (s.Takes f 0x04 p u → u.prm.fwd.find? (fun q => q.1 == fieldAt p 0 8) = none → exec (.fwdResp f) s = .next u)
    ∧ (s.Takes f 0x05 p u → exec (.heartbeat f) s = .next (if u.linked then u.ackPair (fieldAt p 8 8) else u))
    ∧ (s.Takes f 0x06 p u → (u.linked = true → exec (.repairReq f) s =
        .next (({ u with prm := { u.prm with rxWait := u.prm.rxWait ++ [(0x06, p)] } } : State).prmPump))
      ∧ (u.linked = false → exec (.repairReq f) s = .next u))
    ∧ (s.Takes f 0x07 p u → u.prm.repairs.find? (fun r => r.tile == fieldAt p 0 8 && (r.step == .asked || r.step == .askedAgain)) = none →
        exec (.repairData f) s = .next (u.sat R.PRM_CNT1.LATE))
    ∧ (s.Takes f 0x07 p u → ∀ r, u.prm.repairs.find? (fun r => r.tile == fieldAt p 0 8 && (r.step == .asked || r.step == .askedAgain)) = some r →
        let v := verOfWord (fieldAt p 16 8)
        let q := BitVec.ofNat 64 (fieldAt p 4120 8)
        let b := slice p 24 4096
        (fieldAt p 8 1 ≠ 0 ∨ p.length ≠ 4184 ∨ slice p 4120 64 ≠ u.tileTag (fieldAt p 0 8) v q ∨ u.tileSeal (fieldAt p 0 8) v b ≠ q →
          exec (.repairData f) s = .next (u.repairFail (fieldAt p 0 8)))
        ∧ (fieldAt p 8 1 = 0 → p.length = 4184 → slice p 4120 64 = u.tileTag (fieldAt p 0 8) v q →
            u.tileSeal (fieldAt p 0 8) v b = q → exec (.repairData f) s = .next (u.judgeCopy r b v)))
    ∧ (s.Takes f 0x08 p u → u.prmState ≠ 6 → exec (.resyncMap f) s = .next u)
    ∧ (s.Takes f 0x08 p u → ∀ r, u.prmState = 6 → u.prm.resync = some r → fieldAt p 0 4 = 0 → (insertRising (fieldAt p 4 4) r.parts).length ≠ 16 →
        exec (.resyncMap f) s = .next ((({ u with prm := { u.prm with resync := some { r with
          parts := insertRising (fieldAt p 4 4) r.parts
          mapDue := r.mapDue ++ ((List.range 32768).filter (bitAt (p.drop 8))).map (fieldAt p 4 4 * 32768 + ·) } } } : State).noteResync).homeTarget))
    ∧ (s.Takes f 0x08 p u → ∀ r, u.prmState = 6 → u.prm.resync = some r → fieldAt p 0 4 = 0 → (insertRising (fieldAt p 4 4) r.parts).length = 16 →
        let due := r.mapDue ++ ((List.range 32768).filter (bitAt (p.drop 8))).map (fieldAt p 4 4 * 32768 + ·)
        let all : Bool := due == [] && !r.mapsIn
        exec (.resyncMap f) s = .next ((({ u with prm := { u.prm with resync := some { r with
          parts := insertRising (fieldAt p 4 4) r.parts, mapDue := due, mapsIn := r.mapsIn || all
          granules := if all then (sortBy (· ≤ ·) (r.granules ++ r.own)).eraseDups else r.granules } } } : State).noteResync).homeTarget))
    ∧ (s.Takes f 0x08 p u → ∀ r, u.prmState = 6 → u.prm.resync = some r → fieldAt p 0 4 ≠ 0 →
        let due := r.mapDue.filter (· ≠ fieldAt p 4 4)
        let got := (sortBy (· ≤ ·) (r.granules ++ ((List.range 16384).filter (bitAt (p.drop 8))).map (fieldAt p 4 4 * 16384 + ·))).eraseDups
        (r.parts.length ≠ 16 ∨ due ≠ [] ∨ r.mapsIn = true → exec (.resyncMap f) s =
          .next ((({ u with prm := { u.prm with resync := some { r with mapDue := due, granules := got } } } : State).noteResync).homeTarget))
        ∧ (r.parts.length = 16 → due = [] → r.mapsIn = false → exec (.resyncMap f) s =
          .next ((({ u with prm := { u.prm with resync := some { r with
            mapDue := [], mapsIn := true, granules := (sortBy (· ≤ ·) (got ++ r.own)).eraseDups } } } : State).noteResync).homeTarget)))
    ∧ (s.Takes f 0x09 p u → (u.prmState = 6 → exec (.resyncData f) s =
        .next (({ u with prm := { u.prm with rxWait := u.prm.rxWait ++ [(0x09, p)] } } : State).prmPump))
      ∧ (u.prmState ≠ 6 → exec (.resyncData f) s = .next u))
    ∧ (s.Takes f 0x0A p u → exec (.nack f) s = .next (u.resendFrom f.grp.val (fieldAt p 0 6)))
    ∧ (s.Takes f 0x0B p u → exec (.rekey f) s = .next (u.setGrp f.grp.val { u.grp f.grp.val with peerNext := some (fieldAt p 0 4) }))
    ∧ (s.Takes f 0x0C p u → ∀ m, (f.tag = 0 → exec (.pairing f m) s = .next (u.pairStep m f)) ∧ (f.tag ≠ 0 → exec (.pairing f m) s = .next u))
    ∧ (s.Takes f 0x0D p u → (u.prmState = 6 → exec (.home f) s =
        .next (({ u with prm := { u.prm with homeSeq := some (fieldAt p 0 8) } } : State).homeTarget))
      ∧ (u.prmState ≠ 6 → exec (.home f) s = .next u))
    ∧ (s.Takes f 0x0E p u → exec (.idle f) s = .next u.homeSource)
    ∧ (s.grpUp f.grp.val = false → ∀ i ∈ ([.prmRecord f, .rack f, .forward f, .fwdResp f, .heartbeat f, .repairReq f, .repairData f, .resyncMap f,
        .resyncData f, .nack f, .rekey f, .home f, .idle f, .pairing f (.attested true)] : List Instr), exec i s = .next s)
    ∧ (s.grpUp f.grp.val = true → ∀ q ∈ ([(0x01, .prmRecord f), (0x02, .rack f), (0x03, .forward f), (0x04, .fwdResp f), (0x05, .heartbeat f),
        (0x06, .repairReq f), (0x07, .repairData f), (0x08, .resyncMap f), (0x09, .resyncData f), (0x0A, .nack f), (0x0B, .rekey f), (0x0D, .home f),
        (0x0E, .idle f)] : List (Nat × Instr)),
        (s.openFrame f q.1 = none → exec q.2 s =
          .next ((s.giveCredit f.grp.val (credits q.1 f.body.length)).sendNack f.grp.val (s.grp f.grp.val).rxNext false))
        ∧ (∀ b k, s.openFrame f q.1 = some (b, k) → unnumbered q.1 = false →
            let v := (s.setGrp f.grp.val k).takeAck f.grp.val f.ackFsn.toNat f.credit.toNat
            f.fsn.toNat ≠ (v.grp f.grp.val).rxNext → exec q.2 s = .next (v.giveCredit f.grp.val (credits q.1 f.body.length))))

/-- R136, R141, R158 and R165: a group comes up at its width within 2 µs of flight; RETRIES resends and then the group is down; a
heartbeat goes out on every group that is up; TWIN_ALIVE follows its edges and toggles while the journal lives; a resync tile is
installed once the records up to its READ_SEQ are admitted, and a source sends its next tile unless PAUSE holds it. R150, R151, R153 to
R157 and R162: each pair command runs where its conditions hold and changes nothing where they do not; a tile is re-anchored once under
FORCE_SOLO, with an entry of its own; the first PAIR_RESUME asks for the twin's attestation and sends a fresh nonce, the next proves the
pair secret; two devices with equal straps do not pair, one whose twin fails its attestation or its confirmation goes no further, and the
decision of R162 follows otherwise, under keys of the next epoch. -/
def Obligations.LinksResyncAndPairing : Prop :=
  (∀ (g : Fin 2) (s : State),
     (∀ (f : TxFrame) (r : List TxFrame), s.grpUp g.val = true → (s.grp g.val).rtx = f :: r →
       (f.sends < s.fget R.PRM_LINK_CTL.RETRIES → exec (.prmRtoExpire g) s = .next (s.resendFrom g.val f.fsn))
       ∧ (s.fget R.PRM_LINK_CTL.RETRIES ≤ f.sends → exec (.prmRtoExpire g) s = .next (s.downGroup g.val 1)))
     ∧ ((s.grp g.val).rtx = [] ∨ s.grpUp g.val = false → exec (.prmRtoExpire g) s = .next s)
     ∧ exec (.prmHeartbeatMiss g) s = .next (s.downGroup g.val 0)
     ∧ (s.prm.secret = none ∨ s.fget R.TER_STAT.STATE = 3 ∨ s.jnlState = 4 ∧ s.pwr.off.isSome = true → exec .prmHeartbeatSend s = .next s)
     ∧ (s.prm.secret.isSome = true → s.fget R.TER_STAT.STATE ≠ 3 → s.jnlState ≠ 4 ∨ s.pwr.off = none →
         exec .prmHeartbeatSend s = .next (([0, 1] : List Nat).foldl (fun v g => if v.grpUp g then
           v.sendOn g 0x05 false (natLe 4 (v.fget R.PRM_STAT.TERM) ++ natLe 1 v.prmState ++ natLe 3 0 ++ natLe 8 v.prm.seqHigh) else v) s))
     ∧ (∀ (w : Fin 4) (ns : BitVec 11), (s.grpUp g.val = true ∨ w = 0 ∨ 2000 < ns.toNat ∨ s.groupOn (4 + g.val) = false →
           exec (.prmGroupTrained g w ns) s = .next s)
         ∧ (s.grpUp g.val = false → w ≠ 0 → ns.toNat ≤ 2000 → s.groupOn (4 + g.val) = true → ∃ t, exec (.prmGroupTrained g w ns) s = .next t ∧
             t.grpUp g.val = true ∧ t.fget (widthFld g.val) = w.val
             ∧ t.fget (if g.val = 0 then R.PRM_GRP_STAT.A_FLIGHT_NS else R.PRM_GRP_STAT.B_FLIGHT_NS) = ns.toNat ∧ t = { s with ctl := t.ctl }))
     ∧ exec .twinAliveEdge s = .next (s.fput R.PRM_STAT.TWIN_ALIVE true)
     ∧ exec .twinAliveQuiet s = .next (s.fput R.PRM_STAT.TWIN_ALIVE false)
     ∧ ((s.jnlState = 1 ∨ s.jnlState = 2 ∨ s.jnlState = 3) →
         exec .twinAliveToggle s = .next { s with pins := { s.pins with twinAliveOut := !s.pins.twinAliveOut } })
     ∧ ((s.jnlState = 0 ∨ s.jnlState = 4) → exec .twinAliveToggle s = .next { s with pins := { s.pins with twinAliveOut := false } })
     ∧ (∀ (t : Nat) (r : Resync) (x : ResyncTile), s.prmState = 6 → s.prm.resync = some r → r.got.find? (fun y => y.tile == t) = some x →
         (s.prm.seqHigh < x.readSeq → exec (.resyncTileInstall t) s = .next s)
         ∧ (x.readSeq ≤ s.prm.seqHigh → s.retireOf t = none → exec (.resyncTileInstall t) s = .next (s.installResync r x)))
     ∧ (∀ (r : Resync), s.prmState = 5 → s.prm.resync = some r →
         (r.granules = [] → exec .resyncTileSend s = .next s.homeSource)
         ∧ (r.granules ≠ [] → s.flag R.PRM_RESYNC_CTL.PAUSE = true → exec .resyncTileSend s = .next s)
         ∧ (∀ (a : Nat) (l : List Nat), r.granules = a :: l → s.flag R.PRM_RESYNC_CTL.PAUSE = false → s.HasRoom .prm →
             let t := a * 16 + r.next
             let tag := s.newTag .prm
             let v := s.entered .prm { kind := .prm t }
             let w := ({ v with prm := { v.prm with resync := some (if r.next = 15 then { r with granules := l, next := 0 }
               else { r with next := r.next + 1 }) } } : State).noteResync
             let say := fun (w : State) (b : Option (Bytes × Ver)) (z : Bool) =>
               (w.sendTwin 0x09 (w.tileFrame t b z (some w.prm.pairGiven))).resolve tag .ok
             let empty : Bool := (w.genEntry t).zero && w.pendingFor t == []
             (empty = true → exec .resyncTileSend s = .next (say w none true))
             ∧ (empty = false → ∀ b, w.tileNow t = .data b → exec .resyncTileSend s = .next (say (w.copyOut t) (some (b, w.liveVer t)) false))
             ∧ (empty = false → w.tileNow t = .poison → exec .resyncTileSend s = .next (say w none false))
             ∧ (empty = false → w.tileNow t = .miss → exec .resyncTileSend s = .next (w.fetchOp t (.resync tag) (w.clsOf t) tag)))
         ∧ (r.granules ≠ [] → s.flag R.PRM_RESYNC_CTL.PAUSE = false → ¬ s.HasRoom .prm → exec .resyncTileSend s = .next s))
     ∧ (s.prmState ≠ 5 → exec .resyncTileSend s = .next s))
  ∧
  (∀ s : State,
     (s.dbgOpen = false → s.assignedExts = [] → s.prm.secret = none → s.prmState = 0 → exec .establish s =
       .next (({ s with prm := { s.prm with establishing := true, attested := false } } : State).fset R.PRM_STAT.STATE 1).askAttest)
     ∧ (s.dbgOpen = true ∨ s.assignedExts ≠ [] ∨ s.prm.secret.isSome = true ∨ s.prmState ≠ 0 → exec .establish s = .next s)
     ∧ (s.prm.secret.isSome = true → s.prm.lost = false → s.prm.stale = false →
         (s.prmState ≤ 1 ∧ s.fget R.SUP_START_STAT.PHASE = 6 ∨ s.prmState = 4 → exec .startSolo s = .next (s.goSolo true))
         ∧ (¬ (s.prmState ≤ 1 ∧ s.fget R.SUP_START_STAT.PHASE = 6 ∨ s.prmState = 4) → exec .startSolo s = .next s))
     ∧ (s.prm.lost = true ∨ s.prm.stale = true ∨ s.prm.secret = none → exec .startSolo s = .next s)
     ∧ (∀ l3, s.prm.secret.isSome = true → (s.prm.lost = true ∨ s.prm.stale = true) → s.sendGrp = none ∨ s.prm.peerLost = true →
         6 ≤ s.fget R.SUP_START_STAT.PHASE → exec (.forceSolo l3) s = .next (s.forceSolo l3))
     ∧ (∀ l3, s.prm.secret = none ∨ (s.prm.lost = false ∧ s.prm.stale = false) ∨ (s.sendGrp.isSome = true ∧ s.prm.peerLost = false)
         ∨ s.fget R.SUP_START_STAT.PHASE < 6 → exec (.forceSolo l3) s = .next s)
     ∧ (s.prm.secret.isSome = true → s.prmState = 3 → s.prm.replacing = false → s.prm.pairInc ≠ 0xFFFF → exec .admitReplacement s =
         .next ({ s with prm := { s.prm with pairInc := s.prm.pairInc + 1, replacing := true, attested := false } } : State).askAttest)
     ∧ (s.prmState ≠ 3 ∨ s.prm.pairInc = 0xFFFF ∨ s.prm.secret = none ∨ s.prm.replacing = true → exec .admitReplacement s = .next s)
     ∧ (∀ (t : Nat) (c : StoredCopy),
         (s.unanchored t = false → exec (.reanchorTile t c) s = .next s)
         ∧ (s.unanchored t = true → isSys t = false → s.HasRoom .maint →
           let w := s.entered .maint { kind := .maint t }
           let u : State := { w with prm := { w.prm with anchored := w.prm.anchored ++ [t] } }
           let v := tagVer c.tag
           (u.checkCopy t v c.tag c.cipher = none → (u.genEntry t).zero = false →
             exec (.reanchorTile t c) s = .next ((u.quarantine t).resolve (s.newTag .maint) .ok))
           ∧ (u.checkCopy t v c.tag c.cipher = none → (u.genEntry t).zero = true →
             exec (.reanchorTile t c) s = .next (u.resolve (s.newTag .maint) .ok))
           ∧ ((u.checkCopy t v c.tag c.cipher).isSome = true → exec (.reanchorTile t c) s =
             .next ((u.changeEntry t { u.genEntry t with zero := false, reloc := v.reloc, gen := v.gen }).resolve (s.newTag .maint) .ok))))
     ∧ (∀ p : PeerState, s.prm.secret.isSome = true → s.jnlState = 2 → s.sendGrp.isSome = true → s.linked = false →
         (s.prm.nonce = none → exec (.pairResume p) s = .next s.askResume)
         ∧ ∀ n, s.prm.nonce = some n →
           let u := (s.sendResume n (natLe 32 p.nonce.toNat)).endNonce
           (p.senior = u.isSenior → exec (.pairResume p) s = .next u.roleClash)
           ∧ (p.senior ≠ u.isSenior →
               p.attestOk = false ∨ natBe 16 p.mac.toNat ≠ u.confirmMac p.senior (natLe 32 p.nonce.toNat) n ∨ p.pairId ≠ u.pairId →
               exec (.pairResume p) s = .next u.pairFails)
           ∧ (p.senior ≠ u.isSenior → p.attestOk = true → natBe 16 p.mac.toNat = u.confirmMac p.senior (natLe 32 p.nonce.toNat) n →
               p.pairId = u.pairId → exec (.pairResume p) s =
                 .next (({ u with prm := { u.prm with peerLost := p.lost, a := nextKeys u.prm.a, b := nextKeys u.prm.b } } : State).settlePair p)))
     ∧ (∀ p : PeerState, s.linked = true ∨ s.prm.secret = none ∨ s.jnlState ≠ 2 ∨ s.sendGrp = none → exec (.pairResume p) s = .next s))

/-! ## Media streets (R171 to R203) -/

/-- R173, R177, R178 and R180 to R182: a flit is descrambled with the line's last 58 bits; one whose CRC-64 fails is answered with a
replay request; reserved bits, or a type a module must not send, are a protocol fault; DATA and RESP are taken only in FSEQ order, their
ACK_SEQ heeded; DATA in INDEX order is kept with its READ, any other fences the lane; RESP ends its command (0), fences it with
WRITE_FAIL (3) or, before all of a READ's DATA, for a protocol fault, and counts a media error of a READ (2); REPLAY_REQ leads to a
resend, then a quick retrain, then a fence; IDLE gives its ACK_SEQ alone, ALIGN nothing; a lane that takes no flits takes none of them. -/
def Obligations.FlitsAreTakenInOrder : Prop :=
  ∀ (lane : Fin 128) (head cw pad crc : Bytes) (s : State),
    let line := head ++ cw ++ pad ++ crc
    let l := lane.val
    let b := (descramble (s.link l).rx line).1
    let s1 := s.setLink l { s.link l with rx := (descramble (s.link l).rx line).2 }
    let f := readFlit b
    ∀ i ∈ ([.medDataFlit lane head cw pad crc, .medRespFlit lane head (cw ++ pad) crc, .medReplayReq lane line, .medIdleFlit lane line] : List Instr),
      (s.laneHears l = false → exec i s = .next s)
      ∧ (s.laneHears l = true → flitIntact b = false → exec i s = .next (s1.putFlit l { ftype := 4 }))
      ∧ (s.laneHears l = true → flitIntact b = true →
          (f.rsvd = true ∨ f.ftype = 1 ∨ 4 < f.ftype →
            exec i s = .next (s1.protocolFault l (if f.ftype = 2 ∨ f.ftype = 3 then some f.tag else none)))
          ∧ (f.rsvd = false → f.ftype = 0 → exec i s = .next (s1.flitAck l f.ack))
          ∧ (f.rsvd = false → f.ftype = 4 →
              let u := s1.flitAck l f.ack
              let k := u.link l
              (k.sent = [] → exec i s = .next u)
              ∧ (k.sent ≠ [] → k.replays < u.fget R.MED_LINK_CTL.REPLAYS →
                  exec i s = .next ((u.setLink l { k with replays := k.replays + 1 }).resend l))
              ∧ (k.sent ≠ [] → u.fget R.MED_LINK_CTL.REPLAYS ≤ k.replays → k.retrained = false →
                  exec i s = .next ((u.setLink l { k with retrained := true }).quickRetrain l))
              ∧ (k.sent ≠ [] → u.fget R.MED_LINK_CTL.REPLAYS ≤ k.replays → k.retrained = true →
                  exec i s = .next ((u.fenceLane l 3).fenceDone l)))
          ∧ (f.rsvd = false → f.ftype = 2 ∨ f.ftype = 3 → f.fseq ≠ (s.link l).lastGood + 1 → exec i s = .next s1)
          ∧ (f.rsvd = false → f.ftype = 2 ∨ f.ftype = 3 → f.fseq = (s.link l).lastGood + 1 →
              let u := (s1.setLink l { s1.link l with lastGood := f.fseq }).flitAck l f.ack
              (AMap.find? u.med.cmds (l * 128 + f.tag) = none → exec i s = .next (u.protocolFault l none))
              ∧ ∀ c : Cmd, AMap.find? u.med.cmds (l * 128 + f.tag) = some c →
                  (f.ftype = 2 → c.opcode = 1 → f.index = c.data → c.data < c.count → exec i s = .next { u with med := { u.med with
                    cmds := AMap.put u.med.cmds (l * 128 + f.tag) { c with data := c.data + 1, cws := c.cws ++ [slice b 8 300] } } })
                  ∧ (f.ftype = 2 → c.opcode ≠ 1 ∨ f.index ≠ c.data ∨ c.count ≤ c.data → exec i s = .next (u.protocolFault l (some f.tag)))
                  ∧ (f.ftype = 3 → c.opcode = 1 → c.data ≠ c.count → exec i s = .next (u.protocolFault l (some f.tag)))
                  ∧ (f.ftype = 3 → c.opcode ≠ 1 ∨ c.data = c.count →
                      (f.status = 0 → exec i s = .next ((u.endCmd l f.tag true).fenceDone l))
                      ∧ (f.status = 2 → c.opcode = 1 →
                          exec i s = .next (((u.sat (R.MED_LANE_CNT.MEDIA_ERRORS l)).endCmd l f.tag true).fenceDone l))
                      ∧ (f.status = 3 → exec i s = .next (((u.fenceLane l 5).endCmd l f.tag false).fenceDone l))
                      ∧ (f.status = 2 ∧ c.opcode ≠ 1 ∨ f.status ≠ 0 ∧ f.status ≠ 2 ∧ f.status ≠ 3 →
                          exec i s = .next (((u.fenceLane l 7).endCmd l f.tag false).fenceDone l)))))
      ∧ exec (.medAlignFlit lane) s = .next s

/-- R183 to R185 and R203: a timed-out command ends and fences its lane; a lane trains stage by stage, is fenced where IDENTIFY or TEST
fails or time runs out, and serves at the end; the module table of the highest MT_SEQ counts; each lane action runs in the states it fits
and else sets CMD_REFUSED. R195, R196, R198 and R199: a rebuild reads its next stripe, one with two lost codewords first, with an entry
of its own unless PAUSE or its bound of 1,024 holds it, and passes over a tile that is no longer stored or whose extent is not ASSIGNED;
the Sweeper reads the 18 codewords of the next stored tile of its pass, at most 256 at a time, and a pass with none left and no read out
ends. -/
def Obligations.LanesAndRebuilds : Prop :=
  (∀ (lane : Fin 128) (s : State),
     let l := lane.val
     let k := s.link l
     (∀ tag : Fin 128, (AMap.find? s.med.cmds (l * 128 + tag.val) = none ∨ s.laneState l = 3 → exec (.medCmdTimeout lane tag) s = .next s)
       ∧ ((AMap.find? s.med.cmds (l * 128 + tag.val)).isSome = true → s.laneState l ≠ 3 →
           exec (.medCmdTimeout lane tag) s = .next ((s.sat (R.MED_LANE_CNT.TIMEOUTS l)).faultCmd l tag.val 4)))
     ∧ (∀ (i : Ident) (n : Nat),
         (k.stage = .none → exec (.laneTrainStageDone lane i n) s = .next s)
         ∧ (k.stage = .detect → exec (.laneTrainStageDone lane i n) s = .next (s.setLink l { k with stage := .lock }))
         ∧ (k.stage = .lock → exec (.laneTrainStageDone lane i n) s = .next (s.setLink l { k with stage := .align }))
         ∧ (k.stage = .align → exec (.laneTrainStageDone lane i n) s = .next (s.setLink l { k with stage := .identify }))
         ∧ (k.stage = .identify → i.version = 1 → 19595788288 ≤ i.slots.toNat → s.wrongSerial l i = false → k.quick = false →
             exec (.laneTrainStageDone lane i n) s = .next (s.setLink l { k with stage := .test, ident := some i }))
         ∧ (k.stage = .identify → i.version ≠ 1 ∨ i.slots.toNat < 19595788288 →
             exec (.laneTrainStageDone lane i n) s = .next ((s.fenceLane l (if k.quick = true ∧ k.retrained = true then 3 else 2)).fenceDone l).noteTrained)
         ∧ (k.stage = .identify → i.version = 1 → 19595788288 ≤ i.slots.toNat → s.wrongSerial l i = true →
             exec (.laneTrainStageDone lane i n) s = .next ((s.fenceLane l 7).fenceDone l).noteTrained)
         ∧ (k.stage = .identify → i.version = 1 → 19595788288 ≤ i.slots.toNat → s.wrongSerial l i = false → k.quick = true →
             exec (.laneTrainStageDone lane i n) s = .next ((s.setLink l { k with stage := .none, quick := false, replays := 0 }).resend l))
         ∧ (k.stage = .test → n ≤ 1 → exec (.laneTrainStageDone lane i n) s = .next (s.trained l).noteTrained)
         ∧ (k.stage = .test → 1 < n → exec (.laneTrainStageDone lane i n) s = .next ((s.fenceLane l 2).fenceDone l).noteTrained))
     ∧ (k.stage ≠ .none →
         exec (.laneTrainTimeout lane) s = .next ((s.fenceLane l (if k.quick = true ∧ k.retrained = true then 3 else 2)).fenceDone l).noteTrained)
     ∧ (k.stage = .none → exec (.laneTrainTimeout lane) s = .next s)
     ∧ (∀ cs : List Bytes, s.med.mtLoaded = true ∨ s.streetsTrained = false → exec (.moduleTableLoad cs) s = .next s)
     ∧ (s.med.mtLoaded = false → s.streetsTrained = true → s.flashRoot = none → s.hasWrap = false →
         exec (.moduleTableLoad []) s = .next { s with med := { s.med with mtLoaded := true } })
     ∧ (s.laneState l = 1 ∨ s.laneState l = 2 ∨ s.laneState l = 5 →
         exec (.laneFence lane) s = .next ((s.fenceLane l 1).fenceDone l).noteRebuild.noteTrained)
     ∧ (s.laneState l = 4 → s.groupOn (8 + l / 8) = true → exec (.laneReplace lane) s = .next (s.startTraining l true)
         ∧ (s.startTraining l true).laneState l = 1 ∧ ((s.startTraining l true).link l).stage = .detect ∧ ((s.startTraining l true).link l).waive = true)
     ∧ (s.laneState l = 2 → k.stage = .none → exec (.laneRetrain lane) s = .next (s.setLink l { k with stage := .lock, quick := true }))
     ∧ (s.laneState l = 0 → ∀ i ∈ ([.laneFence lane, .laneReplace lane, .laneRetrain lane] : List Instr),
         exec i s = .next (s.fput R.MED_STREET_STAT.CMD_REFUSED true)))
  ∧
  (∀ (lane : Fin 128) (s : State),
     let kept : List Nat := s.storedKeys.filter (fun t => isSys t || (s.extent (extOf t)).state == .assigned)
     let swept : Nat := s.readsOf Waiter.sweeps
     (AMap.find? s.med.rebuild lane.val = none → exec (.rebuildStripe lane) s = .next s)
     ∧ (∀ (r : Rebuild) (t : Nat), AMap.find? s.med.rebuild lane.val = some r → s.rebuildNext r = some t →
         (s.flag R.MED_REBUILD_CTL.PAUSE = true → exec (.rebuildStripe lane) s = .next s)
         ∧ (s.flag R.MED_REBUILD_CTL.PAUSE = false → s.storedKeys.contains t = false ∨ isSys t = false ∧ (s.extent (extOf t)).state ≠ .assigned →
             exec (.rebuildStripe lane) s =
             .next (({ s with med := { s.med with rebuild := AMap.put s.med.rebuild lane.val { r with todo := r.todo.erase t } } } : State).rebuildStep lane.val))
         ∧ (s.flag R.MED_REBUILD_CTL.PAUSE = false → s.storedKeys.contains t = true → isSys t = true ∨ (s.extent (extOf t)).state = .assigned →
             (1024 ≤ s.readsOf Waiter.rebuilds → exec (.rebuildStripe lane) s = .next s)
             ∧ (s.readsOf Waiter.rebuilds < 1024 → s.HasRoom .maint →
                 let tag := s.newTag .maint
                 let v := s.entered .maint { kind := .maint t }
                 exec (.rebuildStripe lane) s =
                   .next ((({ v with med := { v.med with rebuild := AMap.put v.med.rebuild lane.val { r with todo := r.todo.erase t, busy := r.busy ++ [t] } } } :
                     State).fetchOp t (.rebuild lane.val tag) .cold tag).noteRebuild))))
     ∧ (∀ (r : Rebuild), AMap.find? s.med.rebuild lane.val = some r → r.todo = [] → exec (.rebuildStripe lane) s = .next s)
     ∧ (s.flag R.MED_SWEEP_CTL.ENABLE = false ∨ s.jnlState ≠ 2 → exec .sweepTile s = .next s)
     ∧ (s.flag R.MED_SWEEP_CTL.ENABLE = true → s.jnlState = 2 →
         (kept.find? (fun x => s.med.sweepNext ≤ x) = none →
           (swept = 0 → exec .sweepTile s = .next s.endSweep) ∧ (swept ≠ 0 → exec .sweepTile s = .next s))
         ∧ (∀ t, kept.find? (fun x => s.med.sweepNext ≤ x) = some t →
             (256 ≤ swept → exec .sweepTile s = .next s)
             ∧ (swept < 256 → s.HasRoom .maint → s.fetchOf t = none →
                 let tag := s.newTag .maint
                 let v := s.entered .maint { kind := .maint t }
                 let w : State := { v with med := { v.med with sweepNext := t + 1 } }
                 exec .sweepTile s = .next (((w.fset R.MED_SWEEP_STAT.PERCENT (w.sweepPercent kept)).newFetch
                   { tile := t, waiters := [.sweep tag], all18 := true }).oweResults tag 1)))))

/-! ## Tiers and the turnstile (R206 to R238, R331 to R342) -/

/-- R223, R225 and R238: LOCK keeps a valid line in the lowest free lockable way of its set and counts it, and is refused where no such
way is free or the line may not be locked; UNLOCK takes the lock off; one range invalidation runs at a time. R206, R219 to R222, R226,
R227, R230, R236 and R237: slices, ways, scratchpad blocks, the Loggia's time to live, a plan's idle time, PINNED loads and the stacks'
training each do what their rule says, and nothing where it does not apply. -/
def Obligations.LinesAndTiersObey : Prop :=
  (∀ (line : BitVec 41) (s : State),
     let k := line.toNat
     ((AMap.find? s.tier.lines k).any (fun l => l.locked) = true → exec (.lineLock line) s = .next s)
     ∧ (AMap.find? s.tier.lines k = none → (s.extent (extOf (k / 16))).state ≠ .assigned ∨ (s.extent (extOf (k / 16))).cls.caches = false
           ∨ s.sliceUp (sliceOf k) = false ∨ s.fget R.ORG_WAYMODE.LOCK_WAYS = 0 →
         exec (.lineLock line) s = .next (s.fput R.ORG_LOCK_STAT.REFUSED true))
     ∧ (∀ w, AMap.find? s.tier.lines k = none → (s.extent (extOf (k / 16))).state = .assigned → (s.extent (extOf (k / 16))).cls.caches = true →
         s.sliceUp (sliceOf k) = true → w < s.fget R.ORG_WAYMODE.LOCK_WAYS → (∀ p ∈ s.setLines k, ¬ (p.2.way = w ∧ p.2.locked = true)) →
         (∀ v < w, ∃ p ∈ s.setLines k, p.2.way = v ∧ p.2.locked = true) → exec (.lineLock line) s = .next (s.lockInto k w))
     ∧ exec (.lineUnlock line) s = .next (s.unlockLine k)
     ∧ (∀ (rel : Bool) (n : BitVec 20) (e : Fin 524288),
         (s.tier.inval = none → exec (.rangeInvalidation rel n e) s =
           .next { s.fput R.ORG_INVAL_STAT.BUSY true with tier := { s.tier with inval := some (e.val, n.toNat, rel) } })
         ∧ (s.tier.inval.isSome = true → exec (.rangeInvalidation rel n e) s = .next (s.fput R.ORG_INVAL_STAT.REFUSED true)))
     ∧ (∀ first count rel, s.tier.inval = some (first, count, rel) → exec .rangeInvalidationDone s =
         .next ((({ s with tier := { s.tier with inval := none } } : State).fput R.ORG_INVAL_STAT.BUSY false).invalidateRange first (first + count) rel))
     ∧ (s.tier.inval = none → exec .rangeInvalidationDone s = .next s))
  ∧
  (∀ s : State,
     (∀ sl : Fin 16,
       (s.fget (R.ORG_SLICE_STAT.STATE sl.val) ≠ 2 → exec (.sliceRestore sl) s = .next s)
       ∧ (s.fget (R.ORG_SLICE_STAT.STATE sl.val) = 2 → ∃ t, exec (.sliceRestore sl) s = .next t ∧
           t.fget (R.ORG_SLICE_STAT.STATE sl.val) = 0 ∧ (∀ p ∈ t.tier.scratch, p.1 / 256 % 16 ≠ sl.val) ∧ t.tier.lines = s.tier.lines)
       ∧ (s.sliceUp sl.val = false → exec (.sliceFence sl) s = .next s)
       ∧ (s.sliceUp sl.val = true →
           let mine := s.tier.lines.filter fun p => sliceOf p.1 == sl.val
           let n := (mine.filter fun p => p.2.locked).length
           let u := mine.foldl (fun (v : State) p => v.dropLine p.1) ((s.dec R.ORG_LOCK_STAT.LOCKED n).sat R.ORG_CNT2.LOCK_LOST n)
           let v : State := { u with tier := { u.tier with loggia := u.tier.loggia.filter fun p => sliceOf p.line != sl.val } }
           exec (.sliceFence sl) s = .next ((((v.fset (R.ORG_SLICE_STAT.STATE sl.val) 1).startDrain (.slice sl)).retryMisses).sliceSettle sl.val)))
     ∧ (∀ lock scratch : BitVec 4,
         (4 < lock.toNat ∨ 12 < scratch.toNat → exec (.waymodeWrite lock scratch) s = .next s)
         ∧ (lock.toNat ≤ 4 → scratch.toNat ≤ 12 → s.fget R.ORG_WAYMODE.SCRATCH_WAYS ≤ scratch.toNat → s.tier.lines = [] →
           ∃ t, exec (.waymodeWrite lock scratch) s = .next t ∧ t.fget R.ORG_WAYMODE.LOCK_WAYS = lock.toNat
             ∧ t.fget R.ORG_WAYMODE.SCRATCH_WAYS = scratch.toNat ∧ ∀ p ∈ t.tier.scratch, p.1 < scratch.toNat * 2 ^ 24))
     ∧ (∀ (b : Fin 192) (ten : BitVec 24),
         (∃ t, exec (.scratchOwnerAssign b ten) s = .next t ∧ t.fget (R.ORG_SCR_OWNER.TENANT b.val) = 0
           ∧ t.flag (R.ORG_SCR_OWNER.ZEROING b.val) = (ten != 0) ∧ AMap.get 0 t.tier.zeroing b.val = ten ∧ t.tier.scratch = s.tier.scratch)
         ∧ (AMap.find? s.tier.zeroing b.val = some ten → ∃ t, exec (.scratchZeroDone b) s = .next t ∧
           t.fget (R.ORG_SCR_OWNER.TENANT b.val) = ten.toNat ∧ t.flag (R.ORG_SCR_OWNER.ZEROING b.val) = false
           ∧ AMap.find? t.tier.zeroing b.val = none ∧ t.tier.scratch = s.tier.scratch.filter (fun p => p.1 / 2 ^ 20 != b.val))
         ∧ (AMap.find? s.tier.zeroing b.val = none → exec (.scratchZeroDone b) s = .next s))
     ∧ (∀ line : BitVec 41,
         ((s.loggiaLine line.toNat).isSome = true → exec (.loggiaTtlExpire line) s = .next ((s.loggiaDrop line.toNat).inc R.ORG_CNT1.PF_WASTED))
         ∧ (s.loggiaLine line.toNat = none → exec (.loggiaTtlExpire line) s = .next s))
     ∧ (∀ c n l, exec (.planIdleExpire (.ctx c)) s = .next s ∧ exec (.planIdleExpire (.conn n)) s = .next (s.endPlan (.conn n))
         ∧ exec (.planIdleExpire (.ld l)) s = .next (s.endPlan (.ld l)))
     ∧ (∀ t, s.flag R.SUP_START_STAT.SERVING = true → isSys t = false → (s.extent (extOf t)).state = .assigned → s.clsOf t = .pinned →
         (s.genEntry t).zero = false → (s.genEntry t).quar = false → s.frame t = none → s.readsOf Waiter.rebuilds < 1024 →
         s.HasRoom .maint →
         let tag := s.newTag .maint; let v := s.entered .maint { kind := .maint t }
         exec (.pinLoadTile t) s = .next (v.fetchOp t (.pin tag) .pinned tag))
     ∧ (∀ t, s.clsOf t ≠ .pinned ∨ (s.frame t).isSome = true → exec (.pinLoadTile t) s = .next s.notePins)
     ∧ (∀ up : BitVec 4,
         (s.fget R.TER_STAT.STATE ≠ 1 → exec (.terraceTrainDone up) s = .next s)
         ∧ (s.fget R.TER_STAT.STATE = 1 → 5 ≤ s.fget R.PWR_STAT.WAVE → s.fget R.TER_STAT.STACK_UP ||| up.toNat = 15 →
           exec (.terraceTrainDone up) s = .next ((s.fset R.TER_STAT.STACK_UP 15).fset R.TER_STAT.STATE 2))
         ∧ (s.fget R.TER_STAT.STATE = 1 → s.fget R.PWR_STAT.WAVE < 4 → s.fget R.TER_STAT.STACK_UP = 0 →
           exec (.terraceTrainDone up) s = .next (s.fset R.TER_STAT.STACK_UP 0))))

/-- R331, R333, R337, R338 and R342: a source timeout claims the resolve step of an operation that has not been sequenced and leaves one
that has; a drain bound ends what a port, Kiosk, queue, slice or lane still holds and the unit reports QUIESCED, and one of a unit that
does not drain does nothing; CLEAR_HIGH sets every HIGH_WATER to the source's IN_USE. -/
def Obligations.TimeoutsAndDrainBounds : Prop :=
  ∀ s : State,
    (∀ tag : Fin 262144,
      (AMap.find? s.tst.ops tag.val = none → exec (.opTimeout tag) s = .next s)
      ∧ (∀ o, AMap.find? s.tst.ops tag.val = some o →
          (o.lingering = true ∨ o.jsn.isSome = true → exec (.opTimeout tag) s = .next s)
          ∧ (o.lingering = false → o.jsn = none → s.ctxOfTag tag.val = none → s.twinRec tag.val = none →
            exec (.opTimeout tag) s = .next ((s.sat (R.TST_SRC_CNT.TIMEOUTS (Src.ofTag tag.val).num)).cut tag.val .timeout))
          ∧ (∀ c, o.lingering = false → o.jsn = none → s.ctxOfTag tag.val = some c →
            exec (.opTimeout tag) s = .next ((s.sat (R.TST_SRC_CNT.TIMEOUTS (Src.ofTag tag.val).num)).stopTask c .timeout 0))
          ∧ (∀ r, o.lingering = false → o.jsn = none → s.ctxOfTag tag.val = none → s.twinRec tag.val = some r →
            let u := ((s.sat (R.TST_SRC_CNT.TIMEOUTS (Src.ofTag tag.val).num)).dropRec r.id).refuseRec r .timeout
            (r.twin = false → exec (.opTimeout tag) s = .next u)
            ∧ (r.twin = true → s.pairTurn r = true → exec (.opTimeout tag) s = .next (u.rackTwin r.pairSeq))
            ∧ (r.twin = true → s.pairTurn r = false → exec (.opTimeout tag) s = .next s))))
    ∧ (∀ u : DrainUnit, s.tst.draining.contains u = false → exec (.drainBound u) s = .next s)
    ∧ (∀ p : Fin 64, s.tst.draining.contains (.netPort p) = true → exec (.drainBound (.netPort p)) s = .next (((s.endDrain (.netPort p)).disableOps
        fun o => match o.kind.conn? with | some c => ((s.endDrain (.netPort p)).conn c).port == p.val | none => false).portSettle p.val))
    ∧ (∀ p : Fin 2, s.tst.draining.contains (.cxlPort p) = true → exec (.drainBound (.cxlPort p)) s =
        .next (((s.endDrain (.cxlPort p)).disableOps fun o => o.kind.onCxl p.val).cxlSettle p.val))
    ∧ (∀ k : Fin 512, s.tst.draining.contains (.kiosk k) = true → exec (.drainBound (.kiosk k)) s =
        .next (((List.range 8).foldl (fun (v : State) i => v.disableTask (8 * k.val + i)) (s.endDrain (.kiosk k))).kioskSettle k.val))
    ∧ (∀ l : Fin 128, s.tst.draining.contains (.lane l) = true → exec (.drainBound (.lane l)) s =
        .next (((List.range 128).foldl (fun (v : State) t => v.endCmd l.val t false) (s.endDrain (.lane l))).fenceDone l.val))
    ∧ (∀ q : Fin 1024, s.tst.draining.contains (.queue q) = true →
        let u := s.endDrain (.queue q)
        let cs := (List.filter (fun (p : Nat × CtxSt) => p.1 != 4096 && p.2.task.any fun t => t.queue == q.val) u.ksk.ctx).map (·.1)
        exec (.drainBound (.queue q)) s = .next ((cs.foldl (fun (v : State) c => v.disableTask c) u).queueSettle q.val))
    ∧ (∀ i : Fin 16, s.tst.draining.contains (.slice i) = true →
        let u := s.endDrain (.slice i)
        exec (.drainBound (.slice i)) s = .next (({ u with med := { u.med with fetch := u.med.fetch.map fun (f : Fetch) =>
          { f with missLines := f.missLines.filter fun k => sliceOf k ≠ i.val
                   pfLines := f.pfLines.filter fun k => sliceOf k ≠ i.val } } } : State).noteMisses))
    ∧ (∃ t, exec .clearHigh s = .next t ∧ t = { s with ctl := t.ctl }
        ∧ ∀ i < 6, t.fget (R.TST_SRC_STAT.HIGH_WATER i) = s.fget (R.TST_SRC_STAT.IN_USE i) % 2 ^ (R.TST_SRC_STAT.HIGH_WATER i).wid)

/-! ## Network and transport (R343 to R417) -/

/-- R358 to R363 and R372: a port trains, goes UP with every lane locked, drops and retrains, and is fenced by command or after more than
FLAP_MAX drops in 10 s; an action that does not fit sets CMD_REFUSED and does no more. R349, R355 and R357: a PFC frame pauses or resumes
one priority of a port, a PAUSE frame and a PFC frame of a priority without PFC or in a storm are counted and ignored, XOFF is repeated
while the occupancy stands, a long pause starts a storm that a quiet time ends, and quanta run out. -/
def Obligations.PortsAndPriorities : Prop :=
  (∀ (p : Fin 64) (s : State),
     (s.portOk p.val = true →
       (s.portState p.val ≤ 2 → exec (.netPortFence p) s = .next (s.fencePort p 1))
       ∧ (s.portState p.val = 4 → s.netOut p.val = true → ∃ t, exec (.netPortRestore p) s = .next t ∧
           t.portState p.val = 1 ∧ t.fget (R.NET_PORT_STAT.CAUSE p.val) = 0 ∧ t = { s with ctl := t.ctl })
       ∧ (s.portState p.val = 2 → ∃ t, exec (.netPortRetrain p) s = .next t ∧
           t.portState p.val = 1 ∧ t.fget (R.NET_PORT_STAT.LOCKED p.val) = 0 ∧ t = { s with ctl := t.ctl })
       ∧ (∀ pol : Byte, s.portState p.val = 1 →
           let all := 2 ^ s.portLanes - 1
           let u := (((s.fset (R.NET_PORT_STAT.STATE p.val) 2).fset (R.NET_PORT_STAT.LOCKED p.val) all).fset (R.NET_PORT_STAT.POLARITY p.val)
             (pol.toNat &&& all)).fset (R.NET_PORT_STAT.CAUSE p.val) 0
           exec (.netLinkUp p pol) s = .next (((u.setPort p.val { u.port p.val with trainFail := false }).postD 0x0601 p.val 0).portPump p.val))
       ∧ (s.portState p.val = 1 →
           let u := ((s.fset (R.NET_PORT_STAT.STATE p.val) 0).fset (R.NET_PORT_STAT.CAUSE p.val) 2).sat (R.NET_PORT_STAT.DOWNS p.val)
           exec (.netTrainTimeout p) s = .next (if (s.port p.val).trainFail then u
             else (u.setPort p.val { u.port p.val with trainFail := true }).postD 0x0603 p.val 0))
       ∧ (s.portState p.val = 0 → s.netOut p.val = true → exec (.netRetrainTimer p) s = .next (s.fset (R.NET_PORT_STAT.STATE p.val) 1))
       ∧ (∀ cause : Fin 3,
           (s.portState p.val = 3 → exec (.netLinkDown p cause) s = .next (s.fset (R.NET_PORT_STAT.LOCKED p.val) 0))
           ∧ (s.portState p.val = 2 →
             let u := ((s.fset (R.NET_PORT_STAT.LOCKED p.val) 0).sat (R.NET_PORT_STAT.DOWNS p.val)).postD 0x0602 p.val cause.val
             let recent := ((u.port p.val).downs.filter fun t => u.timeNs < t + 10000000000) ++ [u.timeNs]
             let w := u.setPort p.val { u.port p.val with downs := recent, paused := 0 }
             (w.fget (R.NET_PORT_CFG.FLAP_MAX p.val) < recent.length → exec (.netLinkDown p cause) s = .next (w.fencePort p 3))
             ∧ (recent.length ≤ w.fget (R.NET_PORT_CFG.FLAP_MAX p.val) →
               exec (.netLinkDown p cause) s = .next (w.fset (R.NET_PORT_STAT.STATE p.val) 1)))))
     ∧ (s.portOk p.val = false → (∀ i ∈ ([.netPortFence p, .netPortRestore p, .netPortRetrain p] : List Instr),
           exec i s = .next (s.fput R.NET_STAT.CMD_REFUSED true))
         ∧ ∀ i ∈ ([.netLinkUp p 0, .netTrainTimeout p, .netRetrainTimer p, .netLinkDown p 0, .pauseFrame p] : List Instr), exec i s = .next s))
  ∧
  (∀ (p : Fin 64) (i : Fin 8) (q : BitVec 16) (s : State), s.portOk p.val = true → s.netSends p.val = true →
     let u := s.sat (R.NET_PORT_CNT2.PFC_RX p.val)
     let k := u.port p.val
     (s.pfcOn i.val = true → (s.port p.val).storm.getLsbD i.val = false →
       exec (.pfcFrame p i q) s = .next (if q = 0 then (u.setPort p.val { k with paused := bitTo k.paused i.val false }).portPump p.val
         else u.setPort p.val { k with paused := bitTo k.paused i.val true }))
     ∧ ((s.port p.val).storm.getLsbD i.val = true → exec (.pfcFrame p i q) s = .next (u.sat (R.NET_PORT_CNT3.PAUSE_IGNORED p.val)))
     ∧ exec (.pauseFrame p) s = .next (s.sat (R.NET_PORT_CNT3.PAUSE_IGNORED p.val))
     ∧ ((s.port p.val).xoff.getLsbD i.val = true → s.fget R.NET_PFC_CTL.XON_KIB * 1024 ≤ AMap.get 0 (s.port p.val).occ i.val →
         exec (.pfcRefresh p i) s = .next (s.sendPfc p.val i.val 0xFFFF))
     ∧ ((s.port p.val).xoff.getLsbD i.val = false → exec (.pfcRefresh p i) s = .next s)
     ∧ (s.prioPaused p.val i.val = true → exec (.pfcWatchdog p i) s = .next
         ((((s.setPort p.val { s.port p.val with storm := bitTo (s.port p.val).storm i.val true }).noteStorm p.val).postD 0x0605 p.val i.val).portPump
           p.val))
     ∧ (s.prioPaused p.val i.val = false → exec (.pfcWatchdog p i) s = .next s)
     ∧ ((s.port p.val).storm.getLsbD i.val = true → exec (.pfcWatchdogClear p i) s = .next ((s.setPort p.val { s.port p.val with
         storm := bitTo (s.port p.val).storm i.val false, paused := bitTo (s.port p.val).paused i.val false }).noteStorm p.val))
     ∧ ((s.port p.val).storm.getLsbD i.val = false → exec (.pfcWatchdogClear p i) s = .next s)
     ∧ ((s.port p.val).paused.getLsbD i.val = true → exec (.pfcQuantaExpire p i) s =
         .next ((s.setPort p.val { s.port p.val with paused := bitTo (s.port p.val).paused i.val false }).portPump p.val))
     ∧ ((s.port p.val).paused.getLsbD i.val = false → exec (.pfcQuantaExpire p i) s = .next s))

/-- R350, R367 to R370, R381 and R391 to R393: a good frame for an address of an UP port reaches the transport and others are counted by
class; ARP and neighbor solicitations for an address of the port are answered; a fetched context takes up what was held for it in order;
the window and the smoothed round-trip time follow their rules at the end of a round; a CNP marks its connection. -/
def Obligations.FramesReachConnections : Prop :=
  ∀ (p : Fin 64) (s : State), s.portOk p.val = true → s.portState p.val = 2 → s.flag R.SUP_START_STAT.SERVING = true →
    (∀ f : NetFrame,
      (f.fcsOk = false → exec (.roceFrame p f) s = .next (s.sat (R.NET_PORT_CNT1.FCS_ERR p.val)))
      ∧ (f.fcsOk = true → f.len < 64 ∨ 9216 < f.len ∨ f.udpPort ≠ 4791 ∨ f.dstMac ≠ macOf p.val →
          exec (.roceFrame p f) s = .next (s.sat (R.NET_PORT_CNT2.OTHER p.val)))
      ∧ (f.fcsOk = true → 64 ≤ f.len → f.len ≤ 9216 → f.udpPort = 4791 → f.dstMac = macOf p.val → (s.port p.val).used + f.len ≤ s.rxShare →
          let i := match f.pcp with | some i => i.val | none => s.fget R.NET_PFC_CTL.UNTAGGED_PRIO
          let u := (s.rxTake p.val i f.len).inc (R.NET_PORT_CNT0.RX_FRAMES p.val)
          u.notServing = false →
          (f.icrcOk = false → exec (.roceFrame p f) s = .next (u.sat R.XPT_CNT3.ICRC_ERR))
          ∧ (f.icrcOk = true → u.addrEntry p.val f.dstIp = none → exec (.roceFrame p f) s = .next u)
          ∧ (f.icrcOk = true → (u.addrEntry p.val f.dstIp).isSome = true → exec (.roceFrame p f) s = .next (u.transport p.val f))))
    ∧ (∀ (ip : BitVec 128) (mac : BitVec 48),
        (s.addrEntry p.val ip = none → exec (.arpRequest p ip mac) s = .next (s.sat (R.NET_PORT_CNT2.OTHER p.val))
          ∧ exec (.neighborSolicitation p ip mac) s = .next (s.sat (R.NET_PORT_CNT2.OTHER p.val)))
        ∧ (∀ a, s.addrEntry p.val ip = some a → (s.inc (R.NET_PORT_CNT0.RX_FRAMES p.val)).notServing = false →
          exec (.arpRequest p ip mac) s = .next ((s.inc (R.NET_PORT_CNT0.RX_FRAMES p.val)).emitNet p.val (.arpReply p.val ip mac))
          ∧ exec (.neighborSolicitation p ip mac) s =
            .next ((s.inc (R.NET_PORT_CNT0.RX_FRAMES p.val)).emitNet p.val (.neighborAdv p.val ip mac))))
    ∧ (∀ c : Conn,
        (s.xpt.fetching.contains c.val = false → exec (.contextFetchDone c) s = .next s)
        ∧ (s.xpt.fetching.contains c.val = true → 65536 ≤ s.xpt.cache.length → s.evictFor c.val = none → exec (.contextFetchDone c) s = .next s)
        ∧ (∀ kept : List Nat, s.xpt.fetching.contains c.val = true →
            (s.xpt.cache.length < 65536 ∧ kept = s.xpt.cache
              ∨ 65536 ≤ s.xpt.cache.length ∧ ∃ d, s.evictFor c.val = some d ∧ kept = s.xpt.cache.erase d) →
            let mine := s.xpt.hold.filter (fun h => h.2.1 == c.val)
            let u : State := { s with xpt := { s.xpt with
              fetching := s.xpt.fetching.erase c.val, writing := s.xpt.writing.filter (fun w => w.2 ≠ c.val), cache := kept ++ [c.val]
              hold := s.xpt.hold.filter (fun h => h.2.1 != c.val)
              holdFull := s.xpt.holdFull.filter (fun q => !(mine.any fun h => h.1 == q)) } }
            exec (.contextFetchDone c) s = .next (mine.foldl (fun s h => s.takePacket c.val h.2.2)
              (((mine.map (·.1)).eraseDups).foldl State.noteHeld (u.fset R.XPT_STAT.CACHED (kept.length + 1)))))
        ∧ ((s.conn c.val).state = .free → exec (.ccRoundEnd c) s = .next s ∧ exec (.srttReset c) s = .next s)
        ∧ ((s.conn c.val).state ≠ .free →
            exec (.srttReset c) s = .next (s.setConn c.val { s.conn c.val with srtt := s.fget R.NET_CC_CTL1.BASE_RTT_US * 1000 })
            ∧ ((s.conn c.val).cnpSeen = true → (s.conn c.val).srtt ≤ s.fget R.NET_CC_CTL1.TARGET_RTT_US * 1000 → 0 < s.fget R.NET_CC_CTL0.MD →
              exec (.ccRoundEnd c) s = .next ((s.setConn c.val { s.conn c.val with
                win := max 4096 ((s.conn c.val).win - ((s.conn c.val).win * s.fget R.NET_CC_CTL0.MD) / 256), rounds := 0, cnpSeen := false
                limited := false }).netPump c.val))
            ∧ ((s.conn c.val).cnpSeen = false → (s.conn c.val).srtt ≤ s.fget R.NET_CC_CTL1.TARGET_RTT_US * 1000 → (s.conn c.val).limited = false →
              exec (.ccRoundEnd c) s = .next ((s.setConn c.val { s.conn c.val with cnpSeen := false, limited := false }).netPump c.val)))
        ∧ (s.notServing = false →
            let u := s.sat (R.NET_PORT_CNT3.CNP_RX p.val)
            ((s.conn c.val).state ≠ .free → (s.conn c.val).port = p.val →
              exec (.cnp c p) s = .next (u.setConn c.val { u.conn c.val with cnpSeen := true }))
            ∧ ((s.conn c.val).state = .free ∨ (s.conn c.val).port ≠ p.val → exec (.cnp c p) s = .next u.noConn)))

/-- R384 to R389, R457 and R547: a REQ to an address of the port is refused with its reason or establishes a connection, once; RTU and
the first request take it to RTS; DREQ closes it, and a connection in ERROR is freed by DREQ, DREP or the end of its hold time. -/
def Obligations.ConnectionsOpenAndClose : Prop :=
  (∀ (p : Fin 64) (r : CmReq) (s : State),
    (s.portOk p.val = false ∨ s.portState p.val ≠ 2 ∨ s.addrEntry p.val r.dstIp = none → exec (.cmReq p r) s = .next s)
    ∧ (∀ a, s.portOk p.val = true → s.portState p.val = 2 → s.addrEntry p.val r.dstIp = some a → r.serviceId = 0x19640 →
        (s.flag R.SUP_START_STAT.SERVING = false → exec (.cmReq p r) s = .next (s.emitNet p.val (.cmRej r.qpn .disabled)))
        ∧ (∀ c k, s.flag R.SUP_START_STAT.SERVING = true → s.repeated p.val r = some (c, k) →
            exec (.cmReq p r) s = .next (s.emitNet p.val (.cmRep c k.npsn k.rep)))
        ∧ (∀ st, s.flag R.SUP_START_STAT.SERVING = true → s.repeated p.val r = none → s.reqCheck r = .error st →
            exec (.cmReq p r) s = .next (s.emitNet p.val (.cmRej r.qpn st)))
        ∧ (∀ e c, s.flag R.SUP_START_STAT.SERVING = true → s.repeated p.val r = none → s.reqCheck r = .ok (e, c) →
            exec (.cmReq p r) s = .next (s.establishConn p.val a r e c)
            ∧ ((s.establishConn p.val a r e c).conn c).state = .establishing
            ∧ ((s.establishConn p.val a r e c).conn c).tenant = reqTenant r
            ∧ ((s.establishConn p.val a r e c).conn c).hostQp = r.qpn
            ∧ ((s.establishConn p.val a r e c).conn c).epsn = r.psn.toNat)))
  ∧ (∀ (c : Conn) (s : State),
    let k := s.conn c.val
    (k.state = .establishing → exec (.cmRtu c) s = .next (s.setConn c.val { k with state := .rts }))
    ∧ (k.state ≠ .establishing → exec (.cmRtu c) s = .next s)
    ∧ (k.state = .error → exec (.cmDreq c) s = .next ((s.emitNet k.port (.cmDrep c.val)).connFree c.val)
        ∧ exec (.cmDrep c) s = .next (s.connFree c.val) ∧ exec (.errorHoldExpire c) s = .next (s.connFree c.val))
    ∧ (k.state ≠ .error → exec (.cmDrep c) s = .next s ∧ exec (.errorHoldExpire c) s = .next s)
    ∧ (k.state = .free ∨ k.state = .closing → exec (.cmDreq c) s = .next s)
    ∧ (k.state = .rts ∨ k.state = .establishing →
        let u := (s.setConn c.val { k with state := .closing, rxq := k.rxq.filter (fun p => isResp p.opcode) }).breakTargets 1 (qpn c.val)
        exec (.cmDreq c) s = .next (((u.xpt.wrs.filter fun w => w.conn = c.val ∧ w.issued.isNone).foldl
          (fun s w => s.wrFinish w .aborted) u).connClosing c.val)))

/-- R395 to R400 and R374: a request whose turn it is is judged by its row: WRITE, Compare and Swap, Fetch and Add and ATOMIC WRITE take
an entry and form one record each, READ is served, FLUSH captures the JSN, and an opcode of no row is refused with MALFORMED; a request
of a key that does not allow it is refused with the key's status, one on a management connection with ACCESS; with nothing at the head,
nothing happens. -/
def Obligations.RequestsInTheirTurn : Prop :=
  ∀ (c : Conn) (p : Pkt) (s : State), s.Turn c p →
    let u := s.judged c
    let n := c.val
    (u.conn n).mgmt = false →
    (p.opcode ∈ [0x06, 0x07, 0x08, 0x09, 0x0A, 0x0B] →
      (u.writePkt n p = none → exec (.rdmaWrite c) s = .next (u.refuseReq n p.psn .malformed))
      ∧ (∀ a key b imm left last, u.writePkt n p = some (a, key, b, imm, left, last) →
        (∀ st, u.keyCheck (u.conn n).tenant key a b.length [.write] = some st → exec (.rdmaWrite c) s = .next (u.refuseAt n p.psn st))
        ∧ (u.keyCheck (u.conn n).tenant key a b.length [.write] = none → b ≠ [] →
            u.HasRoom .net →
            let tag := u.newTag .net; let v := u.entered .net { kind := .netWrite n p.psn imm, key := some (key.toNat / 256) }
            let w := (v.tookReq n 1 last).expect n p.psn
            exec (.rdmaWrite c) s = .next (((w.setConn n { w.conn n with wrAddr := a + b.length, wrLeft := left, wrKey := key }).keyCount
              (key.toNat / 256) true).formRec
              { id := 0, body := .data (segsAt a b), mirror := true, tenant := (u.conn n).tenant, origin := 2, owner := .ops [tag] }).2)))
    ∧ (p.opcode = 0x0C → u.respOut n < u.fget R.XPT_CONN_CTL.RESP_RES → u.readCheck n p = none →
        u.HasRoom .net →
        let tag := u.newTag .net; let v := u.entered .net { kind := .netRead n p.psn (rethOf p.plain).1 (rethOf p.plain).2.2 0, key := some ((rethOf p.plain).2.1.toNat / 256) }
        exec (.rdmaRead c) s = .next (((v.tookReq n (readPkts (rethOf p.plain).2.2 (v.conn n).mtu) true).keyCount
          ((rethOf p.plain).2.1.toNat / 256) true).serveRead n tag p.psn (rethOf p.plain).1 (rethOf p.plain).2.2))
    ∧ (∀ a key, p.plain.length = 28 → a = beNat (slice p.plain 0 8) → a % 8 = 0 → key = BitVec.ofNat 32 (beNat (slice p.plain 8 4)) →
        u.respOut n < u.fget R.XPT_CONN_CTL.RESP_RES → u.keyCheck (u.conn n).tenant key a 8 [.atomic] = none →
        u.HasRoom .net →
        let tag := u.newTag .net; let v := u.entered .net { kind := .netAtomic n p.psn, key := some (key.toNat / 256) }
        let w := ((v.tookReq n 1 true).expect n p.psn).keyCount (key.toNat / 256) true
        (p.opcode = 0x13 → exec (.compareAndSwap c) s = .next (w.formRec
          { id := 0, body := .rmw (a / 4096) (a % 4096) 8 (.cas (beNat (slice p.plain 20 8)) (beNat (slice p.plain 12 8))), mirror := true,
            tenant := (u.conn n).tenant, origin := 2, owner := .ops [tag] }).2)
        ∧ (p.opcode = 0x14 → exec (.fetchAndAdd c) s = .next (w.formRec
          { id := 0, body := .rmw (a / 4096) (a % 4096) 8 (.add (beNat (slice p.plain 12 8))), mirror := true,
            tenant := (u.conn n).tenant, origin := 2, owner := .ops [tag] }).2))
    ∧ (p.opcode = 0x1D → ∀ a key, rethOf p.plain = (a, key, 8) → p.plain.length = 24 → a % 8 = 0 →
        u.keyCheck (u.conn n).tenant key a 8 [.write] = none →
        u.HasRoom .net →
        let tag := u.newTag .net; let v := u.entered .net { kind := .netWrite n p.psn none, key := some (key.toNat / 256) }
        exec (.atomicWrite c) s = .next ((((v.tookReq n 1 true).expect n p.psn).keyCount (key.toNat / 256) true).formRec
          { id := 0, body := .rmw (a / 4096) (a % 4096) 8 (.write (fieldAt p.plain 16 8)), mirror := true,
            tenant := (u.conn n).tenant, origin := 2, owner := .ops [tag] }).2)
    ∧ (p.opcode = 0x1C → p.plain.length = 20 → 2 ≤ beNat (slice p.plain 0 4) / 16 % 4 →
        u.HasRoom .net →
        let tag := u.newTag .net; let v := u.entered .net { kind := .netFlush n p.psn, key := none }
        let w := (v.tookReq n 1 true).expect n p.psn
        exec (.flush c) s = .next { w with jnl := { w.jnl with
          fences := w.jnl.fences ++ [{ id := w.jnl.nextId, jsn := w.fget R.JNL_JSN.JSN, owner := .flush tag }], nextId := w.jnl.nextId + 1 } })
    ∧ (p.opcode ∈ [0x15, 0x16, 0x17, 0x18, 0x19, 0x1A, 0x1B, 0x1E, 0x1F] → exec (.roceUnsupported c) s = .next (u.refuseReq n p.psn .malformed))

/-- R395 and R401 to R411: a complete SEND whose payload is a row's command takes an entry, runs the command and resolves with its
outcome: task descriptors enter their queue all or none, a walk plan replaces the connection's, a cancel ends it, REGISTER makes a key
VALID and REVOKE makes it REVOKING, and a post pools all of its work requests or none. -/
def Obligations.SendsRunTheirCommand : Prop :=
  ∀ (c : Conn) (p : Pkt) (s : State) (b : Bytes), s.Turn c p →
    let u := s.judged c
    let n := c.val
    p.opcode = 0x04 → u.sendPart n p = some (b, none, true) → u.HasRoom .net →
    let tag := u.newTag .net; let v := u.entered .net { kind := .netSend n p.psn }
    2 ≤ b.length →
    let done := fun (st : Status) (t : State) => (((t.setConn n { t.conn n with msg := [] }).tookReq n 1 true).expect n p.psn).resolve tag st
    (fieldAt b 0 2 = 0x7A5C → ∀ st t, State.runTasks n b v = (.done st, t) → exec (.sendTaskDescriptors c) s = .next (done st t))
    ∧ (fieldAt b 0 2 = 0x7A5C → ∀ t, State.runTasks n b v = (.rnr, t) → exec (.sendTaskDescriptors c) s = .next (u.rnrRefuse n p.psn))
    ∧ (fieldAt b 0 2 = 0x57A1 → (v.conn n).mgmt = false → ∀ st t, State.runPlan c b v = (.done st, t) →
        exec (.sendWalkPlan c) s = .next (done st t))
    ∧ (fieldAt b 0 2 = 0x57C0 → (v.conn n).mgmt = false → b.length = 8 → fieldAt b 2 6 = 0 →
        exec (.sendPlanCancel c) s = .next (done .ok (v.endPlan (.conn c))))
    ∧ (fieldAt b 0 2 = 0x6B3D → (v.conn n).mgmt = false → keyForm b = true → fieldAt b 3 1 = 1 →
        let t := (v.conn n).tenant
        let key := fieldAt b 4 4
        fieldAt b 8 8 < 2 ^ 49 → fieldAt b 16 8 ≠ 0 → fieldAt b 8 8 + fieldAt b 16 8 ≤ 2 ^ 49 → fieldAt b 24 1 < 32 → fieldAt b 28 4 = 0 →
        v.inRange t (key / 256) = true → v.ownsRange t (fieldAt b 8 8) (fieldAt b 16 8) = true → AMap.find? v.xpt.keys (key / 256) = none →
        let k : Key := { state := .valid, variant := BitVec.ofNat 8 key, tenant := t, base := fieldAt b 8 8, len := fieldAt b 16 8,
                         rights := BitVec.ofNat 5 (fieldAt b 24 1) }
        exec (.register c) s = .next (done .ok
          (({ v with xpt := { v.xpt with keys := AMap.put v.xpt.keys (key / 256) k } } : State).inc R.XPT_KEY_STAT.VALID)))
    ∧ (fieldAt b 0 2 = 0x6B3D → (v.conn n).mgmt = false → keyForm b = true → fieldAt b 3 1 = 2 →
        fieldAt b 8 8 = 0 → fieldAt b 16 8 = 0 → fieldAt b 24 1 = 0 → fieldAt b 28 4 < 2 ^ 20 →
        let key := fieldAt b 4 4
        (AMap.find? v.xpt.keys (key / 256) = none → exec (.revoke c) s = .next (done .access v))
        ∧ (∀ k, AMap.find? v.xpt.keys (key / 256) = some k → k.state = .valid → k.tenant = (v.conn n).tenant → k.variant.toNat = key % 256 →
          let z : Key := { k with state := .revoking, cq := fieldAt b 28 4, userTag := BitVec.ofNat 64 (fieldAt b 32 8) }
          let w : State := { v with xpt := { v.xpt with keys := AMap.put v.xpt.keys (key / 256) z } }
          exec (.revoke c) s = .next (done .ok (((w.dec R.XPT_KEY_STAT.VALID).inc R.XPT_KEY_STAT.REVOKING).keySettle (key / 256)))))
    ∧ (fieldAt b 0 2 = 0x3A91 → (v.conn n).mgmt = false → ∀ st t, State.runPost n b v = (.done st, t) →
        exec (.workRequestPost c) s = .next (done st t))

/-- R413 to R415: an opened work request whose turn it is takes an entry and its PSNs; an ACK completes what it covers and sends on, a
NAK of a sequence error has it sent again; an RNR NAK holds its request until the host's timer ends; an answer that does not come has the
oldest request sent again, and after RETRY_CNT retries it fails with TIMEOUT. -/
def Obligations.WorkRequestsGoOut : Prop :=
  ∀ (c : Conn) (s : State),
    (s.nextWrOf c.val = none → exec (.wrIssue c) s = .next s)
    ∧ (∀ w, s.nextWrOf c.val = some w → (s.conn c.val).state = .rts → s.jnl.closed = false → s.wrHeld w = false →
        (w.opcode = 6 → exec (.wrIssue c) s = .next (s.wrDone w.id .ok))
        ∧ (w.opcode ≠ 6 → s.keyCheck w.tenant w.localKey w.localAddr w.len (wrRights w) = none →
            s.HasRoom .net →
            let tag := s.newTag .net; let v := s.entered .net { kind := .netReq c.val w.id }
            let x := ((v.setWr { w with issued := some (tag, (s.conn c.val).npsn) }).keyCount (w.localKey.toNat / 256) true).setConn c.val
              { s.conn c.val with npsn := ((s.conn c.val).npsn + wrPsns w (s.conn c.val).mtu) % 2 ^ 24 }
            exec (.wrIssue c) s = .next (if w.opcode = 5 then x.sendIssued c.val else x.wrPump w.id)))
    ∧ (∀ p r, (s.conn c.val).rxq = p :: r → p.opcode = 0x11 → p.plain.length = 4 →
        let u := s.popReq c.val
        (fieldAt p.plain 0 1 / 32 % 4 = 0 → exec (.roceAcknowledge c) s = .next ((u.ackUpTo c.val p.psn).sendIssued c.val))
        ∧ (fieldAt p.plain 0 1 = 0x60 → exec (.roceAcknowledge c) s =
            .next ((u.ackUpTo c.val ((p.psn + 2 ^ 24 - 1) % 2 ^ 24)).resendWrs c.val)))
    ∧ ((s.conn c.val).rxq = [] → exec (.roceAcknowledge c) s = .next s ∧ exec (.rdmaReadResponse c) s = .next s)
    ∧ (∀ p r w tag f i b, (s.conn c.val).rxq = p :: r → p.opcode = 0x0E →
        let u := s.popReq c.val
        u.wrAt c.val p.psn = some w → w.issued = some (tag, f) → i = psnDist p.psn f → b = p.plain → w.opcode = 5 → i = w.acked → w.sent ≠ 0 →
        b.length = min (u.conn c.val).mtu (w.len - i * (u.conn c.val).mtu) → b ≠ [] → w.target = none →
        let x := ((u.ackUpTo c.val ((f + 2 ^ 24 - 1) % 2 ^ 24)).rttUpTo c.val f).setWr
          { w with acked := i + 1, done := w.done + b.length, retries := 0, recs := w.recs + 1 }
        exec (.rdmaReadResponse c) s = .next (x.formRec
          { id := 0, body := .data (segsAt (w.localAddr + i * (u.conn c.val).mtu) b), mirror := true, tenant := w.tenant, origin := 2,
            owner := .read tag w.id }).2)
    ∧ (∀ (psn : BitVec 24) (tm : BitVec 5), (s.conn c.val).state = .free ∨ s.netSends (s.conn c.val).port = false →
        exec (.rnrNak c psn tm) s = .next s)
    ∧ (∀ (psn : BitVec 24) (tm : BitVec 5), (s.conn c.val).state = .rts → s.netSends (s.conn c.val).port = true →
        let u := s.ackUpTo c.val ((psn.toNat + 2 ^ 24 - 1) % 2 ^ 24)
        (u.wrAt c.val psn.toNat = none → exec (.rnrNak c psn tm) s = .next u)
        ∧ (∀ w, u.wrAt c.val psn.toNat = some w → u.issuedOf c.val = [w] → w.opcode ≠ 5 → exec (.rnrNak c psn tm) s = .next
            (((u.setWr { w with sent := w.acked }).setWr { w with rnr := true, sent := w.acked }).setConn c.val { u.conn c.val with outstanding := 0 })))
    ∧ (let ws := s.xpt.wrs.map fun (w : Wr) => if w.conn = c.val then { w with rnr := false } else w
      exec (.rnrRetryTimer c) s = .next (({ s with xpt := { s.xpt with wrs := ws } } : State).sendIssued c.val))
    ∧ (∀ w, (s.issuedOf c.val).find? (fun w => !w.allRead (s.conn c.val).mtu) = some w → w.sent ≠ 0 → w.rnr = false →
        (w.retries < s.fget R.XPT_REQ_CTL.RETRY_CNT → exec (.reqAckTimeout c) s =
          .next ((s.setWr { w with retries := w.retries + 1 }).resendWrs c.val))
        ∧ (s.fget R.XPT_REQ_CTL.RETRY_CNT ≤ w.retries → exec (.reqAckTimeout c) s = .next (s.failWr c.val w .timeout)))
    ∧ (s.issuedOf c.val = [] → exec (.reqAckTimeout c) s = .next s)

/-! ## CXL (R418 to R444) -/

/-- R103, R418, R427 and R433 to R435: a CXL load or store for which there is an entry is answered by its extent's rights and its line, a
load after a store of its line waits for it there, and a store waits in a combining window of its logical device and tile; without an
entry both wait in the port's receive buffer; a speculative read does nothing, a bad request is counted and answered; a window's end
forms its record; Global Persistent Flush forms a fence over everything admitted, once the port's stores are. -/
def Obligations.CxlRequestsTakeEffect : Prop :=
  ∀ (l : Fin 32) (a : BitVec 49) (tag : BitVec 16) (s : State), s.cxl.rxq = [] → (∀ q ∈ s.tst.ops, q.2.after = []) →
    let line := a.toNat / 64 * 64
    let t := line / 4096
    (s.ldCredits l.val = false → ∀ d be po, exec (.memRd l a tag) s = .next s ∧ exec (.memWr l a tag d be po) s = .next s)
    ∧ (s.ldCredits l.val = true → ¬ s.HasRoom (.cxl (portOf l.val)) →
        exec (.memRd l a tag) s = .next { s with cxl := { s.cxl with rxq := [.memRd l a tag] } }
        ∧ ∀ d be po, exec (.memWr l a tag d be po) s = .next { s with cxl := { s.cxl with rxq := [.memWr l a tag d be po] } })
    ∧ (s.ldCredits l.val = true → s.lineWrites l.val line ≠ [] → s.HasRoom (.cxl (portOf l.val)) → exec (.memRd l a tag) s =
        .next (s.entered (.cxl (portOf l.val)) { kind := .cxlRd l.val tag.toNat line, after := s.lineWrites l.val line }))
    ∧ (s.ldCredits l.val = true → s.lineWrites l.val line = [] → s.HasRoom (.cxl (portOf l.val)) →
        let id := s.newTag (.cxl (portOf l.val)); let u := s.entered (.cxl (portOf l.val)) { kind := .cxlRd l.val tag.toNat line }
        (u.jnl.closed = true → exec (.memRd l a tag) s = .next (u.resolve id .aborted))
        ∧ (u.jnl.closed = false → u.ldMay l.val line = false → exec (.memRd l a tag) s = .next (u.resolve id .access))
        ∧ (u.jnl.closed = false → u.ldMay l.val line = true →
            let v := u.planRead (.ld l) t
            (∀ b w, v.readSpan t (line % 4096) 64 (v.clsOf t) = (.data b, w) → exec (.memRd l a tag) s = .next (w.resolve id .ok b))
            ∧ (∀ w, v.readSpan t (line % 4096) 64 (v.clsOf t) = (.poison, w) → exec (.memRd l a tag) s = .next (w.resolve id .poisoned))
            ∧ (∀ w, v.readSpan t (line % 4096) 64 (v.clsOf t) = (.miss, w) → exec (.memRd l a tag) s =
                .next (w.missOp t (line % 4096) 64 (.cxl id (w.fget R.JNL_JSN.JSN)) (w.clsOf t) id))))
    ∧ (∀ d be, s.ldCredits l.val = true → s.HasRoom (.cxl (portOf l.val)) →
        let id := s.newTag (.cxl (portOf l.val)); let u := s.entered (.cxl (portOf l.val)) { kind := .cxlWr l.val tag.toNat line }
        (∀ po, u.jnl.closed = true → exec (.memWr l a tag d be po) s = .next (u.resolve id .aborted))
        ∧ (u.jnl.closed = false → exec (.memWr l a tag d be true) s = .next (u.resolve id .malformed))
        ∧ (u.jnl.closed = false → u.ldMay l.val line = false → exec (.memWr l a tag d be false) s = .next (u.resolve id .access))
        ∧ (u.jnl.closed = false → u.ldMay l.val line = true → be = 0 → exec (.memWr l a tag d be false) s = .next (u.resolve id .ok))
        ∧ (u.jnl.closed = false → u.ldMay l.val line = true → be ≠ 0 → (∀ w ∈ u.cxl.comb, ¬ (w.ld = l.val ∧ w.tile = t)) →
            let segs := stagedSegs ((lineBytes line d be).foldl (fun m p => AMap.put m p.1 p.2) [])
            exec (.memWr l a tag d be false) s = .next { u with cxl := { u.cxl with
              comb := u.cxl.comb ++ [{ ld := l.val, tile := t, tags := [id], segs := segs }] } }))
    ∧ exec (.memSpecRd l a) s = .next s
    ∧ (∀ w, s.cxl.comb.find? (fun w => w.ld = l.val ∧ w.tile = t) = some w → exec (.combineWindowExpire l t) s =
        .next (({ s with cxl := { s.cxl with comb := s.cxl.comb.filter (fun w => !(w.ld == l.val && w.tile == t)) } } : State).formRec
          { id := 0, body := .data w.segs, mirror := true, tenant := s.ldTenant l.val, origin := portOf l.val, owner := .ops w.tags }).2)
    ∧ (s.cxl.comb.find? (fun w => w.ld = l.val ∧ w.tile = t) = none → exec (.combineWindowExpire l t) s = .next s)
    ∧ (∀ p : Fin 2,
        (s.fget (R.CXL_PORT_STAT.STATE p.val) = 2 → ∀ rd, exec (.cxlBadReq p rd tag) s =
          .next ((s.sat (R.CXL_PORT_CNT.BAD_REQ p.val)).emit
            (if rd then .cxlData (16 * p.val) tag.toNat none else .cxlCmp (16 * p.val) tag.toNat)))
        ∧ (s.fget (R.CXL_PORT_STAT.STATE p.val) ≠ 2 → ∀ rd, exec (.cxlBadReq p rd tag) s = .next s
            ∧ exec (.globalPersistentFlush p) s = .next s)
        ∧ (s.fget (R.CXL_PORT_STAT.STATE p.val) = 2 → s.jnl.closed = true →
            exec (.globalPersistentFlush p) s = .next (s.emit (.gpfDone p.val .aborted)))
        ∧ (s.fget (R.CXL_PORT_STAT.STATE p.val) = 2 → s.jnl.closed = false → s.portWrites p.val = true →
            exec (.globalPersistentFlush p) s = .next { s with cxl := { s.cxl with rxq := [.globalPersistentFlush p] } })
        ∧ (s.fget (R.CXL_PORT_STAT.STATE p.val) = 2 → s.jnl.closed = false → s.portWrites p.val = false →
          exec (.globalPersistentFlush p) s = .next { s with jnl := { s.jnl with
            fences := s.jnl.fences ++ [{ id := s.jnl.nextId, jsn := s.fget R.JNL_JSN.JSN, owner := .gpf p.val }], nextId := s.jnl.nextId + 1 } }))

/-- R418 to R421, R427 to R432, R437 and R458: an extent is offered, taken or declined, withdrawn, released or taken back with its
events; a host that reaches the logical device has its mailbox command answered; SPDM, IDE keys and CDAT are answered over DOE; and of a
logical device that no host reaches, a host's command does nothing. -/
def Obligations.CapacityIsOfferedAndTaken : Prop :=
  ∀ (l : Fin 32) (e : Fin 524288) (s : State),
    (let fits := (s.extent e.val).state = .assigned ∧ (s.extent e.val).owner = s.ldTenant l.val ∧ s.flag (R.CXL_LD_CFG.VALID l.val) = true
        ∧ (s.ld l.val).offers.contains e.val = false ∧ (s.extent e.val).accepted.getLsbD l.val = false
     (¬ fits → exec (.offer l e) s = .next (s.fput R.CXL_STAT.DC_REFUSED true))
     ∧ (fits → ∃ t, exec (.offer l e) s = .next t ∧ (t.ld l.val).offers = (s.ld l.val).offers ++ [e.val]
        ∧ (t.ld l.val).events = (s.ld l.val).events ++ [.addCapacity e.val] ∧ t.ext = s.ext))
    ∧ ((s.extent e.val).accepted.getLsbD l.val = true → (s.ld l.val).withdrawn.contains e.val = false →
        ∃ t, exec (.withdraw l e) s = .next t ∧ (t.ld l.val).withdrawn = (s.ld l.val).withdrawn ++ [e.val]
          ∧ (t.ld l.val).events = (s.ld l.val).events ++ [.releaseCapacity e.val] ∧ t.ext = s.ext ∧ t.ctl = s.ctl)
    ∧ ((s.extent e.val).accepted.getLsbD l.val = false ∨ (s.ld l.val).withdrawn.contains e.val = true →
        exec (.withdraw l e) s = .next (s.fput R.CXL_STAT.DC_REFUSED true))
    ∧ (∃ t, exec (.offerLapse l e) s = .next t ∧ (t.ld l.val).offers = (s.ld l.val).offers.filter (· ≠ e.val)
        ∧ (t.ld l.val).events = (s.ld l.val).events ∧ t.ext = s.ext)
    ∧ ((s.ld l.val).withdrawn.contains e.val = true → (s.extent e.val).accepted.getLsbD l.val = true →
        exec (.forcedRelease l e) s = .next ((s.unaccept l.val e.val).ldEvent l.val (.forcedRelease e.val)))
    ∧ ((s.ld l.val).withdrawn.contains e.val = false ∨ (s.extent e.val).accepted.getLsbD l.val = false →
        exec (.forcedRelease l e) s = .next s)
    ∧ (s.ldUp l.val = true →
        (∀ x, x ∉ (s.ld l.val).offers → ∀ es : List (Fin 524288), x ∈ es.map (·.val) →
          exec (.addDcResponse l es) s = .next (s.emit (.mailbox l.val 2 [])))
        ∧ exec (.addDcResponse l []) s = .next (((s.setLd l.val { s.ld l.val with offers := [] }).fset (R.CXL_LD_STAT.PENDING l.val) 0).emit
            (.mailbox l.val 0 []))
        ∧ ((s.ld l.val).offers.contains e.val = true → (s.extent e.val).state = .assigned → (s.extent e.val).owner = s.ldTenant l.val →
            exec (.addDcResponse l [e]) s = .next (((((s.setLd l.val { s.ld l.val with offers := [] }).fset (R.CXL_LD_STAT.PENDING l.val) 0).markExt e.val
              fun x => { x with accepted := x.accepted ||| (1#32 <<< l.val) }).inc (R.CXL_LD_STAT.ACCEPTED l.val)).emit (.mailbox l.val 0 [])))
        ∧ ((s.extent e.val).accepted.getLsbD l.val = true → exec (.releaseDc l e) s = .next ((s.unaccept l.val e.val).emit (.mailbox l.val 0 [])))
        ∧ ((s.extent e.val).accepted.getLsbD l.val = false → exec (.releaseDc l e) s = .next (s.emit (.mailbox l.val 2 [])))
        ∧ exec (.getDcConfiguration l) s = .next (s.emit (.mailbox l.val 0 [1, 0, 2 ^ 49, 2 ^ 30]))
        ∧ exec (.getDcExtentList l) s = .next (s.emit (.mailbox l.val 0 ((s.acceptedBy l.val).map fun e => [e * 2 ^ 30, 2 ^ 30]).flatten))
        ∧ (∃ w : Nat, ∃ t, exec (.identifyMemoryDevice l) s = .next t ∧ t.out = s.out ++ [.mailbox l.val 0 [0, 0, 0, w]])
        ∧ (∃ w : Nat, ∃ t, exec (.getHealthInfo l) s = .next t ∧ t.out = s.out ++ [.mailbox l.val 0 [w]])
        ∧ exec (.getEventRecords l) s = .next (s.emit (.mailbox l.val 0 (((s.ld l.val).events.map ldEventWords).flatten)))
        ∧ (∀ n : Nat, exec (.clearEventRecords l n) s = .next (if (s.ld l.val).events.length < n then s.emit (.mailbox l.val 2 [])
            else (s.setLd l.val { s.ld l.val with events := (s.ld l.val).events.drop n }).emit (.mailbox l.val 0 [])))
        ∧ (s.gen = [] → exec (.getPoisonList l) s = .next (s.emit (.mailbox l.val 0 [])))
        ∧ (∀ t g, s.gen = [(t, g)] → g.quar = true → isSys t = false → (s.extent (extOf t)).accepted.getLsbD l.val = true →
            exec (.getPoisonList l) s = .next (s.emit (.mailbox l.val 0 ((List.range 64).map fun i => t * 4096 + 64 * i))))
        ∧ (∀ op, exec (.mailboxUnsupported l op) s = .next (s.emit (.mailbox l.val 3 [])))
        ∧ (∀ c, exec (.spdmMessage l (.request c)) s = .next (s.emit (.doe l.val c.toNat)))
        ∧ (∀ h t, s.tenant (s.ldTenant l.val) = some t → ∀ both, exec (.spdmMessage l (.opened both h)) s =
            .next ((s.setLd l.val { s.ld l.val with spdm := true, auth := both && t.ecdsaHash == h }).emit (.doe l.val 0)))
        ∧ (∀ m, exec (.spdmMessage l (.closed m)) s = .next ((s.setLd l.val { s.ld l.val with spdm := false, auth := false }).emit (.doe l.val 0)))
        ∧ exec (.cdatRead l) s = .next (s.emit (.doe l.val 0)))
    ∧ (s.ldUp l.val = false → ∀ i ∈ ([.addDcResponse l [e], .releaseDc l e, .getDcConfiguration l, .getDcExtentList l, .identifyMemoryDevice l,
        .getHealthInfo l, .getEventRecords l, .clearEventRecords l 0, .getPoisonList l, .mailboxUnsupported l 0, .spdmMessage l (.request 0),
        .cdatRead l, .functionLevelReset l, .ringBase l 0 0, .ciAddr l 0 0, .doorbell l 0 0, .planStatAddr l 0, .planSubmit l 0,
        .cxlDeniedAccess l true ⟨0, 8, 0⟩] : List Instr), exec i s = .next s)
    ∧ (∀ p : Fin 2,
        (s.fmUp p.val = true →
          exec (.getLdInfo p) s = .next (s.emit (.fmApi p.val 0 ((s.shownLds p.val).length :: s.shownLds p.val)))
          ∧ exec (.getLdAllocations p) s = .next (s.emit (.fmApi p.val 0
              (((s.shownLds p.val).map fun i => [i, s.fget (R.CXL_LD_STAT.ACCEPTED (16 * p.val + i))]).flatten)))
          ∧ ∀ op, exec (.fmApiRefused p op) s = .next (s.emit (.fmApi p.val 3 [])))
        ∧ (s.fmUp p.val = false → exec (.getLdInfo p) s = .next s ∧ exec (.getLdAllocations p) s = .next s
            ∧ ∀ op, exec (.fmApiRefused p op) s = .next s)
        ∧ (∀ n key, s.cxlUp p.val = true → (∃ i, i < 16 ∧ (s.ld (16 * p.val + i)).spdm = true) → ∃ t, exec (.ideKm p n key) s = .next t ∧
            t.cxl.ide = s.cxl.ide.filter (fun k => !(k.1 == p.val && k.2.1 == n)) ++ [(p.val, n, key)])
        ∧ (∀ n key, s.cxlUp p.val = false ∨ (∀ i, i < 16 → (s.ld (16 * p.val + i)).spdm = false) → exec (.ideKm p n key) s = .next s)
        ∧ (s.cxlUp p.val = true → exec (.ideStateChange p false) s = .next (s.fput (R.CXL_PORT_STAT.IDE_ACTIVE p.val) false))
        ∧ (s.cxlUp p.val = true → ∀ k ∈ s.cxl.ide, k.1 = p.val →
            exec (.ideStateChange p true) s = .next (s.fput (R.CXL_PORT_STAT.IDE_ACTIVE p.val) true))
        ∧ (s.cxlUp p.val = false → ∀ b, exec (.ideStateChange p b) s = .next s))

/-- R422 to R425, R444 and R493: a CXL port goes UP within its configured width and rate, trains again every second while it is DOWN, is
reset with its island, and is fenced, restored and retrained where its state allows. -/
def Obligations.CxlPortsTrainAndReset : Prop :=
  ∀ (p : Fin 2) (s : State),
    let st := s.fget (R.CXL_PORT_STAT.STATE p.val)
    (∀ (w : Fin 3) (g mld : Bool),
      (st = 1 → s.fget (R.CXL_PORT_CFG.MAX_WIDTH p.val) ≤ w.val → g = true ∨ s.flag (R.CXL_PORT_CFG.MAX_GTS p.val) = false →
        let u := ((s.fset (R.CXL_PORT_STAT.STATE p.val) 2).fset (R.CXL_PORT_STAT.WIDTH p.val) w.val).fput (R.CXL_PORT_STAT.GTS p.val) g
        let v := ((u.fput (R.CXL_PORT_STAT.MLD p.val) mld).fset (R.CXL_PORT_STAT.CAUSE p.val) 0).noteBound p.val
        (w.val = 0 → g = false → exec (.cxlLinkTrained p w g mld) s = .next v)
        ∧ (w.val ≠ 0 ∨ g = true → exec (.cxlLinkTrained p w g mld) s = .next (v.postD 0x0801 p.val (w.val + 4 * g.toNat))))
      ∧ (st ≠ 1 ∨ w.val < s.fget (R.CXL_PORT_CFG.MAX_WIDTH p.val) ∨ (g = false ∧ s.flag (R.CXL_PORT_CFG.MAX_GTS p.val) = true) →
        exec (.cxlLinkTrained p w g mld) s = .next s))
    ∧ (st = 0 → s.cxlOut p.val = true → exec (.cxlRetrainTimer p) s = .next (s.fset (R.CXL_PORT_STAT.STATE p.val) 1))
    ∧ (st = 0 → s.cxlOut p.val = false → exec (.cxlRetrainTimer p) s = .next s)
    ∧ (st = 1 → exec (.cxlRetrainTimer p) s =
        .next (((s.fset (R.CXL_PORT_STAT.STATE p.val) 0).fset (R.CXL_PORT_STAT.CAUSE p.val) 2).sat (R.CXL_PORT_STAT.DOWNS p.val)))
    ∧ (1 < st → exec (.cxlRetrainTimer p) s = .next s)
    ∧ (exec (.cxlPortReset p .perst) s = .next (({ s.cxlReset p with cxl := { (s.cxlReset p).cxl with
        perst := (s.cxlReset p).cxl.perst ||| (1#2 <<< p.val) } }).fset (R.SUP_ISL_STAT.STATE (24 + p.val)) 0))
    ∧ (∀ why, why ≠ CxlReset.perst → exec (.cxlPortReset p why) s = .next (s.cxlReset p))
    ∧ (s.groupOn (6 + p.val) = false → exec (.cxlPerstDeassert p) s =
        .next { s with cxl := { s.cxl with perst := s.cxl.perst &&& ~~~(1#2 <<< p.val) } })
    ∧ (s.groupOn (6 + p.val) = true → ∃ t, exec (.cxlPerstDeassert p) s = .next t ∧
        t.fget (R.SUP_ISL_STAT.STATE (24 + p.val)) = 1 ∧ t.fget (R.CXL_PORT_STAT.STATE p.val) = (if st = 0 then 1 else st)
        ∧ t.cxl.perst = s.cxl.perst &&& ~~~(1#2 <<< p.val))
    ∧ (∀ l : Fin 32, s.ldUp l.val = true → exec (.functionLevelReset l) s = .next (s.ldReset l))
    ∧ (3 ≤ st → exec (.cxlPortFence p) s = .next (s.fput R.CXL_STAT.CMD_REFUSED true))
    ∧ (st < 2 → ∃ t, exec (.cxlPortFence p) s = .next t ∧ t.fget (R.CXL_PORT_STAT.STATE p.val) = 4 ∧ t.fget (R.CXL_PORT_STAT.CAUSE p.val) = 1
        ∧ t = { s with ctl := t.ctl })
    ∧ (st = 2 → exec (.cxlPortFence p) s = .next
        (((((s.fset (R.CXL_PORT_STAT.STATE p.val) 3).fset (R.CXL_PORT_STAT.CAUSE p.val) 1).startDrain (.cxlPort p)).noteBound p.val).cxlSettle p.val))
    ∧ (st = 4 → ∃ t, exec (.cxlPortRestore p) s = .next t ∧ t.fget (R.CXL_PORT_STAT.STATE p.val) = 1 ∧ t.fget (R.CXL_PORT_STAT.CAUSE p.val) = 0
        ∧ t = { s with ctl := t.ctl })
    ∧ (st ≠ 4 → exec (.cxlPortRestore p) s = .next (s.fput R.CXL_STAT.CMD_REFUSED true))
    ∧ (st = 2 → ∃ t, exec (.cxlPortRetrain p) s = .next t ∧ t.fget (R.CXL_PORT_STAT.STATE p.val) = 1 ∧ t.fget (R.CXL_PORT_STAT.CAUSE p.val) = 0
        ∧ t = { s.cxlReset p with ctl := t.ctl })
    ∧ (st ≠ 2 → exec (.cxlPortRetrain p) s = .next (s.fput R.CXL_STAT.CMD_REFUSED true))

/-- R34 to R36, R229 and R439 to R443: a host's stores to its ring registers bind a ring, name its consumer index and ring its doorbell,
with denied stores counted and impossible indexes ending in ERROR; a fetched batch enters the queue; a plan is read, judged and answered;
of its accesses to control space, one that is not 64 bits wide and aligned is an Unsupported Request, a store acts on its own doorbell
page, a read of what R34 lets it read is answered, and any other is counted and reads 0. -/
def Obligations.RingsAndPlansAreServed : Prop :=
  ∀ (l : Fin 32) (r : Fin 8) (v : Word) (s : State),
    let i := ringIx l r
    let k := s.ring i
    let denied := s.sat R.SUP_DENIED_CNT.COUNT
    (s.ldUp l.val = true →
      (s.ringUsable l r = false ∨ v.toNat / 16 % 256 ≠ 0 ∨ 8 < v.toNat % 16 ∨ (s.fget (R.CXL_RING_CFG.STATE i) = 1 ∧ k.cons ≠ k.prod) →
        exec (.ringBase l r v) s = .next denied)
      ∧ (s.ringUsable l r = true → v.toNat / 16 % 256 = 0 → v.toNat % 16 ≤ 8 → s.fget (R.CXL_RING_CFG.STATE i) ≠ 1 ∨ k.cons = k.prod →
          (v.toNat / 4096 = 0 → ∃ t, exec (.ringBase l r v) s = .next t ∧ t.fget (R.CXL_RING_CFG.STATE i) = 0 ∧ t.ring i = { ci := k.ci })
          ∧ (v.toNat / 4096 ≠ 0 → ∃ t, exec (.ringBase l r v) s = .next t ∧ t.fget (R.CXL_RING_CFG.STATE i) = 1
              ∧ t.ring i = { ci := k.ci, base := v.toNat / 4096 * 4096, size := 16 * 2 ^ (v.toNat % 16) }))
      ∧ (v.toNat % 8 ≠ 0 → exec (.ciAddr l r v) s = .next denied ∧ exec (.planStatAddr l v) s = .next denied)
      ∧ (v.toNat % 8 = 0 → exec (.ciAddr l r v) s = .next (s.setRing i { k with ci := v.toNat })
          ∧ exec (.planStatAddr l v) s = .next (s.setLd l.val { s.ld l.val with planStat := v.toNat }))
      ∧ (s.fget (R.CXL_RING_CFG.STATE i) ≠ 1 ∨ 2 ^ 32 ≤ v.toNat → exec (.doorbell l r v) s = .next denied)
      ∧ (s.fget (R.CXL_RING_CFG.STATE i) = 1 → v.toNat < 2 ^ 32 →
          (k.size < (v.toNat + 2 ^ 32 - k.cons) % 2 ^ 32 ∨ 2 ^ 31 ≤ (v.toNat + 2 ^ 32 - k.prod) % 2 ^ 32 → exec (.doorbell l r v) s =
            .next (((s.fset (R.CXL_RING_CFG.STATE i) 2).setRing i { s.ring i with asked := 0 }).postT (s.ldTenant l.val) 0x0803 l.val r.val))
          ∧ ((v.toNat + 2 ^ 32 - k.cons) % 2 ^ 32 ≤ k.size → (v.toNat + 2 ^ 32 - k.prod) % 2 ^ 32 < 2 ^ 31 →
            exec (.doorbell l r v) s = .next ((s.setRing i { k with prod := v.toNat }).ringPump l r)))
      ∧ (v = 0 → exec (.planSubmit l v) s = .next (s.endPlan (.ld l)))
      ∧ (v.toNat % 32 ≠ 0 → exec (.planSubmit l v) s = .next denied)
      ∧ (v ≠ 0 → v.toNat % 32 = 0 → exec (.planSubmit l v) s =
          .next ((s.setLd l.val { s.ld l.val with planAddrs := (s.ld l.val).planAddrs ++ [v.toNat] }).emit (.hostRead l.val v.toNat 32)))
      ∧ (∀ (off : BitVec 26) (wr : Bool) (len : Nat), len ≠ 8 ∨ off.toNat % 8 ≠ 0 →
          exec (.cxlDeniedAccess l wr ⟨off, len, v⟩) s = .next (s.emit (.pciUr l.val)))
      ∧ (∀ off : BitVec 26, off.toNat % 8 = 0 →
          (off.toNat / 65536 ≠ 0x2E0 + l.val → exec (.cxlDeniedAccess l true ⟨off, 8, v⟩) s = .next denied)
          ∧ (off.toNat = 0x2E00000 + 65536 * l.val + 32 * r.val → exec (.cxlDeniedAccess l true ⟨off, 8, v⟩) s = exec (.ringBase l r v) s)
          ∧ (off.toNat = 0x2E00000 + 65536 * l.val + 32 * r.val + 8 → exec (.cxlDeniedAccess l true ⟨off, 8, v⟩) s = exec (.ciAddr l r v) s)
          ∧ (off.toNat = 0x2E00000 + 65536 * l.val + 32 * r.val + 16 → exec (.cxlDeniedAccess l true ⟨off, 8, v⟩) s = exec (.doorbell l r v) s)
          ∧ (off.toNat = 0x2E00000 + 65536 * l.val + 256 → exec (.cxlDeniedAccess l true ⟨off, 8, v⟩) s = exec (.planStatAddr l v) s)
          ∧ (off.toNat = 0x2E00000 + 65536 * l.val + 264 → exec (.cxlDeniedAccess l true ⟨off, 8, v⟩) s = exec (.planSubmit l v) s)
          ∧ (off = 0 ∨ off.toNat / 4096 = 0x3000 ∨ off.toNat / 4096 = 0x3001 + l.val →
              exec (.cxlDeniedAccess l false ⟨off, 8, v⟩) s = .next (s.emit (.ioData l.val (s.regRead off.toNat))))
          ∧ (s.hostMayRead l.val off.toNat = false → exec (.cxlDeniedAccess l false ⟨off, 8, v⟩) s = .next (denied.emit (.ioData l.val 0)))))
    ∧ (∀ ok ds, s.fget (R.CXL_RING_CFG.STATE i) ≠ 1 ∨ k.asked = 0 → exec (.ringFetchDone l r ok ds) s = .next s)
    ∧ (∀ ds, s.fget (R.CXL_RING_CFG.STATE i) = 1 → k.asked ≠ 0 → exec (.ringFetchDone l r false ds) s =
        .next (((s.fset (R.CXL_RING_CFG.STATE i) 2).setRing i { s.ring i with asked := 0 }).postT (s.ldTenant l.val) 0x0803 l.val r.val))
    ∧ (∀ ds : List Bytes, s.fget (R.CXL_RING_CFG.STATE i) = 1 → k.asked ≠ 0 → ds.length = k.asked →
        let q := s.fget (R.CXL_RING_CFG.QUEUE i)
        let u := s.setRing i { k with asked := 0 }
        u.queueRoom q ds.length = true →
        let w := ds.foldl (fun (s : State) d => s.acceptDesc q d) u
        exec (.ringFetchDone l r true ds) s = .next (((w.setRing i { w.ring i with cons := (k.cons + ds.length) % 2 ^ 32 }).emit
          (.ldWrite l.val k.ci (natLe 8 ((k.cons + ds.length) % 2 ^ 32)))).ringPump l r))
    ∧ (∀ b : Bytes, ((s.ld l.val).planAddrs = [] → exec (.planReadDone l b) s = .next s)
        ∧ (∀ x rest, (s.ld l.val).planAddrs = x :: rest →
          let u := s.setLd l.val { s.ld l.val with planAddrs := rest }
          let say := fun (w : State) (st : Status) => w.emit (.ldWrite l.val (w.ld l.val).planStat (slice b 8 8 ++ natLe 1 st.code ++ natLe 7 0))
          (parsePlan b (u.ldTenant l.val) u.timeNs = none → exec (.planReadDone l b) s = .next (say u .malformed))
          ∧ (∀ pl, parsePlan b (u.ldTenant l.val) u.timeNs = some pl →
            ((u.planOf (.ld l)).isNone = true → 4096 ≤ u.hostPlans → exec (.planReadDone l b) s = .next (say u .nospace))
            ∧ ((u.planOf (.ld l)).isNone = false ∨ u.hostPlans < 4096 → exec (.planReadDone l b) s = .next (say (u.declarePlan (.ld l) pl) .ok)))))

/-! ## Gatehouse, the self-timed core and power (R451 to R536) -/

/-- R27, R452, R454, R455, R464 and R467: a tenant is created or destroyed by a record, or refused; an enrolment request that fails its
checks is answered with its refusal and one that passes enters as a record, which the response follows; a cipher core is fenced, restored
only over its known-answer tests, and fenced when they fail. -/
def Obligations.TenantsEnrolAndCoresTest : Prop :=
  (∀ (t : BitVec 24) (s : State),
    let make := Attr.tenantCreate t s.stagedHash (BitVec.ofNat 32 (s.fget R.GTH_TEN_STAT.NEXT_EPOCH))
    let record := fun (a : Attr) => (s.formRec { id := 0, body := .attr a, mirror := true, tenant := 0, origin := 4, owner := .mgmt 0 }).2
    (t = 0 ∨ (s.attrCheck make).isSome = true → exec (.create t) s = .next (s.fset R.GTH_TEN_STAT.REFUSED 1))
    ∧ (t ≠ 0 → s.attrCheck make = none → exec (.create t) s = .next (record make))
    ∧ (t = 0 ∨ (s.attrCheck (.tenantDestroy t)).isSome = true → exec (.destroy t) s = .next (s.fset R.GTH_TEN_STAT.REFUSED 1))
    ∧ (t ≠ 0 → s.attrCheck (.tenantDestroy t) = none → exec (.destroy t) s = .next (record (.tenantDestroy t))))
  ∧ (∀ (n : BitVec 16) (x y : Bool) (s : State),
    let r := s.reqBytes n.toNat
    let busy := s.flag R.GTH_ENROL_STAT.BUSY
    (n = 0 ∨ 32768 < n.toNat ∨ busy = true → exec (.process n x y) s = .next (s.fset R.GTH_STAT.CMD_REFUSED 1))
    ∧ (n ≠ 0 → n.toNat ≤ 32768 → busy = false →
        (∀ st, s.enrolRefusal r (x && y) = some st → exec (.process n x y) s =
          .next (((s.fset R.GTH_ENROL_STAT.STATUS st.code).sat R.GTH_CNT1.ENROL_REFUSED).putResponse (enrolHead st.code (fieldAt r 4 3))))
        ∧ (s.enrolRefusal r (x && y) = none → exec (.process n x y) s =
          .next ((({ s with gth := { s.gth with req := r } }).fset R.GTH_ENROL_STAT.BUSY 1).formAttr (Attr.tenantEnrol (BitVec.ofNat 24 (fieldAt r 4 3))
            (if fieldAt r 3 1 % 2 = 1 then some (BitVec.ofNat 32 (s.fget R.GTH_TEN_STAT.NEXT_EPOCH)) else none) (fieldAt r 3 1 / 2 % 2 = 1)
            (BitVec.ofNat 384 (leNat (sha3_384 (slice r 4297 97))))) .enrol)))
    ∧ (r.length ≠ 9117 ∨ fieldAt r 0 2 ≠ 0x3E77 ∨ fieldAt r 2 1 ≠ 1 ∨ 4 ≤ fieldAt r 3 1 ∨ fieldAt r 7 1 ≠ 0 →
        s.enrolRefusal r (x && y) = some .malformed))
  ∧ (∀ (k : Bytes) (m : BitVec 256) (pub ex : Bytes) (s : State),
    (s.flag R.GTH_ENROL_STAT.BUSY = false ∨ s.enrolOpen = true → exec (.enrolResponse k m pub ex) s = .next s)
    ∧ (s.flag R.GTH_ENROL_STAT.BUSY = true → s.enrolOpen = false →
        let st := s.fget R.GTH_ENROL_STAT.STATUS
        let t := fieldAt s.gth.req 4 3
        let close := fun (d : State) => ({ d with gth := { d.gth with req := [] } }).fset R.GTH_ENROL_STAT.BUSY 0
        (s.tenant (BitVec.ofNat 24 t) = none → exec (.enrolResponse k m pub ex) s = .next (close (s.refuseEnrol t (if 1 < st then st else Status.access.code))))
        ∧ (∀ e, s.tenant (BitVec.ofNat 24 t) = some e →
          (1 < st → exec (.enrolResponse k m pub ex) s = .next (close (s.refuseEnrol t st)))
          ∧ (st ≤ 1 → exec (.enrolResponse k m pub ex) s =
            .next (close ((s.putResponse (s.enrolBody (s.say .ok).code e k m pub ex)).fset R.GTH_ENROL_STAT.STATUS (s.say .ok).code))))))
  ∧ (∀ (i : Fin 96) (s : State),
    let st := s.fget (R.GTH_CORE_STAT.STATE i.val)
    let wave := if i.val < 32 ∨ (64 ≤ i.val ∧ i.val < 80) then 2 else 3
    let fenced := fun (u : State) (cause : Nat) =>
      (((u.fset (R.GTH_CORE_STAT.STATE i.val) 2).fset (R.GTH_CORE_STAT.CAUSE i.val) cause).noteCores.postD 0x0901 i.val cause)
    (st = 0 → wave ≤ s.fget R.PWR_STAT.WAVE → exec (.cipherCoreFence i) s = .next (fenced s 1)
      ∧ exec (.katTimer i false) s = .next (fenced (s.sat R.GTH_CNT1.KAT_FAIL) 2))
    ∧ (st ≠ 0 ∨ s.fget R.PWR_STAT.WAVE < wave → exec (.cipherCoreFence i) s = .next (s.fset R.GTH_STAT.CMD_REFUSED 1)
      ∧ exec (.katTimer i false) s = .next s)
    ∧ exec (.katTimer i true) s = .next s
    ∧ (st = 2 → wave ≤ s.fget R.PWR_STAT.WAVE →
      exec (.cipherCoreRestore i true) s = .next (((s.fset (R.GTH_CORE_STAT.STATE i.val) 0).fset (R.GTH_CORE_STAT.CAUSE i.val) 0).noteCores)
      ∧ exec (.cipherCoreRestore i false) s = .next (fenced (s.sat R.GTH_CNT1.KAT_FAIL) 2))
    ∧ (st ≠ 2 ∨ s.fget R.PWR_STAT.WAVE < wave → ∀ ok, exec (.cipherCoreRestore i ok) s = .next (s.fset R.GTH_STAT.CMD_REFUSED 1)))

/-- R476 to R482, R489, R490, R495, R496, R498 and R499: a pace count is published if two of its samples agree and its crossing fails
after four that do not; the extremes are cleared to the pace; the VCORE step adapts under ADAPTIVE and throttles otherwise, and waits for
another transaction where none has run since the last step (R511); an island whose clock stops is isolated until its heartbeat returns;
and the timebase's loss is noted once. -/
def Obligations.PaceVcoreAndClocksGoOn : Prop :=
  (∀ (q : Fin 16) (s : State), s.railState 3 = 2 → s.fget (R.SUP_ISL_STAT.STATE 50) = 1 →
    (∀ v r, exec (.paceWindow q ((v, v) :: r)) s = .next ((s.sat (R.SUP_ISL_STAT.DISAGREE 50) 0).publishPace q.val v.toNat))
    ∧ (∀ a b c d e f g h : BitVec 16, a ≠ b → c ≠ d → e ≠ f →
        (g = h → ∀ r, exec (.paceWindow q ((a, b) :: (c, d) :: (e, f) :: (g, h) :: r)) s =
          .next ((s.sat (R.SUP_ISL_STAT.DISAGREE 50) 3).publishPace q.val g.toNat))
        ∧ (g ≠ h → ∀ r, exec (.paceWindow q ((a, b) :: (c, d) :: (e, f) :: (g, h) :: r)) s =
          .next ((((s.sat (R.SUP_ISL_STAT.DISAGREE 50) 4).fset (R.SUP_ISL_STAT.CROSS_FAULT 50) 1).postD 0x0A02 50 0).resetIsland 50))))
  ∧ (∀ (q : Fin 16) (v : Nat) (s : State), v < 2 ^ 16 → (s.publishPace q.val v).fget (R.KSK_PACE.PACE q.val) = v)
  ∧ (∀ (q : Fin 16) (l) (s : State), s.railState 3 ≠ 2 ∨ s.fget (R.SUP_ISL_STAT.STATE 50) ≠ 1 → exec (.paceWindow q l) s = .next s)
  ∧ (∀ (s : State), ∃ t, exec .clearMinmax s = .next t ∧ t = { s with ctl := t.ctl } ∧ ∀ q : Fin 16,
      t.fget (R.KSK_PACE.MIN q.val) = s.fget (R.KSK_PACE.PACE q.val) % 2 ^ 16
        ∧ t.fget (R.KSK_PACE.MAX q.val) = s.fget (R.KSK_PACE.PACE q.val) % 2 ^ 16)
  ∧ (∀ (w : BitVec 8) (s : State),
    let low := s.pwr.lowPace
    let u0 : State := { (s.pm 3 0x96 0).fset R.PWR_VCORE_STAT.POWER_W w.toNat with pwr := { s.pwr with lowPace := none } }
    let u := match low with | some p => u0.fset R.PWR_VCORE_STAT.LOW_PACE p | none => u0
    (s.pwr.stepLast = true → exec (.vcoreStep w) s = .next { s with pwr := { s.pwr with stepHeld := some w.toNat } })
    ∧ (s.pwr.stepLast = false → s.railState 3 ≠ 2 → exec (.vcoreStep w) s = .next s)
    ∧ (s.pwr.stepLast = false → s.railState 3 = 2 → s.flag R.PWR_VCORE_CTL.MODE = true → s.flag R.PWR_STAT.SEQ_MODE = false →
        (∀ q, q < 16 → s.squareUp q = false) → exec (.vcoreStep w) s = .next s)
    ∧ (s.pwr.stepLast = false → s.railState 3 = 2 → s.flag R.PWR_VCORE_CTL.MODE = true → s.flag R.PWR_STAT.SEQ_MODE = false →
        (∃ q, q < 16 ∧ s.squareUp q = true) →
        let n := u.vcoreNext w.toNat low
        let v := (({ u with pwr := { u.pwr with throttle := 0 } } : State).fset R.PWR_VCORE_STAT.THROTTLED 0).fput R.PWR_VCORE_STAT.CAPPED n.2
        (n.1 = v.fget R.PWR_VCORE_STAT.SET_MV → exec (.vcoreStep w) s = .next v.stepDone)
        ∧ (n.1 ≠ v.fget R.PWR_VCORE_STAT.SET_MV → exec (.vcoreStep w) s = .next (v.setVcore n.1).stepDone))
    ∧ (s.pwr.stepLast = false → s.railState 3 = 2 → s.flag R.PWR_VCORE_CTL.MODE = false ∨ s.flag R.PWR_STAT.SEQ_MODE = true →
        let n := u.throttleNext w.toNat
        exec (.vcoreStep w) s =
          .next (({ u with pwr := { u.pwr with throttle := n } } : State).fput R.PWR_VCORE_STAT.THROTTLED (n != 0)).stepDone))
  ∧ (∀ (i : Fin 51) (s : State),
    let st := s.fget (R.SUP_ISL_STAT.STATE i.val)
    (st ≠ 1 → exec (.islandClockStopped i) s = .next s)
    ∧ (st = 1 → i.val < 49 → exec (.islandClockStopped i) s =
        .next (((s.fset (R.SUP_ISL_STAT.STATE i.val) 2).sat (R.SUP_ISL_STAT.STOPS i.val)).postD 0x0A01 i.val 0))
    ∧ (st = 1 → i.val = 49 → exec (.islandClockStopped i) s = .next (s.fset (R.SUP_ISL_STAT.STATE 49) 0))
    ∧ (i.val = 50 → exec (.islandClockStopped i) s = .next s)
    ∧ (st = 2 → i.val ≠ 49 → exec (.islandHeartbeatReturn i) s = .next (s.fset (R.SUP_ISL_STAT.STATE i.val) 1))
    ∧ (st = 0 → i.val = 49 → exec (.islandHeartbeatReturn i) s = .next (s.fset (R.SUP_ISL_STAT.STATE 49) 1))
    ∧ (st = 1 → exec (.islandHeartbeatReturn i) s = .next s))
  ∧ (∀ (s : State),
    (s.flag R.SUP_TIME_STAT.TIMEBASE_LOST = true → exec .timebaseLost s = .next s)
    ∧ (s.flag R.SUP_TIME_STAT.TIMEBASE_LOST = false → exec .timebaseLost s =
        .next (((s.fset R.SUP_TIME_STAT.TIMEBASE_LOST 1).sat R.SUP_TIME_STAT.LOSSES).postD 0x0A03 0 0))
    ∧ exec .timebaseReturn s = .next (s.fset R.SUP_TIME_STAT.TIMEBASE_LOST 0))

/-- R502, R503, R512 to R519 and R535: power-up begins at the end of the power-on reset, when the input is stable again or when the latch
is cleared; a rail that is power-good leads to the next one, one that is not fails; waves are released in order, by GO from the second
on; a fenced rail group is restored on command; and stages of going down follow each other. -/
def Obligations.PowerComesUpInOrder : Prop :=
  (∀ (senior seqMode : Bool) (s : State),
    (s.pwr.por = false → exec (.powerOnResetEnd senior seqMode) s = .next s)
    ∧ (s.pwr.por = true → exec (.powerOnResetEnd senior seqMode) s = .next ((s.sampleStraps senior seqMode).startPowerUp)))
  ∧ (∀ (s : State),
    let on := ((s.fset R.PWR_STAT.STATE 1).fset R.PWR_STAT.COMMITTED 0).fset R.PWR_STAT.WAVE 0
    let u : State := { on.fset R.SUP_START_STAT.PHASE 1 with sup := { s.sup with startNs := s.timeNs } }
    (s.flag R.PWR_STAT.SEQ_MODE = false → s.startPowerUp = u.railOn 3) ∧ (s.flag R.PWR_STAT.SEQ_MODE = true → s.startPowerUp = u.enterSeq 1))
  ∧ (∀ (r : Fin 56) (mv : BitVec 16) (s : State),
    let seq := s.flag R.PWR_STAT.SEQ_MODE
    let good := (((s.fset (R.PWR_RAIL_STAT.STATE r.val) 2).fset (R.PWR_RAIL_STAT.MON_MV r.val) mv.toNat).fset (R.PWR_RAIL_STAT.CAUSE r.val) 0).supLog
      0x02 mv.toNat r.val
    (s.railState r.val = 1 → r.val < 8 → exec (.railPowerGood r mv) s = .next (good.upNext r.val))
    ∧ (s.railState r.val = 1 → 8 ≤ r.val → seq = true → exec (.railPowerGood r mv) s = .next good.seqSettle)
    ∧ (s.railState r.val = 1 → 8 ≤ r.val → seq = false →
        let g := (r.val - 8) / 2
        let due := good.pwr.restores.head? = some g ∨ (groupWave g ≤ good.fget R.PWR_STAT.WAVE ∧ (good.fget R.PWR_STAT.GROUPS_FENCED).testBit g = false)
        (∀ w, good.pwr.off = some w → exec (.railPowerGood r mv) s = .next good)
        ∧ (good.pwr.off = none → due → exec (.railPowerGood r mv) s = .next (good.powerGroup g).pumpRestores)
        ∧ (good.pwr.off = none → ¬ due → exec (.railPowerGood r mv) s = .next good.pumpRestores))
    ∧ (s.railState r.val ≠ 1 → seq = false → exec (.railPowerGood r mv) s = .next s)
    ∧ (∀ c, s.railState r.val ≠ 1 → exec (.railPgTimeout r c mv) s = .next s)
    ∧ (∀ c, s.railState r.val = 1 → s.pwr.off = none → r.val < 8 → exec (.railPgTimeout r c mv) s =
        .next (((s.sat (R.TWB_CNT0.ARB_LOST 0) (railLost c)).railFails r.val (railCodes c).1 (railCodes c).2 mv.toNat).comeUpFails r.val (railCodes c).1))
    ∧ (∀ c, s.railState r.val = 1 → s.pwr.off = none → 8 ≤ r.val →
        let u := (s.sat (R.TWB_CNT0.ARB_LOST 0) (railLost c)).railFails r.val (railCodes c).1 (railCodes c).2 mv.toNat
        let t := u.fenceGroup ((r.val - 8) / 2) mv.toNat
        exec (.railPgTimeout r c mv) s =
          .next (({ t with pwr := { t.pwr with restores := u.pwr.restores.filter (· ≠ (r.val - 8) / 2) } }).seqSettle.pumpRestores))
    ∧ (∀ c w, s.railState r.val = 1 → s.pwr.off = some w → exec (.railPgTimeout r c mv) s =
        .next ((s.sat (R.TWB_CNT0.ARB_LOST 0) (railLost c)).railFails r.val (railCodes c).1 (railCodes c).2 mv.toNat)))
  ∧ (∀ (s : State),
    let w := s.fget R.PWR_STAT.WAVE + 1
    (s.waveReady w = true → exec .waveRelease s = .next (s.releaseWave w))
    ∧ (s.waveReady w = false → exec .waveRelease s = .next s)
    ∧ (s.pwr.goGiven = false → 1 < w → s.waveReady w = false)
    ∧ (s.pwr.goGiven = true ∨ s.fget R.PWR_STAT.STATE ≠ 2 ∨ s.fget R.PWR_STAT.WAVE = 0 → exec .go s = .next (s.fset R.PWR_STAT.CMD_REFUSED 1))
    ∧ (s.pwr.goGiven = false → s.fget R.PWR_STAT.STATE = 2 → s.fget R.PWR_STAT.WAVE ≠ 0 →
        (s.flag R.PWR_STAT.SEQ_MODE = true ∨ (∀ i, i < 48 → s.flag (R.PWR_RAIL_CFG.VALID (8 + i)) = true) →
          exec .go s = .next { s.fset R.SUP_START_STAT.PHASE 3 with pwr := { s.pwr with goGiven := true } })
        ∧ (s.flag R.PWR_STAT.SEQ_MODE = false → ∀ i, i < 48 → s.flag (R.PWR_RAIL_CFG.VALID (8 + i)) = false → exec .go s = .next s))
    ∧ (s.fget R.PWR_STAT.STATE = 6 → exec .inputStable s = .next (((s.fset R.PWR_STAT.WARN 0).supLog 0x14 0 0).startPowerUp))
    ∧ (s.fget R.PWR_STAT.STATE ≠ 6 → exec .inputStable s = .next (s.fset R.PWR_STAT.WARN 0))
    ∧ (s.flag R.PWR_LATCH.LATCHED = true → ∃ t, exec .clearLatch s = .next t ∧ t =
        ((s.fset R.PWR_LATCH.LATCHED 0).supLog 0x31 (s.fget R.PWR_LATCH.CAUSE) (s.fget R.PWR_LATCH.RAIL)).startPowerUp)
    ∧ (s.flag R.PWR_LATCH.LATCHED = false → exec .clearLatch s = .next s))
  ∧ (∀ (g : Fin 24) (s : State),
    let st := s.fget R.PWR_STAT.STATE
    let may := (s.fget R.PWR_STAT.GROUPS_FENCED).testBit g.val = true ∧ (st = 2 ∨ st = 3) ∧ s.pwr.restores.contains g.val = false ∧ s.pwr.off = none
    (¬ may → exec (.restoreGroup g) s = .next (s.fset R.PWR_STAT.CMD_REFUSED 1))
    ∧ (may → s.flag R.PWR_STAT.SEQ_MODE = false →
        exec (.restoreGroup g) s = .next (({ s with pwr := { s.pwr with restores := s.pwr.restores ++ [g.val] } }).pumpRestores))
    ∧ (may → s.flag R.PWR_STAT.SEQ_MODE = true →
        (s.railState (8 + 2 * g.val) = 2 → s.railState (9 + 2 * g.val) = 2 → exec (.restoreGroup g) s = .next (s.groupRestored g.val))
        ∧ (s.railState (8 + 2 * g.val) ≠ 2 ∨ s.railState (9 + 2 * g.val) ≠ 2 → exec (.restoreGroup g) s = .next (s.fset R.PWR_STAT.CMD_REFUSED 1))))
  ∧ (∀ (m : List (Fin 56 × BitVec 16)) (s : State),
    (s.pwr.off = none → exec (.railOffStage m) s = .next s)
    ∧ (∀ r v rest why, m = [(r, v)] → s.pwr.off = some (.rails [r.val] :: rest, why) →
        exec (.railOffStage m) s = .next ((s.railIsOff r.val v.toNat).stageEnds)))
  ∧ (∀ (s : State),
    let n := s.fget R.PWR_STAT.SEQ_STATE
    (s.flag R.PWR_STAT.SEQ_MODE = true → n ≠ 0 → s.pwr.seqHeld = false → exec .seqSyncStep s = .next (s.enterSeq (if n = 15 then 0 else n + 1)))
    ∧ (s.flag R.PWR_STAT.SEQ_MODE = false ∨ n = 0 ∨ s.pwr.seqHeld = true → exec .seqSyncStep s = .next s)
    ∧ (s.flag R.PWR_STAT.SEQ_MODE = true → n ≠ 0 → n ≤ 7 → exec .seqSyncAbort s = .next (s.seqAbort 0 7))
    ∧ (s.flag R.PWR_STAT.SEQ_MODE = false ∨ n = 0 ∨ 7 < n → exec .seqSyncAbort s = .next s))

/-- R504, R509, R510, R511, R524 to R534, R540, R541, R592, R600, R641 and R643: a rail that fails in service fences its group or stops
the device; low VCORE and a thermal trip are logged, and the trip stops it; a power warning is committed, a glitch counted; a regulator's
attention is read out; telemetry is read in four transactions of up to four attempts each, of which a lost arbitration uses up one, and
the current is kept. -/
def Obligations.SupervisionActsOnFailures : Prop :=
  (∀ (r : Fin 56) (high : Bool) (mv : BitVec 16) (s : State),
    let why := if high then 3 else 2
    let u := s.railFails r.val why (if high then 0x05 else 0x04) mv.toNat
    let g := (r.val - 8) / 2
    (s.railState r.val ≠ 2 → exec (.groupRailFail r high mv) s = .next s ∧ exec (.criticalRailFail r high mv) s = .next s)
    ∧ (s.railState r.val = 2 → 8 ≤ r.val → s.pwr.off = none → u.flag R.PWR_STAT.COMMITTED = false →
        let t := u.fenceGroup g mv.toNat
        exec (.groupRailFail r high mv) s = .next (({ t with pwr := { t.pwr with restores := t.pwr.restores.filter (· ≠ g) } }).pumpRestores))
    ∧ (s.railState r.val = 2 → 3 ≤ r.val → r.val ≤ 6 → s.pwr.off = none →
        (u.fget R.PWR_STAT.STATE = 1 → exec (.criticalRailFail r high mv) s = .next (u.comeUpFails r.val why))
        ∧ (u.fget R.PWR_STAT.STATE ≠ 1 → exec (.criticalRailFail r high mv) s =
            .next (((u.setServing false).resetCore.jnlStop 4).goDown u.reverseSteps (.critical r.val why))))
    ∧ (s.railState r.val = 2 → 3 ≤ r.val → r.val ≤ 6 → ∀ w, s.pwr.off = some w →
        exec (.criticalRailFail r high mv) s = .next u.stopDrain.afterDrainOff)
    ∧ (s.railState 7 ≠ 2 → exec (.vflFail high mv) s = .next s)
    ∧ (s.railState 7 = 2 → s.pwr.off = none →
        let v := s.railFails 7 why (if high then 0x05 else 0x04) mv.toNat
        (v.fget R.PWR_STAT.STATE = 1 → exec (.vflFail high mv) s = .next (v.comeUpFails 7 why))
        ∧ (v.fget R.PWR_STAT.STATE ≠ 1 → v.flag R.PWR_STAT.COMMITTED = false →
          exec (.vflFail high mv) s = .next (({ v with fls := { v.fls with fenced := true } }).postD 0x0B01 0x107 mv.toNat)))
    ∧ (s.railState 3 = 2 → exec (.vcoreLow mv) s =
        .next (((s.fset (R.PWR_RAIL_STAT.MON_MV 3) mv.toNat).supLog 0x33 mv.toNat 3).postD 0x0B02 0 mv.toNat))
    ∧ (s.railState 3 ≠ 2 → exec (.vcoreLow mv) s = .next s))
  ∧ (∀ (n : Fin 48) (c : BitVec 8) (s : State),
    let u := ((((s.fset R.PWR_TEMP_STAT.HOTTEST_C c.toNat).fset R.PWR_TEMP_STAT.SENSOR n.val).peak R.PWR_TEMP_STAT.PEAK_C c.toNat).sat
      R.PWR_TEMP_STAT.TRIPS).supLog 0x32 c.toNat 0
    let st := u.fget R.PWR_STAT.STATE
    (u.flag R.PWR_STAT.COMMITTED = true → st = 4 → exec (.thermalTrip n c) s = .next { u with pwr := { u.pwr with tripAfter := true } })
    ∧ (u.flag R.PWR_STAT.COMMITTED = false → st = 0 ∨ st = 5 ∨ st = 6 → exec (.thermalTrip n c) s = .next u)
    ∧ (u.flag R.PWR_STAT.COMMITTED = false → st = 1 ∨ st = 2 ∨ st = 3 → s.pwr.off = none → exec (.thermalTrip n c) s = .next (u.criticalStop 0 6)))
  ∧ (∀ (s : State),
    let u := (s.fset R.PWR_STAT.WARN 1).supLog 0x10 0 0
    (s.pwr.por = true → exec .pwrWarnCommit s = .next s)
    ∧ (s.pwr.por = false → u.fget R.PWR_STAT.STATE = 0 ∨ u.fget R.PWR_STAT.STATE = 5 ∨ u.fget R.PWR_STAT.STATE = 6 ∨ s.pwr.off.isSome = true →
        exec .pwrWarnCommit s = .next u)
    ∧ (s.pwr.por = false → u.fget R.PWR_STAT.STATE ≠ 0 → u.fget R.PWR_STAT.STATE ≠ 5 → u.fget R.PWR_STAT.STATE ≠ 6 → s.pwr.off = none →
        let v := if u.flag R.PWR_STAT.COMMITTED then u
          else ((((u.fset R.PWR_STAT.COMMITTED 1).sat R.PWR_WARN_STAT.COMMITS).supLog 0x12
            (u.fget R.JNL_STAT.OCC_KIB / 1024) 0).fset R.PWR_STAT.STATE 4).commitShutdown
        exec .pwrWarnCommit s = .next (({ v with sup := { v.sup with resetWait := none } }).goDown v.shutdownSteps .shutdown)))
  ∧ (∀ (us : BitVec 5) (s : State),
    (s.pwr.por = false → us.toNat < 20 → exec (.warnGlitch us) s = .next ((s.sat R.PWR_WARN_STAT.GLITCHES).supLog 0x11 us.toNat 0))
    ∧ (s.pwr.por = true ∨ 20 ≤ us.toNat → exec (.warnGlitch us) s = .next s))
  ∧ (∀ (s : State),
    (∀ l, s.pwr.por = true ∨ s.flag (R.TWB_CFG.ATTN_EN 0) = false → exec (.pwrbusAttention l) s = .next s)
    ∧ (∀ a l, s.pwr.por = false → s.flag (R.TWB_CFG.ATTN_EN 0) = true → exec (.pwrbusAttention [(a, l)]) s = .next (s.attend a.toNat l)))
  ∧ (∀ (a : Nat) (l : List (Fin 56 × BitVec 16)) (s : State), (∀ r : Fin 56, s.flag (R.PWR_RAIL_CFG.VALID r.val) = false) →
      s.attend a l = s.sat (R.TWB_CNT1.ATTENTIONS 0))
  ∧ (∀ (r : Fin 56) (tries : List PmTry) (v i c : BitVec 16) (s : State),
    (s.pwr.por = true ∨ s.flag (R.PWR_RAIL_CFG.VALID r.val) = false → exec (.telemetry r tries v i c) s = .next s)
    ∧ (s.pwr.por = false → s.flag (R.PWR_RAIL_CFG.VALID r.val) = true →
        let x := s.readRail r.val 0x79 tries
        let y := x.2.2.readRail r.val 0x8B x.2.1
        let z := y.2.2.readRail r.val 0x8C y.2.1
        let u := if z.1 = true then z.2.2.fset (R.PWR_RAIL_STAT.IOUT_DA r.val) i.toNat else z.2.2
        exec (.telemetry r tries v i c) s = .next (u.readRail r.val 0x8D z.2.1).2.2)
    ∧ (∀ code, s.pwr.stepHeld = none →
        s.readRail r.val code (.acked :: tries) = (true, tries, s.pm r.val code 0)
        ∧ s.readRail r.val code (.failed :: .failed :: .failed :: .failed :: tries) =
            (false, tries, ((((s.pm r.val code 0).pm r.val code 0).pm r.val code 0).pm r.val code 0).supLog 0x07 4 r.val)
        ∧ s.readRail r.val code (.arbLost :: .acked :: tries) =
            (true, tries, ((s.pm r.val code 0).sat (R.TWB_CNT0.ARB_LOST 0)).pm r.val code 0)))
  ∧ (∀ (s : State), exec .clearPeak s = .next (s.fset R.PWR_TEMP_STAT.PEAK_C (s.fget R.PWR_TEMP_STAT.HOTTEST_C)))

/-! ## Resets, flash and the service buses (R502, R537 to R604, R608 to R625, R644 to R646) -/

/-- R502, R539 to R541, R544, R545, R552, R554 and R582: a device reset drains first where a journal runs and is taken at once where none
does; a warm restart resets the SUP domain alone; the boot ROM starts the image it selects or finds none; loss of VAON leaves what media
and flash keep. -/
def Obligations.ResetsAndTheBootRom : Prop :=
  (∀ (s : State),
    (s.sup.sysRst = true → exec .sysRstAssert s = .next s)
    ∧ (s.sup.sysRst = false → exec .sysRstAssert s = .next (({ s with sup := { s.sup with sysRst := true } }).requestReset 1))
    ∧ (s.jtag.ir.drives = false → exec .sysRstDeassert s = .next { s with sup := { s.sup with sysRst := false, resetTaken := false } })
    ∧ (s.jtag.ir.drives = true → ∃ t, exec .sysRstDeassert s = .next t ∧ t.jtag.ir = .bypass ∧ t.sup.sysRst = false ∧ t.sup.resetTaken = false
        ∧ t.pins.floating = false ∧ t.ctl = s.ctl))
  ∧ (∀ (s : State) (why : Nat),
    let st := s.fget R.PWR_STAT.STATE
    (s.pwr.por = true ∨ st = 0 ∨ 4 ≤ st ∨ s.pwr.off.isSome = true → s.requestReset why = s)
    ∧ (s.pwr.por = false → st ≠ 0 → st < 4 → s.pwr.off = none →
        (s.jnlState ≠ 2 → s.requestReset why = s.restart why)
        ∧ (s.jnlState = 2 → s.requestReset why = ({ s with sup := { s.sup with resetWait := some why } }).commit)))
  ∧ (∀ (s : State),
    let st := s.fget R.PWR_STAT.STATE
    let warm := s.sup.bootDue = true ∧ s.sup.bootWarm = true
    (warm → exec .deviceReset s = .next { s with sup := { s.sup with resetAfterBoot := true } })
    ∧ (¬ warm → s.flag R.PWR_STAT.COMMITTED = true ∨ s.pwr.off.isSome = true ∨ s.pwr.por = true ∨ st = 0 ∨ 4 ≤ st →
        exec .deviceReset s = .next (s.fset R.SUP_BOOT_STAT.CMD_REFUSED 1))
    ∧ (¬ warm → s.flag R.PWR_STAT.COMMITTED = false → s.pwr.off = none → s.pwr.por = false → st ≠ 0 → st < 4 →
        exec .deviceReset s = .next (s.requestReset 2))
    ∧ (s.imageRuns = true → exec .belvedereRestart s = .next (s.warmRestart (if s.activates then 5 else 4))
        ∧ exec .belvedereFault s = .next (s.warmRestart 6))
    ∧ (s.imageRuns = false → exec .belvedereRestart s = .next (s.fset R.SUP_BOOT_STAT.CMD_REFUSED 1) ∧ exec .belvedereFault s = .next s)
    ∧ (s.imageRuns = true → s.flag R.SUP_WDOG_CTL.ENABLE = true → (s.ctx 4096).task.isSome = true →
        exec .watchdogExpire s = .next (s.warmRestart 3))
    ∧ (s.imageRuns = false ∨ s.flag R.SUP_WDOG_CTL.ENABLE = false ∨ (s.ctx 4096).task = none → exec .watchdogExpire s = .next s)
    ∧ exec .kick s = .next { s with sup := { s.sup with kickNs := s.timeNs } })
  ∧ (∀ (a b : Bool) (s : State),
    (s.sup.bootDue = false ∨ s.fls.job0.isSome = true ∨ s.fls.job1.isSome = true ∨ s.fls.fenced = true → exec (.bootRomRun a b) s = .next s)
    ∧ (s.sup.bootDue = true → s.fls.job0 = none → s.fls.job1 = none → s.fls.fenced = false → s.commitRec = none →
        s.imageOk 0 a = false → s.imageOk 1 b = false →
        let u := ({ s with sup := { s.sup with bootDue := false, bootWarm := false, resetAfterBoot := false } }).fset R.SUP_BOOT_STAT.STATE 3
        (s.sup.bootWarm = false → exec (.bootRomRun a b) s = .next (u.fset R.SUP_START_STAT.PHASE 8))
        ∧ (s.sup.bootWarm = true → exec (.bootRomRun a b) s = .next u))
    ∧ (s.sup.bootDue = true → s.fls.job0 = none → s.fls.job1 = none → s.fls.fenced = false → s.commitRec = none → s.imageOk 0 a = true →
        s.sup.bootWarm = true → s.sup.resetAfterBoot = false →
        let u : State := { s with sup := { s.sup with bootDue := false, bootWarm := false, resetAfterBoot := false } }
        let v := ((u.fset R.SUP_BOOT_STAT.IMAGE 0).fset R.SUP_BOOT_STAT.SEC_VERSION (u.imageVersion 0)).fset R.SUP_BOOT_STAT.STATE 1
        exec (.bootRomRun a b) s = .next (((v.fset R.FLS_STAT.RUN_BANK 0).loadSram 0).startSetup)))
  ∧ (∀ (s : State),
    (∃ t, exec .vaonLeavesWindow s = .next t ∧ t.fls = { words := s.resetCore.fls.words } ∧ t.pwr = {} ∧ t.sup = { sysRst := s.sup.sysRst }
        ∧ t.twb = {} ∧ t.jtag = {} ∧ t.pins = {} ∧ t.timeNs = 0 ∧ t.persist = s.persist)
    ∧ (s.fls.job0 = none → s.fls.job1 = none → s.resetCore.fls.words = s.fls.words)
    ∧ (∀ mv, (s.pwr.por = true → exec (.vfuseVoltage mv) s = .next s)
        ∧ (s.pwr.por = false → exec (.vfuseVoltage mv) s = .next (s.supLog 0x05 mv.toNat 2))))

/-- R558, R559, R563 to R569, R572, R575, R577 and R581: a flash command runs only after its two keys; it is refused for the first of its
reasons, or starts its bank's engine or reads; the engine's end programs, erases or writes; queued records, the scan of the half-erased
and the automatic configuration follow. -/
def Obligations.FlashCommandsNeedTheirKeys : Prop :=
  (∀ (v : Word) (s : State),
    (s.fls.seq = .idle → v.toNat % 65536 = 0x6F1A → exec (.flsKey v) s = .next { s with fls := { s.fls with seq := .key1 } })
    ∧ (s.fls.seq = .key1 → v.toNat % 65536 = 0x90E5 → exec (.flsKey v) s = .next { s with fls := { s.fls with seq := .key2 } })
    ∧ (s.fls.seq = .idle → v.toNat % 65536 ≠ 0x6F1A → exec (.flsKey v) s = .next { s.fset R.FLS_STAT.SEQ_ERR 1 with fls := { s.fls with seq := .idle } })
    ∧ (s.fls.seq = .key1 → v.toNat % 65536 ≠ 0x90E5 → exec (.flsKey v) s = .next { s.fset R.FLS_STAT.SEQ_ERR 1 with fls := { s.fls with seq := .idle } })
    ∧ (s.fls.seq = .key2 → exec (.flsKey v) s = .next { s.fset R.FLS_STAT.SEQ_ERR 1 with fls := { s.fls with seq := .idle } }))
  ∧ (∀ (n : BitVec 12) (a : BitVec 28) (x : Word) (ecc : List (Nat × EccResult)) (s : State),
    (s.fls.seq = .idle → ∀ i ∈ ([.program n a, .erase n a, .read n a ecc, .unlock a x, .writeConfig n a, .writeCommit n a x] : List Instr),
      exec i s = .next s)
    ∧ (s.fls.seq = .key1 → ∀ i ∈ ([.program n a, .erase n a, .read n a ecc, .unlock a x, .writeConfig n a, .writeCommit n a x] : List Instr),
      exec i s = .next { s.fset R.FLS_STAT.SEQ_ERR 1 with fls := { s.fls with seq := .idle } })
    ∧ (s.fls.seq = .key2 →
        let u : State := { s with fls := { s.fls with seq := .idle } }
        let w := a.toNat / 32
        let bank := w / 2048 / 2048
        (s.fls.fenced = true → ∀ i ∈ ([.program n a, .erase n a, .read n a ecc, .unlock a x, .writeConfig n a, .writeCommit n a x] : List Instr),
          exec i s = .next u)
        ∧ (s.fls.fenced = false →
          (∀ r, u.flsRefusal 1 w (n.toNat + 1) = some r → exec (.program n a) s = .next (u.flsSay r))
          ∧ (u.flsRefusal 1 w (n.toNat + 1) = none →
            exec (.program n a) s = .next ((u.flsStart 1 0).setJob bank (some (.program w (n.toNat + 1) true))))
          ∧ (∀ r, u.flsRefusal 2 w (n.toNat + 1) = some r → exec (.erase n a) s = .next (u.flsSay r))
          ∧ (u.flsRefusal 2 w (n.toNat + 1) = none →
            exec (.erase n a) s = .next ((u.flsStart 2 0).setJob bank (some (.erase (w / 2048) 0 true))))
          ∧ (∀ r, u.flsRefusal 3 w (n.toNat + 1) = some r → exec (.read n a ecc) s = .next (u.flsSay r))
          ∧ (u.flsRefusal 3 w (n.toNat + 1) = none →
            (bank = u.recordBank → s.fls.recq ≠ [] → exec (.read n a ecc) s = .next ((u.fset R.FLS_STAT.BUS_FAULT 1).flsSay .busFault))
            ∧ (s.fls.recq = [] → exec (.read n a ecc) s = .next (State.readWords w ecc (n.toNat + 1) 0 (u.flsStart 3 0))))
          ∧ exec (.unlock a x) s = .next (u.flsUnlock (w / 2048) x)
          ∧ ((u.flsJob u.recordBank).isSome = true → exec (.writeConfig n a) s = .next (u.flsSay .busy)
              ∧ exec (.writeCommit n a x) s = .next (u.flsSay .busy))
          ∧ (u.flsJob u.recordBank = none →
              exec (.writeCommit n a x) s = .next ((u.flsStart 6 x).setJob u.recordBank (some .write))
              ∧ ((∀ k, k < 16 → (regionOf u.configFromBuf k).2.2.2.1 = true → (regionOf u.configFromBuf k).2.2.2.2 ≠ 0) →
                exec (.writeConfig n a) s = .next ((u.flsStart 5 0).setJob u.recordBank (some .write)))))))
  ∧ (∀ (sec : Nat) (pw : Word) (s : State),
    ((s.flsJob (sec / 2048)).isSome = true → s.flsUnlock sec pw = s.flsSay .busy)
    ∧ (s.flsJob (sec / 2048) = none → s.flsLocked sec = true → s.flsUnlock sec pw = s.flsSay .locked)
    ∧ (s.flsJob (sec / 2048) = none → s.regionsAt sec = [] → s.flsUnlock sec pw = s.flsStart 4 0))
  ∧ (∀ (b : Fin 2) (ok : Bool) (s : State),
    (s.fls.fenced = true ∨ s.flsJob b.val = none → exec (.flashCommandDone b ok) s = .next s)
    ∧ (s.fls.fenced = false →
      (∀ i n fw, s.flsJob b.val = some (.program i n fw) → exec (.flashCommandDone b ok) s =
        .next (((State.programWords i 0 (s.flsBufWords n) s).setJob b.val none).dropLines b.val))
      ∧ (∀ sec k fw, s.flsJob b.val = some (.erase sec k fw) →
        (ok = true → exec (.flashCommandDone b ok) s =
          .next (((((s.clearSector sec true).fset R.FLS_STAT.DONE 1).flsSay .ok).setJob b.val none).dropLines b.val))
        ∧ (ok = false → k < 2 → exec (.flashCommandDone b ok) s = .next (s.setJob b.val (some (.erase sec (k + 1) fw))))
        ∧ (ok = false → 2 ≤ k → exec (.flashCommandDone b ok) s =
          .next ((((s.clearSector sec false).flsSay .verifyFail).setJob b.val none).dropLines b.val)))
      ∧ (s.flsJob b.val = some .write →
        let u := s.setJob b.val none
        (u.fget R.FLS_CMD.OP = 5 → exec (.flashCommandDone b ok) s = .next ((u.writeConfigSector u.configFromBuf).flsSay .ok))
        ∧ (u.fget R.FLS_CMD.OP ≠ 5 → exec (.flashCommandDone b ok) s = .next (u.commitFromArg.flsSay .ok)))))
  ∧ (∀ (s : State),
    (s.fls.recq = [] ∨ s.fls.fenced = true → exec .flashRecordAppend s = .next s)
    ∧ (∀ r q, s.fls.recq = r :: q → s.fls.fenced = false →
        exec .flashRecordAppend s = .next (({ s with fls := { s.fls with recq := q } }).logAppend r))
    ∧ (s.sup.bootDue = false ∨ s.sup.bootWarm = true ∨ s.fls.fenced = true → exec .flashScan s = .next s)
    ∧ (s.sup.bootDue = true → s.sup.bootWarm = false → s.fls.fenced = false → s.config = none → ∃ t, exec .flashScan s = .next t ∧
        t.fls = { s.fls with half := (s.fls.words.map (·.1 / 2048)).eraseDups.filter s.halfErased, regions := [] } ∧ t.ext = s.ext)
    ∧ (s.fls.autoCfg = false ∨ s.fls.fenced = true → exec .configAutoWrite s = .next s)
    ∧ (s.fls.autoCfg = true → s.fls.fenced = false → exec .configAutoWrite s =
        .next (({ s with fls := { s.fls with autoCfg := false } }).writeConfigSector (s.config.getD (List.replicate 65472 0)))))

/-- R34, R590, R591, R593 to R599 and R602 to R604: on MGMTBUS a device that loses the arbitration counts it, serves the transfer if it
is the target and sends its own again; a bad transaction is not acknowledged, a register read is answered within its window, and the
latch is cleared by its code; the MCTP endpoint answers its control messages, opens and ends sessions and takes management descriptors in
a session that qualifies; a clock held low and a stuck bus are recovered. -/
def Obligations.ManagementBusAnswers : Prop :=
  (∀ (s : State), s.busUp = true →
    (∀ p : MctpPacket,
      (p.atOnce = false ∨ s.twb.txq = [] →
        (p.addr.toNat ≠ s.fget (R.TWB_CFG.TARGET_ADDR 1) → exec (.mctpPacket p) s = .next s)
        ∧ (p.addr.toNat = s.fget (R.TWB_CFG.TARGET_ADDR 1) →
          (p.formOk = false → exec (.mctpPacket p) s = .next ((s.sat (R.TWB_CNT0.NACKS 1)).emit .mgmtNack))
          ∧ (p.formOk = true → p.pecOk = false → exec (.mctpPacket p) s =
              .next (((s.sat (R.TWB_CNT0.PEC_ERR 1)).sat (R.TWB_CNT0.NACKS 1)).emit .mgmtNack))
          ∧ (p.formOk = true → p.pecOk = true → exec (.mctpPacket p) s = .next s)))
      ∧ (∀ m q, p.atOnce = true → s.twb.txq = m :: q →
        let loses := p.addr.toNat < m.1.toNat ∨ (p.addr = m.1 ∧ p.losesLater = true)
        let u := s.sat (R.TWB_CNT0.ARB_LOST 1)
        (¬ loses → exec (.mctpPacket p) s = .next s.flushMctp)
        ∧ (loses → p.addr.toNat ≠ s.fget (R.TWB_CFG.TARGET_ADDR 1) → exec (.mctpPacket p) s = .next u.flushMctp)
        ∧ (loses → p.addr.toNat = s.fget (R.TWB_CFG.TARGET_ADDR 1) →
            exec (.mctpPacket p) s = .next ((u.sat (R.TWB_CNT1.ROLE_SWITCHES 1)).hearMctp p).flushMctp)))
    ∧ (∀ off : BitVec 32,
        exec (.mgmtRegisterRead off false) s = .next (((s.sat (R.TWB_CNT0.PEC_ERR 1)).sat (R.TWB_CNT0.NACKS 1)).emit .mgmtNack)
        ∧ (off.toNat % 8 ≠ 0 ∨ 0x04000000 ≤ off.toNat → exec (.mgmtRegisterRead off true) s = .next (s.emit (.mgmtRead 0x0E 0)))
        ∧ (off.toNat % 8 = 0 → off.toNat < 0x300000 ∨ (0x3000000 ≤ off.toNat ∧ off.toNat < 0x3001000) →
            exec (.mgmtRegisterRead off true) s = .next (s.emit (.mgmtRead 0 (s.regRead off.toNat))))
        ∧ (off.toNat % 8 = 0 → off.toNat < 0x04000000 → 0x300000 ≤ off.toNat → off.toNat < 0x3000000 ∨ 0x3001000 ≤ off.toNat →
            exec (.mgmtRegisterRead off true) s = .next (s.emit (.mgmtRead 0x04 0))))
    ∧ (∀ d ok, d ≠ 0x5A → exec (.mgmtClearLatch d ok) s = .next ((s.sat (R.TWB_CNT0.NACKS 1)).emit .mgmtNack))
    ∧ exec (.mgmtClearLatch 0x5A false) s = .next (((s.sat (R.TWB_CNT0.PEC_ERR 1)).sat (R.TWB_CNT0.NACKS 1)).emit .mgmtNack)
    ∧ exec (.mgmtClearLatch 0x5A true) s = .next s.clearLatch
    ∧ (∀ src : BitVec 7,
        let reply := fun (u : State) (d : Bytes) => u.sendMctp src ([0x00, 0x00] ++ d)
        (∀ e : Byte, (e = 0 ∨ e = 0xFF → exec (.setEndpointId src e) s = .next (reply s [0x01, 0x02]))
          ∧ (e ≠ 0 → e ≠ 0xFF → exec (.setEndpointId src e) s = .next (reply (s.fset R.TWB_MCTP_STAT.EID e.toNat) [0x01, 0x00, 0x00, e, 0x00])))
        ∧ exec (.getEndpointId src) s = .next (reply s [0x02, 0x00, BitVec.ofNat 8 (s.fget R.TWB_MCTP_STAT.EID), 0x00, 0x00])
        ∧ (∀ typ : Byte, typ ∉ ([0xFF, 0x00, 0x05, 0x06] : List Byte) → exec (.getMctpVersionSupport src typ) s = .next (reply s [0x04, 0x80]))
        ∧ (∀ typ ∈ ([0xFF, 0x00, 0x05, 0x06] : List Byte), ∃ v : Bytes, v.length = 4 ∧
            exec (.getMctpVersionSupport src typ) s = .next (reply (s.drawBytes 4).2 ([0x04, 0x00, 0x01] ++ v)))
        ∧ exec (.getMessageTypeSupport src) s = .next (reply s [0x05, 0x00, 0x02, 0x05, 0x06])
        ∧ (s.fget R.TWB_MCTP_STAT.EID = 0 → ∀ m n d, exec (.mctpSpdm src m) s = .next s ∧ exec (.mctpSecuredMessage src n d) s = .next s)
        ∧ (s.fget R.TWB_MCTP_STAT.EID ≠ 0 →
          (∀ c, exec (.mctpSpdm src (.request c)) s = .next (s.sendMctp src [0x05]))
          ∧ (∀ both h, exec (.mctpSpdm src (.opened both h)) s = .next ((s.openSession both h).sendMctp src [0x05]))
          ∧ (∀ n, exec (.mctpSpdm src (.closed n)) s = .next ((s.setSession n.val none).sendMctp src [0x05]))
          ∧ (∀ n d, s.session n.val = none → exec (.mctpSecuredMessage src n d) s = .next s)
          ∧ (∀ n d x, s.session n.val = some x →
            (s.sessionOk x = false → exec (.mctpSecuredMessage src n d) s = .next (s.setSession n.val none))
            ∧ (s.sessionOk x = true → x.qualifies = true → s.ksk.mgmt.length < 64 →
              exec (.mctpSecuredMessage src n d) s = .next (s.acceptMgmt d (.mctp n.val src))))))
    ∧ (∀ both h, s.twb.s0 = none → ∃ x : Session, x.bothAuth = both ∧ (s.openSession both h).twb.s0 = some x))
  ∧ (∀ (s : State), s.busUp = false → ∀ i ∈ ([.mgmtRegisterRead 0 true, .mgmtClearLatch 0x5A true, .setEndpointId 0 1, .getEndpointId 0,
      .getMctpVersionSupport 0 0, .getMessageTypeSupport 0, .mctpSpdm 0 (.request 0), .mctpSecuredMessage 0 0 []] : List Instr), exec i s = .next s)
  ∧ (∀ (s : State),
    (s.twb.txq = [] → exec .mctpSendTimeout s = .next s)
    ∧ (∀ m q, s.twb.txq = m :: q → exec .mctpSendTimeout s = .next (({ s with twb := { s.twb with txq := q } }).sat (R.TWB_CNT1.MCTP_DROP 1)))
    ∧ (∀ b : Fin 2,
      (s.pwr.por = true → exec (.clockLowTimeout b) s = .next s ∧ ∀ n, exec (.busRecovery b n) s = .next s)
      ∧ (s.pwr.por = false → exec (.clockLowTimeout b) s = .next ((((s.sat (R.TWB_CNT0.TIMEOUTS b.val)).fset (R.TWB_STAT.STRETCH_TMO b.val) 1).fset
          (R.TWB_STAT.ROLE b.val) 0).emit (.busStop b.val)))
      ∧ (s.pwr.por = false → s.flag (R.TWB_CFG.RECOVER_EN b.val) = true →
        exec (.busRecovery b 0) s = .next ((((s.sat (R.TWB_CNT1.RECOVERIES b.val)).emit (.busClocks b.val 9)).emit (.busStop b.val)).fput
          (R.TWB_STAT.BUS_STUCK b.val) true)
        ∧ ∀ n : Fin 10, n ≠ 0 →
          let u := (((s.sat (R.TWB_CNT1.RECOVERIES b.val)).emit (.busClocks b.val n.val)).emit (.busStop b.val)).fput (R.TWB_STAT.BUS_STUCK b.val) false
          (b = 0 → exec (.busRecovery b n) s = .next u) ∧ (b = 1 → exec (.busRecovery b n) s = .next u.flushMctp))
      ∧ (s.flag (R.TWB_CFG.RECOVER_EN b.val) = false → ∀ n, exec (.busRecovery b n) s = .next s)))

/-- R608, R612, R614, R615, R620 to R623 and R625: a completion queue's records follow the consumer index its host gives, a queue full
for too long overruns and its base write starts it again; a delivery target takes a write that its endpoint's tenant allows; status pages
are built anew with the next number, and mirrored. -/
def Obligations.StatusReachesItsReaders : Prop :=
  (∀ (c : Fin 65536) (s : State),
    (∀ ci, (s.cq c.val).waiting = [] ∨ s.fget (R.STA_CQ0.STATE c.val) = 3 ∨ s.targetReady (s.fget (R.STA_CQ0.TARGET c.val)) = false →
      exec (.cqCiPoll c ci) s = .next s)
    ∧ (∀ ci, (s.cq c.val).waiting ≠ [] → s.fget (R.STA_CQ0.STATE c.val) ≠ 3 → s.targetReady (s.fget (R.STA_CQ0.TARGET c.val)) = true →
      exec (.cqCiPoll c ci) s = .next (((s.setCq c.val { s.cq c.val with ci := ci.toNat }).cqFlush c.val).cqAdmitOverflow))
    ∧ (s.fget (R.STA_CQ0.STATE c.val) = 2 → exec (.cqFullTimeout c) s = .next (s.cqOverrun c.val))
    ∧ (s.fget (R.STA_CQ0.STATE c.val) ≠ 2 → exec (.cqFullTimeout c) s = .next s)
    ∧ (∀ v : Word, exec (.cqBaseWrite c v) s = .next (((((s.fset (R.STA_CQ1.BASE c.val) (v.toNat / 4096)).setCq c.val
        { s.cq c.val with n := 0, ci := 0 }).fset (R.STA_CQ0.STATE c.val) 1).cqFlush c.val).cqAdmitOverflow)))
  ∧ (∀ (t : Fin 4096) (v : Word) (s : State),
    (s.targetOk v = false → exec (.targetWrite t v) s = .next s)
    ∧ (v.toNat < 2 ^ 63 → s.targetOk v = true)
    ∧ (s.targetOk v = true →
        let n := v.toNat
        let u := ((s.fset (R.STA_TGT0.VALID t.val) (n / 2 ^ 63)).fset (R.STA_TGT0.PATH t.val) (n / 2 ^ 60)).fset (R.STA_TGT0.TENANT t.val) (n / 2 ^ 24)
        exec (.targetWrite t v) s = .next ((((u.fset (R.STA_TGT0.ENDPOINT t.val) n).fset (R.STA_TGT0.STATE t.val) (n / 2 ^ 63)).flushTarget
          t.val).cqAdmitOverflow)))
  ∧ (∀ (s : State), ∃ t, exec .pageRefresh s = .next t ∧ t.sta.pageSeq = s.sta.pageSeq + 1 ∧ t = { s with sta := { s.sta with
      pageSeq := s.sta.pageSeq + 1, pages := t.sta.pages } })
  ∧ (∀ (k : Fin 2048) (s : State),
    let tg := s.fget (R.STA_TPAGE0.MIRROR_TARGET k.val)
    (s.flag (R.STA_TPAGE0.VALID k.val) = false ∨ s.flag (R.STA_TPAGE0.MIRROR_EN k.val) = false ∨ s.targetReady tg = false →
      exec (.pageMirror k) s = .next s)
    ∧ (s.flag (R.STA_TPAGE0.VALID k.val) = true → s.flag (R.STA_TPAGE0.MIRROR_EN k.val) = true → s.targetReady tg = true →
      let page := fun base => (List.range 512).flatMap fun w => natLe 8 (s.pageWord (base + 8 * w)).toNat
      exec (.pageMirror k) s = .next (s.hostXfer tg (s.fget (R.STA_TPAGE3.MIRROR_BASE k.val) * 8192)
        (page (0x3600000 + 0x1000 * k.val) ++ page 0x3000000))))

/-- R537, R584 and R644 to R646: the JTAG port loads its instructions; those that drive pins, and the debug token, are taken only while
SYS_RST_N holds the device in reset, and flash recovery only where no image was found; elsewhere BYPASS is loaded. -/
def Obligations.JtagObeysItsConditions : Prop :=
  ∀ (s : State),
    let held := s.sup.sysRst = true ∧ s.sup.resetTaken = true
    let bypass := s.loadTap .bypass [false]
    exec .idcode s = .next (s.loadTap .idcode (bitList 32 ((Config.stepMinor.toNat % 16) * 2 ^ 28 + 0x9640 * 2 ^ 12 + 0x4B7 * 2 + 1)))
    ∧ exec .bypass s = .next bypass
    ∧ (∀ cells, ∃ t, exec (.samplePreload cells) s = .next t ∧ t.jtag.ir = .sample ∧ t.jtag.cells = cells ∧ t.ctl = s.ctl ∧ t.sup = s.sup)
    ∧ (¬ held → (∀ i ∈ ([.extest, .clamp, .highz, .extestPulse, .extestTrain] : List Instr), exec i s = .next bypass)
        ∧ ∀ tok x y, exec (.dbgUnlock tok x y) s = .next bypass)
    ∧ (held →
        let drive := fun (i : TapInstr) (dr : List Bool) => ({ s.loadTap i dr with
          pins := { serving := s.jtag.cells.getD 22 false, twinAliveOut := s.jtag.cells.getD 28 false, floating := false } } : State)
        exec .extest s = .next (drive .extest s.jtag.cells)
        ∧ exec .clamp s = .next (drive .clamp [false])
        ∧ exec .extestPulse s = .next (drive .pulse s.jtag.cells)
        ∧ exec .extestTrain s = .next (drive .train s.jtag.cells)
        ∧ (∃ t, exec .highz s = .next t ∧ t.pins.floating = true ∧ t.jtag.ir = .highz ∧ t.ctl = s.ctl)
        ∧ (∀ x y, ∃ t, exec (.dbgUnlock [] x y) s = .next t ∧ t.jtag.ir = .dbgUnlock ∧ t.jtag.challenge = (s.drawBytes 32).1
            ∧ t.jtag.unlockNext = s.jtag.unlockNext)
        ∧ (∀ tok x y, tok ≠ [] → ∃ t, exec (.dbgUnlock tok x y) s = .next t ∧ t.jtag.ir = .dbgUnlock ∧ t.jtag.challenge = []
            ∧ t.jtag.unlockNext = (s.jtag.unlockNext || (x && y && s.jtag.challenge != [] && slice tok 0 48 == natLe 48 Config.deviceIdHash.toNat
              && slice tok 48 32 == s.jtag.challenge))
            ∧ t.ctl = s.ctl))
    ∧ (s.fget R.SUP_BOOT_STAT.STATE ≠ 3 → ∀ op, exec (.flsRecover op) s = .next bypass)
    ∧ (s.fget R.SUP_BOOT_STAT.STATE = 3 →
        let u := s.loadTap .flsRecover []
        (∀ n a, 64 ≤ a.toNat / 65536 % 2048 → a.toNat / 65536 % 2048 < 576 →
          exec (.flsRecover (.program n a)) s = .next (u.flsCommand 1 n.toNat a.toNat 0 [])
          ∧ exec (.flsRecover (.erase a)) s = .next (u.flsCommand 2 0 a.toNat 0 [])
          ∧ exec (.flsRecover (.read n a)) s = .next (u.flsCommand 3 n.toNat a.toNat 0 []))
        ∧ (∀ n a, a.toNat / 65536 % 2048 < 64 ∨ 576 ≤ a.toNat / 65536 % 2048 →
          exec (.flsRecover (.program n a)) s = .next (u.flsSay .prot) ∧ exec (.flsRecover (.erase a)) s = .next (u.flsSay .prot)
          ∧ (2 ≤ a.toNat / 65536 % 2048 → exec (.flsRecover (.read n a)) s = .next (u.flsSay .prot)))
        ∧ (∀ v, exec (.flsRecover (.writeCommit v)) s = .next (u.flsCommand 6 0 0 v []))
        ∧ (∀ i v, exec (.flsRecover (.buf i v)) s = .next (u.fset (R.FLS_BUF.DATA i.val) v.toNat)))
    ∧ (∃ t, exec .trst s = .next t ∧ t.jtag.ir = .idcode ∧ t.jtag.cells = [] ∧ t.jtag.challenge = [] ∧ t.jtag.unlockNext = s.jtag.unlockNext
        ∧ t.ctl = s.ctl)
end

