-- ==== Sys2Proof/Laws/AMap.lean ====
section
/-! SUPPORT. Reading after writing in the sparse maps, and that writing keeps their canonical form. -/

namespace Sys2Proof

variable {α : Type}

@[simp] theorem AMap.find?_nil (k : Nat) : AMap.find? ([] : AMap α) k = none := rfl

@[simp] theorem AMap.find?_put_same (m : AMap α) (k : Nat) (v : α) : AMap.find? (AMap.put m k v) k = some v := by
  induction m with
  | nil => simp [AMap.put, AMap.find?]
  | cons p r ih =>
    obtain ⟨j, w⟩ := p
    by_cases h : k < j
    · simp [AMap.put, AMap.find?, h]
    · by_cases e : k = j <;> simp [AMap.put, AMap.find?, h, e, ih]

theorem AMap.find?_put_ne (m : AMap α) {k j : Nat} (v : α) (h : j ≠ k) : AMap.find? (AMap.put m k v) j = AMap.find? m j := by
  induction m with
  | nil => simp [AMap.put, AMap.find?, h]
  | cons p r ih =>
    obtain ⟨i, w⟩ := p
    by_cases c : k < i
    · simp [AMap.put, AMap.find?, c, h]
    · by_cases e : k = i
      · subst e; simp [AMap.put, AMap.find?, h]
      · simp [AMap.put, AMap.find?, c, e, ih]

@[simp] theorem AMap.find?_del_same (m : AMap α) (k : Nat) : AMap.find? (AMap.del m k) k = none := by
  induction m with
  | nil => rfl
  | cons p r ih =>
    obtain ⟨j, w⟩ := p
    by_cases e : k = j
    · subst e; simp [AMap.del, ih]
    · simp [AMap.del, AMap.find?, e, ih]

theorem AMap.find?_del_ne (m : AMap α) {k j : Nat} (h : j ≠ k) : AMap.find? (AMap.del m k) j = AMap.find? m j := by
  induction m with
  | nil => rfl
  | cons p r ih =>
    obtain ⟨i, w⟩ := p
    by_cases e : k = i
    · subst e; simp [AMap.del, AMap.find?, ih, h]
    · simp [AMap.del, AMap.find?, e, ih]

@[simp] theorem AMap.get_set_same [DecidableEq α] (d : α) (m : AMap α) (k : Nat) (v : α) : AMap.get d (AMap.set d m k v) k = v := by
  by_cases h : v = d <;> simp [AMap.get, AMap.set, h]

theorem AMap.get_set_ne [DecidableEq α] (d e : α) (m : AMap α) {k j : Nat} (v : α) (h : j ≠ k) :
    AMap.get d (AMap.set e m k v) j = AMap.get d m j := by
  by_cases c : v = e <;> simp [AMap.get, AMap.set, c, AMap.find?_put_ne _ _ h, AMap.find?_del_ne _ h]

theorem AMap.mem_put {m : AMap α} {k : Nat} {v : α} {p : Nat × α} (h : p ∈ AMap.put m k v) : p = (k, v) ∨ p ∈ m := by
  induction m with
  | nil => simpa [AMap.put] using h
  | cons q r ih =>
    obtain ⟨j, w⟩ := q
    by_cases c : k < j
    · simpa [AMap.put, c] using h
    · by_cases e : k = j
      · simp [AMap.put, e] at h; rcases h with h | h <;> simp [h, e]
      · simp [AMap.put, c, e] at h
        rcases h with h | h
        · simp [h]
        · rcases ih h with h | h <;> simp [h]

theorem AMap.mem_del {m : AMap α} {k : Nat} {p : Nat × α} (h : p ∈ AMap.del m k) : p ∈ m := by
  induction m with
  | nil => simp [AMap.del] at h
  | cons q r ih =>
    obtain ⟨j, w⟩ := q
    by_cases e : k = j
    · simp [AMap.del, e] at h; simp only [e] at ih; exact List.mem_cons_of_mem _ (ih h)
    · simp [AMap.del, e] at h
      rcases h with h | h
      · simp [h]
      · exact List.mem_cons_of_mem _ (ih h)

theorem AMap.rising_put {m : AMap α} (k : Nat) (v : α) (h : AMap.Rising m) : AMap.Rising (AMap.put m k v) := by
  induction m with
  | nil => simp [AMap.put, AMap.Rising]
  | cons q r ih =>
    obtain ⟨j, w⟩ := q
    have hr : AMap.Rising r := (List.pairwise_cons.mp h).2
    have hj : ∀ p ∈ r, j < p.1 := (List.pairwise_cons.mp h).1
    by_cases c : k < j
    · simp only [AMap.put, c, if_true]
      refine List.pairwise_cons.mpr ⟨fun p hp => ?_, h⟩
      rcases List.mem_cons.mp hp with rfl | hp
      · exact c
      · exact Nat.lt_trans c (hj p hp)
    · by_cases e : k = j
      · subst e
        simp only [AMap.put, Nat.lt_irrefl, if_false, if_true]
        exact List.pairwise_cons.mpr ⟨hj, hr⟩
      · simp only [AMap.put, c, e, if_false]
        refine List.pairwise_cons.mpr ⟨fun p hp => ?_, ih hr⟩
        rcases AMap.mem_put hp with rfl | hp
        · show j < k; omega
        · exact hj p hp

theorem AMap.rising_del {m : AMap α} (k : Nat) (h : AMap.Rising m) : AMap.Rising (AMap.del m k) := by
  induction m with
  | nil => simp [AMap.del, AMap.Rising]
  | cons q r ih =>
    obtain ⟨j, w⟩ := q
    have hr : AMap.Rising r := (List.pairwise_cons.mp h).2
    have hj : ∀ p ∈ r, j < p.1 := (List.pairwise_cons.mp h).1
    by_cases e : k = j
    · simp only [AMap.del, e, if_true]; subst e; exact ih hr
    · simp only [AMap.del, e, if_false]
      exact List.pairwise_cons.mpr ⟨fun p hp => hj p (AMap.mem_del hp), ih hr⟩

/-- Writing keeps the keys rising. -/
theorem AMap.rising_set [DecidableEq α] {d : α} {m : AMap α} (k : Nat) (v : α) (h : AMap.Rising m) : AMap.Rising (AMap.set d m k v) := by
  by_cases c : v = d
  · simpa [AMap.set, c] using AMap.rising_del k h
  · simpa [AMap.set, c] using AMap.rising_put k v h

/-- Writing keeps the canonical form. -/
theorem AMap.wf_set [DecidableEq α] {d : α} {m : AMap α} (k : Nat) (v : α) (h : AMap.Wf d m) : AMap.Wf d (AMap.set d m k v) := by
  refine ⟨AMap.rising_set k v h.1, fun p hp => ?_⟩
  by_cases c : v = d
  · simp only [AMap.set, c, if_true] at hp; exact h.2 p (AMap.mem_del hp)
  · simp only [AMap.set, c, if_false] at hp
    rcases AMap.mem_put hp with rfl | hp
    · exact c
    · exact h.2 p hp

/-- Dropping entries keeps the keys rising. -/
theorem AMap.rising_filter {m : AMap α} (p : Nat × α → Bool) (h : AMap.Rising m) : AMap.Rising (m.filter p) := List.Pairwise.filter p h

end Sys2Proof
end

