-- ==== Sys2Proof/Laws/Cipher.lean ====
section
/-! SUPPORT. What the number and byte conversions and the cipher functions of R54, R273 and R449 give: their lengths, and that GCM opens what
it sealed. -/

namespace Sys2Proof.Machine

@[simp] theorem natLe_length (n v : Nat) : (natLe n v).length = n := by
  induction n generalizing v with
  | zero => rfl
  | succ n ih => simp [natLe, ih]

@[simp] theorem natBe_length (n v : Nat) : (natBe n v).length = n := by simp [natBe]

@[simp] theorem slice_length (l : Bytes) (i n : Nat) : (slice l i n).length = n := by simp [slice]

theorem leNat_lt : ∀ l : Bytes, leNat l < 256 ^ l.length
  | [] => by simp [leNat]
  | b :: r => by have := leNat_lt r; have := b.isLt; simp [leNat, Nat.pow_succ]; omega

/-- A field of `n` bytes is below 256 to the `n`. -/
theorem fieldAt_lt (l : Bytes) (i n : Nat) : fieldAt l i n < 256 ^ n := by
  have h := leNat_lt (slice l i n)
  rwa [slice_length] at h

theorem xorBytes_length_le (a b : Bytes) : (xorBytes a b).length ≤ a.length := by simp [xorBytes]

theorem aesEncK_length_le (ks : List (List Nat)) (b : List Nat) : (aesEncK ks b).length ≤ 16 := by
  simp [aesEncK, addKey, shiftRows]

theorem aesDecK_length_le (ks : List (List Nat)) (b : List Nat) : (aesDecK ks b).length ≤ 16 := by
  simp [aesDecK, addKey, ishiftRows]

theorem aesEnc_length_le (key b : Bytes) : (aesEnc key b).length ≤ 16 := by
  simpa [aesEnc] using aesEncK_length_le _ _

theorem cmac_length_le (key msg : Bytes) : (cmac key msg).length ≤ 16 := aesEnc_length_le _ _

theorem gcmCrypt_length_le (key iv data : Bytes) : (gcmCrypt key iv data).length ≤ data.length := xorBytes_length_le _ _

theorem gcmTag_length_le (key iv aad c : Bytes) : (gcmTag key iv aad c).length ≤ 16 := by
  refine (xorBytes_length_le _ _).trans ?_
  simp

theorem gcmSeal_length_le (key iv aad data : Bytes) :
    ((gcmSeal key iv aad data).1 ++ (gcmSeal key iv aad data).2).length ≤ data.length + 16 := by
  have h1 := gcmCrypt_length_le key iv data
  have h2 := gcmTag_length_le key iv aad (gcmCrypt key iv data)
  unfold gcmSeal
  rw [List.length_append]
  exact Nat.add_le_add h1 h2

theorem gcmOpen_length_le {key iv aad c tag p : Bytes} (h : gcmOpen key iv aad c tag = some p) : p.length ≤ c.length := by
  unfold gcmOpen at h
  split at h
  · cases h; exact gcmCrypt_length_le _ _ _
  · cases h

theorem xtsGo_length_le (f : List Nat → List Nat) (hf : ∀ b, (f b).length ≤ 16) (n : Nat) (t l : Bytes) :
    (xtsGo f n t l).length ≤ 16 * n := by
  induction n generalizing t l with
  | zero => simp [xtsGo]
  | succ n ih =>
    have h1 := ih (xtsDouble t) (l.drop 16)
    have h2 := hf ((xorBytes (slice l 0 16) t).map BitVec.toNat)
    have h3 := xorBytes_length_le ((f ((xorBytes (slice l 0 16) t).map BitVec.toNat)).map (BitVec.ofNat 8)) t
    simp only [List.length_map] at h3
    simp only [xtsGo, List.length_append]
    omega

theorem xtsEnc_length_le (key tweak data : Bytes) : (xtsEnc key tweak data).length ≤ data.length := by
  have := xtsGo_length_le _ (aesEncK_length_le (aesKeys (key.take 32))) (data.length / 16) (aesEnc (key.drop 32) tweak) data
  unfold xtsEnc; omega

theorem xtsDec_length_le (key tweak data : Bytes) : (xtsDec key tweak data).length ≤ data.length := by
  have := xtsGo_length_le _ (aesDecK_length_le (aesKeys (key.take 32))) (data.length / 16) (aesEnc (key.drop 32) tweak) data
  unfold xtsDec; omega

/-! ## Widths of AES and GCM, and opening what was sealed as GCM gives it -/

theorem wide_next {i : Nat} {ws : List (List Nat)} (h : 8 ≤ ws.length ∧ ∀ w ∈ ws, w.length = 4) : (aesNextWord i ws).length = 4 := by
  have h0 : (ws.getD 0 []).length = 4 := by
    rw [List.getD_eq_getElem _ _ (by omega)]; exact h.2 _ (List.getElem_mem _)
  have h7 : (ws.getD 7 []).length = 4 := by
    rw [List.getD_eq_getElem _ _ (by omega)]; exact h.2 _ (List.getElem_mem _)
  simp only [aesNextWord, List.length_zipWith, h7]
  split
  · simp
  · split
    · rw [List.length_map, h0]; rfl
    · rw [h0]; rfl
theorem wide_fold (is : List Nat) (ws : List (List Nat)) (h : 8 ≤ ws.length ∧ ∀ w ∈ ws, w.length = 4) :
    let r := is.foldl (fun ws i => aesNextWord (i + 8) ws :: ws) ws
    r.length = ws.length + is.length ∧ ∀ w ∈ r, w.length = 4 := by
  induction is generalizing ws with
  | nil => exact ⟨rfl, h.2⟩
  | cons i is ih =>
    have hn : ∀ w ∈ aesNextWord (i + 8) ws :: ws, w.length = 4 := by
      intro w hw; rcases List.mem_cons.1 hw with rfl | hw
      · exact wide_next h
      · exact h.2 w hw
    have := ih (aesNextWord (i + 8) ws :: ws) ⟨by simp; omega, hn⟩
    simp only [List.foldl_cons, List.length_cons] at this ⊢
    exact ⟨by omega, this.2⟩
theorem flatten_wide (l : List (List Nat)) (h : ∀ w ∈ l, w.length = 4) : l.flatten.length = 4 * l.length := by
  induction l with
  | nil => rfl
  | cons w l ih =>
    have := ih fun x hx => h x (List.mem_cons_of_mem _ hx)
    simp [h w (by simp), this]; omega
theorem chunks_wide (n : Nat) (l : Bytes) (h : 4 * n ≤ l.length) : (chunks 4 n l).length = n ∧ ∀ w ∈ chunks 4 n l, w.length = 4 := by
  induction n generalizing l with
  | zero => simp [chunks]
  | succ n ih =>
    cases l with
    | nil => simp at h
    | cons b l =>
      have := ih ((b :: l).drop 4) (by simp only [List.length_cons, List.length_drop] at *; omega)
      simp only [chunks, List.length_cons, List.mem_cons]
      refine ⟨by rw [this.1], ?_⟩
      rintro w (rfl | hw)
      · simp only [List.length_take, List.length_cons] at *; omega
      · exact this.2 w hw
theorem aesKeys_wide (key : Bytes) (r : Nat) (h : r < 15) : ((aesKeys key).getD r []).length = 16 := by
  have hc := chunks_wide 8 (slice key 0 32) (by simp [slice_length])
  have hw := wide_fold (List.range 52) ((chunks 4 8 (slice key 0 32)).map (·.map BitVec.toNat)).reverse (by
    refine ⟨by simp [hc.1], fun w hw => ?_⟩
    simp only [List.mem_reverse, List.mem_map] at hw
    obtain ⟨x, hx, rfl⟩ := hw
    simp [hc.2 x hx])
  have hf := flatten_wide _ (fun w h => hw.2 w (List.mem_reverse.1 h))
  rw [List.length_reverse, hw.1] at hf
  have e : (aesKeys key).getD r [] = ((aesKeys key)[r]'(by simp [aesKeys]; omega)) := List.getD_eq_getElem _ _ _
  rw [e]
  simp only [aesKeys, List.getElem_map, List.getElem_range, List.length_take, List.length_drop, hf]
  simp [hc.1]; omega
theorem aesEncK_wide (key : Bytes) (b : List Nat) : (aesEncK (aesKeys key) b).length = 16 := by
  simp only [aesEncK, addKey, List.length_zipWith, aesKeys_wide _ 14 (by omega)]
  simp [shiftRows]
theorem cmac_wide (key msg : Bytes) : (cmac key msg).length = 16 := by
  simp only [cmac, aesEnc, List.length_map, aesEncK_wide]
theorem ctrBlocks_length (key iv : Bytes) (c n : Nat) : (ctrBlocks (aesKeys key) iv c n).length = 16 * n := by
  have h : ∀ l : List Nat, ((l.map fun i =>
      (aesEncK (aesKeys key) ((slice iv 0 12 ++ natBe 4 (c + i)).map BitVec.toNat)).map (BitVec.ofNat 8)).flatten).length = 16 * l.length := by
    intro l
    induction l with
    | nil => rfl
    | cons i l ih => rw [List.map_cons, List.flatten_cons, List.length_append, ih, List.length_map, aesEncK_wide, List.length_cons]; omega
  rw [ctrBlocks, h, List.length_range]
theorem xorBytes_twice : ∀ a k : Bytes, a.length ≤ k.length → xorBytes (xorBytes a k) k = a
  | [], _, _ => rfl
  | b :: a, [], h => by simp at h
  | b :: a, c :: k, h => by
    have := xorBytes_twice a k (by simpa using h)
    simp only [xorBytes, List.zipWith_cons_cons] at this ⊢
    rw [this, BitVec.xor_assoc, BitVec.xor_self, BitVec.xor_zero]
theorem gcmCrypt_length (key iv p : Bytes) : (gcmCrypt key iv p).length = p.length := by
  rw [gcmCrypt, xorBytes, List.length_zipWith, ctrBlocks_length]; omega
theorem gcmCrypt_twice (key iv p : Bytes) : gcmCrypt key iv (gcmCrypt key iv p) = p := by
  have h := xorBytes_twice p (ctrBlocks (aesKeys key) iv 2 (p.length / 16 + 1)) (by rw [ctrBlocks_length]; omega)
  unfold gcmCrypt at *
  have e : (xorBytes p (ctrBlocks (aesKeys key) iv 2 (p.length / 16 + 1))).length = p.length := gcmCrypt_length key iv p
  rw [e, h]
theorem gcmTag_length (key iv aad c : Bytes) : (gcmTag key iv aad c).length = 16 := by
  simp only [gcmTag, xorBytes, List.length_zipWith, natBe_length, ctrBlocks_length]; rfl
theorem natLe_leNat : ∀ l : Bytes, natLe l.length (leNat l) = l
  | [] => rfl
  | b :: l => by
    have h1 : (b.toNat + 256 * leNat l) / 256 = leNat l := by have := b.isLt; omega
    have h2 : BitVec.ofNat 8 (b.toNat + 256 * leNat l) = b := by
      apply BitVec.eq_of_toNat_eq; have := b.isLt; simp only [BitVec.toNat_ofNat]; omega
    rw [List.length_cons, natLe, leNat, h1, h2, natLe_leNat l]
theorem beNat_eq (l : Bytes) : beNat l = leNat l.reverse := by
  have h : ∀ (l : Bytes) (x : Nat), l.foldl (fun x b => 256 * x + b.toNat) x = leNat l.reverse + 256 ^ l.length * x := by
    intro l
    induction l with
    | nil => intro x; simp [leNat]
    | cons b l ih =>
      have e : ∀ r : Bytes, leNat (r ++ [b]) = leNat r + 256 ^ r.length * b.toNat := by
        intro r
        induction r with
        | nil => simp [leNat]
        | cons c r ih2 => simp only [List.cons_append, leNat, ih2, List.length_cons, Nat.pow_succ]; ring
      intro x
      rw [List.foldl_cons, ih, List.reverse_cons, e, List.length_reverse, List.length_cons, Nat.pow_succ]; ring
  rw [beNat, h]; simp
theorem natBe_beNat (l : Bytes) : natBe l.length (beNat l) = l := by
  have h := natLe_leNat l.reverse
  rw [List.length_reverse] at h
  rw [natBe, beNat_eq, h, List.reverse_reverse]
/-- What was sealed opens again. -/
theorem gcmOpen_gcmSeal (key iv aad p : Bytes) : gcmOpen key iv aad (gcmSeal key iv aad p).1 (gcmSeal key iv aad p).2 = some p := by
  simp only [gcmOpen, gcmSeal, if_pos, gcmCrypt_twice]

end Sys2Proof.Machine
end

