-- ==== Sys2Proof/Laws/Fields.lean ====
section
/-! SUPPORT. No field of the tables but those of SUP_IDENT lies in the register at offset 0 (R3, R32). -/

namespace Sys2Proof.Machine

@[simp] theorem R.SUP_DENIED_CNT.COUNT_off : 8 ≤ R.SUP_DENIED_CNT.COUNT.off := by decide
@[simp] theorem R.JNL_GEN_CTL.ROOT_PERIOD_MS_off : 8 ≤ R.JNL_GEN_CTL.ROOT_PERIOD_MS.off := by decide
@[simp] theorem R.JNL_GEN_STAT.ROOT_OK_off : 8 ≤ R.JNL_GEN_STAT.ROOT_OK.off := by decide
@[simp] theorem R.JNL_GEN_STAT.LEAVES_off : 8 ≤ R.JNL_GEN_STAT.LEAVES.off := by decide
@[simp] theorem R.JNL_GEN_STAT.ROOT_SEQ_off : 8 ≤ R.JNL_GEN_STAT.ROOT_SEQ.off := by decide
@[simp] theorem R.JNL_GEN_CNT.RELOCATIONS_off : 8 ≤ R.JNL_GEN_CNT.RELOCATIONS.off := by decide
@[simp] theorem R.JNL_GEN_CNT.EXHAUSTED_off : 8 ≤ R.JNL_GEN_CNT.EXHAUSTED.off := by decide
@[simp] theorem R.MED_VFY_CNT0.RECON_off : 8 ≤ R.MED_VFY_CNT0.RECON.off := by decide
@[simp] theorem R.MED_VFY_CNT0.CORRECTED_off : 8 ≤ R.MED_VFY_CNT0.CORRECTED.off := by decide
@[simp] theorem R.MED_VFY_CNT1.POISONED_off : 8 ≤ R.MED_VFY_CNT1.POISONED.off := by decide
@[simp] theorem R.MED_VFY_CNT1.REPAIRED_off : 8 ≤ R.MED_VFY_CNT1.REPAIRED.off := by decide
@[simp] theorem R.MED_VFY_CNT2.STALE_off : 8 ≤ R.MED_VFY_CNT2.STALE.off := by decide
@[simp] theorem R.MED_VFY_CNT2.SEAL_MISMATCH_off : 8 ≤ R.MED_VFY_CNT2.SEAL_MISMATCH.off := by decide
@[simp] theorem R.JNL_STAT.STATE_off : 8 ≤ R.JNL_STAT.STATE.off := by decide
@[simp] theorem R.JNL_STAT.THROTTLED_off : 8 ≤ R.JNL_STAT.THROTTLED.off := by decide
@[simp] theorem R.JNL_STAT.FULL_off : 8 ≤ R.JNL_STAT.FULL.off := by decide
@[simp] theorem R.JNL_STAT.INDEX_FULL_off : 8 ≤ R.JNL_STAT.INDEX_FULL.off := by decide
@[simp] theorem R.JNL_STAT.OCC_KIB_off : 8 ≤ R.JNL_STAT.OCC_KIB.off := by decide
@[simp] theorem R.JNL_ADMIT_CNT.RECORDS_off : 8 ≤ R.JNL_ADMIT_CNT.RECORDS.off := by decide
@[simp] theorem R.JNL_JSN.JSN_off : 8 ≤ R.JNL_JSN.JSN.off := by decide
@[simp] theorem R.JNL_MIRROR_JSN.JSN_off : 8 ≤ R.JNL_MIRROR_JSN.JSN.off := by decide
@[simp] theorem R.JNL_LIMIT_CTL.HOLD_US_off : 8 ≤ R.JNL_LIMIT_CTL.HOLD_US.off := by decide
@[simp] theorem R.JNL_LIMIT_CTL.HIGH_WATER_off : 8 ≤ R.JNL_LIMIT_CTL.HIGH_WATER.off := by decide
@[simp] theorem R.JNL_LIMIT_CTL.DRAIN_LIMIT_off : 8 ≤ R.JNL_LIMIT_CTL.DRAIN_LIMIT.off := by decide
@[simp] theorem R.JNL_RET_CNT.TILES_off : 8 ≤ R.JNL_RET_CNT.TILES.off := by decide
@[simp] theorem R.JNL_RMW_CNT.TILES_off : 8 ≤ R.JNL_RMW_CNT.TILES.off := by decide
@[simp] theorem R.JNL_STALL_CNT.INDEX_off : 8 ≤ R.JNL_STALL_CNT.INDEX.off := by decide
@[simp] theorem R.JNL_STALL_CNT.SPACE_off : 8 ≤ R.JNL_STALL_CNT.SPACE.off := by decide
@[simp] theorem R.JNL_SHUT_STAT.VALID_off : 8 ≤ R.JNL_SHUT_STAT.VALID.off := by decide
@[simp] theorem R.JNL_SHUT_STAT.COMPLETE_off : 8 ≤ R.JNL_SHUT_STAT.COMPLETE.off := by decide
@[simp] theorem R.JNL_SHUT_STAT.JOURNAL_LOST_off : 8 ≤ R.JNL_SHUT_STAT.JOURNAL_LOST.off := by decide
@[simp] theorem R.JNL_SHUT_STAT.SPILLED_off : 8 ≤ R.JNL_SHUT_STAT.SPILLED.off := by decide
@[simp] theorem R.JNL_SHUT_STAT.STREET_FAIL_off : 8 ≤ R.JNL_SHUT_STAT.STREET_FAIL.off := by decide
@[simp] theorem R.JNL_SHUT_STAT.SHUT_SEQ_off : 8 ≤ R.JNL_SHUT_STAT.SHUT_SEQ.off := by decide
@[simp] theorem R.PRM_STAT.SENIOR_off : 8 ≤ R.PRM_STAT.SENIOR.off := by decide
@[simp] theorem R.PRM_STAT.STATE_off : 8 ≤ R.PRM_STAT.STATE.off := by decide
@[simp] theorem R.PRM_STAT.GRP_A_UP_off : 8 ≤ R.PRM_STAT.GRP_A_UP.off := by decide
@[simp] theorem R.PRM_STAT.GRP_B_UP_off : 8 ≤ R.PRM_STAT.GRP_B_UP.off := by decide
@[simp] theorem R.PRM_STAT.TWIN_ALIVE_off : 8 ≤ R.PRM_STAT.TWIN_ALIVE.off := by decide
@[simp] theorem R.PRM_STAT.TERM_off : 8 ≤ R.PRM_STAT.TERM.off := by decide
@[simp] theorem R.PRM_GRP_STAT.A_WIDTH_off : 8 ≤ R.PRM_GRP_STAT.A_WIDTH.off := by decide
@[simp] theorem R.PRM_GRP_STAT.B_WIDTH_off : 8 ≤ R.PRM_GRP_STAT.B_WIDTH.off := by decide
@[simp] theorem R.PRM_GRP_STAT.B_FLIGHT_NS_off : 8 ≤ R.PRM_GRP_STAT.B_FLIGHT_NS.off := by decide
@[simp] theorem R.PRM_GRP_STAT.A_FLIGHT_NS_off : 8 ≤ R.PRM_GRP_STAT.A_FLIGHT_NS.off := by decide
@[simp] theorem R.PRM_LINK_CTL.HB_MISS_off : 8 ≤ R.PRM_LINK_CTL.HB_MISS.off := by decide
@[simp] theorem R.PRM_LINK_CTL.HB_US_off : 8 ≤ R.PRM_LINK_CTL.HB_US.off := by decide
@[simp] theorem R.PRM_LINK_CTL.RETRIES_off : 8 ≤ R.PRM_LINK_CTL.RETRIES.off := by decide
@[simp] theorem R.PRM_LINK_CTL.RTO_NS_off : 8 ≤ R.PRM_LINK_CTL.RTO_NS.off := by decide
@[simp] theorem R.PRM_LAG_CTL.LAG_US_off : 8 ≤ R.PRM_LAG_CTL.LAG_US.off := by decide
@[simp] theorem R.PRM_LAG_CTL.LAG_MIB_off : 8 ≤ R.PRM_LAG_CTL.LAG_MIB.off := by decide
@[simp] theorem R.PRM_LAG_STAT.AGE_NS_off : 8 ≤ R.PRM_LAG_STAT.AGE_NS.off := by decide
@[simp] theorem R.PRM_LAG_STAT.BYTES_KIB_off : 8 ≤ R.PRM_LAG_STAT.BYTES_KIB.off := by decide
@[simp] theorem R.PRM_REPAIR_CTL.TIMEOUT_US_off : 8 ≤ R.PRM_REPAIR_CTL.TIMEOUT_US.off := by decide
@[simp] theorem R.PRM_RESYNC_CTL.PAUSE_off : 8 ≤ R.PRM_RESYNC_CTL.PAUSE.off := by decide
@[simp] theorem R.PRM_RESYNC_CTL.RATE_GBPS_off : 8 ≤ R.PRM_RESYNC_CTL.RATE_GBPS.off := by decide
@[simp] theorem R.PRM_RESYNC_STAT.EXTENTS_LEFT_off : 8 ≤ R.PRM_RESYNC_STAT.EXTENTS_LEFT.off := by decide
@[simp] theorem R.PRM_RESYNC_STAT.GRANULES_LEFT_off : 8 ≤ R.PRM_RESYNC_STAT.GRANULES_LEFT.off := by decide
@[simp] theorem R.PRM_PAIR_CMD.FORCE_SOLO_off : 8 ≤ R.PRM_PAIR_CMD.FORCE_SOLO.off := by decide
@[simp] theorem R.PRM_PAIR_CMD.ADMIT_REPLACEMENT_off : 8 ≤ R.PRM_PAIR_CMD.ADMIT_REPLACEMENT.off := by decide
@[simp] theorem R.PRM_PAIR_CMD.START_SOLO_off : 8 ≤ R.PRM_PAIR_CMD.START_SOLO.off := by decide
@[simp] theorem R.PRM_PAIR_CMD.ESTABLISH_off : 8 ≤ R.PRM_PAIR_CMD.ESTABLISH.off := by decide
@[simp] theorem R.PRM_CNT0.TAG_FAIL_off : 8 ≤ R.PRM_CNT0.TAG_FAIL.off := by decide
@[simp] theorem R.PRM_CNT0.RETRANSMIT_off : 8 ≤ R.PRM_CNT0.RETRANSMIT.off := by decide
@[simp] theorem R.PRM_CNT1.REFUSED_off : 8 ≤ R.PRM_CNT1.REFUSED.off := by decide
@[simp] theorem R.PRM_CNT1.LATE_off : 8 ≤ R.PRM_CNT1.LATE.off := by decide
@[simp] theorem R.PRM_CNT1.THROTTLE_off : 8 ≤ R.PRM_CNT1.THROTTLE.off := by decide
@[simp] theorem R.PRM_CNT1.DISCARDED_off : 8 ≤ R.PRM_CNT1.DISCARDED.off := by decide
@[simp] theorem R.MED_LANE_STAT.STATE_off (n : Nat) : 8 ≤ (R.MED_LANE_STAT.STATE n).off := by simp only [R.MED_LANE_STAT.STATE]; omega
@[simp] theorem R.MED_LANE_STAT.CAUSE_off (n : Nat) : 8 ≤ (R.MED_LANE_STAT.CAUSE n).off := by simp only [R.MED_LANE_STAT.CAUSE]; omega
@[simp] theorem R.MED_LANE_STAT.PARTIAL_off (n : Nat) : 8 ≤ (R.MED_LANE_STAT.PARTIAL n).off := by simp only [R.MED_LANE_STAT.PARTIAL]; omega
@[simp] theorem R.MED_LANE_STAT.OUTSTANDING_off (n : Nat) : 8 ≤ (R.MED_LANE_STAT.OUTSTANDING n).off := by simp only [R.MED_LANE_STAT.OUTSTANDING]; omega
@[simp] theorem R.MED_LANE_CMD.ACTION_off : 8 ≤ R.MED_LANE_CMD.ACTION.off := by decide
@[simp] theorem R.MED_LANE_CMD.LANE_off : 8 ≤ R.MED_LANE_CMD.LANE.off := by decide
@[simp] theorem R.MED_STREET_STAT.CMD_REFUSED_off : 8 ≤ R.MED_STREET_STAT.CMD_REFUSED.off := by decide
@[simp] theorem R.MED_STREET_STAT.RAIL_FAIL_off : 8 ≤ R.MED_STREET_STAT.RAIL_FAIL.off := by decide
@[simp] theorem R.MED_STREET_STAT.FENCED_off : 8 ≤ R.MED_STREET_STAT.FENCED.off := by decide
@[simp] theorem R.MED_LINK_CTL.REPLAYS_off : 8 ≤ R.MED_LINK_CTL.REPLAYS.off := by decide
@[simp] theorem R.MED_CMD_CTL.TIMEOUT_US_off : 8 ≤ R.MED_CMD_CTL.TIMEOUT_US.off := by decide
@[simp] theorem R.MED_CMD_CTL.HEDGE_US_off : 8 ≤ R.MED_CMD_CTL.HEDGE_US.off := by decide
@[simp] theorem R.MED_SWEEP_CTL.ENABLE_off : 8 ≤ R.MED_SWEEP_CTL.ENABLE.off := by decide
@[simp] theorem R.MED_SWEEP_CTL.PASS_HOURS_off : 8 ≤ R.MED_SWEEP_CTL.PASS_HOURS.off := by decide
@[simp] theorem R.MED_SWEEP_CTL.DEGRADE_PER_M_off : 8 ≤ R.MED_SWEEP_CTL.DEGRADE_PER_M.off := by decide
@[simp] theorem R.MED_SWEEP_STAT.PASSES_off : 8 ≤ R.MED_SWEEP_STAT.PASSES.off := by decide
@[simp] theorem R.MED_SWEEP_STAT.PERCENT_off : 8 ≤ R.MED_SWEEP_STAT.PERCENT.off := by decide
@[simp] theorem R.MED_SWEEP_STAT.LAST_HOURS_off : 8 ≤ R.MED_SWEEP_STAT.LAST_HOURS.off := by decide
@[simp] theorem R.MED_REBUILD_CTL.PAUSE_off : 8 ≤ R.MED_REBUILD_CTL.PAUSE.off := by decide
@[simp] theorem R.MED_REBUILD_CTL.RATE_MBPS_off : 8 ≤ R.MED_REBUILD_CTL.RATE_MBPS.off := by decide
@[simp] theorem R.MED_REBUILD_STAT.LANES_off : 8 ≤ R.MED_REBUILD_STAT.LANES.off := by decide
@[simp] theorem R.MED_REBUILD_STAT.EXTENTS_LEFT_off : 8 ≤ R.MED_REBUILD_STAT.EXTENTS_LEFT.off := by decide
@[simp] theorem R.MED_REBUILD_STAT.CRITICAL_off : 8 ≤ R.MED_REBUILD_STAT.CRITICAL.off := by decide
@[simp] theorem R.MED_HEDGE_CNT.LATE_off : 8 ≤ R.MED_HEDGE_CNT.LATE.off := by decide
@[simp] theorem R.MED_HEDGE_CNT.HEDGED_off : 8 ≤ R.MED_HEDGE_CNT.HEDGED.off := by decide
@[simp] theorem R.MED_MODULE_ID.SERIAL_off (n : Nat) : 8 ≤ (R.MED_MODULE_ID.SERIAL n).off := by simp only [R.MED_MODULE_ID.SERIAL]; omega
@[simp] theorem R.MED_LANE_CNT.TIMEOUTS_off (n : Nat) : 8 ≤ (R.MED_LANE_CNT.TIMEOUTS n).off := by simp only [R.MED_LANE_CNT.TIMEOUTS]; omega
@[simp] theorem R.MED_LANE_CNT.MEDIA_ERRORS_off (n : Nat) : 8 ≤ (R.MED_LANE_CNT.MEDIA_ERRORS n).off := by simp only [R.MED_LANE_CNT.MEDIA_ERRORS]; omega
@[simp] theorem R.MED_LANE_CNT.REPLAYS_off (n : Nat) : 8 ≤ (R.MED_LANE_CNT.REPLAYS n).off := by simp only [R.MED_LANE_CNT.REPLAYS]; omega
@[simp] theorem R.ORG_WAYMODE.LOCK_WAYS_off : 8 ≤ R.ORG_WAYMODE.LOCK_WAYS.off := by decide
@[simp] theorem R.ORG_WAYMODE.SCRATCH_WAYS_off : 8 ≤ R.ORG_WAYMODE.SCRATCH_WAYS.off := by decide
@[simp] theorem R.ORG_LOCK_CMD.ACTION_off : 8 ≤ R.ORG_LOCK_CMD.ACTION.off := by decide
@[simp] theorem R.ORG_LOCK_CMD.LINE_off : 8 ≤ R.ORG_LOCK_CMD.LINE.off := by decide
@[simp] theorem R.ORG_LOCK_STAT.REFUSED_off : 8 ≤ R.ORG_LOCK_STAT.REFUSED.off := by decide
@[simp] theorem R.ORG_LOCK_STAT.LOCKED_off : 8 ≤ R.ORG_LOCK_STAT.LOCKED.off := by decide
@[simp] theorem R.ORG_INVAL_CMD.RELEASE_LOCKS_off : 8 ≤ R.ORG_INVAL_CMD.RELEASE_LOCKS.off := by decide
@[simp] theorem R.ORG_INVAL_CMD.COUNT_off : 8 ≤ R.ORG_INVAL_CMD.COUNT.off := by decide
@[simp] theorem R.ORG_INVAL_CMD.FIRST_EXTENT_off : 8 ≤ R.ORG_INVAL_CMD.FIRST_EXTENT.off := by decide
@[simp] theorem R.ORG_INVAL_STAT.BUSY_off : 8 ≤ R.ORG_INVAL_STAT.BUSY.off := by decide
@[simp] theorem R.ORG_INVAL_STAT.REFUSED_off : 8 ≤ R.ORG_INVAL_STAT.REFUSED.off := by decide
@[simp] theorem R.ORG_INVAL_STAT.DONE_off : 8 ≤ R.ORG_INVAL_STAT.DONE.off := by decide
@[simp] theorem R.ORG_SLICE_CMD.ACTION_off : 8 ≤ R.ORG_SLICE_CMD.ACTION.off := by decide
@[simp] theorem R.ORG_SLICE_CMD.SLICE_off : 8 ≤ R.ORG_SLICE_CMD.SLICE.off := by decide
@[simp] theorem R.ORG_PF_CTL.PLAN_IDLE_US_off : 8 ≤ R.ORG_PF_CTL.PLAN_IDLE_US.off := by decide
@[simp] theorem R.ORG_PF_CTL.PF_TRACKERS_off : 8 ≤ R.ORG_PF_CTL.PF_TRACKERS.off := by decide
@[simp] theorem R.ORG_PF_CTL.PF_MISS_off : 8 ≤ R.ORG_PF_CTL.PF_MISS.off := by decide
@[simp] theorem R.ORG_PF_CTL.LOGGIA_TTL_US_off : 8 ≤ R.ORG_PF_CTL.LOGGIA_TTL_US.off := by decide
@[simp] theorem R.ORG_CNT0.MISSES_off : 8 ≤ R.ORG_CNT0.MISSES.off := by decide
@[simp] theorem R.ORG_CNT0.HITS_off : 8 ≤ R.ORG_CNT0.HITS.off := by decide
@[simp] theorem R.ORG_CNT1.PF_WASTED_off : 8 ≤ R.ORG_CNT1.PF_WASTED.off := by decide
@[simp] theorem R.ORG_CNT1.PF_LINES_off : 8 ≤ R.ORG_CNT1.PF_LINES.off := by decide
@[simp] theorem R.ORG_CNT2.LOCK_LOST_off : 8 ≤ R.ORG_CNT2.LOCK_LOST.off := by decide
@[simp] theorem R.ORG_CNT2.PF_SKIPPED_off : 8 ≤ R.ORG_CNT2.PF_SKIPPED.off := by decide
@[simp] theorem R.ORG_CNT2.MERGED_off : 8 ≤ R.ORG_CNT2.MERGED.off := by decide
@[simp] theorem R.ORG_SLICE_STAT.STATE_off (n : Nat) : 8 ≤ (R.ORG_SLICE_STAT.STATE n).off := by simp only [R.ORG_SLICE_STAT.STATE]; omega
@[simp] theorem R.ORG_SLICE_STAT.MISS_BUSY_off (n : Nat) : 8 ≤ (R.ORG_SLICE_STAT.MISS_BUSY n).off := by simp only [R.ORG_SLICE_STAT.MISS_BUSY]; omega
@[simp] theorem R.ORG_SCR_OWNER.ZEROING_off (n : Nat) : 8 ≤ (R.ORG_SCR_OWNER.ZEROING n).off := by simp only [R.ORG_SCR_OWNER.ZEROING]; omega
@[simp] theorem R.ORG_SCR_OWNER.TENANT_off (n : Nat) : 8 ≤ (R.ORG_SCR_OWNER.TENANT n).off := by simp only [R.ORG_SCR_OWNER.TENANT]; omega
@[simp] theorem R.TER_STAT.STATE_off : 8 ≤ R.TER_STAT.STATE.off := by decide
@[simp] theorem R.TER_STAT.STACK_UP_off : 8 ≤ R.TER_STAT.STACK_UP.off := by decide
@[simp] theorem R.TER_STAT.FRAMES_USED_off : 8 ≤ R.TER_STAT.FRAMES_USED.off := by decide
@[simp] theorem R.TER_PIN_CTL.MAX_GIB_off : 8 ≤ R.TER_PIN_CTL.MAX_GIB.off := by decide
@[simp] theorem R.TER_PIN_STAT.PINNED_GIB_off : 8 ≤ R.TER_PIN_STAT.PINNED_GIB.off := by decide
@[simp] theorem R.TER_PIN_STAT.LOAD_LEFT_off : 8 ≤ R.TER_PIN_STAT.LOAD_LEFT.off := by decide
@[simp] theorem R.TER_ECC_CNT.UNCORRECTABLE_off : 8 ≤ R.TER_ECC_CNT.UNCORRECTABLE.off := by decide
@[simp] theorem R.TER_ECC_CNT.CORRECTED_off : 8 ≤ R.TER_ECC_CNT.CORRECTED.off := by decide
@[simp] theorem R.TER_CNT.MOVING_SKIPS_off : 8 ≤ R.TER_CNT.MOVING_SKIPS.off := by decide
@[simp] theorem R.TER_CNT.NO_VICTIM_off : 8 ≤ R.TER_CNT.NO_VICTIM.off := by decide
@[simp] theorem R.KSK_QCFG0.ENABLE_off (n : Nat) : 8 ≤ (R.KSK_QCFG0.ENABLE n).off := by simp only [R.KSK_QCFG0.ENABLE]; omega
@[simp] theorem R.KSK_QCFG0.LS_SIZE_off (n : Nat) : 8 ≤ (R.KSK_QCFG0.LS_SIZE n).off := by simp only [R.KSK_QCFG0.LS_SIZE]; omega
@[simp] theorem R.KSK_QCFG0.SQUARE_off (n : Nat) : 8 ≤ (R.KSK_QCFG0.SQUARE n).off := by simp only [R.KSK_QCFG0.SQUARE]; omega
@[simp] theorem R.KSK_QCFG0.WEIGHT_off (n : Nat) : 8 ≤ (R.KSK_QCFG0.WEIGHT n).off := by simp only [R.KSK_QCFG0.WEIGHT]; omega
@[simp] theorem R.KSK_QCFG0.MAX_CTX_off (n : Nat) : 8 ≤ (R.KSK_QCFG0.MAX_CTX n).off := by simp only [R.KSK_QCFG0.MAX_CTX]; omega
@[simp] theorem R.KSK_QCFG0.CHILD_CTX_off (n : Nat) : 8 ≤ (R.KSK_QCFG0.CHILD_CTX n).off := by simp only [R.KSK_QCFG0.CHILD_CTX]; omega
@[simp] theorem R.KSK_QCFG0.TENANT_off (n : Nat) : 8 ≤ (R.KSK_QCFG0.TENANT n).off := by simp only [R.KSK_QCFG0.TENANT]; omega
@[simp] theorem R.KSK_QCFG1.INSN_DEF_off (n : Nat) : 8 ≤ (R.KSK_QCFG1.INSN_DEF n).off := by simp only [R.KSK_QCFG1.INSN_DEF]; omega
@[simp] theorem R.KSK_QCFG1.TIME_DEF_US_off (n : Nat) : 8 ≤ (R.KSK_QCFG1.TIME_DEF_US n).off := by simp only [R.KSK_QCFG1.TIME_DEF_US]; omega
@[simp] theorem R.KSK_QCFG1.TILES_DEF_off (n : Nat) : 8 ≤ (R.KSK_QCFG1.TILES_DEF n).off := by simp only [R.KSK_QCFG1.TILES_DEF]; omega
@[simp] theorem R.KSK_QCFG2.INSN_MAX_off (n : Nat) : 8 ≤ (R.KSK_QCFG2.INSN_MAX n).off := by simp only [R.KSK_QCFG2.INSN_MAX]; omega
@[simp] theorem R.KSK_QCFG2.TIME_MAX_US_off (n : Nat) : 8 ≤ (R.KSK_QCFG2.TIME_MAX_US n).off := by simp only [R.KSK_QCFG2.TIME_MAX_US]; omega
@[simp] theorem R.KSK_QCFG2.TILES_MAX_off (n : Nat) : 8 ≤ (R.KSK_QCFG2.TILES_MAX n).off := by simp only [R.KSK_QCFG2.TILES_MAX]; omega
@[simp] theorem R.KSK_QCFG3.POOL_MAX_off (n : Nat) : 8 ≤ (R.KSK_QCFG3.POOL_MAX n).off := by simp only [R.KSK_QCFG3.POOL_MAX]; omega
@[simp] theorem R.KSK_QCFG3.CQ_off (n : Nat) : 8 ≤ (R.KSK_QCFG3.CQ n).off := by simp only [R.KSK_QCFG3.CQ]; omega
@[simp] theorem R.KSK_QSTAT.STATE_off (n : Nat) : 8 ≤ (R.KSK_QSTAT.STATE n).off := by simp only [R.KSK_QSTAT.STATE]; omega
@[simp] theorem R.KSK_QSTAT.QUEUED_off (n : Nat) : 8 ≤ (R.KSK_QSTAT.QUEUED n).off := by simp only [R.KSK_QSTAT.QUEUED]; omega
@[simp] theorem R.KSK_QSTAT.RUNNING_off (n : Nat) : 8 ≤ (R.KSK_QSTAT.RUNNING n).off := by simp only [R.KSK_QSTAT.RUNNING]; omega
@[simp] theorem R.KSK_KIOSK_CMD.ACTION_off : 8 ≤ R.KSK_KIOSK_CMD.ACTION.off := by decide
@[simp] theorem R.KSK_KIOSK_CMD.KIOSK_off : 8 ≤ R.KSK_KIOSK_CMD.KIOSK.off := by decide
@[simp] theorem R.KSK_PROG_CMD.ACTION_off : 8 ≤ R.KSK_PROG_CMD.ACTION.off := by decide
@[simp] theorem R.KSK_PROG_CMD.PROGRAM_off : 8 ≤ R.KSK_PROG_CMD.PROGRAM.off := by decide
@[simp] theorem R.KSK_STAT.CMD_REFUSED_off : 8 ≤ R.KSK_STAT.CMD_REFUSED.off := by decide
@[simp] theorem R.KSK_STAT.POOL_USED_off : 8 ≤ R.KSK_STAT.POOL_USED.off := by decide
@[simp] theorem R.KSK_KIOSK_STAT.STATE_off (n : Nat) : 8 ≤ (R.KSK_KIOSK_STAT.STATE n).off := by simp only [R.KSK_KIOSK_STAT.STATE]; omega
@[simp] theorem R.KSK_KIOSK_STAT.CTX_BUSY_off (n : Nat) : 8 ≤ (R.KSK_KIOSK_STAT.CTX_BUSY n).off := by simp only [R.KSK_KIOSK_STAT.CTX_BUSY]; omega
@[simp] theorem R.KSK_SQUARE_STAT.KIOSKS_UP_off (n : Nat) : 8 ≤ (R.KSK_SQUARE_STAT.KIOSKS_UP n).off := by simp only [R.KSK_SQUARE_STAT.KIOSKS_UP]; omega
@[simp] theorem R.KSK_SQUARE_STAT.CTX_BUSY_off (n : Nat) : 8 ≤ (R.KSK_SQUARE_STAT.CTX_BUSY n).off := by simp only [R.KSK_SQUARE_STAT.CTX_BUSY]; omega
@[simp] theorem R.KSK_CNT0.CONFLICTS_off : 8 ≤ R.KSK_CNT0.CONFLICTS.off := by decide
@[simp] theorem R.KSK_CNT0.COMMITS_off : 8 ≤ R.KSK_CNT0.COMMITS.off := by decide
@[simp] theorem R.KSK_CNT1.ORPHANS_off : 8 ≤ R.KSK_CNT1.ORPHANS.off := by decide
@[simp] theorem R.KSK_CNT1.DISABLED_off : 8 ≤ R.KSK_CNT1.DISABLED.off := by decide
@[simp] theorem R.KSK_CNT1.LIMITS_off : 8 ≤ R.KSK_CNT1.LIMITS.off := by decide
@[simp] theorem R.KSK_CNT1.FAULTS_off : 8 ≤ R.KSK_CNT1.FAULTS.off := by decide
@[simp] theorem R.KSK_PROG0.STATE_off (n : Nat) : 8 ≤ (R.KSK_PROG0.STATE n).off := by simp only [R.KSK_PROG0.STATE]; omega
@[simp] theorem R.KSK_PROG0.SLOT_off (n : Nat) : 8 ≤ (R.KSK_PROG0.SLOT n).off := by simp only [R.KSK_PROG0.SLOT]; omega
@[simp] theorem R.KSK_PROG0.OWNER_off (n : Nat) : 8 ≤ (R.KSK_PROG0.OWNER n).off := by simp only [R.KSK_PROG0.OWNER]; omega
@[simp] theorem R.KSK_PROG1.RUN_OLD_off (n : Nat) : 8 ≤ (R.KSK_PROG1.RUN_OLD n).off := by simp only [R.KSK_PROG1.RUN_OLD]; omega
@[simp] theorem R.KSK_PROG1.RUN_CUR_off (n : Nat) : 8 ≤ (R.KSK_PROG1.RUN_CUR n).off := by simp only [R.KSK_PROG1.RUN_CUR]; omega
@[simp] theorem R.KSK_PROG1.LEN_WORDS_off (n : Nat) : 8 ≤ (R.KSK_PROG1.LEN_WORDS n).off := by simp only [R.KSK_PROG1.LEN_WORDS]; omega
@[simp] theorem R.TST_STAT.STALLED_off : 8 ≤ R.TST_STAT.STALLED.off := by decide
@[simp] theorem R.TST_STAT.IN_USE_off : 8 ≤ R.TST_STAT.IN_USE.off := by decide
@[simp] theorem R.TST_TMO_CTL.MAINT_MS_off : 8 ≤ R.TST_TMO_CTL.MAINT_MS.off := by decide
@[simp] theorem R.TST_TMO_CTL.PRM_MS_off : 8 ≤ R.TST_TMO_CTL.PRM_MS.off := by decide
@[simp] theorem R.TST_TMO_CTL.TASK_MS_off : 8 ≤ R.TST_TMO_CTL.TASK_MS.off := by decide
@[simp] theorem R.TST_TMO_CTL.CXL_MS_off : 8 ≤ R.TST_TMO_CTL.CXL_MS.off := by decide
@[simp] theorem R.TST_TMO_CTL.NET_MS_off : 8 ≤ R.TST_TMO_CTL.NET_MS.off := by decide
@[simp] theorem R.TST_DRAIN_CTL.DRAIN_MS_off : 8 ≤ R.TST_DRAIN_CTL.DRAIN_MS.off := by decide
@[simp] theorem R.TST_NET_CTL.RNR_TIMER_off : 8 ≤ R.TST_NET_CTL.RNR_TIMER.off := by decide
@[simp] theorem R.TST_CMD.CLEAR_HIGH_off : 8 ≤ R.TST_CMD.CLEAR_HIGH.off := by decide
@[simp] theorem R.TST_SRC_STAT.HIGH_WATER_off (n : Nat) : 8 ≤ (R.TST_SRC_STAT.HIGH_WATER n).off := by simp only [R.TST_SRC_STAT.HIGH_WATER]; omega
@[simp] theorem R.TST_SRC_STAT.LINGERING_off (n : Nat) : 8 ≤ (R.TST_SRC_STAT.LINGERING n).off := by simp only [R.TST_SRC_STAT.LINGERING]; omega
@[simp] theorem R.TST_SRC_STAT.IN_USE_off (n : Nat) : 8 ≤ (R.TST_SRC_STAT.IN_USE n).off := by simp only [R.TST_SRC_STAT.IN_USE]; omega
@[simp] theorem R.TST_SRC_CNT.TIMEOUTS_off (n : Nat) : 8 ≤ (R.TST_SRC_CNT.TIMEOUTS n).off := by simp only [R.TST_SRC_CNT.TIMEOUTS]; omega
@[simp] theorem R.TST_SRC_CNT.LATE_off (n : Nat) : 8 ≤ (R.TST_SRC_CNT.LATE n).off := by simp only [R.TST_SRC_CNT.LATE]; omega
@[simp] theorem R.TST_SRC_CNT.DISABLED_off (n : Nat) : 8 ≤ (R.TST_SRC_CNT.DISABLED n).off := by simp only [R.TST_SRC_CNT.DISABLED]; omega
@[simp] theorem R.TST_SRC_CNT.STALLS_off (n : Nat) : 8 ≤ (R.TST_SRC_CNT.STALLS n).off := by simp only [R.TST_SRC_CNT.STALLS]; omega
@[simp] theorem R.NET_MODE.MODE_off : 8 ≤ R.NET_MODE.MODE.off := by decide
@[simp] theorem R.NET_MAC_BASE.BASE_off : 8 ≤ R.NET_MAC_BASE.BASE.off := by decide
@[simp] theorem R.NET_PORT_CFG.PMD_off (n : Nat) : 8 ≤ (R.NET_PORT_CFG.PMD n).off := by simp only [R.NET_PORT_CFG.PMD]; omega
@[simp] theorem R.NET_PORT_CFG.AN_EN_off (n : Nat) : 8 ≤ (R.NET_PORT_CFG.AN_EN n).off := by simp only [R.NET_PORT_CFG.AN_EN]; omega
@[simp] theorem R.NET_PORT_CFG.UNCORR_MAX_off (n : Nat) : 8 ≤ (R.NET_PORT_CFG.UNCORR_MAX n).off := by simp only [R.NET_PORT_CFG.UNCORR_MAX]; omega
@[simp] theorem R.NET_PORT_CFG.FLAP_MAX_off (n : Nat) : 8 ≤ (R.NET_PORT_CFG.FLAP_MAX n).off := by simp only [R.NET_PORT_CFG.FLAP_MAX]; omega
@[simp] theorem R.NET_PFC_CTL.PRIO_MASK_off : 8 ≤ R.NET_PFC_CTL.PRIO_MASK.off := by decide
@[simp] theorem R.NET_PFC_CTL.UNTAGGED_PRIO_off : 8 ≤ R.NET_PFC_CTL.UNTAGGED_PRIO.off := by decide
@[simp] theorem R.NET_PFC_CTL.CNP_PRIO_off : 8 ≤ R.NET_PFC_CTL.CNP_PRIO.off := by decide
@[simp] theorem R.NET_PFC_CTL.XOFF_KIB_off : 8 ≤ R.NET_PFC_CTL.XOFF_KIB.off := by decide
@[simp] theorem R.NET_PFC_CTL.XON_KIB_off : 8 ≤ R.NET_PFC_CTL.XON_KIB.off := by decide
@[simp] theorem R.NET_PFC_CTL.PFC_WD_MS_off : 8 ≤ R.NET_PFC_CTL.PFC_WD_MS.off := by decide
@[simp] theorem R.NET_CC_CTL0.WIN_INIT_KIB_off : 8 ≤ R.NET_CC_CTL0.WIN_INIT_KIB.off := by decide
@[simp] theorem R.NET_CC_CTL0.AI_KIB_off : 8 ≤ R.NET_CC_CTL0.AI_KIB.off := by decide
@[simp] theorem R.NET_CC_CTL0.MD_off : 8 ≤ R.NET_CC_CTL0.MD.off := by decide
@[simp] theorem R.NET_CC_CTL0.DELAY_MD_off : 8 ≤ R.NET_CC_CTL0.DELAY_MD.off := by decide
@[simp] theorem R.NET_CC_CTL0.HAI_ROUNDS_off : 8 ≤ R.NET_CC_CTL0.HAI_ROUNDS.off := by decide
@[simp] theorem R.NET_CC_CTL1.TARGET_RTT_US_off : 8 ≤ R.NET_CC_CTL1.TARGET_RTT_US.off := by decide
@[simp] theorem R.NET_CC_CTL1.BASE_RTT_US_off : 8 ≤ R.NET_CC_CTL1.BASE_RTT_US.off := by decide
@[simp] theorem R.NET_CC_CTL1.CNP_INTERVAL_US_off : 8 ≤ R.NET_CC_CTL1.CNP_INTERVAL_US.off := by decide
@[simp] theorem R.NET_PORT_CMD.ACTION_off : 8 ≤ R.NET_PORT_CMD.ACTION.off := by decide
@[simp] theorem R.NET_PORT_CMD.PORT_off : 8 ≤ R.NET_PORT_CMD.PORT.off := by decide
@[simp] theorem R.NET_STAT.CMD_REFUSED_off : 8 ≤ R.NET_STAT.CMD_REFUSED.off := by decide
@[simp] theorem R.NET_PORT_STAT.STATE_off (n : Nat) : 8 ≤ (R.NET_PORT_STAT.STATE n).off := by simp only [R.NET_PORT_STAT.STATE]; omega
@[simp] theorem R.NET_PORT_STAT.CAUSE_off (n : Nat) : 8 ≤ (R.NET_PORT_STAT.CAUSE n).off := by simp only [R.NET_PORT_STAT.CAUSE]; omega
@[simp] theorem R.NET_PORT_STAT.PFC_STORM_off (n : Nat) : 8 ≤ (R.NET_PORT_STAT.PFC_STORM n).off := by simp only [R.NET_PORT_STAT.PFC_STORM]; omega
@[simp] theorem R.NET_PORT_STAT.POLARITY_off (n : Nat) : 8 ≤ (R.NET_PORT_STAT.POLARITY n).off := by simp only [R.NET_PORT_STAT.POLARITY]; omega
@[simp] theorem R.NET_PORT_STAT.LOCKED_off (n : Nat) : 8 ≤ (R.NET_PORT_STAT.LOCKED n).off := by simp only [R.NET_PORT_STAT.LOCKED]; omega
@[simp] theorem R.NET_PORT_STAT.DOWNS_off (n : Nat) : 8 ≤ (R.NET_PORT_STAT.DOWNS n).off := by simp only [R.NET_PORT_STAT.DOWNS]; omega
@[simp] theorem R.NET_PORT_CNT0.RX_FRAMES_off (n : Nat) : 8 ≤ (R.NET_PORT_CNT0.RX_FRAMES n).off := by simp only [R.NET_PORT_CNT0.RX_FRAMES]; omega
@[simp] theorem R.NET_PORT_CNT0.TX_FRAMES_off (n : Nat) : 8 ≤ (R.NET_PORT_CNT0.TX_FRAMES n).off := by simp only [R.NET_PORT_CNT0.TX_FRAMES]; omega
@[simp] theorem R.NET_PORT_CNT1.FEC_CORRECTED_off (n : Nat) : 8 ≤ (R.NET_PORT_CNT1.FEC_CORRECTED n).off := by simp only [R.NET_PORT_CNT1.FEC_CORRECTED]; omega
@[simp] theorem R.NET_PORT_CNT1.FEC_UNCORR_off (n : Nat) : 8 ≤ (R.NET_PORT_CNT1.FEC_UNCORR n).off := by simp only [R.NET_PORT_CNT1.FEC_UNCORR]; omega
@[simp] theorem R.NET_PORT_CNT1.FCS_ERR_off (n : Nat) : 8 ≤ (R.NET_PORT_CNT1.FCS_ERR n).off := by simp only [R.NET_PORT_CNT1.FCS_ERR]; omega
@[simp] theorem R.NET_PORT_CNT2.RX_DROP_off (n : Nat) : 8 ≤ (R.NET_PORT_CNT2.RX_DROP n).off := by simp only [R.NET_PORT_CNT2.RX_DROP]; omega
@[simp] theorem R.NET_PORT_CNT2.OTHER_off (n : Nat) : 8 ≤ (R.NET_PORT_CNT2.OTHER n).off := by simp only [R.NET_PORT_CNT2.OTHER]; omega
@[simp] theorem R.NET_PORT_CNT2.PFC_RX_off (n : Nat) : 8 ≤ (R.NET_PORT_CNT2.PFC_RX n).off := by simp only [R.NET_PORT_CNT2.PFC_RX]; omega
@[simp] theorem R.NET_PORT_CNT2.PFC_TX_off (n : Nat) : 8 ≤ (R.NET_PORT_CNT2.PFC_TX n).off := by simp only [R.NET_PORT_CNT2.PFC_TX]; omega
@[simp] theorem R.NET_PORT_CNT3.CE_RX_off (n : Nat) : 8 ≤ (R.NET_PORT_CNT3.CE_RX n).off := by simp only [R.NET_PORT_CNT3.CE_RX]; omega
@[simp] theorem R.NET_PORT_CNT3.CNP_TX_off (n : Nat) : 8 ≤ (R.NET_PORT_CNT3.CNP_TX n).off := by simp only [R.NET_PORT_CNT3.CNP_TX]; omega
@[simp] theorem R.NET_PORT_CNT3.CNP_RX_off (n : Nat) : 8 ≤ (R.NET_PORT_CNT3.CNP_RX n).off := by simp only [R.NET_PORT_CNT3.CNP_RX]; omega
@[simp] theorem R.NET_PORT_CNT3.PAUSE_IGNORED_off (n : Nat) : 8 ≤ (R.NET_PORT_CNT3.PAUSE_IGNORED n).off := by simp only [R.NET_PORT_CNT3.PAUSE_IGNORED]; omega
@[simp] theorem R.XPT_STAT.CACHED_off : 8 ≤ R.XPT_STAT.CACHED.off := by decide
@[simp] theorem R.XPT_STAT.CONNECTIONS_off : 8 ≤ R.XPT_STAT.CONNECTIONS.off := by decide
@[simp] theorem R.XPT_START.COUNT_off : 8 ≤ R.XPT_START.COUNT.off := by decide
@[simp] theorem R.XPT_CONN_CTL.ERROR_HOLD_MS_off : 8 ≤ R.XPT_CONN_CTL.ERROR_HOLD_MS.off := by decide
@[simp] theorem R.XPT_CONN_CTL.RESP_RES_off : 8 ≤ R.XPT_CONN_CTL.RESP_RES.off := by decide
@[simp] theorem R.XPT_CONN_CTL.INIT_DEPTH_off : 8 ≤ R.XPT_CONN_CTL.INIT_DEPTH.off := by decide
@[simp] theorem R.XPT_CONN_CTL.MAX_MGMT_off : 8 ≤ R.XPT_CONN_CTL.MAX_MGMT.off := by decide
@[simp] theorem R.XPT_REQ_CTL.RETRY_CNT_off : 8 ≤ R.XPT_REQ_CTL.RETRY_CNT.off := by decide
@[simp] theorem R.XPT_REQ_CTL.ACK_TMO_US_off : 8 ≤ R.XPT_REQ_CTL.ACK_TMO_US.off := by decide
@[simp] theorem R.XPT_WR_CTL.PER_CONN_off : 8 ≤ R.XPT_WR_CTL.PER_CONN.off := by decide
@[simp] theorem R.XPT_KEY_STAT.REVOKING_off : 8 ≤ R.XPT_KEY_STAT.REVOKING.off := by decide
@[simp] theorem R.XPT_KEY_STAT.VALID_off : 8 ≤ R.XPT_KEY_STAT.VALID.off := by decide
@[simp] theorem R.XPT_WR_STAT.POOL_USED_off : 8 ≤ R.XPT_WR_STAT.POOL_USED.off := by decide
@[simp] theorem R.XPT_CNT0.TAG_FAIL_off : 8 ≤ R.XPT_CNT0.TAG_FAIL.off := by decide
@[simp] theorem R.XPT_CNT0.REPLAY_off : 8 ≤ R.XPT_CNT0.REPLAY.off := by decide
@[simp] theorem R.XPT_CNT1.CTX_MISS_off : 8 ≤ R.XPT_CNT1.CTX_MISS.off := by decide
@[simp] theorem R.XPT_CNT1.NO_CONN_off : 8 ≤ R.XPT_CNT1.NO_CONN.off := by decide
@[simp] theorem R.XPT_CNT2.HOLD_RNR_off : 8 ≤ R.XPT_CNT2.HOLD_RNR.off := by decide
@[simp] theorem R.XPT_CNT2.RESP_DROP_off : 8 ≤ R.XPT_CNT2.RESP_DROP.off := by decide
@[simp] theorem R.XPT_CNT2.REVOKED_off : 8 ≤ R.XPT_CNT2.REVOKED.off := by decide
@[simp] theorem R.XPT_CNT2.GATE_MISS_off : 8 ≤ R.XPT_CNT2.GATE_MISS.off := by decide
@[simp] theorem R.XPT_CNT3.DUP_off : 8 ≤ R.XPT_CNT3.DUP.off := by decide
@[simp] theorem R.XPT_CNT3.ICRC_ERR_off : 8 ≤ R.XPT_CNT3.ICRC_ERR.off := by decide
@[simp] theorem R.XPT_CNT3.SEQ_NAK_off : 8 ≤ R.XPT_CNT3.SEQ_NAK.off := by decide
@[simp] theorem R.XPT_CNT3.EPOCH_MOVES_off : 8 ≤ R.XPT_CNT3.EPOCH_MOVES.off := by decide
@[simp] theorem R.XPT_HOLD_STAT.FULL_off (n : Nat) : 8 ≤ (R.XPT_HOLD_STAT.FULL n).off := by simp only [R.XPT_HOLD_STAT.FULL]; omega
@[simp] theorem R.XPT_HOLD_STAT.USED_KIB_off (n : Nat) : 8 ≤ (R.XPT_HOLD_STAT.USED_KIB n).off := by simp only [R.XPT_HOLD_STAT.USED_KIB]; omega
@[simp] theorem R.XPT_ADDR0.VALID_off (n : Nat) : 8 ≤ (R.XPT_ADDR0.VALID n).off := by simp only [R.XPT_ADDR0.VALID]; omega
@[simp] theorem R.XPT_ADDR0.PORT_off (n : Nat) : 8 ≤ (R.XPT_ADDR0.PORT n).off := by simp only [R.XPT_ADDR0.PORT]; omega
@[simp] theorem R.XPT_ADDR0.PCP_off (n : Nat) : 8 ≤ (R.XPT_ADDR0.PCP n).off := by simp only [R.XPT_ADDR0.PCP]; omega
@[simp] theorem R.XPT_ADDR0.DSCP_off (n : Nat) : 8 ≤ (R.XPT_ADDR0.DSCP n).off := by simp only [R.XPT_ADDR0.DSCP]; omega
@[simp] theorem R.XPT_ADDR0.TAGGED_off (n : Nat) : 8 ≤ (R.XPT_ADDR0.TAGGED n).off := by simp only [R.XPT_ADDR0.TAGGED]; omega
@[simp] theorem R.XPT_ADDR0.VLAN_off (n : Nat) : 8 ≤ (R.XPT_ADDR0.VLAN n).off := by simp only [R.XPT_ADDR0.VLAN]; omega
@[simp] theorem R.XPT_ADDR1.IP_HIGH_off (n : Nat) : 8 ≤ (R.XPT_ADDR1.IP_HIGH n).off := by simp only [R.XPT_ADDR1.IP_HIGH]; omega
@[simp] theorem R.XPT_ADDR2.IP_LOW_off (n : Nat) : 8 ≤ (R.XPT_ADDR2.IP_LOW n).off := by simp only [R.XPT_ADDR2.IP_LOW]; omega
@[simp] theorem R.XPT_KRANGE0.VALID_off (n : Nat) : 8 ≤ (R.XPT_KRANGE0.VALID n).off := by simp only [R.XPT_KRANGE0.VALID]; omega
@[simp] theorem R.XPT_KRANGE0.TENANT_off (n : Nat) : 8 ≤ (R.XPT_KRANGE0.TENANT n).off := by simp only [R.XPT_KRANGE0.TENANT]; omega
@[simp] theorem R.XPT_KRANGE1.COUNT_off (n : Nat) : 8 ≤ (R.XPT_KRANGE1.COUNT n).off := by simp only [R.XPT_KRANGE1.COUNT]; omega
@[simp] theorem R.XPT_KRANGE1.FIRST_off (n : Nat) : 8 ≤ (R.XPT_KRANGE1.FIRST n).off := by simp only [R.XPT_KRANGE1.FIRST]; omega
@[simp] theorem R.CXL_PORT_CFG.MAX_WIDTH_off (n : Nat) : 8 ≤ (R.CXL_PORT_CFG.MAX_WIDTH n).off := by simp only [R.CXL_PORT_CFG.MAX_WIDTH]; omega
@[simp] theorem R.CXL_PORT_CFG.MAX_GTS_off (n : Nat) : 8 ≤ (R.CXL_PORT_CFG.MAX_GTS n).off := by simp only [R.CXL_PORT_CFG.MAX_GTS]; omega
@[simp] theorem R.CXL_PORT_CFG.SRIS_off (n : Nat) : 8 ≤ (R.CXL_PORT_CFG.SRIS n).off := by simp only [R.CXL_PORT_CFG.SRIS]; omega
@[simp] theorem R.CXL_PORT_CFG.IDE_REQ_off (n : Nat) : 8 ≤ (R.CXL_PORT_CFG.IDE_REQ n).off := by simp only [R.CXL_PORT_CFG.IDE_REQ]; omega
@[simp] theorem R.CXL_PORT_STAT.STATE_off (n : Nat) : 8 ≤ (R.CXL_PORT_STAT.STATE n).off := by simp only [R.CXL_PORT_STAT.STATE]; omega
@[simp] theorem R.CXL_PORT_STAT.WIDTH_off (n : Nat) : 8 ≤ (R.CXL_PORT_STAT.WIDTH n).off := by simp only [R.CXL_PORT_STAT.WIDTH]; omega
@[simp] theorem R.CXL_PORT_STAT.GTS_off (n : Nat) : 8 ≤ (R.CXL_PORT_STAT.GTS n).off := by simp only [R.CXL_PORT_STAT.GTS]; omega
@[simp] theorem R.CXL_PORT_STAT.MLD_off (n : Nat) : 8 ≤ (R.CXL_PORT_STAT.MLD n).off := by simp only [R.CXL_PORT_STAT.MLD]; omega
@[simp] theorem R.CXL_PORT_STAT.IDE_ACTIVE_off (n : Nat) : 8 ≤ (R.CXL_PORT_STAT.IDE_ACTIVE n).off := by simp only [R.CXL_PORT_STAT.IDE_ACTIVE]; omega
@[simp] theorem R.CXL_PORT_STAT.CAUSE_off (n : Nat) : 8 ≤ (R.CXL_PORT_STAT.CAUSE n).off := by simp only [R.CXL_PORT_STAT.CAUSE]; omega
@[simp] theorem R.CXL_PORT_STAT.DOWNS_off (n : Nat) : 8 ≤ (R.CXL_PORT_STAT.DOWNS n).off := by simp only [R.CXL_PORT_STAT.DOWNS]; omega
@[simp] theorem R.CXL_PORT_CMD.ACTION_off : 8 ≤ R.CXL_PORT_CMD.ACTION.off := by decide
@[simp] theorem R.CXL_PORT_CMD.PORT_off : 8 ≤ R.CXL_PORT_CMD.PORT.off := by decide
@[simp] theorem R.CXL_STAT.CMD_REFUSED_off : 8 ≤ R.CXL_STAT.CMD_REFUSED.off := by decide
@[simp] theorem R.CXL_STAT.DC_REFUSED_off : 8 ≤ R.CXL_STAT.DC_REFUSED.off := by decide
@[simp] theorem R.CXL_DC_CTL.RESP_MS_off : 8 ≤ R.CXL_DC_CTL.RESP_MS.off := by decide
@[simp] theorem R.CXL_DC_CTL.WITHDRAW_MS_off : 8 ≤ R.CXL_DC_CTL.WITHDRAW_MS.off := by decide
@[simp] theorem R.CXL_DC_CMD.ACTION_off : 8 ≤ R.CXL_DC_CMD.ACTION.off := by decide
@[simp] theorem R.CXL_DC_CMD.PORT_off : 8 ≤ R.CXL_DC_CMD.PORT.off := by decide
@[simp] theorem R.CXL_DC_CMD.LD_off : 8 ≤ R.CXL_DC_CMD.LD.off := by decide
@[simp] theorem R.CXL_DC_CMD.EXTENT_off : 8 ≤ R.CXL_DC_CMD.EXTENT.off := by decide
@[simp] theorem R.CXL_LD_CFG.VALID_off (n : Nat) : 8 ≤ (R.CXL_LD_CFG.VALID n).off := by simp only [R.CXL_LD_CFG.VALID]; omega
@[simp] theorem R.CXL_LD_CFG.TENANT_off (n : Nat) : 8 ≤ (R.CXL_LD_CFG.TENANT n).off := by simp only [R.CXL_LD_CFG.TENANT]; omega
@[simp] theorem R.CXL_LD_STAT.BOUND_off (n : Nat) : 8 ≤ (R.CXL_LD_STAT.BOUND n).off := by simp only [R.CXL_LD_STAT.BOUND]; omega
@[simp] theorem R.CXL_LD_STAT.PLAN_off (n : Nat) : 8 ≤ (R.CXL_LD_STAT.PLAN n).off := by simp only [R.CXL_LD_STAT.PLAN]; omega
@[simp] theorem R.CXL_LD_STAT.PENDING_off (n : Nat) : 8 ≤ (R.CXL_LD_STAT.PENDING n).off := by simp only [R.CXL_LD_STAT.PENDING]; omega
@[simp] theorem R.CXL_LD_STAT.ACCEPTED_off (n : Nat) : 8 ≤ (R.CXL_LD_STAT.ACCEPTED n).off := by simp only [R.CXL_LD_STAT.ACCEPTED]; omega
@[simp] theorem R.CXL_RING_CFG.VALID_off (n : Nat) : 8 ≤ (R.CXL_RING_CFG.VALID n).off := by simp only [R.CXL_RING_CFG.VALID]; omega
@[simp] theorem R.CXL_RING_CFG.STATE_off (n : Nat) : 8 ≤ (R.CXL_RING_CFG.STATE n).off := by simp only [R.CXL_RING_CFG.STATE]; omega
@[simp] theorem R.CXL_RING_CFG.QUEUE_off (n : Nat) : 8 ≤ (R.CXL_RING_CFG.QUEUE n).off := by simp only [R.CXL_RING_CFG.QUEUE]; omega
@[simp] theorem R.CXL_LD_CNT.WR_REFUSED_off (n : Nat) : 8 ≤ (R.CXL_LD_CNT.WR_REFUSED n).off := by simp only [R.CXL_LD_CNT.WR_REFUSED]; omega
@[simp] theorem R.CXL_LD_CNT.RD_POISON_off (n : Nat) : 8 ≤ (R.CXL_LD_CNT.RD_POISON n).off := by simp only [R.CXL_LD_CNT.RD_POISON]; omega
@[simp] theorem R.CXL_PORT_CNT.BAD_REQ_off (n : Nat) : 8 ≤ (R.CXL_PORT_CNT.BAD_REQ n).off := by simp only [R.CXL_PORT_CNT.BAD_REQ]; omega
@[simp] theorem R.CXL_PORT_CNT.REPLAYS_off (n : Nat) : 8 ≤ (R.CXL_PORT_CNT.REPLAYS n).off := by simp only [R.CXL_PORT_CNT.REPLAYS]; omega
@[simp] theorem R.CXL_PORT_CNT.COMBINED_off (n : Nat) : 8 ≤ (R.CXL_PORT_CNT.COMBINED n).off := by simp only [R.CXL_PORT_CNT.COMBINED]; omega
@[simp] theorem R.GTH_STAT.UDS_LOCKED_off : 8 ≤ R.GTH_STAT.UDS_LOCKED.off := by decide
@[simp] theorem R.GTH_STAT.DEBUG_off : 8 ≤ R.GTH_STAT.DEBUG.off := by decide
@[simp] theorem R.GTH_STAT.PAIR_KEY_off : 8 ≤ R.GTH_STAT.PAIR_KEY.off := by decide
@[simp] theorem R.GTH_STAT.CMD_REFUSED_off : 8 ≤ R.GTH_STAT.CMD_REFUSED.off := by decide
@[simp] theorem R.GTH_STAT.AES_UP_off : 8 ≤ R.GTH_STAT.AES_UP.off := by decide
@[simp] theorem R.GTH_STAT.GHASH_UP_off : 8 ≤ R.GTH_STAT.GHASH_UP.off := by decide
@[simp] theorem R.GTH_STAT.SLOTS_USED_off : 8 ≤ R.GTH_STAT.SLOTS_USED.off := by decide
@[simp] theorem R.GTH_CORE_CMD.ACTION_off : 8 ≤ R.GTH_CORE_CMD.ACTION.off := by decide
@[simp] theorem R.GTH_CORE_CMD.CORE_off : 8 ≤ R.GTH_CORE_CMD.CORE.off := by decide
@[simp] theorem R.GTH_SHARE.MEDIA_off : 8 ≤ R.GTH_SHARE.MEDIA.off := by decide
@[simp] theorem R.GTH_SHARE.NET_off : 8 ≤ R.GTH_SHARE.NET.off := by decide
@[simp] theorem R.GTH_SHARE.PROM_off : 8 ≤ R.GTH_SHARE.PROM.off := by decide
@[simp] theorem R.GTH_SHARE.CXL_off : 8 ≤ R.GTH_SHARE.CXL.off := by decide
@[simp] theorem R.GTH_SHARE.TASK_off : 8 ≤ R.GTH_SHARE.TASK.off := by decide
@[simp] theorem R.GTH_SHARE.KDF_off : 8 ≤ R.GTH_SHARE.KDF.off := by decide
@[simp] theorem R.GTH_KAT_CTL.PERIOD_US_off : 8 ≤ R.GTH_KAT_CTL.PERIOD_US.off := by decide
@[simp] theorem R.GTH_CNT0.DERIVATIONS_off : 8 ≤ R.GTH_CNT0.DERIVATIONS.off := by decide
@[simp] theorem R.GTH_CNT0.EVICTIONS_off : 8 ≤ R.GTH_CNT0.EVICTIONS.off := by decide
@[simp] theorem R.GTH_CNT1.KAT_FAIL_off : 8 ≤ R.GTH_CNT1.KAT_FAIL.off := by decide
@[simp] theorem R.GTH_CNT1.KDF_DISAGREE_off : 8 ≤ R.GTH_CNT1.KDF_DISAGREE.off := by decide
@[simp] theorem R.GTH_CNT1.PURPOSE_REFUSED_off : 8 ≤ R.GTH_CNT1.PURPOSE_REFUSED.off := by decide
@[simp] theorem R.GTH_CNT1.ENROL_REFUSED_off : 8 ≤ R.GTH_CNT1.ENROL_REFUSED.off := by decide
@[simp] theorem R.GTH_CORE_STAT.STATE_off (n : Nat) : 8 ≤ (R.GTH_CORE_STAT.STATE n).off := by simp only [R.GTH_CORE_STAT.STATE]; omega
@[simp] theorem R.GTH_CORE_STAT.CAUSE_off (n : Nat) : 8 ≤ (R.GTH_CORE_STAT.CAUSE n).off := by simp only [R.GTH_CORE_STAT.CAUSE]; omega
@[simp] theorem R.GTH_CORE_STAT.DISAGREE_off (n : Nat) : 8 ≤ (R.GTH_CORE_STAT.DISAGREE n).off := by simp only [R.GTH_CORE_STAT.DISAGREE]; omega
@[simp] theorem R.GTH_TEN_HASH.HASH_off (n : Nat) : 8 ≤ (R.GTH_TEN_HASH.HASH n).off := by simp only [R.GTH_TEN_HASH.HASH]; omega
@[simp] theorem R.GTH_TEN_CMD.ACTION_off : 8 ≤ R.GTH_TEN_CMD.ACTION.off := by decide
@[simp] theorem R.GTH_TEN_CMD.TENANT_off : 8 ≤ R.GTH_TEN_CMD.TENANT.off := by decide
@[simp] theorem R.GTH_TEN_STAT.REFUSED_off : 8 ≤ R.GTH_TEN_STAT.REFUSED.off := by decide
@[simp] theorem R.GTH_TEN_STAT.TENANTS_off : 8 ≤ R.GTH_TEN_STAT.TENANTS.off := by decide
@[simp] theorem R.GTH_TEN_STAT.NEXT_EPOCH_off : 8 ≤ R.GTH_TEN_STAT.NEXT_EPOCH.off := by decide
@[simp] theorem R.GTH_ENROL_CMD.ACTION_off : 8 ≤ R.GTH_ENROL_CMD.ACTION.off := by decide
@[simp] theorem R.GTH_ENROL_CMD.REQ_BYTES_off : 8 ≤ R.GTH_ENROL_CMD.REQ_BYTES.off := by decide
@[simp] theorem R.GTH_ENROL_STAT.BUSY_off : 8 ≤ R.GTH_ENROL_STAT.BUSY.off := by decide
@[simp] theorem R.GTH_ENROL_STAT.STATUS_off : 8 ≤ R.GTH_ENROL_STAT.STATUS.off := by decide
@[simp] theorem R.GTH_ENROL_STAT.RESP_BYTES_off : 8 ≤ R.GTH_ENROL_STAT.RESP_BYTES.off := by decide
@[simp] theorem R.SUP_ISL_STAT.STATE_off (n : Nat) : 8 ≤ (R.SUP_ISL_STAT.STATE n).off := by simp only [R.SUP_ISL_STAT.STATE]; omega
@[simp] theorem R.SUP_ISL_STAT.CROSS_FAULT_off (n : Nat) : 8 ≤ (R.SUP_ISL_STAT.CROSS_FAULT n).off := by simp only [R.SUP_ISL_STAT.CROSS_FAULT]; omega
@[simp] theorem R.SUP_ISL_STAT.RESETS_off (n : Nat) : 8 ≤ (R.SUP_ISL_STAT.RESETS n).off := by simp only [R.SUP_ISL_STAT.RESETS]; omega
@[simp] theorem R.SUP_ISL_STAT.STOPS_off (n : Nat) : 8 ≤ (R.SUP_ISL_STAT.STOPS n).off := by simp only [R.SUP_ISL_STAT.STOPS]; omega
@[simp] theorem R.SUP_ISL_STAT.DISAGREE_off (n : Nat) : 8 ≤ (R.SUP_ISL_STAT.DISAGREE n).off := by simp only [R.SUP_ISL_STAT.DISAGREE]; omega
@[simp] theorem R.SUP_TIME_STAT.TIMEBASE_LOST_off : 8 ≤ R.SUP_TIME_STAT.TIMEBASE_LOST.off := by decide
@[simp] theorem R.SUP_TIME_STAT.LOSSES_off : 8 ≤ R.SUP_TIME_STAT.LOSSES.off := by decide
@[simp] theorem R.KSK_PACE.MAX_off (n : Nat) : 8 ≤ (R.KSK_PACE.MAX n).off := by simp only [R.KSK_PACE.MAX]; omega
@[simp] theorem R.KSK_PACE.MIN_off (n : Nat) : 8 ≤ (R.KSK_PACE.MIN n).off := by simp only [R.KSK_PACE.MIN]; omega
@[simp] theorem R.KSK_PACE.PACE_off (n : Nat) : 8 ≤ (R.KSK_PACE.PACE n).off := by simp only [R.KSK_PACE.PACE]; omega
@[simp] theorem R.KSK_PACE_CMD.CLEAR_MINMAX_off : 8 ≤ R.KSK_PACE_CMD.CLEAR_MINMAX.off := by decide
@[simp] theorem R.PWR_VCORE_CTL.MODE_off : 8 ≤ R.PWR_VCORE_CTL.MODE.off := by decide
@[simp] theorem R.PWR_VCORE_CTL.FIXED_MV_off : 8 ≤ R.PWR_VCORE_CTL.FIXED_MV.off := by decide
@[simp] theorem R.PWR_VCORE_CTL.VMAX_MV_off : 8 ≤ R.PWR_VCORE_CTL.VMAX_MV.off := by decide
@[simp] theorem R.PWR_VCORE_CTL.VMIN_MV_off : 8 ≤ R.PWR_VCORE_CTL.VMIN_MV.off := by decide
@[simp] theorem R.PWR_VCORE_CTL.PACE_TARGET_off : 8 ≤ R.PWR_VCORE_CTL.PACE_TARGET.off := by decide
@[simp] theorem R.PWR_VCORE_CTL.PACE_HYST_off : 8 ≤ R.PWR_VCORE_CTL.PACE_HYST.off := by decide
@[simp] theorem R.PWR_VCORE_CTL.STEP_US_off : 8 ≤ R.PWR_VCORE_CTL.STEP_US.off := by decide
@[simp] theorem R.PWR_VCORE_CAP.POWER_CAP_W_off : 8 ≤ R.PWR_VCORE_CAP.POWER_CAP_W.off := by decide
@[simp] theorem R.PWR_VCORE_STAT.MODE_off : 8 ≤ R.PWR_VCORE_STAT.MODE.off := by decide
@[simp] theorem R.PWR_VCORE_STAT.CAPPED_off : 8 ≤ R.PWR_VCORE_STAT.CAPPED.off := by decide
@[simp] theorem R.PWR_VCORE_STAT.THROTTLED_off : 8 ≤ R.PWR_VCORE_STAT.THROTTLED.off := by decide
@[simp] theorem R.PWR_VCORE_STAT.SET_MV_off : 8 ≤ R.PWR_VCORE_STAT.SET_MV.off := by decide
@[simp] theorem R.PWR_VCORE_STAT.POWER_W_off : 8 ≤ R.PWR_VCORE_STAT.POWER_W.off := by decide
@[simp] theorem R.PWR_VCORE_STAT.LOW_PACE_off : 8 ≤ R.PWR_VCORE_STAT.LOW_PACE.off := by decide
@[simp] theorem R.PWR_STAT.STATE_off : 8 ≤ R.PWR_STAT.STATE.off := by decide
@[simp] theorem R.PWR_STAT.SEQ_MODE_off : 8 ≤ R.PWR_STAT.SEQ_MODE.off := by decide
@[simp] theorem R.PWR_STAT.WARN_off : 8 ≤ R.PWR_STAT.WARN.off := by decide
@[simp] theorem R.PWR_STAT.COMMITTED_off : 8 ≤ R.PWR_STAT.COMMITTED.off := by decide
@[simp] theorem R.PWR_STAT.CMD_REFUSED_off : 8 ≤ R.PWR_STAT.CMD_REFUSED.off := by decide
@[simp] theorem R.PWR_STAT.SEQ_STATE_off : 8 ≤ R.PWR_STAT.SEQ_STATE.off := by decide
@[simp] theorem R.PWR_STAT.WAVE_off : 8 ≤ R.PWR_STAT.WAVE.off := by decide
@[simp] theorem R.PWR_STAT.GROUPS_FENCED_off : 8 ≤ R.PWR_STAT.GROUPS_FENCED.off := by decide
@[simp] theorem R.PWR_LATCH.LATCHED_off : 8 ≤ R.PWR_LATCH.LATCHED.off := by decide
@[simp] theorem R.PWR_LATCH.CAUSE_off : 8 ≤ R.PWR_LATCH.CAUSE.off := by decide
@[simp] theorem R.PWR_LATCH.RAIL_off : 8 ≤ R.PWR_LATCH.RAIL.off := by decide
@[simp] theorem R.PWR_LATCH.TIME_US_off : 8 ≤ R.PWR_LATCH.TIME_US.off := by decide
@[simp] theorem R.PWR_LATCH_CMD.CLEAR_LATCH_off : 8 ≤ R.PWR_LATCH_CMD.CLEAR_LATCH.off := by decide
@[simp] theorem R.PWR_WARN_STAT.GLITCHES_off : 8 ≤ R.PWR_WARN_STAT.GLITCHES.off := by decide
@[simp] theorem R.PWR_WARN_STAT.COMMITS_off : 8 ≤ R.PWR_WARN_STAT.COMMITS.off := by decide
@[simp] theorem R.PWR_WAVE_CTL.GAP_US_off : 8 ≤ R.PWR_WAVE_CTL.GAP_US.off := by decide
@[simp] theorem R.PWR_WAVE_CMD.ACTION_off : 8 ≤ R.PWR_WAVE_CMD.ACTION.off := by decide
@[simp] theorem R.PWR_WAVE_CMD.GROUP_off : 8 ≤ R.PWR_WAVE_CMD.GROUP.off := by decide
@[simp] theorem R.PWR_MON_CTL.TELEM_MS_off : 8 ≤ R.PWR_MON_CTL.TELEM_MS.off := by decide
@[simp] theorem R.PWR_RAIL_CFG.VALID_off (n : Nat) : 8 ≤ (R.PWR_RAIL_CFG.VALID n).off := by simp only [R.PWR_RAIL_CFG.VALID]; omega
@[simp] theorem R.PWR_RAIL_CFG.ADDR_off (n : Nat) : 8 ≤ (R.PWR_RAIL_CFG.ADDR n).off := by simp only [R.PWR_RAIL_CFG.ADDR]; omega
@[simp] theorem R.PWR_RAIL_CFG.PAGE_off (n : Nat) : 8 ≤ (R.PWR_RAIL_CFG.PAGE n).off := by simp only [R.PWR_RAIL_CFG.PAGE]; omega
@[simp] theorem R.PWR_RAIL_STAT.STATE_off (n : Nat) : 8 ≤ (R.PWR_RAIL_STAT.STATE n).off := by simp only [R.PWR_RAIL_STAT.STATE]; omega
@[simp] theorem R.PWR_RAIL_STAT.CAUSE_off (n : Nat) : 8 ≤ (R.PWR_RAIL_STAT.CAUSE n).off := by simp only [R.PWR_RAIL_STAT.CAUSE]; omega
@[simp] theorem R.PWR_RAIL_STAT.IOUT_DA_off (n : Nat) : 8 ≤ (R.PWR_RAIL_STAT.IOUT_DA n).off := by simp only [R.PWR_RAIL_STAT.IOUT_DA]; omega
@[simp] theorem R.PWR_RAIL_STAT.MON_MV_off (n : Nat) : 8 ≤ (R.PWR_RAIL_STAT.MON_MV n).off := by simp only [R.PWR_RAIL_STAT.MON_MV]; omega
@[simp] theorem R.PWR_LOG_STAT.OVERWRITTEN_off : 8 ≤ R.PWR_LOG_STAT.OVERWRITTEN.off := by decide
@[simp] theorem R.PWR_LOG_STAT.COUNT_off : 8 ≤ R.PWR_LOG_STAT.COUNT.off := by decide
@[simp] theorem R.PWR_LOG_STAT.NEXT_off : 8 ≤ R.PWR_LOG_STAT.NEXT.off := by decide
@[simp] theorem R.PWR_LOG_LO.VALUE_off (n : Nat) : 8 ≤ (R.PWR_LOG_LO.VALUE n).off := by simp only [R.PWR_LOG_LO.VALUE]; omega
@[simp] theorem R.PWR_LOG_LO.TIME_US_off (n : Nat) : 8 ≤ (R.PWR_LOG_LO.TIME_US n).off := by simp only [R.PWR_LOG_LO.TIME_US]; omega
@[simp] theorem R.PWR_LOG_HI.RAIL_off (n : Nat) : 8 ≤ (R.PWR_LOG_HI.RAIL n).off := by simp only [R.PWR_LOG_HI.RAIL]; omega
@[simp] theorem R.PWR_LOG_HI.CODE_off (n : Nat) : 8 ≤ (R.PWR_LOG_HI.CODE n).off := by simp only [R.PWR_LOG_HI.CODE]; omega
@[simp] theorem R.SUP_RESET_CMD.ACTION_off : 8 ≤ R.SUP_RESET_CMD.ACTION.off := by decide
@[simp] theorem R.SUP_BOOT_STAT.STATE_off : 8 ≤ R.SUP_BOOT_STAT.STATE.off := by decide
@[simp] theorem R.SUP_BOOT_STAT.WARM_off : 8 ≤ R.SUP_BOOT_STAT.WARM.off := by decide
@[simp] theorem R.SUP_BOOT_STAT.IMAGE_off : 8 ≤ R.SUP_BOOT_STAT.IMAGE.off := by decide
@[simp] theorem R.SUP_BOOT_STAT.CAUSE_off : 8 ≤ R.SUP_BOOT_STAT.CAUSE.off := by decide
@[simp] theorem R.SUP_BOOT_STAT.CMD_REFUSED_off : 8 ≤ R.SUP_BOOT_STAT.CMD_REFUSED.off := by decide
@[simp] theorem R.SUP_BOOT_STAT.SEC_VERSION_off : 8 ≤ R.SUP_BOOT_STAT.SEC_VERSION.off := by decide
@[simp] theorem R.SUP_WDOG_CTL.ENABLE_off : 8 ≤ R.SUP_WDOG_CTL.ENABLE.off := by decide
@[simp] theorem R.SUP_WDOG_CTL.TIMEOUT_MS_off : 8 ≤ R.SUP_WDOG_CTL.TIMEOUT_MS.off := by decide
@[simp] theorem R.SUP_WDOG_KICK.KICK_off : 8 ≤ R.SUP_WDOG_KICK.KICK.off := by decide
@[simp] theorem R.SUP_START_STAT.PHASE_off : 8 ≤ R.SUP_START_STAT.PHASE.off := by decide
@[simp] theorem R.SUP_START_STAT.SERVING_off : 8 ≤ R.SUP_START_STAT.SERVING.off := by decide
@[simp] theorem R.SUP_START_STAT.WARM_RESTARTS_off : 8 ≤ R.SUP_START_STAT.WARM_RESTARTS.off := by decide
@[simp] theorem R.SUP_START_STAT.START_MS_off : 8 ≤ R.SUP_START_STAT.START_MS.off := by decide
@[simp] theorem R.FLS_KEY.KEY_off : 8 ≤ R.FLS_KEY.KEY.off := by decide
@[simp] theorem R.FLS_CMD.OP_off : 8 ≤ R.FLS_CMD.OP.off := by decide
@[simp] theorem R.FLS_CMD.COUNT_off : 8 ≤ R.FLS_CMD.COUNT.off := by decide
@[simp] theorem R.FLS_ADDR.ADDR_off : 8 ≤ R.FLS_ADDR.ADDR.off := by decide
@[simp] theorem R.FLS_ARG.ARG_off : 8 ≤ R.FLS_ARG.ARG.off := by decide
@[simp] theorem R.FLS_STAT.BUSY0_off : 8 ≤ R.FLS_STAT.BUSY0.off := by decide
@[simp] theorem R.FLS_STAT.BUSY1_off : 8 ≤ R.FLS_STAT.BUSY1.off := by decide
@[simp] theorem R.FLS_STAT.RUN_BANK_off : 8 ≤ R.FLS_STAT.RUN_BANK.off := by decide
@[simp] theorem R.FLS_STAT.SEQ_ERR_off : 8 ≤ R.FLS_STAT.SEQ_ERR.off := by decide
@[simp] theorem R.FLS_STAT.BUS_FAULT_off : 8 ≤ R.FLS_STAT.BUS_FAULT.off := by decide
@[simp] theorem R.FLS_STAT.RESULT_off : 8 ≤ R.FLS_STAT.RESULT.off := by decide
@[simp] theorem R.FLS_STAT.DONE_off : 8 ≤ R.FLS_STAT.DONE.off := by decide
@[simp] theorem R.FLS_PROT_STAT.LOCKED_OUT_off : 8 ≤ R.FLS_PROT_STAT.LOCKED_OUT.off := by decide
@[simp] theorem R.FLS_PROT_STAT.UNLOCKED_off : 8 ≤ R.FLS_PROT_STAT.UNLOCKED.off := by decide
@[simp] theorem R.FLS_CNT.ERASES_off : 8 ≤ R.FLS_CNT.ERASES.off := by decide
@[simp] theorem R.FLS_CNT.REPROG_off : 8 ≤ R.FLS_CNT.REPROG.off := by decide
@[simp] theorem R.FLS_CNT.ECC_CORRECTED_off : 8 ≤ R.FLS_CNT.ECC_CORRECTED.off := by decide
@[simp] theorem R.FLS_HALF.FOUND_off : 8 ≤ R.FLS_HALF.FOUND.off := by decide
@[simp] theorem R.FLS_HALF.LEFT_off : 8 ≤ R.FLS_HALF.LEFT.off := by decide
@[simp] theorem R.FLS_BUF.DATA_off (n : Nat) : 8 ≤ (R.FLS_BUF.DATA n).off := by simp only [R.FLS_BUF.DATA]; omega
@[simp] theorem R.TWB_CFG.SPEED_off (n : Nat) : 8 ≤ (R.TWB_CFG.SPEED n).off := by simp only [R.TWB_CFG.SPEED]; omega
@[simp] theorem R.TWB_CFG.RECOVER_EN_off (n : Nat) : 8 ≤ (R.TWB_CFG.RECOVER_EN n).off := by simp only [R.TWB_CFG.RECOVER_EN]; omega
@[simp] theorem R.TWB_CFG.ATTN_EN_off (n : Nat) : 8 ≤ (R.TWB_CFG.ATTN_EN n).off := by simp only [R.TWB_CFG.ATTN_EN]; omega
@[simp] theorem R.TWB_CFG.TARGET_ADDR_off (n : Nat) : 8 ≤ (R.TWB_CFG.TARGET_ADDR n).off := by simp only [R.TWB_CFG.TARGET_ADDR]; omega
@[simp] theorem R.TWB_STAT.ROLE_off (n : Nat) : 8 ≤ (R.TWB_STAT.ROLE n).off := by simp only [R.TWB_STAT.ROLE]; omega
@[simp] theorem R.TWB_STAT.BUS_STUCK_off (n : Nat) : 8 ≤ (R.TWB_STAT.BUS_STUCK n).off := by simp only [R.TWB_STAT.BUS_STUCK]; omega
@[simp] theorem R.TWB_STAT.STRETCH_TMO_off (n : Nat) : 8 ≤ (R.TWB_STAT.STRETCH_TMO n).off := by simp only [R.TWB_STAT.STRETCH_TMO]; omega
@[simp] theorem R.TWB_CNT0.ARB_LOST_off (n : Nat) : 8 ≤ (R.TWB_CNT0.ARB_LOST n).off := by simp only [R.TWB_CNT0.ARB_LOST]; omega
@[simp] theorem R.TWB_CNT0.NACKS_off (n : Nat) : 8 ≤ (R.TWB_CNT0.NACKS n).off := by simp only [R.TWB_CNT0.NACKS]; omega
@[simp] theorem R.TWB_CNT0.PEC_ERR_off (n : Nat) : 8 ≤ (R.TWB_CNT0.PEC_ERR n).off := by simp only [R.TWB_CNT0.PEC_ERR]; omega
@[simp] theorem R.TWB_CNT0.TIMEOUTS_off (n : Nat) : 8 ≤ (R.TWB_CNT0.TIMEOUTS n).off := by simp only [R.TWB_CNT0.TIMEOUTS]; omega
@[simp] theorem R.TWB_CNT1.ATTENTIONS_off (n : Nat) : 8 ≤ (R.TWB_CNT1.ATTENTIONS n).off := by simp only [R.TWB_CNT1.ATTENTIONS]; omega
@[simp] theorem R.TWB_CNT1.RECOVERIES_off (n : Nat) : 8 ≤ (R.TWB_CNT1.RECOVERIES n).off := by simp only [R.TWB_CNT1.RECOVERIES]; omega
@[simp] theorem R.TWB_CNT1.ROLE_SWITCHES_off (n : Nat) : 8 ≤ (R.TWB_CNT1.ROLE_SWITCHES n).off := by simp only [R.TWB_CNT1.ROLE_SWITCHES]; omega
@[simp] theorem R.TWB_CNT1.MCTP_DROP_off (n : Nat) : 8 ≤ (R.TWB_CNT1.MCTP_DROP n).off := by simp only [R.TWB_CNT1.MCTP_DROP]; omega
@[simp] theorem R.TWB_MCTP_STAT.EID_off : 8 ≤ R.TWB_MCTP_STAT.EID.off := by decide
@[simp] theorem R.TWB_MCTP_STAT.SESSIONS_off : 8 ≤ R.TWB_MCTP_STAT.SESSIONS.off := by decide
@[simp] theorem R.TWB_MCTP_STAT.MGMT_SESSION_off : 8 ≤ R.TWB_MCTP_STAT.MGMT_SESSION.off := by decide
@[simp] theorem R.STA_CTL.FULL_MS_off : 8 ≤ R.STA_CTL.FULL_MS.off := by decide
@[simp] theorem R.STA_CTL.MIRROR_US_off : 8 ≤ R.STA_CTL.MIRROR_US.off := by decide
@[simp] theorem R.STA_CTL.REFRESH_US_off : 8 ≤ R.STA_CTL.REFRESH_US.off := by decide
@[simp] theorem R.STA_CTL.MGMT_CQ_off : 8 ≤ R.STA_CTL.MGMT_CQ.off := by decide
@[simp] theorem R.STA_STAT.PENDING_off : 8 ≤ R.STA_STAT.PENDING.off := by decide
@[simp] theorem R.STA_STAT.EVLOG_SEQ_off : 8 ≤ R.STA_STAT.EVLOG_SEQ.off := by decide
@[simp] theorem R.STA_CNT.WRITTEN_off : 8 ≤ R.STA_CNT.WRITTEN.off := by decide
@[simp] theorem R.STA_CNT.MISROUTED_off : 8 ≤ R.STA_CNT.MISROUTED.off := by decide
@[simp] theorem R.STA_CNT.OVERRUNS_off : 8 ≤ R.STA_CNT.OVERRUNS.off := by decide
@[simp] theorem R.STA_EVLOG.WORD_off (n : Nat) : 8 ≤ (R.STA_EVLOG.WORD n).off := by simp only [R.STA_EVLOG.WORD]; omega
@[simp] theorem R.STA_TGT0.VALID_off (n : Nat) : 8 ≤ (R.STA_TGT0.VALID n).off := by simp only [R.STA_TGT0.VALID]; omega
@[simp] theorem R.STA_TGT0.STATE_off (n : Nat) : 8 ≤ (R.STA_TGT0.STATE n).off := by simp only [R.STA_TGT0.STATE]; omega
@[simp] theorem R.STA_TGT0.PATH_off (n : Nat) : 8 ≤ (R.STA_TGT0.PATH n).off := by simp only [R.STA_TGT0.PATH]; omega
@[simp] theorem R.STA_TGT0.TENANT_off (n : Nat) : 8 ≤ (R.STA_TGT0.TENANT n).off := by simp only [R.STA_TGT0.TENANT]; omega
@[simp] theorem R.STA_TGT0.ENDPOINT_off (n : Nat) : 8 ≤ (R.STA_TGT0.ENDPOINT n).off := by simp only [R.STA_TGT0.ENDPOINT]; omega
@[simp] theorem R.STA_TGT1.RKEY_off (n : Nat) : 8 ≤ (R.STA_TGT1.RKEY n).off := by simp only [R.STA_TGT1.RKEY]; omega
@[simp] theorem R.STA_CQ0.VALID_off (n : Nat) : 8 ≤ (R.STA_CQ0.VALID n).off := by simp only [R.STA_CQ0.VALID]; omega
@[simp] theorem R.STA_CQ0.STATE_off (n : Nat) : 8 ≤ (R.STA_CQ0.STATE n).off := by simp only [R.STA_CQ0.STATE]; omega
@[simp] theorem R.STA_CQ0.SIZE_off (n : Nat) : 8 ≤ (R.STA_CQ0.SIZE n).off := by simp only [R.STA_CQ0.SIZE]; omega
@[simp] theorem R.STA_CQ0.TARGET_off (n : Nat) : 8 ≤ (R.STA_CQ0.TARGET n).off := by simp only [R.STA_CQ0.TARGET]; omega
@[simp] theorem R.STA_CQ0.TENANT_off (n : Nat) : 8 ≤ (R.STA_CQ0.TENANT n).off := by simp only [R.STA_CQ0.TENANT]; omega
@[simp] theorem R.STA_CQ1.BASE_off (n : Nat) : 8 ≤ (R.STA_CQ1.BASE n).off := by simp only [R.STA_CQ1.BASE]; omega
@[simp] theorem R.STA_CQ2.CI_ADDR_off (n : Nat) : 8 ≤ (R.STA_CQ2.CI_ADDR n).off := by simp only [R.STA_CQ2.CI_ADDR]; omega
@[simp] theorem R.STA_CQ3.COUNT_off (n : Nat) : 8 ≤ (R.STA_CQ3.COUNT n).off := by simp only [R.STA_CQ3.COUNT]; omega
@[simp] theorem R.STA_CQ3.LOST_off (n : Nat) : 8 ≤ (R.STA_CQ3.LOST n).off := by simp only [R.STA_CQ3.LOST]; omega
@[simp] theorem R.STA_TPAGE0.VALID_off (n : Nat) : 8 ≤ (R.STA_TPAGE0.VALID n).off := by simp only [R.STA_TPAGE0.VALID]; omega
@[simp] theorem R.STA_TPAGE0.EQ_SIZE_off (n : Nat) : 8 ≤ (R.STA_TPAGE0.EQ_SIZE n).off := by simp only [R.STA_TPAGE0.EQ_SIZE]; omega
@[simp] theorem R.STA_TPAGE0.EQ_TARGET_off (n : Nat) : 8 ≤ (R.STA_TPAGE0.EQ_TARGET n).off := by simp only [R.STA_TPAGE0.EQ_TARGET]; omega
@[simp] theorem R.STA_TPAGE0.MIRROR_TARGET_off (n : Nat) : 8 ≤ (R.STA_TPAGE0.MIRROR_TARGET n).off := by simp only [R.STA_TPAGE0.MIRROR_TARGET]; omega
@[simp] theorem R.STA_TPAGE0.MIRROR_EN_off (n : Nat) : 8 ≤ (R.STA_TPAGE0.MIRROR_EN n).off := by simp only [R.STA_TPAGE0.MIRROR_EN]; omega
@[simp] theorem R.STA_TPAGE0.TENANT_off (n : Nat) : 8 ≤ (R.STA_TPAGE0.TENANT n).off := by simp only [R.STA_TPAGE0.TENANT]; omega
@[simp] theorem R.STA_TPAGE1.EQ_BASE_off (n : Nat) : 8 ≤ (R.STA_TPAGE1.EQ_BASE n).off := by simp only [R.STA_TPAGE1.EQ_BASE]; omega
@[simp] theorem R.STA_TPAGE2.EQ_CI_ADDR_off (n : Nat) : 8 ≤ (R.STA_TPAGE2.EQ_CI_ADDR n).off := by simp only [R.STA_TPAGE2.EQ_CI_ADDR]; omega
@[simp] theorem R.STA_TPAGE3.MIRROR_BASE_off (n : Nat) : 8 ≤ (R.STA_TPAGE3.MIRROR_BASE n).off := by simp only [R.STA_TPAGE3.MIRROR_BASE]; omega
@[simp] theorem R.PWR_TEMP_STAT.HOTTEST_C_off : 8 ≤ R.PWR_TEMP_STAT.HOTTEST_C.off := by decide
@[simp] theorem R.PWR_TEMP_STAT.SENSOR_off : 8 ≤ R.PWR_TEMP_STAT.SENSOR.off := by decide
@[simp] theorem R.PWR_TEMP_STAT.PEAK_C_off : 8 ≤ R.PWR_TEMP_STAT.PEAK_C.off := by decide
@[simp] theorem R.PWR_TEMP_STAT.TRIPS_off : 8 ≤ R.PWR_TEMP_STAT.TRIPS.off := by decide
@[simp] theorem R.PWR_TEMP_CMD.CLEAR_PEAK_off : 8 ≤ R.PWR_TEMP_CMD.CLEAR_PEAK.off := by decide
@[simp] theorem R.MED_MAP.LANE_off (m r w b : Nat) : 8 ≤ (R.MED_MAP.LANE m r w b).off := by simp only [R.MED_MAP.LANE]; omega
@[simp] theorem R.GTH_REQ_BUF.DATA_off (n : Nat) : 8 ≤ (R.GTH_REQ_BUF.DATA n).off := by simp only [R.GTH_REQ_BUF.DATA]; omega
@[simp] theorem R.GTH_RESP_BUF.DATA_off (n : Nat) : 8 ≤ (R.GTH_RESP_BUF.DATA n).off := by simp only [R.GTH_RESP_BUF.DATA]; omega

end Sys2Proof.Machine
end

