-- ==== Sys2Proof/Laws/Keeps.lean ====
section
/-! SUPPORT. What every operation of the block keeps: the queue of waiting commands, and the hard-wired register at offset 0 (R3). One
lemma per operation, so that a proof about every step never unfolds one twice. -/

namespace Sys2Proof.Machine

/-- A listed field of the register at offset 0. -/
def identKey (p : Nat × Nat) : Bool := decide (p.1 < 64)

/-- `t` has the queue and the hard-wired fields of `s`. -/
abbrev Keeps (s t : State) : Prop := t.pending = s.pending ∧ List.filter identKey t.ctl = List.filter identKey s.ctl

theorem Keeps.of_fold {α : Type} (f : State → α → State) (h : ∀ s x, Keeps s (f s x)) (l : List α) (s : State) :
    Keeps s (l.foldl f s) := by
  induction l generalizing s with
  | nil => exact ⟨rfl, rfl⟩
  | cons x r ih => exact ⟨(ih (f s x)).1.trans (h s x).1, (ih (f s x)).2.trans (h s x).2⟩

@[simp] theorem fold_pending {α : Type} (f : State → α → State) (h : ∀ s x, (f s x).pending = s.pending) (l : List α) (s : State) :
    (l.foldl f s).pending = s.pending := by
  induction l generalizing s with
  | nil => rfl
  | cons x r ih => exact (ih (f s x)).trans (h s x)

@[simp] theorem fold_ident {α : Type} (f : State → α → State) (h : ∀ s x, List.filter identKey (f s x).ctl = List.filter identKey s.ctl)
    (l : List α) (s : State) : List.filter identKey (l.foldl f s).ctl = List.filter identKey s.ctl := by
  induction l generalizing s with
  | nil => rfl
  | cons x r ih => exact (ih (f s x)).trans (h s x)

/-- The same for a fold that carries something beside the state. -/
theorem Keeps.of_fold_snd {α β : Type} (f : β × State → α → β × State) (h : ∀ p x, Keeps p.2 (f p x).2) (l : List α) (p : β × State) :
    Keeps p.2 (l.foldl f p).2 := by
  induction l generalizing p with
  | nil => exact ⟨rfl, rfl⟩
  | cons x r ih => exact ⟨(ih (f p x)).1.trans (h p x).1, (ih (f p x)).2.trans (h p x).2⟩

theorem Keeps.refl (s : State) : Keeps s s := ⟨rfl, rfl⟩

theorem Keeps.trans {s t u : State} (a : Keeps s t) (b : Keeps t u) : Keeps s u := ⟨b.1.trans a.1, b.2.trans a.2⟩

theorem ite_keeps {α : Type} {s : State} {c : Prop} [Decidable c] (a b : State × α) (ha : Keeps s a.1) (hb : Keeps s b.1) :
    Keeps s (if c then a else b).1 := by split <;> assumption

@[simp] theorem ite_pending (c : Prop) [Decidable c] (a b : State) : (if c then a else b).pending = if c then a.pending else b.pending := by
  split <;> rfl
@[simp] theorem ite_ident (c : Prop) [Decidable c] (a b : State) :
    List.filter identKey (if c then a else b).ctl = if c then List.filter identKey a.ctl else List.filter identKey b.ctl := by
  split <;> rfl

@[simp] theorem dite_pending (c : Prop) [Decidable c] (a : c → State) (b : ¬ c → State) :
    (dite c a b).pending = dite c (fun h => (a h).pending) fun h => (b h).pending := by split <;> rfl
@[simp] theorem dite_ident (c : Prop) [Decidable c] (a : c → State) (b : ¬ c → State) :
    List.filter identKey (dite c a b).ctl = dite c (fun h => List.filter identKey (a h).ctl) fun h => List.filter identKey (b h).ctl := by
  split <;> rfl

theorem ident_put {m : AMap Nat} {k : Nat} (v : Nat) (h : 64 ≤ k) : List.filter identKey (AMap.put m k v) = List.filter identKey m := by
  induction m with
  | nil => simp [AMap.put, identKey, Nat.not_lt.mpr h]
  | cons q r ih =>
    obtain ⟨j, w⟩ := q
    have hk : identKey (k, v) = false := by simp [identKey, Nat.not_lt.mpr h]
    by_cases c : k < j
    · simp [AMap.put, c, List.filter_cons, hk]
    · by_cases e : k = j
      · have hj : identKey (j, w) = false := by subst e; simp [identKey, Nat.not_lt.mpr h]
        simp [AMap.put, e, List.filter_cons, hj]
        subst e; simp [hk]
      · simp [AMap.put, c, e, List.filter_cons, ih]

theorem ident_del {m : AMap Nat} {k : Nat} (h : 64 ≤ k) : List.filter identKey (AMap.del m k) = List.filter identKey m := by
  induction m with
  | nil => rfl
  | cons q r ih =>
    obtain ⟨j, w⟩ := q
    by_cases e : k = j
    · have hj : identKey (j, w) = false := by subst e; simp [identKey, Nat.not_lt.mpr h]
      simp only [e] at ih
      simp [AMap.del, e, hj, ih]
    · simp [AMap.del, e, List.filter_cons, ih]

@[simp] theorem State.fset_pending (s : State) (f : Fld) (v : Nat) : (s.fset f v).pending = s.pending := rfl
@[simp] theorem State.fset_ident (s : State) (f : Fld) (v : Nat) (h : 8 ≤ f.off) :
    List.filter identKey (s.fset f v).ctl = List.filter identKey s.ctl := by
  have hk : 64 ≤ f.key := by unfold Fld.key; omega
  unfold State.fset AMap.set
  split
  · exact ident_del hk
  · exact ident_put _ hk

end Sys2Proof.Machine
end

