-- ==== Sys2Proof/Laws/KeepsOps.lean ====
section
/-! SUPPORT. What the operations of Machine/Ops.lean keep. -/

namespace Sys2Proof.Machine

@[simp] theorem State.fput_keeps (s : State) (f : Fld) (b : Bool) (h : 8 ≤ f.off) : Keeps s (State.fput s f b) := by
  unfold State.fput
  refine ⟨?_, ?_⟩ <;> simp [h]

@[simp] theorem State.inc_keeps (s : State) (f : Fld) (n : Nat) (h : 8 ≤ f.off) : Keeps s (State.inc s f n) := by
  unfold State.inc
  refine ⟨?_, ?_⟩ <;> simp [h]

@[simp] theorem State.sat_keeps (s : State) (f : Fld) (n : Nat) (h : 8 ≤ f.off) : Keeps s (State.sat s f n) := by
  unfold State.sat
  refine ⟨?_, ?_⟩ <;> simp [h]

@[simp] theorem State.dec_keeps (s : State) (f : Fld) (n : Nat) (h : 8 ≤ f.off) : Keeps s (State.dec s f n) := by
  unfold State.dec
  refine ⟨?_, ?_⟩ <;> simp [h]

@[simp] theorem State.peak_keeps (s : State) (f : Fld) (v : Nat) (h : 8 ≤ f.off) : Keeps s (State.peak s f v) := by
  unfold State.peak
  refine ⟨?_, ?_⟩ <;> simp [h]

@[simp] theorem State.setBit_keeps (s : State) (f : Fld) (i : Nat) (b : Bool) (h : 8 ≤ f.off) : Keeps s (State.setBit s f i b) := by
  unfold State.setBit
  refine ⟨?_, ?_⟩ <;> simp [h]

@[simp] theorem State.resetCtl_pending (s : State) (lo hi : Nat) : (s.resetCtl lo hi).pending = s.pending := rfl
@[simp] theorem State.resetCtl_ident (s : State) (lo hi : Nat) (h : 1 ≤ lo) :
    List.filter identKey (s.resetCtl lo hi).ctl = List.filter identKey s.ctl := by
  unfold State.resetCtl
  simp only [List.filter_filter]
  apply List.filter_congr
  intro p _
  simp only [identKey]
  by_cases c : p.1 < 64
  · have : ¬ (lo * 64 ≤ p.1) := by omega
    simp [c, this]
  · simp [c]

@[simp] theorem State.resetIsland_keeps (s : State) (i : Nat) : Keeps s (State.resetIsland s i) := by
  unfold State.resetIsland
  refine ⟨?_, ?_⟩ <;> simp

@[simp] theorem State.xingTick_keeps (s : State) (i : Nat) : Keeps s (State.xingTick s i) := by
  unfold State.xingTick
  refine ⟨?_, ?_⟩ <;> (split <;> rfl)

@[simp] theorem State.emit_keeps (s : State) (o : Out) : Keeps s (State.emit s o) := by
  unfold State.emit
  refine ⟨?_, ?_⟩ <;> simp

theorem State.drawWord_eq (s : State) : s.drawWord = (Config.freeWord s.free, { s with free := s.free + 1 }) := rfl
@[simp] theorem State.drawWord_pending (s : State) : s.drawWord.2.pending = s.pending := rfl
@[simp] theorem State.drawWord_ctl (s : State) : s.drawWord.2.ctl = s.ctl := rfl

@[simp] theorem State.drawBytes_pending (s : State) (n : Nat) : (s.drawBytes n).2.pending = s.pending := rfl
@[simp] theorem State.drawBytes_ctl (s : State) (n : Nat) : (s.drawBytes n).2.ctl = s.ctl := rfl

@[simp] theorem State.setExtent_keeps (s : State) (e : Nat) (x : Ext) : Keeps s (State.setExtent s e x) := by
  unfold State.setExtent
  refine ⟨?_, ?_⟩ <;> simp

@[simp] theorem State.markExt_keeps (s : State) (e : Nat) (f : Ext → Ext) : Keeps s (State.markExt s e f) := by
  unfold State.markExt
  refine ⟨?_, ?_⟩ <;> simp

@[simp] theorem State.setGen_keeps (s : State) (t : Nat) (g : Gen) : Keeps s (State.setGen s t g) := by
  unfold State.setGen
  refine ⟨?_, ?_⟩ <;> simp

@[simp] theorem State.setCtx_keeps (s : State) (c : Nat) (x : CtxSt) : Keeps s (State.setCtx s c x) := by
  unfold State.setCtx
  refine ⟨?_, ?_⟩ <;> simp

@[simp] theorem State.setConn_keeps (s : State) (n : Nat) (x : Con) : Keeps s (State.setConn s n x) := by
  unfold State.setConn
  refine ⟨?_, ?_⟩ <;> simp

@[simp] theorem State.setLd_keeps (s : State) (l : Nat) (x : Ld) : Keeps s (State.setLd s l x) := by
  unfold State.setLd
  refine ⟨?_, ?_⟩ <;> simp

@[simp] theorem State.setPort_keeps (s : State) (p : Nat) (x : Port) : Keeps s (State.setPort s p x) := by
  unfold State.setPort
  refine ⟨?_, ?_⟩ <;> simp

@[simp] theorem State.setLink_keeps (s : State) (l : Nat) (x : Link) : Keeps s (State.setLink s l x) := by
  unfold State.setLink
  refine ⟨?_, ?_⟩ <;> simp

@[simp] theorem State.setProg_keeps (s : State) (p : Nat) (x : Prog) : Keeps s (State.setProg s p x) := by
  unfold State.setProg
  refine ⟨?_, ?_⟩ <;> simp

@[simp] theorem State.setRing_keeps (s : State) (i : Nat) (x : Ring) : Keeps s (State.setRing s i x) := by
  unfold State.setRing
  refine ⟨?_, ?_⟩ <;> simp

@[simp] theorem State.setCq_keeps (s : State) (c : Nat) (x : Cq) : Keeps s (State.setCq s c x) := by
  unfold State.setCq
  refine ⟨?_, ?_⟩ <;> simp

@[simp] theorem State.setEq_keeps (s : State) (k : Nat) (x : Eq) : Keeps s (State.setEq s k x) := by
  unfold State.setEq
  refine ⟨?_, ?_⟩ <;> simp

@[simp] theorem State.setGrp_keeps (s : State) (g : Nat) (x : Grp) : Keeps s (State.setGrp s g x) := by
  unfold State.setGrp
  refine ⟨?_, ?_⟩ <;> simp

@[simp] theorem State.startDrain_keeps (s : State) (u : DrainUnit) : Keeps s (State.startDrain s u) := by
  unfold State.startDrain
  refine ⟨?_, ?_⟩ <;> simp

@[simp] theorem State.endDrain_keeps (s : State) (u : DrainUnit) : Keeps s (State.endDrain s u) := by
  unfold State.endDrain
  refine ⟨?_, ?_⟩ <;> simp

end Sys2Proof.Machine
end

