-- ==== Sys2Proof/Laws/KeepsReport.lean ====
section
/-! SUPPORT. What the operations of Machine/Report.lean keep. -/

namespace Sys2Proof.Machine

theorem State.takeEntry_keeps {s t : State} {src : Src} {o : Op} {n : Nat} (h : s.takeEntry src o = some (n, t)) : Keeps s t := by
  unfold State.takeEntry at h
  by_cases c : s.fget (R.TST_SRC_STAT.IN_USE src.num) < src.quota
  · simp only [c, if_true, Option.some.injEq, Prod.mk.injEq] at h
    obtain ⟨-, rfl⟩ := h
    refine ⟨?_, ?_⟩ <;> simp
  · simp [c] at h

@[simp] theorem State.freeEntry_keeps (s : State) (tag : Nat) : Keeps s (State.freeEntry s tag) := by
  unfold State.freeEntry
  refine ⟨?_, ?_⟩ <;> (try simp) <;> (repeat' (split <;> try simp))

@[simp] theorem State.setOp_keeps (s : State) (tag : Nat) (o : Op) : Keeps s (State.setOp s tag o) := by
  unfold State.setOp
  refine ⟨?_, ?_⟩ <;> simp

@[simp] theorem State.settleEntry_keeps (s : State) (tag : Nat) : Keeps s (State.settleEntry s tag) := by
  unfold State.settleEntry
  refine ⟨?_, ?_⟩ <;> (try simp) <;> (repeat' (split <;> try simp))

@[simp] theorem State.oweResults_keeps (s : State) (tag n : Nat) : Keeps s (State.oweResults s tag n) := by
  unfold State.oweResults
  refine ⟨?_, ?_⟩ <;> (try simp) <;> (repeat' (split <;> try simp))

@[simp] theorem State.holdBack_keeps (s : State) (tag : Nat) : Keeps s (State.holdBack s tag) := by
  unfold State.holdBack
  refine ⟨?_, ?_⟩ <;> (try simp) <;> (repeat' (split <;> try simp))

@[simp] theorem State.resultBack_keeps (s : State) (tag : Nat) : Keeps s (State.resultBack s tag) := by
  unfold State.resultBack
  refine ⟨?_, ?_⟩ <;> (try simp) <;> (repeat' (split <;> try simp))

@[simp] theorem State.hostXfer_keeps (s : State) (t addr : Nat) (b : Bytes) (n : Nat) : Keeps s (State.hostXfer s t addr b n) := by
  unfold State.hostXfer
  refine ⟨?_, ?_⟩ <;> simp

@[simp] theorem State.cqState_keeps (s : State) (c : Nat) : Keeps s (State.cqState s c) := by
  unfold State.cqState
  refine ⟨?_, ?_⟩ <;> simp

@[simp] theorem State.cqWrite_keeps (s : State) (c : Nat) : Keeps s (State.cqWrite s c) := by
  unfold State.cqWrite
  refine ⟨?_, ?_⟩ <;> (try simp) <;> (repeat' (split <;> try simp))

@[simp] theorem State.cqFlush_keeps (s : State) (c : Nat) : Keeps s (State.cqFlush s c) := by
  unfold State.cqFlush
  refine ⟨?_, ?_⟩ <;> simp

@[simp] theorem State.cqPush_keeps (s : State) (c : Nat) (r : Bytes) : Keeps s (State.cqPush s c r) := by
  unfold State.cqPush
  refine ⟨?_, ?_⟩ <;> simp

@[simp] theorem State.cqAdmitOverflow_keeps (s : State) : Keeps s (State.cqAdmitOverflow s) := by
  unfold State.cqAdmitOverflow
  refine ⟨?_, ?_⟩ <;> (try simp) <;> (repeat' first
    | (refine fold_pending _ (fun s x => ?_) _ _ <;> try simp)
    | (refine fold_ident _ (fun s x => ?_) _ _ <;> try simp)
    | (split <;> try simp))

@[simp] theorem State.openGates_keeps (s : State) (p : Wr → Bool) : Keeps s (State.openGates s p) := by
  unfold State.openGates
  refine ⟨?_, ?_⟩ <;> simp

@[simp] theorem State.produce_keeps (s : State) (c : Nat) (tenant : BitVec 24) (r : Bytes) (tag : Option Nat) : Keeps s (State.produce s c tenant r tag) := by
  unfold State.produce
  refine ⟨?_, ?_⟩ <;> (try simp) <;> (repeat' (split <;> try simp))

@[simp] theorem State.eqRoom_keeps (s : State) (k : Nat) : Keeps s (s.eqRoom k).2 := by
  unfold State.eqRoom
  simp only [State.drawWord_eq]
  refine ⟨?_, ?_⟩ <;> (repeat' (split <;> try simp))

@[simp] theorem State.eqWrite_keeps (s : State) (k code : Nat) (device : Bool) (subject detail : Nat) : Keeps s (State.eqWrite s k code device subject detail) := by
  unfold State.eqWrite
  refine ⟨?_, ?_⟩ <;> simp

@[simp] theorem State.eqPost_keeps (s : State) (k code : Nat) (device : Bool) (subject detail : Nat) : Keeps s (State.eqPost s k code device subject detail) := by
  unfold State.eqPost
  refine ⟨?_, ?_⟩ <;> simp

@[simp] theorem State.postTenant_keeps (s : State) (t : BitVec 24) (code : Nat) (device : Bool) (subject detail : Nat) : Keeps s (State.postTenant s t code device subject detail) := by
  unfold State.postTenant
  refine ⟨?_, ?_⟩ <;> (try simp) <;> (repeat' (split <;> try simp))

@[simp] theorem State.postD_keeps (s : State) (code subject detail : Nat) : Keeps s (State.postD s code subject detail) := by
  unfold State.postD
  refine ⟨?_, ?_⟩ <;> (try simp) <;> (repeat' first
    | (refine fold_pending _ (fun s x => ?_) _ _ <;> try simp)
    | (refine fold_ident _ (fun s x => ?_) _ _ <;> try simp)
    | (split <;> try simp))

@[simp] theorem State.postT_keeps (s : State) (t : BitVec 24) (code subject detail : Nat) : Keeps s (State.postT s t code subject detail) := by
  unfold State.postT
  refine ⟨?_, ?_⟩ <;> simp

@[simp] theorem State.postTD_keeps (s : State) (t : BitVec 24) (code subject detail : Nat) : Keeps s (State.postTD s t code subject detail) := by
  unfold State.postTD
  refine ⟨?_, ?_⟩ <;> simp

end Sys2Proof.Machine
end

