-- ==== Sys2Proof/Laws/KeepsWire.lean ====
section
/-! SUPPORT. What the operations of Machine/Wire.lean keep. -/

namespace Sys2Proof.Machine

@[simp] theorem State.putFrame0_keeps (s : State) (g typ fsn : Nat) (last : Bool) (payload : Bytes) :
    Keeps s (s.putFrame0 g typ fsn last payload) :=
  ⟨(State.emit_keeps _ _).1.trans (State.setGrp_keeps _ _ _).1, (State.emit_keeps _ _).2.trans (State.setGrp_keeps _ _ _).2⟩

@[simp] theorem State.rekeyIfDue_keeps (s : State) (g : Nat) : Keeps s (State.rekeyIfDue s g) := by
  unfold State.rekeyIfDue
  refine ⟨?_, ?_⟩ <;> simp

@[simp] theorem State.sendOn_keeps (s : State) (g typ : Nat) (last : Bool) (payload : Bytes) : Keeps s (State.sendOn s g typ last payload) := by
  unfold State.sendOn
  refine ⟨?_, ?_⟩ <;> simp

@[simp] theorem State.sendTwin_keeps (s : State) (typ : Nat) (payload : Bytes) (last : Bool) : Keeps s (State.sendTwin s typ payload last) := by
  unfold State.sendTwin
  refine ⟨?_, ?_⟩ <;> (try simp) <;> (repeat' (split <;> try simp))

@[simp] theorem State.pumpCredit_keeps (s : State) (g : Nat) : Keeps s (State.pumpCredit s g) := by
  unfold State.pumpCredit
  refine ⟨?_, ?_⟩ <;> simp

@[simp] theorem State.sendImage_keeps (s : State) (typ key : Nat) (img : Bytes) : Keeps s (State.sendImage s typ key img) := by
  unfold State.sendImage
  refine ⟨?_, ?_⟩ <;> simp

@[simp] theorem State.emitNet_keeps (s : State) (p : Nat) (o : Out) : Keeps s (State.emitNet s p o) := by
  unfold State.emitNet
  refine ⟨?_, ?_⟩ <;> simp

@[simp] theorem State.breakTargets_keeps (s : State) (path endpoint : Nat) : Keeps s (State.breakTargets s path endpoint) := by
  unfold State.breakTargets
  refine ⟨?_, ?_⟩ <;> simp

@[simp] theorem State.wrFinish_keeps (s : State) (w : Wr) (st : Status) : Keeps s (State.wrFinish s w st) := by
  unfold State.wrFinish
  refine ⟨?_, ?_⟩ <;> simp

@[simp] theorem State.connError_keeps (s : State) (c : Nat) (st : Status) (psn : Nat) (wrSt : Status) : Keeps s (State.connError s c st psn wrSt) := by
  unfold State.connError
  refine ⟨?_, ?_⟩ <;> simp

@[simp] theorem State.txAdvance_keeps (s : State) (c : Nat) : Keeps s (State.txAdvance s c) := by
  unfold State.txAdvance
  refine ⟨?_, ?_⟩ <;> simp

@[simp] theorem State.sendRoce_keeps (s : State) (c : Nat) (p : TxPkt) (ackReq : Bool) : Keeps s (State.sendRoce s c p ackReq) := by
  unfold State.sendRoce
  refine ⟨?_, ?_⟩ <;> simp

@[simp] theorem State.flushStep_keeps (s : State) (c : Nat) : Keeps s (State.flushStep s c) := by
  unfold State.flushStep
  refine ⟨?_, ?_⟩ <;> (try simp) <;> (repeat' (split <;> try simp))

@[simp] theorem State.flushDue_keeps (s : State) (c : Nat) : Keeps s (State.flushDue s c) := by
  unfold State.flushDue
  refine ⟨?_, ?_⟩ <;> simp

@[simp] theorem State.respond_keeps (s : State) (c psn : Nat) (pkts : List TxPkt) (done : Bool) (fatal : Option Status) : Keeps s (State.respond s c psn pkts done fatal) := by
  unfold State.respond
  refine ⟨?_, ?_⟩ <;> simp

@[simp] theorem State.dropUnsent_keeps (s : State) (c psn : Nat) : Keeps s (State.dropUnsent s c psn) := by
  unfold State.dropUnsent
  refine ⟨?_, ?_⟩ <;> simp

@[simp] theorem State.expect_keeps (s : State) (c psn : Nat) : Keeps s (State.expect s c psn) := by
  unfold State.expect
  refine ⟨?_, ?_⟩ <;> simp

@[simp] theorem State.refuseReq_keeps (s : State) (c psn : Nat) (st : Status) : Keeps s (State.refuseReq s c psn st) := by
  unfold State.refuseReq
  refine ⟨?_, ?_⟩ <;> simp

end Sys2Proof.Machine
end

