-- ==== Sys2Proof/Laws/KeepsFlashOps.lean ====
section
/-! SUPPORT. What the operations of Machine/FlashOps.lean keep. -/

namespace Sys2Proof.Machine

@[simp] theorem State.putWord_keeps (s : State) (i : Nat) (b : Bytes) : Keeps s (State.putWord s i b) := by
  unfold State.putWord
  refine ⟨?_, ?_⟩ <;> simp

@[simp] theorem State.clearSector_keeps (s : State) (sec : Nat) (ok : Bool) : Keeps s (State.clearSector s sec ok) := by
  unfold State.clearSector
  refine ⟨?_, ?_⟩ <;> simp

@[simp] theorem State.openLogSector_keeps (s : State) : Keeps s (State.openLogSector s) := by
  unfold State.openLogSector
  refine ⟨?_, ?_⟩ <;> (try simp) <;> (repeat' (split <;> try simp))

@[simp] theorem State.rootInFlash_keeps (s : State) (q : Nat) : Keeps s (State.rootInFlash s q) := by
  unfold State.rootInFlash
  refine ⟨?_, ?_⟩ <;> simp

@[simp] theorem State.logAppend_keeps (s : State) (r : LogRec) : Keeps s (State.logAppend s r) := by
  unfold State.logAppend
  refine ⟨?_, ?_⟩ <;> (try simp) <;> (repeat' (split <;> try simp))

@[simp] theorem State.logQueue_keeps (s : State) (r : LogRec) : Keeps s (State.logQueue s r) := by
  unfold State.logQueue
  refine ⟨?_, ?_⟩ <;> simp

@[simp] theorem State.notePair_keeps (s : State) : Keeps s (State.notePair s) := by
  unfold State.notePair
  refine ⟨?_, ?_⟩ <;> simp

@[simp] theorem State.writeConfigSector_keeps (s : State) (data : Bytes) : Keeps s (State.writeConfigSector s data) := by
  unfold State.writeConfigSector
  refine ⟨?_, ?_⟩ <;> simp

@[simp] theorem State.commitAppend_keeps (s : State) (b : Bytes) : Keeps s (State.commitAppend s b) := by
  unfold State.commitAppend
  refine ⟨?_, ?_⟩ <;> (try simp) <;> (repeat' (split <;> try simp))

end Sys2Proof.Machine
end

