-- ==== Sys2Proof/Laws/KeepsLanes.lean ====
section
/-! SUPPORT. What the operations of Machine/Lanes.lean keep. -/

namespace Sys2Proof.Machine

@[simp] theorem State.putFlit_keeps (s : State) (l : Nat) (f : TxFlit) : Keeps s (State.putFlit s l f) := by
  unfold State.putFlit
  refine ⟨?_, ?_⟩ <;> (try simp) <;> (repeat' (split <;> try simp))

@[simp] theorem State.sendFlit_keeps (s : State) (l : Nat) (f : TxFlit) : Keeps s (State.sendFlit s l f) := by
  unfold State.sendFlit
  refine ⟨?_, ?_⟩ <;> (try simp) <;> (repeat' (split <;> try simp))

@[simp] theorem State.issueCmd_keeps (s : State) (l : Nat) (c : Cmd) : Keeps s (State.issueCmd s l c) := by
  unfold State.issueCmd
  refine ⟨?_, ?_⟩ <;> (try simp) <;> (repeat' (split <;> try simp))

@[simp] theorem State.issueWaiting_keeps (s : State) (l : Nat) : Keeps s (State.issueWaiting s l) := by
  unfold State.issueWaiting
  refine ⟨?_, ?_⟩ <;> simp

@[simp] theorem State.setFetch_keeps (s : State) (f : Fetch) : Keeps s (State.setFetch s f) := by
  unfold State.setFetch
  refine ⟨?_, ?_⟩ <;> simp

@[simp] theorem State.sliceSettle_keeps (s : State) (sl : Nat) : Keeps s (State.sliceSettle s sl) := by
  unfold State.sliceSettle
  refine ⟨?_, ?_⟩ <;> simp

@[simp] theorem State.noteMisses_keeps (s : State) : Keeps s (State.noteMisses s) := by
  unfold State.noteMisses
  refine ⟨?_, ?_⟩ <;> simp

@[simp] theorem State.fetchGot_keeps (s : State) (t pos : Nat) (cw : Option Bytes) : Keeps s (State.fetchGot s t pos cw) := by
  unfold State.fetchGot
  refine ⟨?_, ?_⟩ <;> (try simp) <;> (repeat' (split <;> try simp))

@[simp] theorem State.readPositions_keeps (s : State) (t : Nat) (ps : List Nat) : Keeps s (State.readPositions s t ps) := by
  unfold State.readPositions
  refine ⟨?_, ?_⟩ <;> (try simp) <;> (repeat' first
    | (refine fold_pending _ (fun s x => ?_) _ _ <;> try simp)
    | (refine fold_ident _ (fun s x => ?_) _ _ <;> try simp)
    | (split <;> try simp))

@[simp] theorem State.beginFetch_keeps (s : State) (f : Fetch) : Keeps s (State.beginFetch s f) := by
  unfold State.beginFetch
  refine ⟨?_, ?_⟩ <;> simp

@[simp] theorem State.releaseHeld_keeps (s : State) : Keeps s (State.releaseHeld s) := by
  unfold State.releaseHeld
  refine ⟨?_, ?_⟩ <;> simp

@[simp] theorem State.openFetch_keeps (s : State) (f : Fetch) : Keeps s (State.openFetch s f) := by
  unfold State.openFetch
  refine ⟨?_, ?_⟩ <;> (try simp) <;> (repeat' (split <;> try simp))

@[simp] theorem State.askLeaf_keeps (s : State) (t : Nat) (w : Waiter) : Keeps s (State.askLeaf s t w) := by
  unfold State.askLeaf
  refine ⟨?_, ?_⟩ <;> (try simp) <;> (repeat' (split <;> try simp))

@[simp] theorem State.newFetch_keeps (s : State) (f : Fetch) : Keeps s (State.newFetch s f) := by
  unfold State.newFetch
  refine ⟨?_, ?_⟩ <;> simp

@[simp] theorem State.dropFetch_keeps (s : State) (t : Nat) : Keeps s (State.dropFetch s t) := by
  unfold State.dropFetch
  refine ⟨?_, ?_⟩ <;> simp

@[simp] theorem State.ackRetire_keeps (s : State) (t l : Nat) : Keeps s (State.ackRetire s t l) := by
  unfold State.ackRetire
  refine ⟨?_, ?_⟩ <;> simp

@[simp] theorem State.markSkipped_keeps (s : State) (l t : Nat) : Keeps s (State.markSkipped s l t) := by
  unfold State.markSkipped
  refine ⟨?_, ?_⟩ <;> simp

@[simp] theorem State.endCmd_keeps (s : State) (l tag : Nat) (done : Bool) : Keeps s (State.endCmd s l tag done) := by
  unfold State.endCmd
  refine ⟨?_, ?_⟩ <;> (try simp) <;> (repeat' (split <;> try simp))

@[simp] theorem State.noteStreet_keeps (s : State) (l : Nat) : Keeps s (State.noteStreet s l) := by
  unfold State.noteStreet
  refine ⟨?_, ?_⟩ <;> simp

@[simp] theorem State.fenceDone_keeps (s : State) (l : Nat) : Keeps s (State.fenceDone s l) := by
  unfold State.fenceDone
  refine ⟨?_, ?_⟩ <;> simp

@[simp] theorem State.postRedundancy_keeps (s : State) (l : Nat) : Keeps s (State.postRedundancy s l) := by
  unfold State.postRedundancy
  refine ⟨?_, ?_⟩ <;> simp

@[simp] theorem State.cmdLost_keeps (s : State) (l : Nat) (o : CmdOwner) : Keeps s (s.cmdLost l o) := by
  cases o <;> (unfold State.cmdLost; refine ⟨?_, ?_⟩ <;> simp)

@[simp] theorem State.fenceLane_keeps (s : State) (l cause : Nat) : Keeps s (State.fenceLane s l cause) := by
  unfold State.fenceLane
  refine ⟨?_, ?_⟩ <;> simp

@[simp] theorem State.writeStripe_keeps (s : State) (t : Nat) (own : CmdOwner) (words : List (Nat × Bytes)) :
    Keeps s (s.writeStripe t own words).2 := by
  refine Keeps.of_fold_snd _ (fun p w => ?_) words ([], s)
  dsimp only
  split <;> exact ⟨by simp, by simp⟩

@[simp] theorem State.noteRebuild_keeps (s : State) : Keeps s (State.noteRebuild s) := by
  unfold State.noteRebuild
  refine ⟨?_, ?_⟩ <;> simp

@[simp] theorem State.rebuildStep_keeps (s : State) (l : Nat) : Keeps s (State.rebuildStep s l) := by
  unfold State.rebuildStep
  refine ⟨?_, ?_⟩ <;> (try simp) <;> (repeat' (split <;> try simp))

@[simp] theorem State.beginRebuild_keeps (s : State) (l : Nat) : Keeps s (State.beginRebuild s l) := by
  unfold State.beginRebuild
  refine ⟨?_, ?_⟩ <;> simp

end Sys2Proof.Machine
end

