-- ==== Sys2Proof/Laws/KeepsTier.lean ====
section
/-! SUPPORT. What the operations of Machine/Tier.lean keep. -/

namespace Sys2Proof.Machine

@[simp] theorem State.noteFrames_keeps (s : State) : Keeps s (State.noteFrames s) := by
  unfold State.noteFrames
  refine ⟨?_, ?_⟩ <;> simp

@[simp] theorem State.putFrame_keeps (s : State) (t : Nat) (f : Frame) : Keeps s (State.putFrame s t f) := by
  unfold State.putFrame
  refine ⟨?_, ?_⟩ <;> simp

@[simp] theorem State.setFrame_keeps (s : State) (t : Nat) (f : Frame) : Keeps s (State.setFrame s t f) := by
  unfold State.setFrame
  refine ⟨?_, ?_⟩ <;> simp

@[simp] theorem State.dropFrame_keeps (s : State) (t : Nat) : Keeps s (State.dropFrame s t) := by
  unfold State.dropFrame
  refine ⟨?_, ?_⟩ <;> simp

@[simp] theorem State.touchFrame_keeps (s : State) (t : Nat) : Keeps s (State.touchFrame s t) := by
  unfold State.touchFrame
  refine ⟨?_, ?_⟩ <;> simp

theorem State.frameRoom_keeps {s t : State} (h : s.frameRoom = some t) : Keeps s t := by
  unfold State.frameRoom at h
  split at h
  · cases h; exact ⟨rfl, rfl⟩
  · split at h
    · cases h; refine ⟨?_, ?_⟩ <;> simp
    · cases h

@[simp] theorem State.allocFrame_keeps (s : State) (t : Nat) (f : Frame) : Keeps s (s.allocFrame t f) := by
  unfold State.allocFrame
  split
  · exact State.putFrame_keeps ..
  · split
    · next h => exact (State.frameRoom_keeps h).trans (State.putFrame_keeps ..)
    · exact State.sat_keeps _ _ _ (by simp)

@[simp] theorem State.yieldFrame_keeps (s : State) : Keeps s (State.yieldFrame s) := by
  unfold State.yieldFrame
  split
  · rcases h : s.frameRoom with _ | t
    · exact ⟨rfl, rfl⟩
    · exact State.frameRoom_keeps h
  · exact ⟨rfl, rfl⟩

@[simp] theorem State.copyOut_keeps (s : State) (t : Nat) : Keeps s (State.copyOut s t) := by
  unfold State.copyOut
  refine ⟨?_, ?_⟩ <;> (try simp) <;> (repeat' (split <;> try simp))

@[simp] theorem State.touchLine_keeps (s : State) (k : Nat) : Keeps s (State.touchLine s k) := by
  unfold State.touchLine
  refine ⟨?_, ?_⟩ <;> simp

@[simp] theorem State.putLine_keeps (s : State) (k : Nat) (l : Line) : Keeps s (State.putLine s k l) := by
  unfold State.putLine
  refine ⟨?_, ?_⟩ <;> simp

@[simp] theorem State.dropLine_keeps (s : State) (k : Nat) : Keeps s (State.dropLine s k) := by
  unfold State.dropLine
  refine ⟨?_, ?_⟩ <;> simp

@[simp] theorem State.installLine_keeps (s : State) (k : Nat) (b : Bytes) : Keeps s (State.installLine s k b) := by
  unfold State.installLine
  refine ⟨?_, ?_⟩ <;> (try simp) <;> (repeat' (split <;> try simp))

@[simp] theorem State.loggiaDrop_keeps (s : State) (k : Nat) : Keeps s (State.loggiaDrop s k) := by
  unfold State.loggiaDrop
  refine ⟨?_, ?_⟩ <;> simp

@[simp] theorem State.loggiaRoom_keeps (s : State) (k : Nat) : Keeps s (State.loggiaRoom s k) := by
  unfold State.loggiaRoom
  refine ⟨?_, ?_⟩ <;> (try simp) <;> (repeat' (split <;> try simp))

@[simp] theorem State.loggiaPut_keeps (s : State) (k : Nat) (cls : Place) (b : Bytes) : Keeps s (State.loggiaPut s k cls b) := by
  unfold State.loggiaPut
  refine ⟨?_, ?_⟩ <;> (try simp) <;> (repeat' (split <;> try simp))

@[simp] theorem State.placeLine_keeps (s : State) (k : Nat) (cls : Place) (b : Bytes) : Keeps s (State.placeLine s k cls b) := by
  unfold State.placeLine
  refine ⟨?_, ?_⟩ <;> (try simp) <;> (repeat' (split <;> try simp))

@[simp] theorem State.readLine_keeps (s : State) (t k : Nat) (cls : Place) : Keeps s (s.readLine t k cls).2 := by
  unfold State.readLine
  repeat' first
    | with_reducible exact ⟨rfl, rfl⟩
    | (refine ⟨?_, ?_⟩ <;> simp [-List.reduceReplicate]; done)
    | split
    | dsimp only

@[simp] theorem State.readSpan_keeps (s : State) (t off n : Nat) (cls : Place) : Keeps s (s.readSpan t off n cls).2 := by
  unfold State.readSpan
  repeat' first
    | with_reducible exact ⟨rfl, rfl⟩
    | exact Keeps.of_fold_snd (fun (p : Bytes × State) k => (p.1 ++ (p.2.readLine t k cls).1.getD [], (p.2.readLine t k cls).2))
        (fun p k => State.readLine_keeps p.2 t k cls) _ ([], s)
    | split
    | dsimp only

@[simp] theorem State.missLine_keeps (s : State) (t k : Nat) : Keeps s (State.missLine s t k) := by
  unfold State.missLine
  refine ⟨?_, ?_⟩ <;> (try simp) <;> (repeat' (split <;> try simp))

@[simp] theorem State.sendRepairReq_keeps (s : State) (t : Nat) : Keeps s (State.sendRepairReq s t) := by
  unfold State.sendRepairReq
  refine ⟨?_, ?_⟩ <;> simp

@[simp] theorem State.askRepair_keeps (s : State) (t : Nat) (onDemand : Bool) : Keeps s (State.askRepair s t onDemand) := by
  unfold State.askRepair
  refine ⟨?_, ?_⟩ <;> simp

@[simp] theorem State.dropRepair_keeps (s : State) (t : Nat) : Keeps s (State.dropRepair s t) := by
  unfold State.dropRepair
  refine ⟨?_, ?_⟩ <;> (try simp) <;> (repeat' (split <;> try simp))

@[simp] theorem State.fetchFor_keeps (s : State) (t : Nat) (w : Waiter) (cls : Place) : Keeps s (State.fetchFor s t w cls) := by
  unfold State.fetchFor
  refine ⟨?_, ?_⟩ <;> (try simp) <;> (repeat' (split <;> try simp))

@[simp] theorem State.fetchOp_keeps (s : State) (t : Nat) (w : Waiter) (cls : Place) (tag : Nat) : Keeps s (State.fetchOp s t w cls tag) := by
  unfold State.fetchOp
  refine ⟨?_, ?_⟩ <;> simp

@[simp] theorem State.missFor_keeps (s : State) (t off n : Nat) (w : Waiter) (cls : Place) : Keeps s (State.missFor s t off n w cls) := by
  unfold State.missFor
  refine ⟨?_, ?_⟩ <;> (try simp) <;> (repeat' (split <;> try simp))

@[simp] theorem State.missOp_keeps (s : State) (t off n : Nat) (w : Waiter) (cls : Place) (tag : Nat) : Keeps s (State.missOp s t off n w cls tag) := by
  unfold State.missOp
  refine ⟨?_, ?_⟩ <;> (try simp) <;> (repeat' (split <;> try simp))

@[simp] theorem State.killLine_keeps (s : State) (k : Nat) : Keeps s (State.killLine s k) := by
  unfold State.killLine
  refine ⟨?_, ?_⟩ <;> (try simp) <;> (repeat' (split <;> try simp))

@[simp] theorem State.staleFetch_keeps (s : State) (t : Nat) : Keeps s (State.staleFetch s t) := by
  unfold State.staleFetch
  refine ⟨?_, ?_⟩ <;> (try simp) <;> (repeat' (split <;> try simp))

@[simp] theorem State.invalidateTile_keeps (s : State) (t : Nat) : Keeps s (State.invalidateTile s t) := by
  unfold State.invalidateTile
  refine ⟨?_, ?_⟩ <;> (try simp) <;> (repeat' (split <;> try simp))

@[simp] theorem State.unlockLine_keeps (s : State) (k : Nat) : Keeps s (State.unlockLine s k) := by
  unfold State.unlockLine
  refine ⟨?_, ?_⟩ <;> (try simp) <;> (repeat' (split <;> try simp))

@[simp] theorem State.invalidateRange_keeps (s : State) (lo hi : Nat) (release : Bool) : Keeps s (State.invalidateRange s lo hi release) := by
  unfold State.invalidateRange
  refine ⟨?_, ?_⟩ <;> simp

@[simp] theorem State.notePins_keeps (s : State) : Keeps s (State.notePins s) := by
  unfold State.notePins
  refine ⟨?_, ?_⟩ <;> simp

@[simp] theorem State.setPlan_keeps (s : State) (r : PlanReader) (p : Plan) : Keeps s (State.setPlan s r p) := by
  unfold State.setPlan
  refine ⟨?_, ?_⟩ <;> simp

@[simp] theorem State.endPlan_keeps (s : State) (r : PlanReader) : Keeps s (State.endPlan s r) := by
  unfold State.endPlan
  refine ⟨?_, ?_⟩ <;> (try simp) <;> (repeat' (split <;> try simp))

@[simp] theorem State.prefetchTake_keeps (s : State) (t mask : Nat) : Keeps s (State.prefetchTake s t mask) := by
  unfold State.prefetchTake
  refine ⟨?_, ?_⟩ <;> (try simp) <;> (repeat' (split <;> try simp))

@[simp] theorem State.planTake_keeps (s : State) (r : PlanReader) (p : Plan) : Keeps s (State.planTake s r p).2 := by
  unfold State.planTake
  refine ⟨?_, ?_⟩ <;> (try simp) <;> (repeat' (split <;> try simp))

@[simp] theorem State.planPump_keeps (s : State) (r : PlanReader) : Keeps s (s.planPump r) := by
  unfold State.planPump
  refine Keeps.of_fold _ (fun s _ => ?_) _ _
  split
  · split
    · exact State.planTake_keeps ..
    · exact ⟨rfl, rfl⟩
  · exact ⟨rfl, rfl⟩

@[simp] theorem State.planRead_keeps (s : State) (r : PlanReader) (t : Nat) : Keeps s (State.planRead s r t) := by
  unfold State.planRead
  refine ⟨?_, ?_⟩ <;> (try simp) <;> (repeat' (split <;> try simp))

@[simp] theorem State.pumpPlans_keeps (s : State) : Keeps s (State.pumpPlans s) := by
  unfold State.pumpPlans
  refine ⟨?_, ?_⟩ <;> (try simp) <;> (repeat' (split <;> try simp))

@[simp] theorem State.declarePlan_keeps (s : State) (r : PlanReader) (p : Plan) : Keeps s (State.declarePlan s r p) := by
  unfold State.declarePlan
  refine ⟨?_, ?_⟩ <;> simp

end Sys2Proof.Machine
end

