-- ==== Sys2Proof/Laws/KeepsResolve.lean ====
section
/-! SUPPORT. What the operations of Machine/Resolve.lean keep. -/

namespace Sys2Proof.Machine

@[simp] theorem State.keySettle_keeps (s : State) (i : Nat) : Keeps s (State.keySettle s i) := by
  unfold State.keySettle
  refine ⟨?_, ?_⟩ <;> (try simp) <;> (repeat' (split <;> try simp))

@[simp] theorem State.keyCount_keeps (s : State) (i : Nat) (up : Bool) : Keeps s (State.keyCount s i up) := by
  unfold State.keyCount
  refine ⟨?_, ?_⟩ <;> (try simp) <;> (repeat' (split <;> try simp))

@[simp] theorem State.connFree_keeps (s : State) (c : Nat) : Keeps s (State.connFree s c) := by
  unfold State.connFree
  refine ⟨?_, ?_⟩ <;> simp

@[simp] theorem State.connClosing_keeps (s : State) (c : Nat) : Keeps s (State.connClosing s c) := by
  unfold State.connClosing
  refine ⟨?_, ?_⟩ <;> simp

@[simp] theorem State.gateMessage_keeps (s : State) (t : BitVec 24) (name : Nat) : Keeps s (State.gateMessage s t name) := by
  unfold State.gateMessage
  refine ⟨?_, ?_⟩ <;> simp

@[simp] theorem State.wrDone_keeps (s : State) (id : Nat) (st : Status) : Keeps s (State.wrDone s id st) := by
  unfold State.wrDone
  refine ⟨?_, ?_⟩ <;> (try simp) <;> (repeat' (split <;> try simp))

@[simp] theorem State.taskDone_keeps (s : State) (t : Task) (tag : Option Nat) (st : Status) (result pc cause : Nat) : Keeps s (State.taskDone s t tag st result pc cause) := by
  unfold State.taskDone
  refine ⟨?_, ?_⟩ <;> (try simp) <;> (repeat' (split <;> try simp))

@[simp] theorem State.ctxBusy_keeps (s : State) (c : Nat) (b : Bool) : Keeps s (State.ctxBusy s c b) := by
  unfold State.ctxBusy
  refine ⟨?_, ?_⟩ <;> simp

@[simp] theorem State.kioskSettle_keeps (s : State) (k : Nat) : Keeps s (State.kioskSettle s k) := by
  unfold State.kioskSettle
  refine ⟨?_, ?_⟩ <;> simp

@[simp] theorem State.queueSettle_keeps (s : State) (q : Nat) : Keeps s (State.queueSettle s q) := by
  unfold State.queueSettle
  refine ⟨?_, ?_⟩ <;> simp

@[simp] theorem State.stageBack_keeps (s : State) (x : CtxSt) : Keeps s (State.stageBack s x) := by
  unfold State.stageBack
  refine ⟨?_, ?_⟩ <;> simp

@[simp] theorem State.ctxFree_keeps (s : State) (c : Nat) : Keeps s (State.ctxFree s c) := by
  unfold State.ctxFree
  refine ⟨?_, ?_⟩ <;> (try simp) <;> (repeat' (split <;> try simp))

@[simp] theorem State.endTask_keeps (s : State) (c : Nat) (st : Status) (cause result : Nat) : Keeps s (State.endTask s c st cause result) := by
  unfold State.endTask
  refine ⟨?_, ?_⟩ <;> (try simp) <;> (repeat' (split <;> try simp))

@[simp] theorem State.loadEnd_keeps (s : State) (p : Nat) (st : Status) : Keeps s (State.loadEnd s p st) := by
  unfold State.loadEnd
  refine ⟨?_, ?_⟩ <;> (try simp) <;> (repeat' (split <;> try simp))

@[simp] theorem State.writeRefused_keeps (s : State) (ld dpa : Nat) (st : Status) : Keeps s (State.writeRefused s ld dpa st) := by
  unfold State.writeRefused
  refine ⟨?_, ?_⟩ <;> simp

@[simp] theorem State.cxlAnswer_keeps (s : State) (ld tag : Nat) (d : Option Bytes) : Keeps s (State.cxlAnswer s ld tag d) := by
  unfold State.cxlAnswer
  refine ⟨?_, ?_⟩ <;> simp

@[simp] theorem State.netAnswer_keeps (s : State) (c psn : Nat) (st : Status) (good : TxPkt) : Keeps s (State.netAnswer s c psn st good) := by
  unfold State.netAnswer
  refine ⟨?_, ?_⟩ <;> simp

@[simp] theorem State.report_keeps (s : State) (tag : Nat) (k : OpKind) (st : Status) (data : Bytes) : Keeps s (State.report s tag k st data) := by
  unfold State.report
  refine ⟨?_, ?_⟩ <;> (try simp) <;> (repeat' (split <;> try simp))

@[simp] theorem State.resolveOne_keeps (s : State) (tag : Nat) (st : Status) (data : Bytes) : Keeps s (State.resolveOne s tag st data) := by
  unfold State.resolveOne
  refine ⟨?_, ?_⟩ <;> (try simp) <;> (repeat' (split <;> try simp))

@[simp] theorem State.readsDone_keeps (s : State) (c : Nat) : Keeps s (State.readsDone s c) := by
  unfold State.readsDone
  refine ⟨?_, ?_⟩ <;> (try simp) <;> (repeat' first
    | (refine fold_pending _ (fun s x => ?_) _ _ <;> try simp)
    | (refine fold_ident _ (fun s x => ?_) _ _ <;> try simp)
    | (split <;> try simp))

@[simp] theorem State.portSettle_keeps (s : State) (p : Nat) : Keeps s (State.portSettle s p) := by
  unfold State.portSettle
  refine ⟨?_, ?_⟩ <;> simp

@[simp] theorem State.cxlSettle_keeps (s : State) (p : Nat) : Keeps s (State.cxlSettle s p) := by
  unfold State.cxlSettle
  refine ⟨?_, ?_⟩ <;> simp

@[simp] theorem State.resolve_keeps (s : State) (tag : Nat) (st : Status) (data : Bytes) : Keeps s (State.resolve s tag st data) := by
  unfold State.resolve
  refine ⟨?_, ?_⟩ <;> (try simp) <;> (repeat' (split <;> try simp))

end Sys2Proof.Machine
end

