-- ==== Sys2Proof/Laws/KeepsRecords.lean ====
section
/-! SUPPORT. What the operations of Machine/Records.lean keep. -/

namespace Sys2Proof.Machine

@[simp] theorem State.formRec_keeps (s : State) (r : Rec) : Keeps s (State.formRec s r).2 := by
  unfold State.formRec
  refine ⟨?_, ?_⟩ <;> simp

@[simp] theorem State.noteOcc_keeps (s : State) : Keeps s (State.noteOcc s) := by
  unfold State.noteOcc
  refine ⟨?_, ?_⟩ <;> simp

@[simp] theorem State.takePlace_keeps (s : State) (n : Nat) : Keeps s (State.takePlace s n) := by
  unfold State.takePlace
  refine ⟨?_, ?_⟩ <;> (try simp) <;> (repeat' (split <;> try simp))

@[simp] theorem State.noteWaiting_keeps (s : State) : Keeps s (State.noteWaiting s) := by
  unfold State.noteWaiting
  refine ⟨?_, ?_⟩ <;> simp

@[simp] theorem State.letWait_keeps (s : State) (r : Rec) : Keeps s (State.letWait s r) := by
  unfold State.letWait
  refine ⟨?_, ?_⟩ <;> (try simp) <;> (repeat' (split <;> try simp))

@[simp] theorem State.reserveRec_keeps (s : State) (r : Rec) : Keeps s (State.reserveRec s r) := by
  unfold State.reserveRec
  refine ⟨?_, ?_⟩ <;> simp

@[simp] theorem State.dropRec_keeps (s : State) (id : Nat) : Keeps s (State.dropRec s id) := by
  unfold State.dropRec
  refine ⟨?_, ?_⟩ <;> simp

@[simp] theorem State.withdraw_keeps (s : State) (tag : Nat) : Keeps s (State.withdraw s tag) := by
  unfold State.withdraw
  refine ⟨?_, ?_⟩ <;> simp

@[simp] theorem State.cut_keeps (s : State) (tag : Nat) (st : Status) : Keeps s (State.cut s tag st) := by
  unfold State.cut
  refine ⟨?_, ?_⟩ <;> simp

@[simp] theorem State.cutAll_keeps (s : State) (p : Op → Bool) (st : Status) : Keeps s (State.cutAll s p st) := by
  unfold State.cutAll
  refine ⟨?_, ?_⟩ <;> simp

@[simp] theorem State.stopTask_keeps (s : State) (c : Nat) (st : Status) (cause : Nat) : Keeps s (State.stopTask s c st cause) := by
  unfold State.stopTask
  refine ⟨?_, ?_⟩ <;> simp

@[simp] theorem State.sendMctp_keeps (s : State) (dst : BitVec 7) (b : Bytes) : Keeps s (State.sendMctp s dst b) := by
  unfold State.sendMctp
  refine ⟨?_, ?_⟩ <;> simp

@[simp] theorem State.flushMctp_keeps (s : State) : Keeps s (State.flushMctp s) := by
  unfold State.flushMctp
  refine ⟨?_, ?_⟩ <;> simp

@[simp] theorem State.mgmtDone_keeps (s : State) (t : Task) (src : MgmtSrc) (st : Status) : Keeps s (State.mgmtDone s t src st) := by
  unfold State.mgmtDone
  refine ⟨?_, ?_⟩ <;> (try simp) <;> (repeat' (split <;> try simp))

@[simp] theorem State.mgmtOutcome_keeps (s : State) (num : Nat) (st : Status) : Keeps s (State.mgmtOutcome s num st) := by
  unfold State.mgmtOutcome
  refine ⟨?_, ?_⟩ <;> (try simp) <;> (repeat' (split <;> try simp))

@[simp] theorem State.atomicDone_keeps (s : State) (c d w old : Nat) : Keeps s (State.atomicDone s c d w old) := by
  unfold State.atomicDone
  refine ⟨?_, ?_⟩ <;> simp

@[simp] theorem State.tellOwner_keeps (s : State) (o : Owner) (st : Status) : Keeps s (State.tellOwner s o st) := by
  unfold State.tellOwner
  refine ⟨?_, ?_⟩ <;> (try simp) <;> (repeat' (split <;> try simp))

@[simp] theorem State.dropForward_keeps (s : State) (k : Nat) : Keeps s (State.dropForward s k) := by
  unfold State.dropForward
  refine ⟨?_, ?_⟩ <;> (try simp) <;> (repeat' (split <;> try simp))

@[simp] theorem State.refuseRec_keeps (s : State) (r : Rec) (st : Status) : Keeps s (State.refuseRec s r st) := by
  unfold State.refuseRec
  refine ⟨?_, ?_⟩ <;> (try simp) <;> (repeat' (split <;> try simp))

@[simp] theorem State.acceptRec_keeps (s : State) (o : Owner) : Keeps s (State.acceptRec s o) := by
  unfold State.acceptRec
  refine ⟨?_, ?_⟩ <;> (try simp) <;> (repeat' (split <;> try simp))

@[simp] theorem State.readWrDone_keeps (s : State) (tag wr : Nat) : Keeps s (State.readWrDone s tag wr) := by
  unfold State.readWrDone
  refine ⟨?_, ?_⟩ <;> (try simp) <;> (repeat' (split <;> try simp))

@[simp] theorem State.readAdmitted_keeps (s : State) (tag wr : Nat) : Keeps s (State.readAdmitted s tag wr) := by
  unfold State.readAdmitted
  refine ⟨?_, ?_⟩ <;> simp

@[simp] theorem State.stopMark_keeps (s : State) (j : Nat) : Keeps s (State.stopMark s j) := by
  unfold State.stopMark
  refine ⟨?_, ?_⟩ <;> (try simp) <;> (repeat' (split <;> try simp))

@[simp] theorem State.giveUpAcks_keeps (s : State) : Keeps s (State.giveUpAcks s) := by
  unfold State.giveUpAcks
  refine ⟨?_, ?_⟩ <;> (try simp) <;> (repeat' (split <;> try simp))

@[simp] theorem State.noteLag_keeps (s : State) : Keeps s (State.noteLag s) := by
  unfold State.noteLag
  refine ⟨?_, ?_⟩ <;> (try simp) <;> (repeat' (split <;> try simp))

@[simp] theorem State.acksDone_keeps (s : State) (u : Unacked) : Keeps s (State.acksDone s u) := by
  unfold State.acksDone
  refine ⟨?_, ?_⟩ <;> (try simp) <;> (repeat' (split <;> try simp))

@[simp] theorem State.lagPause_keeps (s : State) (p : Bool) : Keeps s (State.lagPause s p) := by
  unfold State.lagPause
  refine ⟨?_, ?_⟩ <;> simp

@[simp] theorem State.ackPair_keeps (s : State) (q : Nat) : Keeps s (State.ackPair s q) := by
  unfold State.ackPair
  refine ⟨?_, ?_⟩ <;> simp

@[simp] theorem State.dropRetires_keeps (s : State) (p : Retire → Bool) : Keeps s (State.dropRetires s p) := by
  unfold State.dropRetires
  refine ⟨?_, ?_⟩ <;> simp

@[simp] theorem State.discardExtent_keeps (s : State) (e : Nat) : Keeps s (State.discardExtent s e) := by
  unfold State.discardExtent
  refine ⟨?_, ?_⟩ <;> simp

@[simp] theorem State.forceOut_keeps (s : State) (e : Nat) : Keeps s (State.forceOut s e) := by
  unfold State.forceOut
  refine ⟨?_, ?_⟩ <;> simp

@[simp] theorem State.applyAttr_keeps (s : State) (a : Attr) : Keeps s (State.applyAttr s a) := by
  unfold State.applyAttr
  refine ⟨?_, ?_⟩ <;> (try simp) <;> (repeat' (split <;> try simp))

@[simp] theorem State.markDirty_keeps (s : State) (ts : List Nat) : Keeps s (State.markDirty s ts) := by
  unfold State.markDirty
  refine ⟨?_, ?_⟩ <;> simp

@[simp] theorem State.warnGen_keeps (s : State) (t : Nat) : Keeps s (State.warnGen s t) := by
  unfold State.warnGen
  refine ⟨?_, ?_⟩ <;> simp

@[simp] theorem State.enter_keeps (s : State) (r : Rec) : Keeps s (State.enter s r) := by
  unfold State.enter
  refine ⟨?_, ?_⟩ <;> (try simp) <;> (repeat' (split <;> try simp))

@[simp] theorem State.opDone_keeps (s : State) (t : Nat) (b : Body) (old w : Nat) : Keeps s (State.opDone s t b old w) := by
  unfold State.opDone
  refine ⟨?_, ?_⟩ <;> (try simp) <;> (repeat' (split <;> try simp))

@[simp] theorem State.holdEntries_keeps (s : State) (o : Owner) (jsn : Nat) : Keeps s (State.holdEntries s o jsn) := by
  unfold State.holdEntries
  refine ⟨?_, ?_⟩ <;> (try simp) <;> (repeat' (split <;> try simp))

@[simp] theorem State.ownerAdmitted_keeps (s : State) (r : Rec) (old : Nat) (w : Nat) : Keeps s (State.ownerAdmitted s r old w) := by
  unfold State.ownerAdmitted
  refine ⟨?_, ?_⟩ <;> (try simp) <;> (repeat' first
    | (refine fold_pending _ (fun s x => ?_) _ _ <;> try simp)
    | (refine fold_ident _ (fun s x => ?_) _ _ <;> try simp)
    | (split <;> try simp))

@[simp] theorem State.fwdReturned_keeps (s : State) (r : Rec) (old w : Nat) : Keeps s (State.fwdReturned s r old w) := by
  unfold State.fwdReturned
  refine ⟨?_, ?_⟩ <;> (try simp) <;> (repeat' (split <;> try simp))

@[simp] theorem State.admitOwn_keeps (s : State) (b : Body) (m : Bool) : Keeps s (State.admitOwn s b m) := by
  unfold State.admitOwn
  refine ⟨?_, ?_⟩ <;> simp

@[simp] theorem State.changeEntry_keeps (s : State) (t : Nat) (g : Gen) : Keeps s (State.changeEntry s t g) := by
  unfold State.changeEntry
  refine ⟨?_, ?_⟩ <;> (try simp) <;> (repeat' (split <;> try simp))

@[simp] theorem State.zeroLeaves_keeps (s : State) (a : Attr) : Keeps s (State.zeroLeaves s a) := by
  unfold State.zeroLeaves
  refine ⟨?_, ?_⟩ <;> (try simp) <;> (repeat' (split <;> try simp))

@[simp] theorem State.rackTwin_keeps (s : State) (q : Nat) : Keeps s (State.rackTwin s q) := by
  unfold State.rackTwin
  refine ⟨?_, ?_⟩ <;> simp

@[simp] theorem State.take_keeps (s : State) (r : Rec) (b : Body) : Keeps s (State.take s r b) := by
  unfold State.take
  refine ⟨?_, ?_⟩ <;> (try simp) <;> (repeat' (split <;> try simp))

@[simp] theorem State.outcome_keeps (s : State) (r : Rec) (old w : Nat) : Keeps s (State.outcome s r old w) := by
  unfold State.outcome
  refine ⟨?_, ?_⟩ <;> (try simp) <;> (repeat' (split <;> try simp))

@[simp] theorem State.askBase_keeps (s : State) (r : Rec) (t : Nat) : Keeps s (State.askBase s r t) := by
  unfold State.askBase
  refine ⟨?_, ?_⟩ <;> (try simp) <;> (repeat' (split <;> try simp))

@[simp] theorem State.takeReturned_keeps (s : State) (r : Rec) (t off w : Nat) : Keeps s (State.takeReturned s r t off w) := by
  unfold State.takeReturned
  refine ⟨?_, ?_⟩ <;> (try simp) <;> (repeat' (split <;> try simp))

@[simp] theorem State.sequence_keeps (s : State) (r : Rec) : Keeps s (State.sequence s r) := by
  unfold State.sequence
  refine ⟨?_, ?_⟩ <;> (try simp) <;> (repeat' (split <;> try simp))

@[simp] theorem State.sweepRecs_keeps (s : State) : Keeps s (State.sweepRecs s) := by
  unfold State.sweepRecs
  refine ⟨?_, ?_⟩ <;> simp

end Sys2Proof.Machine
end

