-- ==== Sys2Proof/Laws/KeepsRetire.lean ====
section
/-! SUPPORT. What the operations of Machine/Retire.lean keep. -/

namespace Sys2Proof.Machine

@[simp] theorem State.setRetire_keeps (s : State) (r : Retire) : Keeps s (State.setRetire s r) := by
  unfold State.setRetire
  refine ⟨?_, ?_⟩ <;> simp

@[simp] theorem State.writeRetire_keeps (s : State) (r : Retire) (plain : Bytes) (seal64 : Word) : Keeps s (State.writeRetire s r plain seal64) := by
  unfold State.writeRetire
  refine ⟨?_, ?_⟩ <;> (try simp) <;> (repeat' (split <;> try simp))

@[simp] theorem State.retireOnBase_keeps (s : State) (r : Retire) (base : Bytes) (v : Ver) (seal64 : Word) : Keeps s (State.retireOnBase s r base v seal64) := by
  unfold State.retireOnBase
  refine ⟨?_, ?_⟩ <;> simp

@[simp] theorem State.retireWhole_keeps (s : State) (r : Retire) : Keeps s (State.retireWhole s r) := by
  unfold State.retireWhole
  refine ⟨?_, ?_⟩ <;> simp

@[simp] theorem State.retireDiscard_keeps (s : State) (r : Retire) : Keeps s (State.retireDiscard s r) := by
  unfold State.retireDiscard
  refine ⟨?_, ?_⟩ <;> simp

@[simp] theorem State.retireRead_keeps (s : State) (r : Retire) : Keeps s (State.retireRead s r) := by
  unfold State.retireRead
  refine ⟨?_, ?_⟩ <;> simp

@[simp] theorem State.beginRetire_keeps (s : State) (t tag : Nat) : Keeps s (State.beginRetire s t tag) := by
  unfold State.beginRetire
  refine ⟨?_, ?_⟩ <;> (try simp) <;> (repeat' (split <;> try simp))

@[simp] theorem State.cacheLeaf_keeps (s : State) (l : Nat) : Keeps s (State.cacheLeaf s l) := by
  unfold State.cacheLeaf
  refine ⟨?_, ?_⟩ <;> (try simp) <;> (repeat' (split <;> try simp))

@[simp] theorem State.touchLeaf_keeps (s : State) (t : Nat) : Keeps s (State.touchLeaf s t) := by
  unfold State.touchLeaf
  refine ⟨?_, ?_⟩ <;> simp

@[simp] theorem State.keepFrame_keeps (s : State) (t : Nat) (r : Retire) : Keeps s (s.keepFrame t r) := by
  unfold State.keepFrame
  split
  · next h => exact (State.frameRoom_keeps h).trans (State.putFrame_keeps ..)
  · exact ⟨rfl, rfl⟩

@[simp] theorem State.finishRetire_keeps (s : State) (r : Retire) : Keeps s (State.finishRetire s r) := by
  unfold State.finishRetire
  refine ⟨?_, ?_⟩ <;> (try simp) <;> (repeat' (split <;> try simp))

end Sys2Proof.Machine
end

