-- ==== Sys2Proof/Laws/KeepsOperands.lean ====
section
/-! SUPPORT. What the operations of Machine/Operands.lean keep. -/

namespace Sys2Proof.Machine

@[simp] theorem State.belvEnd_keeps (s : State) (st : Status) : Keeps s (State.belvEnd s st) := by
  unfold State.belvEnd
  refine ⟨?_, ?_⟩ <;> (try simp) <;> (repeat' (split <;> try simp))

@[simp] theorem State.endProgram_keeps (s : State) (c : Ctx) (st : Status) (cause result : Nat) : Keeps s (State.endProgram s c st cause result) := by
  unfold State.endProgram
  refine ⟨?_, ?_⟩ <;> simp

@[simp] theorem State.raise_keeps (s : State) (c : Ctx) (k : Cause) : Keeps s (State.raise s c k) := by
  unfold State.raise
  refine ⟨?_, ?_⟩ <;> simp

@[simp] theorem State.advance_keeps (s : State) (c : Ctx) (x : CtxSt) : Keeps s (State.advance s c x) := by
  unfold State.advance
  refine ⟨?_, ?_⟩ <;> simp

@[simp] theorem State.jump_keeps (s : State) (c : Ctx) (x : CtxSt) (pc : Word) : Keeps s (State.jump s c x pc) := by
  unfold State.jump
  refine ⟨?_, ?_⟩ <;> simp

theorem State.issueAny_keeps (s : State) (c : Ctx) (bad : Bool) (body : CtxSt → State) (h : ∀ x, Keeps s (body x)) :
    Keeps s (s.issueAny c bad body) := by
  unfold State.issueAny
  dsimp only
  repeat' split
  all_goals first | exact State.raise_keeps .. | exact h _ | exact ⟨rfl, rfl⟩

theorem State.issue_keeps (s : State) (c : Ctx) (gp : BitVec 3) (bad : Bool) (body : CtxSt → State) (h : ∀ x, Keeps s (body x)) :
    Keeps s (s.issue c gp bad body) := by
  unfold State.issue
  refine State.issueAny_keeps _ _ _ _ fun x => ?_
  split
  · exact h x
  · exact State.advance_keeps ..

theorem State.countTile_keeps (s : State) (c : Ctx) (x : CtxSt) (t : Nat) (f : CtxSt → Got) (h : ∀ x, Keeps s (f x).2) :
    Keeps s (s.countTile c x t f).2 := by
  unfold State.countTile
  split
  · exact h _
  · exact State.raise_keeps ..

@[simp] theorem State.useTile_keeps (s : State) (c : Ctx) (x : CtxSt) (t : Nat) (mine : List (Option Byte)) (b : Bytes) (v : Ver) :
    Keeps s (s.useTile c x t mine b v).2 := by
  unfold State.useTile
  refine State.countTile_keeps _ _ _ _ _ fun x => ?_
  split
  · exact State.raise_keeps ..
  · exact State.planRead_keeps ..

@[simp] theorem State.readTile_keeps (s : State) (c : Ctx) (x : CtxSt) (t off n : Nat) : Keeps s (s.readTile c x t off n).2 := by
  unfold State.readTile
  split
  · exact State.raise_keeps ..
  · dsimp only
    split
    · exact State.countTile_keeps _ _ _ _ _ fun x => ⟨rfl, rfl⟩
    · split
      · exact State.useTile_keeps ..
      · have k := State.readSpan_keeps s t off n (s.clsOf t)
        split
        · next h => rw [h] at k; exact k.trans (State.useTile_keeps ..)
        · next h => rw [h] at k; exact k.trans (State.raise_keeps ..)
        · next h => rw [h] at k; exact k.trans ⟨by simp, by simp⟩

theorem readPart_keeps (c : Ctx) (g : Got) (p : Nat × Nat × Nat) : Keeps g.2 (readPart c g p).2 := by
  match g with
  | (none, t) => exact ⟨rfl, rfl⟩
  | (some (x, b), t) =>
    unfold readPart
    dsimp only
    have k := State.readTile_keeps t c x p.1 p.2.1 p.2.2
    split
    · next q => rw [q] at k; exact k
    · exact k

theorem readParts_keeps (c : Ctx) (l : List (Nat × Nat × Nat)) (g : Got) : Keeps g.2 (l.foldl (readPart c) g).2 :=
  Keeps.of_fold_snd (readPart c) (readPart_keeps c) l g

@[simp] theorem State.readLoc_keeps (s : State) (c : Ctx) (x : CtxSt) (l : Loc) (n : Nat) : Keeps s (s.readLoc c x l n).2 := by
  cases l with
  | ls off => rw [State.readLoc]; exact ⟨by simp, by simp⟩
  | sram off => rw [State.readLoc]; exact ⟨by simp, by simp⟩
  | ctl off => rw [State.readLoc]; exact ⟨by simp, by simp⟩
  | scr a =>
    rw [State.readLoc]
    generalize s.scratchCheck x a n = k
    cases k with
    | some k => exact State.raise_keeps s c k
    | none => exact ⟨by simp, by simp⟩
  | dpa a =>
    rw [State.readLoc]
    generalize spans a n = l
    exact readParts_keeps c l (some (x, []), s)

@[simp] theorem State.readAt_keeps (s : State) (c : Ctx) (x : CtxSt) (addr : Word) (n al : Nat) : Keeps s (s.readAt c x addr n al).2 := by
  unfold State.readAt
  split
  · exact State.raise_keeps ..
  · exact State.readLoc_keeps ..

theorem State.stageFrame_keeps {s t : State} (h : s.stageFrame = some t) : Keeps s t := by
  unfold State.stageFrame at h
  cases hu : s.frameRoom with
  | none => simp [hu] at h
  | some u =>
    simp only [hu, Option.map_some, Option.some.injEq] at h
    subst h
    exact (State.frameRoom_keeps hu).trans ⟨rfl, rfl⟩

theorem stageFrames_keeps (l : List Nat) {s t : State}
    (h : l.foldl (fun (o : Option State) _ => o.bind (·.stageFrame)) (some s) = some t) : Keeps s t := by
  induction l generalizing s with
  | nil => cases h; exact ⟨rfl, rfl⟩
  | cons x r ih =>
    simp only [List.foldl_cons, Option.bind_some] at h
    cases hu : s.stageFrame with
    | none =>
      rw [hu] at h
      have : ∀ l : List Nat, l.foldl (fun (o : Option State) _ => o.bind (·.stageFrame)) none = none := by
        intro l; induction l with
        | nil => rfl
        | cons _ _ i => simpa using i
      rw [this] at h; cases h
    | some u => rw [hu] at h; exact (State.stageFrame_keeps hu).trans (ih h)

@[simp] theorem State.stageTiles_keeps (s : State) (c : Ctx) (x : CtxSt) (ts : List Nat) : Keeps s (s.stageTiles c x ts).2 := by
  unfold State.stageTiles
  split
  · exact State.raise_keeps ..
  · split
    · exact State.raise_keeps ..
    · dsimp only
      split
      · exact State.raise_keeps ..
      · split
        · next h => exact stageFrames_keeps _ h
        · exact State.setCtx_keeps ..

@[simp] theorem State.writeLoc_keeps (s : State) (c : Ctx) (x : CtxSt) (l : Loc) (b : Bytes) : Keeps s (s.writeLoc c x l b).2 := by
  cases l with
  | ls off => rw [State.writeLoc]; exact ⟨by simp, by simp⟩
  | sram off => rw [State.writeLoc]; exact ⟨by simp, by simp⟩
  | ctl off => rw [State.writeLoc]; exact ⟨by simp, by simp⟩
  | scr a =>
    rw [State.writeLoc]
    generalize s.scratchCheck x a b.length = k
    cases k with
    | some k => exact State.raise_keeps s c k
    | none => exact ⟨by simp, by simp⟩
  | dpa a =>
    rw [State.writeLoc]
    generalize (spans a b.length).map (·.1) = l
    have k := State.stageTiles_keeps s c x l
    generalize s.stageTiles c x l = r at k
    match r with
    | (some x, t) => exact ⟨k.1, k.2⟩
    | (none, t) => exact k

@[simp] theorem State.writeAt_keeps (s : State) (c : Ctx) (x : CtxSt) (addr : Word) (al : Nat) (b : Bytes) :
    Keeps s (s.writeAt c x addr al b).2 := by
  unfold State.writeAt
  split
  · exact State.raise_keeps ..
  · exact State.writeLoc_keeps ..

end Sys2Proof.Machine
end

