-- ==== Sys2Proof/Laws/KeepsQueues.lean ====
section
/-! SUPPORT. What the operations of Machine/Queues.lean keep. -/

namespace Sys2Proof.Machine

@[simp] theorem State.nextTask_keeps (s : State) (q : Nat) : Keeps s (State.nextTask s q).2 := by
  unfold State.nextTask
  refine ⟨?_, ?_⟩ <;> simp

@[simp] theorem State.poolUp_keeps (s : State) (q : Nat) : Keeps s (State.poolUp s q) := by
  unfold State.poolUp
  refine ⟨?_, ?_⟩ <;> simp

@[simp] theorem State.poolDown_keeps (s : State) (q : Nat) : Keeps s (State.poolDown s q) := by
  unfold State.poolDown
  refine ⟨?_, ?_⟩ <;> simp

@[simp] theorem State.descDone_keeps (s : State) (t : Task) (kind : Nat) (st : Status) : Keeps s (State.descDone s t kind st) := by
  unfold State.descDone
  refine ⟨?_, ?_⟩ <;> simp

@[simp] theorem State.acceptDesc_keeps (s : State) (q : Nat) (b : Bytes) : Keeps s (State.acceptDesc s q b) := by
  unfold State.acceptDesc
  refine ⟨?_, ?_⟩ <;> (try simp) <;> (repeat' (split <;> try simp))

@[simp] theorem State.dropQueued_keeps (s : State) (t : Task) (st : Status) : Keeps s (State.dropQueued s t st) := by
  unfold State.dropQueued
  refine ⟨?_, ?_⟩ <;> simp

end Sys2Proof.Machine
end

