-- ==== Sys2Proof/Laws/KeepsDeliver.lean ====
section
/-! SUPPORT. What the operations of Machine/Deliver.lean keep. -/

namespace Sys2Proof.Machine

@[simp] theorem State.deliverOp_keeps (s : State) (tag : Nat) (st : Status) (data : Bytes) : Keeps s (State.deliverOp s tag st data) := by
  unfold State.deliverOp
  refine ⟨?_, ?_⟩ <;> (try simp) <;> (repeat' (split <;> try simp))

@[simp] theorem State.readSettle_keeps (s : State) (c : Nat) : Keeps s (State.readSettle s c) := by
  unfold State.readSettle
  refine ⟨?_, ?_⟩ <;> simp

@[simp] theorem State.readPump_keeps (s : State) (tag : Nat) : Keeps s (State.readPump s tag) := by
  unfold State.readPump
  refine ⟨?_, ?_⟩ <;> (try simp) <;> (repeat' (split <;> try simp))

@[simp] theorem State.deliverNet_keeps (s : State) (tag t : Nat) (v : Option (Bytes × Ver)) : Keeps s (State.deliverNet s tag t v) := by
  unfold State.deliverNet
  refine ⟨?_, ?_⟩ <;> (try simp) <;> (repeat' (split <;> try simp))

@[simp] theorem State.deliverCtx_keeps (s : State) (c tag t : Nat) (v : Option (Bytes × Ver)) : Keeps s (State.deliverCtx s c tag t v) := by
  unfold State.deliverCtx
  refine ⟨?_, ?_⟩ <;> (try simp) <;> (repeat' (split <;> try simp))

@[simp] theorem State.loadStep_keeps (s : State) (p : Nat) : Keeps s (s.loadStep p) := by
  unfold State.loadStep
  dsimp only
  split
  · exact Keeps.refl _
  · split
    · exact Keeps.refl _
    · split
      · exact Keeps.refl _
      · split
        · exact State.setProg_keeps ..
        · generalize hk : State.readSpan s _ 0 _ _ = r
          have k : Keeps s r.2 := by rw [← hk]; exact State.readSpan_keeps ..
          clear hk
          match r with
          | (.data b, u) => exact k.trans (State.setProg_keeps ..)
          | (.poison, u) => exact k.trans (State.setProg_keeps ..)
          | (.miss, u) => exact k.trans ⟨by simp, by simp⟩

@[simp] theorem State.loadPump_keeps (s : State) (p : Nat) : Keeps s (s.loadPump p) := by
  unfold State.loadPump
  exact Keeps.of_fold (fun s _ => s.loadStep p) (fun s _ => State.loadStep_keeps s p) _ s

@[simp] theorem State.deliverLoad_keeps (s : State) (p tag : Nat) (v : Option (Bytes × Ver)) : Keeps s (State.deliverLoad s p tag v) := by
  unfold State.deliverLoad
  refine ⟨?_, ?_⟩ <;> (try simp) <;> (repeat' (split <;> try simp))

@[simp] theorem State.setWr_keeps (s : State) (w : Wr) : Keeps s (State.setWr s w) := by
  unfold State.setWr
  refine ⟨?_, ?_⟩ <;> simp

@[simp] theorem State.wrSend_keeps (s : State) (id : Nat) : Keeps s (State.wrSend s id) := by
  unfold State.wrSend
  refine ⟨?_, ?_⟩ <;> (try simp) <;> (repeat' first
    | (refine fold_pending _ (fun s x => ?_) _ _ <;> try simp)
    | (refine fold_ident _ (fun s x => ?_) _ _ <;> try simp)
    | (split <;> try simp))

@[simp] theorem State.sendIssued_keeps (s : State) (c : Nat) : Keeps s (s.sendIssued c) := by
  unfold State.sendIssued
  refine Keeps.of_fold_snd _ (fun p w => ?_) _ (false, s)
  split
  · exact Keeps.refl _
  · exact State.wrSend_keeps ..

@[simp] theorem State.wrPump_keeps (s : State) (id : Nat) : Keeps s (State.wrPump s id) := by
  unfold State.wrPump
  refine ⟨?_, ?_⟩ <;> (try simp) <;> (repeat' first
    | (have hk := State.takeEntry_keeps (by assumption); simp [hk.1, hk.2])
    | (rename_i heq; have e := congrArg Prod.snd heq; simp only at e; subst e; try simp)
    | (refine fold_pending _ (fun s x => ?_) _ _ <;> try simp)
    | (refine fold_ident _ (fun s x => ?_) _ _ <;> try simp)
    | (split <;> try simp))

@[simp] theorem State.deliverWr_keeps (s : State) (id tag : Nat) (v : Option (Bytes × Ver)) : Keeps s (State.deliverWr s id tag v) := by
  unfold State.deliverWr
  refine ⟨?_, ?_⟩ <;> (try simp) <;> (repeat' (split <;> try simp))

@[simp] theorem State.answerRepair_keeps (s : State) (tag t : Nat) (v : Option (Bytes × Ver)) : Keeps s (State.answerRepair s tag t v) := by
  unfold State.answerRepair
  refine ⟨?_, ?_⟩ <;> simp

@[simp] theorem State.answerResync_keeps (s : State) (tag t : Nat) (v : Option (Bytes × Ver)) : Keeps s (State.answerResync s tag t v) := by
  unfold State.answerResync
  refine ⟨?_, ?_⟩ <;> simp

@[simp] theorem State.deliverPrefetch_keeps (s : State) (t : Nat) (r : PlanReader) (id : Word) (mask : Nat) (cls : Place) (po : Option Nat) (merged : List Nat) (cacheable : Bool) (v : Option Bytes) : Keeps s (State.deliverPrefetch s t r id mask cls po merged cacheable v) := by
  unfold State.deliverPrefetch
  refine ⟨?_, ?_⟩ <;> (try simp) <;> (repeat' (split <;> try simp))

@[simp] theorem State.deliverLock_keeps (s : State) (k : Nat) (ok : Bool) (b : Option Bytes) : Keeps s (State.deliverLock s k ok b) := by
  unfold State.deliverLock
  refine ⟨?_, ?_⟩ <;> (try simp) <;> (repeat' (split <;> try simp))

@[simp] theorem State.countLanes_keeps (s : State) (t : Nat) (got fixed : List Nat) : Keeps s (State.countLanes s t got fixed) := by
  unfold State.countLanes
  refine ⟨?_, ?_⟩ <;> simp

@[simp] theorem State.writeBack_keeps (s : State) (t : Nat) (v : Ver) (plain : Bytes) (seal64 : Word) (ps : List Nat) : Keeps s (State.writeBack s t v plain seal64 ps) := by
  unfold State.writeBack
  refine ⟨?_, ?_⟩ <;> simp

@[simp] theorem State.deliverRebuild_keeps (s : State) (t lane tag : Nat) (base : Option (Bytes × Ver × Word)) : Keeps s (State.deliverRebuild s t lane tag base) := by
  unfold State.deliverRebuild
  refine ⟨?_, ?_⟩ <;> (try simp) <;> (repeat' (split <;> try simp))

@[simp] theorem State.deliver_keeps (s : State) (t : Nat) (base : Option (Bytes × Ver × Word)) (raw keep : Bool) (merged : List Nat) (w : Waiter) : Keeps s (State.deliver s t base raw keep merged w) := by
  unfold State.deliver
  refine ⟨?_, ?_⟩ <;> (try simp) <;> (repeat' (split <;> try simp))

@[simp] theorem State.retryMiss_keeps (s : State) (q : MissReq) : Keeps s (State.retryMiss s q) := by
  unfold State.retryMiss
  refine ⟨?_, ?_⟩ <;> (try simp) <;> (repeat' (split <;> try simp))

@[simp] theorem State.retryMisses_keeps (s : State) : Keeps s (State.retryMisses s) := by
  unfold State.retryMisses
  refine ⟨?_, ?_⟩ <;> (try simp) <;> (repeat' (split <;> try simp))

@[simp] theorem State.endFetch_keeps (s : State) (f : Fetch) (base : Option (Bytes × Ver × Word)) (raw keep : Bool) : Keeps s (State.endFetch s f base raw keep) := by
  unfold State.endFetch
  refine ⟨?_, ?_⟩ <;> simp

end Sys2Proof.Machine
end

