-- ==== Sys2Proof/Laws/KeepsFill.lean ====
section
/-! SUPPORT. What the operations of Machine/Fill.lean keep. -/

namespace Sys2Proof.Machine

@[simp] theorem State.setServing_keeps (s : State) (b : Bool) : Keeps s (State.setServing s b) := by
  unfold State.setServing
  refine ⟨?_, ?_⟩ <;> simp

@[simp] theorem State.jnlStop_keeps (s : State) (v : Nat) : Keeps s (State.jnlStop s v) := by
  unfold State.jnlStop
  refine ⟨?_, ?_⟩ <;> simp

@[simp] theorem State.haltDevice_keeps (s : State) (stack : Nat) : Keeps s (State.haltDevice s stack) := by
  unfold State.haltDevice
  refine ⟨?_, ?_⟩ <;> simp

@[simp] theorem State.storeError_keeps (s : State) (p : Nat) : Keeps s (State.storeError s p) := by
  unfold State.storeError
  refine ⟨?_, ?_⟩ <;> (try simp) <;> (repeat' first
    | (refine fold_pending _ (fun s x => ?_) _ _ <;> try simp)
    | (refine fold_ident _ (fun s x => ?_) _ _ <;> try simp)
    | (split <;> try simp))

@[simp] theorem State.terraceError_keeps (s : State) (e : TerErr) : Keeps s (State.terraceError s e) := by
  unfold State.terraceError
  refine ⟨?_, ?_⟩ <;> (try simp) <;> (repeat' (split <;> try simp))

@[simp] theorem State.quarantine_keeps (s : State) (t : Nat) : Keeps s (State.quarantine s t) := by
  unfold State.quarantine
  refine ⟨?_, ?_⟩ <;> (try simp) <;> (repeat' (split <;> try simp))

@[simp] theorem State.relearnDone_keeps (s : State) (l : Nat) : Keeps s (State.relearnDone s l) := by
  unfold State.relearnDone
  refine ⟨?_, ?_⟩ <;> (try simp) <;> (repeat' (split <;> try simp))

@[simp] theorem State.closeFetch_keeps (s : State) (f : Fetch) (base : Option (Bytes × Ver × Word)) (raw keep : Bool) : Keeps s (State.closeFetch s f base raw keep) := by
  unfold State.closeFetch
  refine ⟨?_, ?_⟩ <;> (try simp) <;> (repeat' (split <;> try simp))

@[simp] theorem State.failFetch_keeps (s : State) (f : Fetch) : Keeps s (State.failFetch s f) := by
  unfold State.failFetch
  refine ⟨?_, ?_⟩ <;> simp

@[simp] theorem State.relearnTile_keeps (s : State) (u : Nat) : Keeps s (State.relearnTile s u) := by
  unfold State.relearnTile
  refine ⟨?_, ?_⟩ <;> (try simp) <;> (repeat' (split <;> try simp))

@[simp] theorem State.relearnLeaf_keeps (s : State) (f : Fetch) : Keeps s (State.relearnLeaf s f) := by
  unfold State.relearnLeaf
  refine ⟨?_, ?_⟩ <;> (try simp) <;> (repeat' (split <;> try simp))

@[simp] theorem State.hitFull_keeps (s : State) (f : Fetch) : Keeps s (State.hitFull s f) := by
  unfold State.hitFull
  refine ⟨?_, ?_⟩ <;> (try simp) <;> (repeat' (split <;> try simp))

@[simp] theorem State.installFill_keeps (s : State) (f : Fetch) (plain : Bytes) (seal64 : Word) (held : Bool) : Keeps s (State.installFill s f plain seal64 held) := by
  unfold State.installFill
  refine ⟨?_, ?_⟩ <;> (try simp) <;> (repeat' (split <;> try simp))

@[simp] theorem State.fillOk_keeps (s : State) (f : Fetch) (v : Ver) (r : Verified) (plain : Bytes) (seal64 : Word) : Keeps s (State.fillOk s f v r plain seal64) := by
  unfold State.fillOk
  refine ⟨?_, ?_⟩ <;> simp

@[simp] theorem State.fillFail_keeps (s : State) (f : Fetch) : Keeps s (State.fillFail s f) := by
  unfold State.fillFail
  refine ⟨?_, ?_⟩ <;> simp

@[simp] theorem State.fillVer_keeps (s : State) (t : Nat) (cws : List (Option Bytes)) : Keeps s (State.fillVer s t cws).2 := by
  unfold State.fillVer
  refine ⟨?_, ?_⟩ <;> (try simp) <;> (repeat' (split <;> try simp))

@[simp] theorem State.fillOne_keeps (s : State) (t : Nat) : Keeps s (State.fillOne s t) := by
  unfold State.fillOne
  refine ⟨?_, ?_⟩ <;> (try simp) <;> (repeat' (split <;> try simp))

@[simp] theorem State.fillStep_keeps (s : State) (t : Nat) : Keeps s (State.fillStep s t) := by
  unfold State.fillStep
  have hf := Keeps.of_fold (fun (s : State) (w : Waiter) => match w with | .leaf u => s.fillOne u | _ => s)
    (fun s w => by refine ⟨?_, ?_⟩ <;> split <;> simp) (((s.fetchOf t).map Fetch.waiters).getD []) (s.fillOne t)
  dsimp only
  split
  · exact State.fillOne_keeps s t
  · exact ⟨hf.1.trans (State.fillOne_keeps s t).1, hf.2.trans (State.fillOne_keeps s t).2⟩

@[simp] theorem State.healRecs_keeps (s : State) (t : Nat) (v : Ver) (copy : Bytes) : Keeps s (State.healRecs s t v copy) := by
  unfold State.healRecs
  refine ⟨?_, ?_⟩ <;> simp

@[simp] theorem State.repairAccept_keeps (s : State) (t : Nat) (copy : Bytes) (v : Ver) (onDemand : Bool) : Keeps s (State.repairAccept s t copy v onDemand) := by
  unfold State.repairAccept
  refine ⟨?_, ?_⟩ <;> (try simp) <;> (repeat' (split <;> try simp))

@[simp] theorem State.repairFail_keeps (s : State) (t : Nat) : Keeps s (State.repairFail s t) := by
  unfold State.repairFail
  refine ⟨?_, ?_⟩ <;> (try simp) <;> (repeat' (split <;> try simp))

@[simp] theorem State.judgeCopy_keeps (s : State) (r : Repair) (copy : Bytes) (v : Ver) : Keeps s (State.judgeCopy s r copy v) := by
  unfold State.judgeCopy
  refine ⟨?_, ?_⟩ <;> (try simp) <;> (repeat' (split <;> try simp))

end Sys2Proof.Machine
end

