-- ==== Sys2Proof/Laws/KeepsAeloAtomic.lean ====
section
/-! SUPPORT. What the operations of Machine/AeloAtomic.lean keep. -/

namespace Sys2Proof.Machine

@[simp] theorem State.atomicOp_keeps (s : State) (c : Ctx) (x : CtxSt) (d : BitVec 5) (addr : Word) (w : Nat) (op : Rmw) : Keeps s (State.atomicOp s c x d addr w op) := by
  unfold State.atomicOp
  refine ⟨?_, ?_⟩ <;> (try simp) <;> (repeat' (split <;> try simp))

end Sys2Proof.Machine
end

