-- ==== Sys2Proof/Laws/KeepsAeloCipher.lean ====
section
/-! SUPPORT. What the operations of Machine/AeloCipher.lean keep. -/

namespace Sys2Proof.Machine

@[simp] theorem State.noteCores_keeps (s : State) : Keeps s (State.noteCores s) := by
  unfold State.noteCores
  refine ⟨?_, ?_⟩ <;> simp

@[simp] theorem State.fenceCore_keeps (s : State) (i cause : Nat) : Keeps s (State.fenceCore s i cause) := by
  unfold State.fenceCore
  refine ⟨?_, ?_⟩ <;> simp

@[simp] theorem State.compareCores_keeps (s : State) : Keeps s (State.compareCores s) := by
  unfold State.compareCores
  refine ⟨?_, ?_⟩ <;> (try simp) <;> (repeat' (split <;> try simp))

@[simp] theorem State.keySlot_keeps (s : State) (k : SlotKey) : Keeps s (State.keySlot s k).2 := by
  unfold State.keySlot
  refine ⟨?_, ?_⟩ <;> (try simp) <;> (repeat' (split <;> try simp))

@[simp] theorem State.dropSlots_keeps (s : State) (p : Nat × SlotKey → Bool) : Keeps s (State.dropSlots s p) := by
  unfold State.dropSlots
  refine ⟨?_, ?_⟩ <;> simp

@[simp] theorem State.answerCall_keeps (s : State) (c : Ctx) (x : CtxSt) (f : CiphFn) (b : Bytes) (d : BitVec 5) (v : Nat) :
    Keeps s (s.answerCall c x f b d v) := by
  unfold State.answerCall
  split
  · exact State.advance_keeps ..
  · exact State.raise_keeps ..

@[simp] theorem State.cipherRun_keeps (s : State) (c : Ctx) (x : CtxSt) (f : CiphFn) (d : BitVec 5) (l : Loc) (b key : Bytes) (k : SlotKey) :
    Keeps s (s.cipherRun c x f d l b key k) := by
  unfold State.cipherRun
  refine ⟨?_, ?_⟩ <;> (try simp) <;> (repeat' first
    | (rename_i heq; have e := congrArg Prod.snd heq; simp only at e; subst e; try simp)
    | (split <;> try simp))

@[simp] theorem State.cipherCall_keeps (s : State) (c : Ctx) (x : CtxSt) (f : CiphFn) (d : BitVec 5) (blk : Word) : Keeps s (State.cipherCall s c x f d blk) := by
  unfold State.cipherCall
  split
  · exact State.raise_keeps ..
  · split
    · exact State.raise_keeps ..
    · have k := State.readLoc_keeps s c x ‹Loc› 64
      split
      · next h => rw [h] at k; exact k
      · next h =>
        rw [h] at k
        dsimp only
        split
        · exact k.trans ⟨by simp, by simp⟩
        · split
          · exact k.trans (State.answerCall_keeps ..)
          · exact k.trans (State.cipherRun_keeps ..)

end Sys2Proof.Machine
end

