-- ==== Sys2Proof/Laws/KeepsAeloWin.lean ====
section
/-! SUPPORT. What the operations of Machine/AeloWin.lean keep. -/

namespace Sys2Proof.Machine

@[simp] theorem State.mapTiles_keeps (s : State) (c : Ctx) (x : CtxSt) (w : Nat) (dpa count : Nat) (ro : Bool) : Keeps s (State.mapTiles s c x w dpa count ro) := by
  unfold State.mapTiles
  refine ⟨?_, ?_⟩ <;> simp

end Sys2Proof.Machine
end

