-- ==== Sys2Proof/Laws/KeepsTasks.lean ====
section
/-! SUPPORT. What the operations of Machine/Tasks.lean keep. -/

namespace Sys2Proof.Machine

@[simp] theorem State.startTask_keeps (s : State) (t : Task) (tag c base : Nat) : Keeps s (State.startTask s t tag c base) := by
  unfold State.startTask
  refine ⟨?_, ?_⟩ <;> simp

@[simp] theorem State.beginLoad_keeps (s : State) (p : Nat) (t : Task) (tag dpa len : Nat) (crc : Word) (reload : Bool) : Keeps s (State.beginLoad s p t tag dpa len crc reload) := by
  unfold State.beginLoad
  refine ⟨?_, ?_⟩ <;> simp

@[simp] theorem State.flipProg_keeps (s : State) (p : Nat) (j : LoadJob) : Keeps s (State.flipProg s p j) := by
  unfold State.flipProg
  refine ⟨?_, ?_⟩ <;> simp

@[simp] theorem State.cancelTask_keeps (s : State) (q num : Nat) : Keeps s (State.cancelTask s q num).2 := by
  unfold State.cancelTask
  refine ⟨?_, ?_⟩ <;> (try simp) <;> (repeat' (split <;> try simp))

@[simp] theorem State.clearProgram_keeps (s : State) (p : Nat) : Keeps s (State.clearProgram s p) := by
  unfold State.clearProgram
  refine ⟨?_, ?_⟩ <;> simp

@[simp] theorem State.fenceKiosk_keeps (s : State) (k : Fin 512) : Keeps s (State.fenceKiosk s k) := by
  unfold State.fenceKiosk
  refine ⟨?_, ?_⟩ <;> simp

@[simp] theorem State.restoreKiosk_keeps (s : State) (k : Fin 512) : Keeps s (State.restoreKiosk s k) := by
  unfold State.restoreKiosk
  refine ⟨?_, ?_⟩ <;> simp

@[simp] theorem State.disableQueue_keeps (s : State) (q : Fin 1024) : Keeps s (State.disableQueue s q) := by
  unfold State.disableQueue
  refine ⟨?_, ?_⟩ <;> simp

@[simp] theorem State.enableQueue_keeps (s : State) (q : Nat) : Keeps s (State.enableQueue s q) := by
  unfold State.enableQueue
  refine ⟨?_, ?_⟩ <;> simp

end Sys2Proof.Machine
end

