-- ==== Sys2Proof/Laws/KeepsDrain.lean ====
section
/-! SUPPORT. What the operations of Machine/Drain.lean keep. -/

namespace Sys2Proof.Machine

@[simp] theorem State.abortUnadmitted_keeps (s : State) : Keeps s (State.abortUnadmitted s) := by
  unfold State.abortUnadmitted
  repeat' first
    | with_reducible exact Keeps.refl _
    | (refine ⟨?_, ?_⟩ <;> simp <;> done)
    | (refine Keeps.trans ?_ (Keeps.of_fold _ (fun s x => ?_) _ _))
    | split
    | dsimp only

@[simp] theorem State.abortForwards_keeps (s : State) : Keeps s (State.abortForwards s) := by
  unfold State.abortForwards
  refine ⟨?_, ?_⟩ <;> (try simp) <;> (repeat' (split <;> try simp))

@[simp] theorem State.abortCxl_keeps (s : State) (i : Instr) : Keeps s (State.abortCxl s i) := by
  unfold State.abortCxl
  refine ⟨?_, ?_⟩ <;> (try simp) <;> (repeat' (split <;> try simp))

@[simp] theorem State.abortCxlAll_keeps (s : State) : Keeps s (State.abortCxlAll s) := by
  unfold State.abortCxlAll
  refine ⟨(fold_pending _ (fun s x => by split <;> (try split) <;> simp) _ _).trans ?_,
    (fold_ident _ (fun s x => by split <;> (try split) <;> simp) _ _).trans ?_⟩ <;> simp

@[simp] theorem State.abortTasks_keeps (s : State) : Keeps s (State.abortTasks s) := by
  unfold State.abortTasks
  refine ⟨?_, ?_⟩ <;> simp

@[simp] theorem State.abortWrs_keeps (s : State) : Keeps s (State.abortWrs s) := by
  unfold State.abortWrs
  refine ⟨?_, ?_⟩ <;> simp

@[simp] theorem State.spillWord_keeps (s : State) (d i : Nat) (w : Bytes) : Keeps s (State.spillWord s d i w) := by
  unfold State.spillWord
  refine ⟨?_, ?_⟩ <;> (try simp) <;> (repeat' (split <;> try simp))

@[simp] theorem State.writeDrain_keeps (s : State) (d : Nat) (cipher : Bytes) : Keeps s (State.writeDrain s d cipher) := by
  unfold State.writeDrain
  refine ⟨?_, ?_⟩ <;> simp

@[simp] theorem State.spillStreet_keeps (s : State) (st : Nat) : Keeps s (State.spillStreet s st) := by
  unfold State.spillStreet
  repeat' first
    | with_reducible exact Keeps.refl _
    | (refine ⟨?_, ?_⟩ <;> simp <;> done)
    | (refine Keeps.trans ?_ (Keeps.of_fold _ (fun s x => ?_) _ _))
    | split
    | dsimp only

@[simp] theorem State.tryDrain_keeps (s : State) : Keeps s (State.tryDrain s) := by
  unfold State.tryDrain
  refine ⟨?_, ?_⟩ <;> simp

@[simp] theorem State.commitShutdown_keeps (s : State) : Keeps s (State.commitShutdown s) := by
  unfold State.commitShutdown
  refine ⟨?_, ?_⟩ <;> simp

@[simp] theorem State.writeShut_keeps (s : State) (x : Shut) : Keeps s (State.writeShut s x) := by
  unfold State.writeShut
  refine ⟨?_, ?_⟩ <;> simp

@[simp] theorem State.drainFlash_keeps (s : State) : Keeps s (State.drainFlash s) := by
  unfold State.drainFlash
  refine ⟨?_, ?_⟩ <;> (try simp) <;> (repeat' (split <;> try simp))

@[simp] theorem State.finishDrain_keeps (s : State) (complete : Bool) : Keeps s (State.finishDrain s complete) := by
  unfold State.finishDrain
  refine ⟨?_, ?_⟩ <;> simp

@[simp] theorem State.writeModuleTable_keeps (s : State) : Keeps s (State.writeModuleTable s) := by
  unfold State.writeModuleTable
  refine ⟨?_, ?_⟩ <;> simp

@[simp] theorem State.enterSerials_keeps (s : State) : Keeps s s.enterSerials := by
  unfold State.enterSerials
  refine Keeps.trans ?_ (State.writeModuleTable_keeps _)
  refine Keeps.of_fold _ (fun s l => ?_) _ s
  split <;> exact ⟨by simp, by simp⟩

end Sys2Proof.Machine
end

