-- ==== Sys2Proof/Laws/KeepsJournal.lean ====
section
/-! SUPPORT. What the operations of Machine/Journal.lean keep. -/

namespace Sys2Proof.Machine

@[simp] theorem State.routeAway_keeps (s : State) (r : Rec) : Keeps s (s.routeAway r) := by
  unfold State.routeAway
  refine Keeps.trans (t := s.dropRec r.id) ⟨by simp, by simp⟩ ?_
  generalize s.dropRec r.id = u
  extract_lets u0 task ref p v w
  split
  · exact State.refuseRec_keeps u r .conflict
  · refine Keeps.trans ?_ (State.sendImage_keeps ..)
    have kv : Keeps u v := ⟨rfl, rfl⟩
    refine kv.trans ?_
    show Keeps v (match r.owner with | .ops tags => _ | _ => v)
    split
    · exact Keeps.of_fold _ (fun s t => by split <;> exact ⟨by simp, by simp⟩) _ v
    · exact Keeps.refl _

@[simp] theorem State.submitRec_keeps (s : State) (r : Rec) : Keeps s (State.submitRec s r) := by
  unfold State.submitRec
  refine ⟨?_, ?_⟩ <;> (try simp) <;> (repeat' (split <;> try simp))

@[simp] theorem State.submitChange_keeps (s : State) (c : ExtChange) : Keeps s (State.submitChange s c) := by
  unfold State.submitChange
  refine ⟨?_, ?_⟩ <;> (try simp) <;> (repeat' (split <;> try simp))

@[simp] theorem State.fenceEnd_keeps (s : State) (f : Fence) (st : Status) : Keeps s (State.fenceEnd s f st) := by
  unfold State.fenceEnd
  refine ⟨?_, ?_⟩ <;> (try simp) <;> (repeat' (split <;> try simp))

@[simp] theorem State.rebuildTable_keeps (s : State) : Keeps s (State.rebuildTable s) := by
  unfold State.rebuildTable
  refine ⟨?_, ?_⟩ <;> simp

@[simp] theorem State.firstStart_keeps (s : State) : Keeps s (State.firstStart s) := by
  unfold State.firstStart
  refine ⟨?_, ?_⟩ <;> simp

@[simp] theorem State.loseJournal_keeps (s : State) (flags : Nat) : Keeps s (State.loseJournal s flags) := by
  unfold State.loseJournal
  refine ⟨?_, ?_⟩ <;> simp

@[simp] theorem State.recoverRec_keeps (s : State) (mirrorJsn : Nat) (r : Rec) : Keeps s (State.recoverRec s mirrorJsn r) := by
  unfold State.recoverRec
  refine ⟨?_, ?_⟩ <;> (try simp) <;> (repeat' (split <;> try simp))

@[simp] theorem State.recoverAll_keeps (s : State) (x : Shut) (rs : List Rec) : Keeps s (State.recoverAll s x rs) := by
  unfold State.recoverAll
  refine ⟨?_, ?_⟩ <;> (try simp) <;> (repeat' (split <;> try simp))

@[simp] theorem State.reloadPrograms_keeps (s : State) : Keeps s (State.reloadPrograms s) := by
  unfold State.reloadPrograms
  refine ⟨?_, ?_⟩ <;> (try simp) <;> (repeat' first
    | (have hk := State.takeEntry_keeps (by assumption); simp [hk.1, hk.2])
    | (rename_i heq; have e := congrArg Prod.snd heq; simp only at e; subst e; try simp)
    | (refine fold_pending _ (fun s x => ?_) _ _ <;> try simp)
    | (refine fold_ident _ (fun s x => ?_) _ _ <;> try simp)
    | (split <;> try simp))

@[simp] theorem State.countStart_keeps (s : State) : Keeps s (State.countStart s) := by
  unfold State.countStart
  refine ⟨?_, ?_⟩ <;> simp

end Sys2Proof.Machine
end

