-- ==== Sys2Proof/Laws/KeepsPrmOps.lean ====
section
/-! SUPPORT. What the operations of Machine/PrmOps.lean keep. -/

namespace Sys2Proof.Machine

@[simp] theorem State.serve_keeps (s : State) : Keeps s (State.serve s) := by
  unfold State.serve
  refine ⟨?_, ?_⟩ <;> simp

@[simp] theorem State.noteResync_keeps (s : State) : Keeps s (State.noteResync s) := by
  unfold State.noteResync
  refine ⟨?_, ?_⟩ <;> simp

@[simp] theorem State.takeAck_keeps (s : State) (g ack credit : Nat) : Keeps s (State.takeAck s g ack credit) := by
  unfold State.takeAck
  refine ⟨?_, ?_⟩ <;> simp

@[simp] theorem State.giveCredit_keeps (s : State) (g n : Nat) : Keeps s (State.giveCredit s g n) := by
  unfold State.giveCredit
  refine ⟨?_, ?_⟩ <;> simp

@[simp] theorem State.sendNack_keeps (s : State) (g fsn : Nat) (crc : Bool) : Keeps s (State.sendNack s g fsn crc) := by
  unfold State.sendNack
  refine ⟨?_, ?_⟩ <;> simp

theorem State.prmRx_keeps (s : State) (f : PrmFrame) (typ : Nat) (act : State → Bytes → State) (hf : ∀ p t, Keeps t (act t p)) :
    Keeps s (s.prmRx f typ act) := by
  unfold State.prmRx
  repeat' first
    | with_reducible exact Keeps.refl _
    | (refine ⟨?_, ?_⟩ <;> simp <;> done)
    | with_reducible refine Keeps.trans ?_ (hf _ _)
    | split
    | dsimp only

@[simp] theorem State.nackImage_keeps (s : State) (fr : Frag) : Keeps s (State.nackImage s fr) := by
  unfold State.nackImage
  refine ⟨?_, ?_⟩ <;> simp

@[simp] theorem State.admitNow_keeps (s : State) (id : Nat) : Keeps s (State.admitNow s id) := by
  unfold State.admitNow
  refine ⟨?_, ?_⟩ <;> (try simp) <;> (repeat' (split <;> try simp))

@[simp] theorem State.serveRepair_keeps (s : State) (t tag : Nat) : Keeps s (State.serveRepair s t tag) := by
  unfold State.serveRepair
  refine ⟨?_, ?_⟩ <;> (try simp) <;> (repeat' (split <;> try simp))

@[simp] theorem State.takeResync_keeps (s : State) (tag : Nat) (p : Bytes) : Keeps s (State.takeResync s tag p) := by
  unfold State.takeResync
  refine ⟨?_, ?_⟩ <;> (try simp) <;> (repeat' (split <;> try simp))

@[simp] theorem State.prmTurn_keeps (s : State) : Keeps s (State.prmTurn s) := by
  unfold State.prmTurn
  refine ⟨?_, ?_⟩ <;> (try simp) <;> (repeat' first
    | (have hk := State.takeEntry_keeps (by assumption); simp [hk.1, hk.2])
    | (rename_i heq; have e := congrArg Prod.snd heq; simp only at e; subst e; try simp)
    | (refine fold_pending _ (fun s x => ?_) _ _ <;> try simp)
    | (refine fold_ident _ (fun s x => ?_) _ _ <;> try simp)
    | (split <;> try simp))

@[simp] theorem State.prmPump_keeps (s : State) : Keeps s (State.prmPump s) := by
  unfold State.prmPump
  refine ⟨?_, ?_⟩ <;> simp

@[simp] theorem State.takeRecord_keeps (s : State) (f : PrmFrame) (p : Bytes) : Keeps s (State.takeRecord s f p) := by
  unfold State.takeRecord
  refine ⟨?_, ?_⟩ <;> (try simp) <;> (repeat' (split <;> try simp))

@[simp] theorem State.takeForward_keeps (s : State) (f : PrmFrame) (p : Bytes) : Keeps s (State.takeForward s f p) := by
  unfold State.takeForward
  refine ⟨?_, ?_⟩ <;> (try simp) <;> (repeat' (split <;> try simp))

theorem State.resendList_keeps (g : Nat) (l : List TxFrame) (s : State) : Keeps s (State.resendList g l s) := by
  induction l generalizing s with
  | nil => exact Keeps.refl s
  | cons f r ih =>
    unfold State.resendList
    dsimp only
    split
    · refine Keeps.trans ?_ (ih _)
      refine ⟨?_, ?_⟩ <;> simp
    · exact Keeps.refl s

@[simp] theorem State.resendFrom_keeps (s : State) (g fsn : Nat) : Keeps s (State.resendFrom s g fsn) := State.resendList_keeps ..

@[simp] theorem State.failRepairs_keeps (s : State) : Keeps s (State.failRepairs s) := by
  unfold State.failRepairs
  refine ⟨?_, ?_⟩ <;> simp

@[simp] theorem State.dropLink_keeps (s : State) : Keeps s (State.dropLink s) := by
  unfold State.dropLink
  refine ⟨?_, ?_⟩ <;> simp

@[simp] theorem State.goSolo_keeps (s : State) (bump : Bool) : Keeps s (State.goSolo s bump) := by
  unfold State.goSolo
  refine ⟨?_, ?_⟩ <;> simp

@[simp] theorem State.goReadonly_keeps (s : State) : Keeps s s.goReadonly := by
  unfold State.goReadonly
  dsimp only
  generalize hu : (s.fset R.PRM_STAT.STATE 4).dropLink = u
  have k : Keeps s u := by rw [← hu]; exact ⟨by simp, by simp⟩
  clear hu
  refine k.trans ?_
  refine Keeps.trans ?_ (State.serve_keeps _)
  refine Keeps.trans ?_ (State.notePair_keeps _)
  refine Keeps.trans ?_ (State.lagPause_keeps _ _)
  refine Keeps.trans ?_ (State.noteLag_keeps _)
  refine Keeps.trans ?_ (Keeps.of_fold _ (fun s p => ?_) _ _)
  · show Keeps u (State.failRepairs _)
    refine Keeps.trans ?_ (State.failRepairs_keeps _)
    refine Keeps.trans ?_ (Keeps.of_fold _ (fun s f => State.fenceEnd_keeps s f .aborted) _ _)
    refine Keeps.trans ?_ (Keeps.of_fold _ (fun s p => ?_) _ _)
    · exact Keeps.trans ⟨rfl, rfl⟩ (State.giveUpAcks_keeps _)
    · split
      · exact State.tellOwner_keeps ..
      · exact State.acksDone_keeps ..
  · exact State.tellOwner_keeps ..

@[simp] theorem State.twinLost_keeps (s : State) : Keeps s (State.twinLost s) := by
  unfold State.twinLost
  refine ⟨?_, ?_⟩ <;> (try simp) <;> (repeat' (split <;> try simp))

@[simp] theorem State.downGroup_keeps (s : State) (g cause : Nat) : Keeps s (s.downGroup g cause) := by
  unfold State.downGroup
  split
  · exact Keeps.refl _
  · dsimp only
    generalize hu : (State.postD (State.setGrp _ g _) 0x0201 g cause) = u
    have k : Keeps s u := by rw [← hu]; unfold upFld widthFld; refine ⟨?_, ?_⟩ <;> split <;> simp
    clear hu
    refine k.trans ?_
    split
    · exact Keeps.of_fold _ (fun s f => State.sendOn_keeps ..) _ u
    · exact State.twinLost_keeps u

end Sys2Proof.Machine
end

