-- ==== Sys2Proof/Laws/KeepsPromenade.lean ====
section
/-! SUPPORT. What the operations of Machine/Promenade.lean keep. -/

namespace Sys2Proof.Machine

@[simp] theorem State.sendMaps_keeps (s : State) (gs : List Nat) : Keeps s (State.sendMaps s gs) := by
  unfold State.sendMaps
  refine ⟨?_, ?_⟩ <;> simp

@[simp] theorem State.beginSource_keeps (s : State) (gs : List Nat) (only : Bool) (peerHigh : Nat) : Keeps s (State.beginSource s gs only peerHigh) := by
  unfold State.beginSource
  refine ⟨?_, ?_⟩ <;> simp

@[simp] theorem State.beginTarget_keeps (s : State) (discard only : Bool) (term : Nat) : Keeps s (State.beginTarget s discard only term) := by
  unfold State.beginTarget
  refine ⟨?_, ?_⟩ <;> simp

@[simp] theorem State.resyncOver_keeps (s : State) (r : Resync) : Keeps s (State.resyncOver s r) := by
  unfold State.resyncOver
  refine ⟨?_, ?_⟩ <;> (try simp) <;> (repeat' (split <;> try simp))

@[simp] theorem State.endResync_keeps (s : State) : Keeps s (State.endResync s) := by
  unfold State.endResync
  refine ⟨?_, ?_⟩ <;> (try simp) <;> (repeat' (split <;> try simp))

@[simp] theorem State.homeSource_keeps (s : State) : Keeps s (State.homeSource s) := by
  unfold State.homeSource
  refine ⟨?_, ?_⟩ <;> (try simp) <;> (repeat' (split <;> try simp))

@[simp] theorem State.homeTarget_keeps (s : State) : Keeps s (State.homeTarget s) := by
  unfold State.homeTarget
  refine ⟨?_, ?_⟩ <;> (try simp) <;> (repeat' (split <;> try simp))

@[simp] theorem State.installResync_keeps (s : State) (r : Resync) (x : ResyncTile) : Keeps s (State.installResync s r x) := by
  unfold State.installResync
  refine ⟨?_, ?_⟩ <;> simp

@[simp] theorem State.askAttest_keeps (s : State) : Keeps s (State.askAttest s) := by
  unfold State.askAttest
  refine ⟨?_, ?_⟩ <;> (try simp) <;> (repeat' (split <;> try simp))

theorem State.establish?_keeps {s t : State} (h : s.establish? = some t) : Keeps s t := by
  unfold State.establish? at h
  split at h
  · cases h
  · cases h; exact ⟨by simp, by simp⟩

theorem State.startSolo?_keeps {s t : State} (h : s.startSolo? = some t) : Keeps s t := by
  unfold State.startSolo? at h
  split at h
  · cases h
  · split at h
    · cases h; exact ⟨by simp, by simp⟩
    · cases h

@[simp] theorem State.anchorTops_keeps (s : State) (l3 : List StoredCopy) : Keeps s (s.anchorTops l3) := by
  unfold State.anchorTops
  refine Keeps.of_fold _ (fun s i => ?_) _ s
  dsimp only
  split
  · split
    · exact ⟨by simp, by simp⟩
    · exact Keeps.refl _
  · exact Keeps.refl _

@[simp] theorem State.newRoot_keeps (s : State) : Keeps s (State.newRoot s) := by
  unfold State.newRoot
  refine ⟨?_, ?_⟩ <;> simp

@[simp] theorem State.forceSolo_keeps (s : State) (l3 : List StoredCopy) : Keeps s (State.forceSolo s l3) := by
  unfold State.forceSolo
  refine ⟨?_, ?_⟩ <;> simp

theorem State.forceSolo?_keeps {s t : State} {l3 : List StoredCopy} (h : s.forceSolo? l3 = some t) : Keeps s t := by
  unfold State.forceSolo? at h
  split at h
  · cases h
  · rw [Option.some.injEq] at h
    rw [← h]
    exact State.forceSolo_keeps ..

theorem State.admitReplacement?_keeps {s t : State} (h : s.admitReplacement? = .ok t) : Keeps s t := by
  unfold State.admitReplacement? at h
  split at h
  · cases h
  · split at h
    · cases h
    · cases h; exact Keeps.trans ⟨rfl, rfl⟩ (State.askAttest_keeps _)

@[simp] theorem State.reanchor_keeps (s : State) (t : Nat) (copy : StoredCopy) : Keeps s (State.reanchor s t copy) := by
  unfold State.reanchor
  refine ⟨?_, ?_⟩ <;> (try simp) <;> (repeat' (split <;> try simp))

@[simp] theorem State.pairFails_keeps (s : State) : Keeps s (State.pairFails s) := by
  unfold State.pairFails
  refine ⟨?_, ?_⟩ <;> simp

@[simp] theorem State.roleClash_keeps (s : State) : Keeps s (State.roleClash s) := by
  unfold State.roleClash
  refine ⟨?_, ?_⟩ <;> simp

@[simp] theorem State.newPair_keeps (s : State) (secret : BitVec 256) : Keeps s (State.newPair s secret) := by
  unfold State.newPair
  refine ⟨?_, ?_⟩ <;> simp

@[simp] theorem State.offerKeys_keeps (s : State) : Keeps s (State.offerKeys s) := by
  unfold State.offerKeys
  refine ⟨?_, ?_⟩ <;> (try simp) <;> (repeat' (split <;> try simp))

@[simp] theorem State.sendTransfer_keeps (s : State) (key : Bytes) : Keeps s (State.sendTransfer s key) := by
  unfold State.sendTransfer
  refine ⟨?_, ?_⟩ <;> (try simp) <;> (repeat' (split <;> try simp))

@[simp] theorem State.exchanged_keeps (s : State) (key : Bytes) (peerHash : BitVec 384) : Keeps s (State.exchanged s key peerHash) := by
  unfold State.exchanged
  refine ⟨?_, ?_⟩ <;> (try simp) <;> (repeat' (split <;> try simp))

@[simp] theorem State.takeExchange_keeps (s : State) (m : Bytes) : Keeps s (State.takeExchange s m) := by
  unfold State.takeExchange
  refine ⟨?_, ?_⟩ <;> (try simp) <;> (repeat' (split <;> try simp))

@[simp] theorem State.takeTransfer_keeps (s : State) (key m : Bytes) : Keeps s (State.takeTransfer s key m) := by
  unfold State.takeTransfer
  refine ⟨?_, ?_⟩ <;> (try simp) <;> (repeat' (split <;> try simp))

@[simp] theorem State.pairStep_keeps (s : State) (m : PairMsg) (f : PrmFrame) : Keeps s (State.pairStep s m f) := by
  unfold State.pairStep
  refine ⟨?_, ?_⟩ <;> (try simp) <;> (repeat' (split <;> try simp))

@[simp] theorem State.endNonce_keeps (s : State) : Keeps s (State.endNonce s) := by
  unfold State.endNonce
  refine ⟨?_, ?_⟩ <;> (try simp) <;> (repeat' (split <;> try simp))

@[simp] theorem State.askResume_keeps (s : State) : Keeps s (State.askResume s) := by
  unfold State.askResume
  refine ⟨?_, ?_⟩ <;> (try simp) <;> (repeat' (split <;> try simp))

@[simp] theorem State.sendResume_keeps (s : State) (mine peer : Bytes) : Keeps s (State.sendResume s mine peer) := by
  unfold State.sendResume
  refine ⟨?_, ?_⟩ <;> (try simp) <;> (repeat' (split <;> try simp))

@[simp] theorem State.sendAgain_keeps (s : State) (r : Rec) : Keeps s (State.sendAgain s r) := by
  unfold State.sendAgain
  refine ⟨?_, ?_⟩ <;> simp

@[simp] theorem State.pairEqual_keeps (s : State) (p : PeerState) : Keeps s (State.pairEqual s p) := by
  unfold State.pairEqual
  refine ⟨?_, ?_⟩ <;> simp

@[simp] theorem State.settlePair_keeps (s : State) (p : PeerState) : Keeps s (State.settlePair s p) := by
  unfold State.settlePair
  refine ⟨?_, ?_⟩ <;> simp

end Sys2Proof.Machine
end

