-- ==== Sys2Proof/Laws/KeepsMedia.lean ====
section
/-! SUPPORT. What the operations of Machine/Media.lean keep. -/

namespace Sys2Proof.Machine

@[simp] theorem State.flitAck_keeps (s : State) (l : Nat) (ack : BitVec 12) : Keeps s (State.flitAck s l ack) := by
  unfold State.flitAck
  refine ⟨?_, ?_⟩ <;> simp

@[simp] theorem State.protocolFault_keeps (s : State) (l : Nat) (tag : Option Nat) : Keeps s (State.protocolFault s l tag) := by
  unfold State.protocolFault
  refine ⟨?_, ?_⟩ <;> (try simp) <;> (repeat' (split <;> try simp))

@[simp] theorem State.takeData_keeps (s : State) (l tag index : Nat) (cw : Bytes) : Keeps s (State.takeData s l tag index cw) := by
  unfold State.takeData
  refine ⟨?_, ?_⟩ <;> (try simp) <;> (repeat' (split <;> try simp))

@[simp] theorem State.faultCmd_keeps (s : State) (l tag cause : Nat) : Keeps s (State.faultCmd s l tag cause) := by
  unfold State.faultCmd
  refine ⟨?_, ?_⟩ <;> simp

@[simp] theorem State.takeResp_keeps (s : State) (l tag : Nat) (status : Byte) : Keeps s (State.takeResp s l tag status) := by
  unfold State.takeResp
  refine ⟨?_, ?_⟩ <;> (try simp) <;> (repeat' (split <;> try simp))

@[simp] theorem State.quickRetrain_keeps (s : State) (l : Nat) : Keeps s (State.quickRetrain s l) := by
  unfold State.quickRetrain
  refine ⟨?_, ?_⟩ <;> simp

@[simp] theorem State.resend_keeps (s : State) (l : Nat) : Keeps s (State.resend s l) := by
  unfold State.resend
  refine ⟨?_, ?_⟩ <;> simp

@[simp] theorem State.replayAsked_keeps (s : State) (l : Nat) : Keeps s (State.replayAsked s l) := by
  unfold State.replayAsked
  refine ⟨?_, ?_⟩ <;> simp

@[simp] theorem State.askReplay_keeps (s : State) (l : Nat) : Keeps s (State.askReplay s l) := by
  unfold State.askReplay
  refine ⟨?_, ?_⟩ <;> (try simp) <;> (repeat' (split <;> try simp))

@[simp] theorem State.takeFlit_keeps (s : State) (l : Nat) (f : RxFlit) : Keeps s (State.takeFlit s l f) := by
  unfold State.takeFlit
  refine ⟨?_, ?_⟩ <;> (try simp) <;> (repeat' (split <;> try simp))

@[simp] theorem State.hearFlit_keeps (s : State) (l : Nat) (line : Bytes) : Keeps s (State.hearFlit s l line) := by
  unfold State.hearFlit
  refine ⟨?_, ?_⟩ <;> (try simp) <;> (repeat' (split <;> try simp))

@[simp] theorem State.startTraining_keeps (s : State) (l : Nat) (waive : Bool) : Keeps s (State.startTraining s l waive) := by
  unfold State.startTraining
  refine ⟨?_, ?_⟩ <;> simp

@[simp] theorem State.noteTrained_keeps (s : State) : Keeps s (State.noteTrained s) := by
  unfold State.noteTrained
  refine ⟨?_, ?_⟩ <;> simp

@[simp] theorem State.trained_keeps (s : State) (l : Nat) : Keeps s (State.trained s l) := by
  unfold State.trained
  refine ⟨?_, ?_⟩ <;> (try simp) <;> (repeat' (split <;> try simp))

@[simp] theorem State.laneRefused_keeps (s : State) : Keeps s (State.laneRefused s) := by
  unfold State.laneRefused
  refine ⟨?_, ?_⟩ <;> simp

@[simp] theorem State.laneFence_keeps (s : State) (l : Nat) : Keeps s (State.laneFence s l) := by
  unfold State.laneFence
  refine ⟨?_, ?_⟩ <;> simp

@[simp] theorem State.laneReplace_keeps (s : State) (l : Nat) : Keeps s (State.laneReplace s l) := by
  unfold State.laneReplace
  refine ⟨?_, ?_⟩ <;> simp

@[simp] theorem State.laneRetrain_keeps (s : State) (l : Nat) : Keeps s (State.laneRetrain s l) := by
  unfold State.laneRetrain
  refine ⟨?_, ?_⟩ <;> simp

@[simp] theorem State.endSweep_keeps (s : State) : Keeps s (State.endSweep s) := by
  unfold State.endSweep
  refine ⟨?_, ?_⟩ <;> simp

end Sys2Proof.Machine
end

