-- ==== Sys2Proof/Laws/KeepsTiers.lean ====
section
/-! SUPPORT. What the operations of Machine/Tiers.lean keep. -/

namespace Sys2Proof.Machine

@[simp] theorem State.lockInto_keeps (s : State) (k w : Nat) : Keeps s (State.lockInto s k w) := by
  unfold State.lockInto
  refine ⟨?_, ?_⟩ <;> (try simp) <;> (repeat' (split <;> try simp))

@[simp] theorem State.lockLine_keeps (s : State) (k : Nat) : Keeps s (State.lockLine s k) := by
  unfold State.lockLine
  refine ⟨?_, ?_⟩ <;> (try simp) <;> (repeat' (split <;> try simp))

@[simp] theorem State.startInval_keeps (s : State) (release : Bool) (count first : Nat) : Keeps s (State.startInval s release count first) := by
  unfold State.startInval
  refine ⟨?_, ?_⟩ <;> simp

@[simp] theorem State.fenceSlice_keeps (s : State) (sl : Fin 16) : Keeps s (State.fenceSlice s sl) := by
  unfold State.fenceSlice
  refine ⟨?_, ?_⟩ <;> simp

@[simp] theorem State.restoreSlice_keeps (s : State) (sl : Fin 16) : Keeps s (State.restoreSlice s sl) := by
  unfold State.restoreSlice
  refine ⟨?_, ?_⟩ <;> simp

theorem State.setWays_keeps {s t : State} {lock scratch : Nat} (h : s.setWays lock scratch = some t) : Keeps s t := by
  unfold State.setWays at h
  dsimp only at h
  split at h
  · cases h
  · simp only [Option.some.injEq] at h
    subst h
    refine ⟨?_, ?_⟩ <;> simp

@[simp] theorem State.setWaysD_keeps (s : State) (lock scratch : Nat) : Keeps s ((s.setWays lock scratch).getD s) := by
  cases h : s.setWays lock scratch with
  | none => exact ⟨rfl, rfl⟩
  | some t => exact State.setWays_keeps h

@[simp] theorem State.assignBlock_keeps (s : State) (b : Nat) (tenant : BitVec 24) : Keeps s (State.assignBlock s b tenant) := by
  unfold State.assignBlock
  refine ⟨?_, ?_⟩ <;> simp

end Sys2Proof.Machine
end

