-- ==== Sys2Proof/Laws/KeepsTurnstile.lean ====
section
/-! SUPPORT. What the operations of Machine/Turnstile.lean keep. -/

namespace Sys2Proof.Machine

@[simp] theorem State.disableOps_keeps (s : State) (p : Op → Bool) : Keeps s (State.disableOps s p) := by
  unfold State.disableOps
  refine ⟨?_, ?_⟩ <;> simp

@[simp] theorem State.disableTask_keeps (s : State) (c : Nat) : Keeps s (State.disableTask s c) := by
  unfold State.disableTask
  refine ⟨?_, ?_⟩ <;> (try simp) <;> (repeat' (split <;> try simp))

@[simp] theorem State.clearHigh_keeps (s : State) : Keeps s (State.clearHigh s) := by
  unfold State.clearHigh
  refine ⟨?_, ?_⟩ <;> (try simp) <;> (repeat' first
    | (refine fold_pending _ (fun s x => ?_) _ _ <;> try simp)
    | (refine fold_ident _ (fun s x => ?_) _ _ <;> try simp)
    | (split <;> try simp))

end Sys2Proof.Machine
end

