-- ==== Sys2Proof/Laws/KeepsNet.lean ====
section
/-! SUPPORT. What the operations of Machine/Net.lean keep. -/

namespace Sys2Proof.Machine

@[simp] theorem State.netPump_keeps (s : State) (c : Nat) : Keeps s (State.netPump s c) := by
  unfold State.netPump
  refine ⟨?_, ?_⟩ <;> simp

@[simp] theorem State.portPump_keeps (s : State) (p : Nat) : Keeps s (State.portPump s p) := by
  unfold State.portPump
  refine ⟨?_, ?_⟩ <;> simp

@[simp] theorem State.fencePort_keeps (s : State) (p : Fin 64) (cause : Nat) : Keeps s (State.fencePort s p cause) := by
  unfold State.fencePort
  refine ⟨?_, ?_⟩ <;> simp

@[simp] theorem State.netRefuse_keeps (s : State) : Keeps s (State.netRefuse s) := by
  unfold State.netRefuse
  refine ⟨?_, ?_⟩ <;> simp

@[simp] theorem State.netFence_keeps (s : State) (p : Fin 64) : Keeps s (State.netFence s p) := by
  unfold State.netFence
  refine ⟨?_, ?_⟩ <;> simp

@[simp] theorem State.netRestore_keeps (s : State) (p : Fin 64) : Keeps s (State.netRestore s p) := by
  unfold State.netRestore
  refine ⟨?_, ?_⟩ <;> simp

@[simp] theorem State.netRetrain_keeps (s : State) (p : Fin 64) : Keeps s (State.netRetrain s p) := by
  unfold State.netRetrain
  refine ⟨?_, ?_⟩ <;> simp

@[simp] theorem State.sendPfc_keeps (s : State) (p i quanta : Nat) : Keeps s (State.sendPfc s p i quanta) := by
  unfold State.sendPfc
  refine ⟨?_, ?_⟩ <;> simp

@[simp] theorem State.noteStorm_keeps (s : State) (p : Nat) : Keeps s (State.noteStorm s p) := by
  unfold State.noteStorm
  refine ⟨?_, ?_⟩ <;> simp

@[simp] theorem State.rxTake_keeps (s : State) (p i n : Nat) : Keeps s (State.rxTake s p i n) := by
  unfold State.rxTake
  refine ⟨?_, ?_⟩ <;> simp

@[simp] theorem State.rxDrain_keeps (s : State) : Keeps s (State.rxDrain s) := by
  unfold State.rxDrain
  refine ⟨?_, ?_⟩ <;> simp

@[simp] theorem State.askAddr_keeps (s : State) (p : Nat) (ip : BitVec 128) (ans : Out) : Keeps s (State.askAddr s p ip ans) := by
  unfold State.askAddr
  refine ⟨?_, ?_⟩ <;> (try simp) <;> (repeat' (split <;> try simp))

@[simp] theorem State.noConn_keeps (s : State) : Keeps s (State.noConn s) := by
  unfold State.noConn
  refine ⟨?_, ?_⟩ <;> simp

@[simp] theorem State.takePacket_keeps (s : State) (c : Nat) (f : NetFrame) : Keeps s (State.takePacket s c f) := by
  unfold State.takePacket
  refine ⟨?_, ?_⟩ <;> (try simp) <;> (repeat' (split <;> try simp))

@[simp] theorem State.noteHeld_keeps (s : State) (p : Nat) : Keeps s (State.noteHeld s p) := by
  unfold State.noteHeld
  refine ⟨?_, ?_⟩ <;> simp

@[simp] theorem State.holdRefuse_keeps (s : State) (p c : Nat) (f : NetFrame) : Keeps s (State.holdRefuse s p c f) := by
  unfold State.holdRefuse
  refine ⟨?_, ?_⟩ <;> simp

@[simp] theorem State.fetchContext_keeps (s : State) (c : Nat) : Keeps s (State.fetchContext s c) := by
  unfold State.fetchContext
  refine ⟨?_, ?_⟩ <;> (try simp) <;> (repeat' (split <;> try simp))

@[simp] theorem State.lookupContext_keeps (s : State) (p c : Nat) (f : NetFrame) : Keeps s (State.lookupContext s p c f) := by
  unfold State.lookupContext
  refine ⟨?_, ?_⟩ <;> simp

@[simp] theorem State.answerCe_keeps (s : State) (p c : Nat) : Keeps s (State.answerCe s p c) := by
  unfold State.answerCe
  refine ⟨?_, ?_⟩ <;> simp

@[simp] theorem State.transport_keeps (s : State) (p : Nat) (f : NetFrame) : Keeps s (State.transport s p f) := by
  unfold State.transport
  refine ⟨?_, ?_⟩ <;> simp

@[simp] theorem State.frameIn_keeps (s : State) (p : Nat) (f : NetFrame) : Keeps s (State.frameIn s p f) := by
  unfold State.frameIn
  refine ⟨?_, ?_⟩ <;> simp

@[simp] theorem State.netTick_keeps (s : State) : Keeps s (State.netTick s) := by
  unfold State.netTick
  refine ⟨?_, ?_⟩ <;> simp

end Sys2Proof.Machine
end

