-- ==== Sys2Proof/Laws/KeepsConn.lean ====
section
/-! SUPPORT. What the operations of Machine/Conn.lean keep. -/

namespace Sys2Proof.Machine

@[simp] theorem State.establishConn_keeps (s : State) (p a : Nat) (r : CmReq) (e : BitVec 32) (c : Nat) : Keeps s (State.establishConn s p a r e c) := by
  unfold State.establishConn
  refine ⟨?_, ?_⟩ <;> simp

end Sys2Proof.Machine
end

