-- ==== Sys2Proof/Laws/KeepsRdma.lean ====
section
/-! SUPPORT. What the operations of Machine/Rdma.lean keep. -/

namespace Sys2Proof.Machine

@[simp] theorem State.noteRevoked_keeps (s : State) (st : Status) : Keeps s (State.noteRevoked s st) := by
  unfold State.noteRevoked
  refine ⟨?_, ?_⟩ <;> simp

@[simp] theorem State.popReq_keeps (s : State) (c : Nat) : Keeps s (State.popReq s c) := by
  unfold State.popReq
  refine ⟨?_, ?_⟩ <;> simp

@[simp] theorem State.seqGap_keeps (s : State) (c : Nat) : Keeps s (State.seqGap s c) := by
  unfold State.seqGap
  refine ⟨?_, ?_⟩ <;> simp

@[simp] theorem State.rnrRefuse_keeps (s : State) (c psn : Nat) : Keeps s (State.rnrRefuse s c psn) := by
  unfold State.rnrRefuse
  refine ⟨?_, ?_⟩ <;> simp

@[simp] theorem State.refuseAt_keeps (s : State) (c psn : Nat) (st : Status) : Keeps s (State.refuseAt s c psn st) := by
  unfold State.refuseAt
  refine ⟨?_, ?_⟩ <;> simp

@[simp] theorem State.tookReq_keeps (s : State) (c n : Nat) (last : Bool) : Keeps s (State.tookReq s c n last) := by
  unfold State.tookReq
  refine ⟨?_, ?_⟩ <;> simp

@[simp] theorem State.answerDup_keeps (s : State) (c psn : Nat) (p : TxPkt) : Keeps s (State.answerDup s c psn p) := by
  unfold State.answerDup
  refine ⟨?_, ?_⟩ <;> simp

theorem State.request_keeps (s : State) (c : Nat) (ops : List Nat) (dup take : Pkt → State → State)
    (hd : ∀ p t, Keeps s t → Keeps s (dup p t)) (hf : ∀ p t, Keeps s t → Keeps s (take p t)) : Keeps s (s.request c ops dup take) := by
  unfold State.request
  dsimp only
  split
  · exact Keeps.refl _
  repeat' split
  · exact Keeps.refl _
  · exact ⟨by simp, by simp⟩
  · exact Keeps.refl _
  · exact ⟨by simp, by simp⟩
  · exact hf _ _ (State.popReq_keeps s c)
  · exact ⟨by simp, by simp⟩
  · exact hd _ _ (State.popReq_keeps s c)

@[simp] theorem State.ackDup_keeps (c : Nat) (p : Pkt) (s : State) : Keeps s (State.ackDup c p s) := by
  unfold State.ackDup
  refine ⟨?_, ?_⟩ <;> simp

theorem State.memOp_keeps (c : Nat) (f : Pkt → State → State) (p : Pkt) (s : State) (hf : ∀ p t, Keeps t (f p t)) :
    Keeps s (State.memOp c f p s) := by
  unfold State.memOp
  repeat' first
    | with_reducible exact Keeps.refl _
    | (refine ⟨?_, ?_⟩ <;> simp <;> done)
    | with_reducible refine Keeps.trans ?_ (hf _ _)
    | split
    | dsimp only

@[simp] theorem State.takeWrite_keeps (c : Nat) (p : Pkt) (s : State) : Keeps s (State.takeWrite c p s) := by
  unfold State.takeWrite
  refine ⟨?_, ?_⟩ <;> (try simp) <;> (repeat' first
    | (have hk := State.takeEntry_keeps (by assumption); simp [hk.1, hk.2])
    | (rename_i heq; have e := congrArg Prod.snd heq; simp only at e; subst e; try simp)
    | (refine fold_pending _ (fun s x => ?_) _ _ <;> try simp)
    | (refine fold_ident _ (fun s x => ?_) _ _ <;> try simp)
    | (split <;> try simp))

@[simp] theorem State.serveRead_keeps (s : State) (c tag psn a n : Nat) : Keeps s (State.serveRead s c tag psn a n) := by
  unfold State.serveRead
  refine ⟨?_, ?_⟩ <;> (try simp) <;> (repeat' first
    | (have hk := State.takeEntry_keeps (by assumption); simp [hk.1, hk.2])
    | (rename_i heq; have e := congrArg Prod.snd heq; simp only at e; subst e; try simp)
    | (refine fold_pending _ (fun s x => ?_) _ _ <;> try simp)
    | (refine fold_ident _ (fun s x => ?_) _ _ <;> try simp)
    | (split <;> try simp))

@[simp] theorem State.takeRead_keeps (c : Nat) (p : Pkt) (s : State) : Keeps s (State.takeRead c p s) := by
  unfold State.takeRead
  refine ⟨?_, ?_⟩ <;> (try simp) <;> (repeat' first
    | (have hk := State.takeEntry_keeps (by assumption); simp [hk.1, hk.2])
    | (rename_i heq; have e := congrArg Prod.snd heq; simp only at e; subst e; try simp)
    | (refine fold_pending _ (fun s x => ?_) _ _ <;> try simp)
    | (refine fold_ident _ (fun s x => ?_) _ _ <;> try simp)
    | (split <;> try simp))

@[simp] theorem State.dupRead_keeps (c : Nat) (p : Pkt) (s : State) : Keeps s (State.dupRead c p s) := by
  unfold State.dupRead
  refine ⟨?_, ?_⟩ <;> (try simp) <;> (repeat' (split <;> try simp))

@[simp] theorem State.takeAtomic_keeps (c : Nat) (p : Pkt) (a : Nat) (key : BitVec 32) (r : Right) (kind : OpKind) (op : Rmw) (s : State) : Keeps s (State.takeAtomic c p a key r kind op s) := by
  unfold State.takeAtomic
  refine ⟨?_, ?_⟩ <;> (try simp) <;> (repeat' first
    | (have hk := State.takeEntry_keeps (by assumption); simp [hk.1, hk.2])
    | (rename_i heq; have e := congrArg Prod.snd heq; simp only at e; subst e; try simp)
    | (refine fold_pending _ (fun s x => ?_) _ _ <;> try simp)
    | (refine fold_ident _ (fun s x => ?_) _ _ <;> try simp)
    | (split <;> try simp))

@[simp] theorem State.takeAtomicEth_keeps (c : Nat) (swap : Bool) (p : Pkt) (s : State) : Keeps s (State.takeAtomicEth c swap p s) := by
  unfold State.takeAtomicEth
  refine ⟨?_, ?_⟩ <;> simp

@[simp] theorem State.dupAtomic_keeps (c : Nat) (p : Pkt) (s : State) : Keeps s (State.dupAtomic c p s) := by
  unfold State.dupAtomic
  refine ⟨?_, ?_⟩ <;> (try simp) <;> (repeat' (split <;> try simp))

@[simp] theorem State.takeAtomicWrite_keeps (c : Nat) (p : Pkt) (s : State) : Keeps s (State.takeAtomicWrite c p s) := by
  unfold State.takeAtomicWrite
  refine ⟨?_, ?_⟩ <;> simp

@[simp] theorem State.takeFlush_keeps (c : Nat) (p : Pkt) (s : State) : Keeps s (State.takeFlush c p s) := by
  unfold State.takeFlush
  refine ⟨?_, ?_⟩ <;> (try simp) <;> (repeat' first
    | (have hk := State.takeEntry_keeps (by assumption); simp [hk.1, hk.2])
    | (rename_i heq; have e := congrArg Prod.snd heq; simp only at e; subst e; try simp)
    | (refine fold_pending _ (fun s x => ?_) _ _ <;> try simp)
    | (refine fold_ident _ (fun s x => ?_) _ _ <;> try simp)
    | (split <;> try simp))

end Sys2Proof.Machine
end

