-- ==== Sys2Proof/Laws/KeepsSends.lean ====
section
/-! SUPPORT. What the operations of Machine/Sends.lean keep. -/

namespace Sys2Proof.Machine

theorem State.takeSend_keeps {c : Nat} {run : Bytes → State → Option (SendOut × State)} {p : Pkt} {s t : State}
    (hr : ∀ b u r, run b u = some r → Keeps u r.2) (h : State.takeSend c run p s = some t) : Keeps s t := by
  unfold State.takeSend at h
  split at h
  · cases h; exact State.refuseReq_keeps ..
  · simp only [Option.some.injEq] at h
    rw [← h]
    exact ⟨by simp, by simp⟩
  · next b imm hb =>
    split at h
    · cases h; exact State.rnrRefuse_keeps ..
    · next tag u hu =>
      have ku : Keeps s u := State.takeEntry_keeps hu
      have hrun : ∀ r, (if b = [] ∧ imm.isSome then some (SendOut.done .ok, u) else run b u) = some r → Keeps u r.2 := by
        intro r hr'
        split at hr'
        · cases hr'; exact Keeps.refl _
        · exact hr _ _ _ hr'
      split at h
      · cases h
      · cases h; exact State.rnrRefuse_keeps ..
      · next st v hv =>
        have kv := ku.trans (hrun _ hv)
        simp only [Option.some.injEq] at h
        rw [← h]
        refine kv.trans ?_
        generalize hw : State.resolve _ tag st = w
        have kw : Keeps v w := by rw [← hw]; exact ⟨by simp, by simp⟩
        refine kw.trans ?_
        split
        · split
          · exact State.gateMessage_keeps ..
          · exact Keeps.refl _
        · exact Keeps.refl _

theorem State.sendRow_keeps (s : State) (c magic : Nat) (run : Bytes → State → SendOut × State) (hr : ∀ b u, Keeps u (run b u).2) :
    Keeps s (s.sendRow c magic run) := by
  unfold State.sendRow
  refine State.request_keeps _ _ _ _ _ (fun p t k => k.trans (State.ackDup_keeps ..)) fun p t k => ?_
  cases h : State.takeSend c _ p t with
  | none => exact Keeps.refl _
  | some u =>
    refine k.trans (State.takeSend_keeps (fun b v r hv => ?_) h)
    split at hv
    · cases hv
    · split at hv
      · cases hv; exact Keeps.refl _
      · cases hv; exact hr _ _

@[simp] theorem State.acceptMgmt_keeps (s : State) (b : Bytes) (src : MgmtSrc) : Keeps s (State.acceptMgmt s b src) := by
  unfold State.acceptMgmt
  refine ⟨?_, ?_⟩ <;> simp

@[simp] theorem State.runTasks_keeps (c : Nat) (b : Bytes) (s : State) : Keeps s (State.runTasks c b s).2 := by
  unfold State.runTasks
  refine ⟨?_, ?_⟩ <;> (try simp) <;> (repeat' (split <;> try simp))

theorem State.tenantOnly_keeps (c : Nat) (f : Bytes → State → SendOut × State) (b : Bytes) (s : State) (hf : ∀ b t, Keeps t (f b t).2) :
    Keeps s (State.tenantOnly c f b s).2 := by
  unfold State.tenantOnly
  repeat' first
    | with_reducible exact Keeps.refl _
    | (refine ⟨?_, ?_⟩ <;> simp <;> done)
    | with_reducible refine Keeps.trans ?_ (hf _ _)
    | split
    | dsimp only

@[simp] theorem State.runPlan_keeps (c : Conn) (b : Bytes) (s : State) : Keeps s (State.runPlan c b s).2 := by
  unfold State.runPlan
  refine ⟨?_, ?_⟩ <;> (try simp) <;> (repeat' (split <;> try simp))

@[simp] theorem State.runRegister_keeps (c : Nat) (b : Bytes) (s : State) : Keeps s (State.runRegister c b s).2 := by
  unfold State.runRegister
  refine ⟨?_, ?_⟩ <;> (try simp) <;> (repeat' (split <;> try simp))

@[simp] theorem State.runRevoke_keeps (c : Nat) (b : Bytes) (s : State) : Keeps s (State.runRevoke c b s).2 := by
  unfold State.runRevoke
  refine ⟨?_, ?_⟩ <;> (try simp) <;> (repeat' (split <;> try simp))

theorem State.keyRow_keeps (s : State) (c action : Nat) (run : Bytes → State → SendOut × State) (hr : ∀ b u, Keeps u (run b u).2) :
    Keeps s (s.keyRow c action run) := by
  unfold State.keyRow
  refine State.request_keeps _ _ _ _ _ (fun p t k => k.trans (State.ackDup_keeps ..)) fun p t k => ?_
  cases h : State.takeSend c _ p t with
  | none => exact Keeps.refl _
  | some u =>
    refine k.trans (State.takeSend_keeps (fun b v r hv => ?_) h)
    split at hv
    · cases hv
    · split at hv
      · cases hv; exact Keeps.refl _
      · cases hv; exact State.tenantOnly_keeps _ _ _ _ hr

@[simp] theorem State.poolWr_keeps (s : State) (w : Wr) : Keeps s (State.poolWr s w) := by
  unfold State.poolWr
  refine ⟨?_, ?_⟩ <;> simp

@[simp] theorem State.runPost_keeps (c : Nat) (b : Bytes) (s : State) : Keeps s (State.runPost c b s).2 := by
  unfold State.runPost
  refine ⟨?_, ?_⟩ <;> (try simp) <;> (repeat' (split <;> try simp))

end Sys2Proof.Machine
end

