-- ==== Sys2Proof/Laws/KeepsWorks.lean ====
section
/-! SUPPORT. What the operations of Machine/Works.lean keep. -/

namespace Sys2Proof.Machine

@[simp] theorem State.rttUpTo_keeps (s : State) (c psn : Nat) : Keeps s (State.rttUpTo s c psn) := by
  unfold State.rttUpTo
  refine ⟨?_, ?_⟩ <;> simp

@[simp] theorem State.dropWr_keeps (s : State) (id : Nat) : Keeps s (State.dropWr s id) := by
  unfold State.dropWr
  refine ⟨?_, ?_⟩ <;> simp

@[simp] theorem State.failWr_keeps (s : State) (c : Nat) (w : Wr) (st : Status) : Keeps s (State.failWr s c w st) := by
  unfold State.failWr
  refine ⟨?_, ?_⟩ <;> (try simp) <;> (repeat' (split <;> try simp))

@[simp] theorem State.ackUpTo_keeps (s : State) (c psn : Nat) : Keeps s (s.ackUpTo c psn) := by
  unfold State.ackUpTo
  dsimp only
  refine Keeps.trans (State.rttUpTo_keeps s c psn) ?_
  generalize s.rttUpTo c psn = u
  refine Keeps.of_fold_snd _ (fun p w => ?_) _ (false, u)
  split
  · split
    · exact Keeps.refl _
    · split
      · exact Keeps.refl _
      · split
        · exact ⟨by simp, by simp⟩
        · exact ⟨by simp, by simp⟩
  · exact Keeps.refl _

@[simp] theorem State.resendWrs_keeps (s : State) (c : Nat) : Keeps s (State.resendWrs s c) := by
  unfold State.resendWrs
  refine ⟨?_, ?_⟩ <;> simp

@[simp] theorem State.startXfer_keeps (s : State) : Keeps s (State.startXfer s) := by
  unfold State.startXfer
  refine ⟨?_, ?_⟩ <;> (try simp) <;> (repeat' (split <;> try simp))

@[simp] theorem State.startXfers_keeps (s : State) : Keeps s (State.startXfers s) := by
  unfold State.startXfers
  refine ⟨?_, ?_⟩ <;> simp

end Sys2Proof.Machine
end

