-- ==== Sys2Proof/Laws/KeepsCxl.lean ====
section
/-! SUPPORT. What the operations of Machine/Cxl.lean keep. -/

namespace Sys2Proof.Machine

@[simp] theorem State.loadLine_keeps (s : State) (l tag a : Nat) : Keeps s (State.loadLine s l tag a) := by
  unfold State.loadLine
  refine ⟨?_, ?_⟩ <;> (try simp) <;> (repeat' first
    | (have hk := State.takeEntry_keeps (by assumption); simp [hk.1, hk.2])
    | (rename_i heq; have e := congrArg Prod.snd heq; simp only at e; subst e; try simp)
    | (refine fold_pending _ (fun s x => ?_) _ _ <;> try simp)
    | (refine fold_ident _ (fun s x => ?_) _ _ <;> try simp)
    | (split <;> try simp))

@[simp] theorem State.closeComb_keeps (s : State) (l t : Nat) : Keeps s (State.closeComb s l t) := by
  unfold State.closeComb
  refine ⟨?_, ?_⟩ <;> (try simp) <;> (repeat' (split <;> try simp))

@[simp] theorem State.storeLine_keeps (s : State) (l tag a : Nat) (d : Vec) (be : BitVec 64) (poison : Bool) : Keeps s (State.storeLine s l tag a d be poison) := by
  unfold State.storeLine
  refine ⟨?_, ?_⟩ <;> (try simp) <;> (repeat' (split <;> try simp))

@[simp] theorem State.unholdRead_keeps (s : State) (tag : Nat) (o : Op) : Keeps s (State.unholdRead s tag o) := by
  unfold State.unholdRead
  refine ⟨?_, ?_⟩ <;> (try simp) <;> (repeat' (split <;> try simp))

@[simp] theorem State.unholdReads_keeps (s : State) : Keeps s (State.unholdReads s) := by
  unfold State.unholdReads
  refine ⟨(fold_pending _ (fun s x => by split <;> (try split) <;> simp) _ _).trans ?_,
    (fold_ident _ (fun s x => by split <;> (try split) <;> simp) _ _).trans ?_⟩ <;> simp

theorem State.cxlTry_keeps {s t : State} {i : Instr} (h : s.cxlTry i = some t) : Keeps s t := by
  unfold State.cxlTry at h
  split at h
  · dsimp only at h
    obtain ⟨⟨n, u⟩, hu, rfl⟩ := Option.map_eq_some_iff.mp h
    refine (State.takeEntry_keeps hu).trans ?_
    dsimp only
    split
    · exact State.loadLine_keeps ..
    · exact Keeps.refl _
  · obtain ⟨⟨n, u⟩, hu, rfl⟩ := Option.map_eq_some_iff.mp h
    exact (State.takeEntry_keeps hu).trans (State.storeLine_keeps ..)
  · split at h
    · cases h
    · cases h; exact ⟨rfl, rfl⟩
  · cases h; exact ⟨rfl, rfl⟩

@[simp] theorem State.cxlPump_keeps (s : State) (p : Nat) : Keeps s (s.cxlPump p) := by
  unfold State.cxlPump
  refine (State.unholdReads_keeps s).trans (Keeps.of_fold_snd _ (fun q i => ?_) _ (false, s.unholdReads))
  by_cases c : q.1 = true ∨ reqPort i ≠ p
  · rw [if_pos c]; exact Keeps.refl _
  · rw [if_neg c]
    dsimp only
    generalize hw : ({ q.2 with cxl := { q.2.cxl with rxq := q.2.cxl.rxq.erase i } } : State) = w
    have kw : Keeps q.2 w := by rw [← hw]; exact ⟨rfl, rfl⟩
    cases hu : w.cxlTry i with
    | some t => exact kw.trans (State.cxlTry_keeps hu)
    | none => exact Keeps.refl _

@[simp] theorem State.cxlArrive_keeps (s : State) (p : Nat) (i : Instr) : Keeps s (State.cxlArrive s p i) := by
  unfold State.cxlArrive
  refine ⟨?_, ?_⟩ <;> simp

@[simp] theorem State.ldEvent_keeps (s : State) (l : Nat) (e : LdEvent) : Keeps s (State.ldEvent s l e) := by
  unfold State.ldEvent
  refine ⟨?_, ?_⟩ <;> simp

@[simp] theorem State.dcRefuse_keeps (s : State) : Keeps s (State.dcRefuse s) := by
  unfold State.dcRefuse
  refine ⟨?_, ?_⟩ <;> simp

@[simp] theorem State.notePending_keeps (s : State) (l : Nat) : Keeps s (State.notePending s l) := by
  unfold State.notePending
  refine ⟨?_, ?_⟩ <;> simp

@[simp] theorem State.dcOffer_keeps (s : State) (l : Fin 32) (e : Fin 524288) : Keeps s (State.dcOffer s l e) := by
  unfold State.dcOffer
  refine ⟨?_, ?_⟩ <;> simp

@[simp] theorem State.dcWithdraw_keeps (s : State) (l : Fin 32) (e : Fin 524288) : Keeps s (State.dcWithdraw s l e) := by
  unfold State.dcWithdraw
  refine ⟨?_, ?_⟩ <;> simp

@[simp] theorem State.unaccept_keeps (s : State) (l e : Nat) : Keeps s (State.unaccept s l e) := by
  unfold State.unaccept
  refine ⟨?_, ?_⟩ <;> simp

@[simp] theorem State.mailbox_keeps (s : State) (l : Fin 32) (code : Nat) (data : List Nat) : Keeps s (State.mailbox s l code data) := by
  unfold State.mailbox
  refine ⟨?_, ?_⟩ <;> simp

@[simp] theorem State.doeAnswer_keeps (s : State) (l : Fin 32) (code : Nat) : Keeps s (State.doeAnswer s l code) := by
  unfold State.doeAnswer
  refine ⟨?_, ?_⟩ <;> simp

@[simp] theorem State.denied_keeps (s : State) : Keeps s (State.denied s) := by
  unfold State.denied
  refine ⟨?_, ?_⟩ <;> simp

@[simp] theorem State.ringError_keeps (s : State) (l : Fin 32) (r : Fin 8) : Keeps s (State.ringError s l r) := by
  unfold State.ringError
  refine ⟨?_, ?_⟩ <;> simp

@[simp] theorem State.ringUnbind_keeps (s : State) (i : Nat) : Keeps s (State.ringUnbind s i) := by
  unfold State.ringUnbind
  refine ⟨?_, ?_⟩ <;> simp

@[simp] theorem State.ringPump_keeps (s : State) (l : Fin 32) (r : Fin 8) : Keeps s (State.ringPump s l r) := by
  unfold State.ringPump
  refine ⟨?_, ?_⟩ <;> simp

@[simp] theorem State.ringBase_keeps (s : State) (l : Fin 32) (r : Fin 8) (v : Word) : Keeps s (State.ringBase s l r v) := by
  unfold State.ringBase
  refine ⟨?_, ?_⟩ <;> simp

@[simp] theorem State.ciAddr_keeps (s : State) (l : Fin 32) (r : Fin 8) (v : Word) : Keeps s (State.ciAddr s l r v) := by
  unfold State.ciAddr
  refine ⟨?_, ?_⟩ <;> simp

@[simp] theorem State.doorbell_keeps (s : State) (l : Fin 32) (r : Fin 8) (v : Word) : Keeps s (State.doorbell s l r v) := by
  unfold State.doorbell
  refine ⟨?_, ?_⟩ <;> simp

@[simp] theorem State.planStatAddr_keeps (s : State) (l : Fin 32) (v : Word) : Keeps s (State.planStatAddr s l v) := by
  unfold State.planStatAddr
  refine ⟨?_, ?_⟩ <;> simp

@[simp] theorem State.planSubmit_keeps (s : State) (l : Fin 32) (v : Word) : Keeps s (State.planSubmit s l v) := by
  unfold State.planSubmit
  refine ⟨?_, ?_⟩ <;> simp

@[simp] theorem State.doorStore_keeps (s : State) (l : Fin 32) (w : Nat) (v : Word) : Keeps s (State.doorStore s l w v) := by
  unfold State.doorStore
  refine ⟨?_, ?_⟩ <;> (try simp) <;> (repeat' (split <;> try simp))

@[simp] theorem State.noteBound_keeps (s : State) (p : Nat) : Keeps s (State.noteBound s p) := by
  unfold State.noteBound
  refine ⟨?_, ?_⟩ <;> simp

@[simp] theorem State.ldReset_keeps (s : State) (l : Fin 32) : Keeps s (State.ldReset s l) := by
  unfold State.ldReset
  refine ⟨?_, ?_⟩ <;> simp

@[simp] theorem State.cxlReset_keeps (s : State) (p : Fin 2) : Keeps s (State.cxlReset s p) := by
  unfold State.cxlReset
  refine ⟨?_, ?_⟩ <;> simp

@[simp] theorem State.cxlRefuse_keeps (s : State) : Keeps s (State.cxlRefuse s) := by
  unfold State.cxlRefuse
  refine ⟨?_, ?_⟩ <;> simp

@[simp] theorem State.cxlFence_keeps (s : State) (p : Fin 2) : Keeps s (State.cxlFence s p) := by
  unfold State.cxlFence
  refine ⟨?_, ?_⟩ <;> simp

@[simp] theorem State.cxlRestore_keeps (s : State) (p : Fin 2) : Keeps s (State.cxlRestore s p) := by
  unfold State.cxlRestore
  refine ⟨?_, ?_⟩ <;> simp

@[simp] theorem State.cxlRetrain_keeps (s : State) (p : Fin 2) : Keeps s (State.cxlRetrain s p) := by
  unfold State.cxlRetrain
  refine ⟨?_, ?_⟩ <;> simp

@[simp] theorem State.cxlTick_keeps (s : State) : Keeps s (State.cxlTick s) := by
  unfold State.cxlTick
  refine ⟨?_, ?_⟩ <;> simp

end Sys2Proof.Machine
end

