-- ==== Sys2Proof/Laws/KeepsGatehouse.lean ====
section
/-! SUPPORT. What the operations of Machine/Gatehouse.lean keep. -/

namespace Sys2Proof.Machine

@[simp] theorem State.formAttr_keeps (s : State) (a : Attr) (owner : Owner) : Keeps s (State.formAttr s a owner) := by
  unfold State.formAttr
  refine ⟨?_, ?_⟩ <;> simp

@[simp] theorem State.createTenant_keeps (s : State) (t : BitVec 24) (who : Nat) : Keeps s (State.createTenant s t who) := by
  unfold State.createTenant
  refine ⟨?_, ?_⟩ <;> simp

@[simp] theorem State.destroyTenant_keeps (s : State) (t : BitVec 24) (who : Nat) : Keeps s (State.destroyTenant s t who) := by
  unfold State.destroyTenant
  refine ⟨?_, ?_⟩ <;> simp

@[simp] theorem State.putWords_keeps (s : State) (all : Bytes) (l : List Nat) : Keeps s (State.putWords s all l) := by
  unfold State.putWords
  refine ⟨?_, ?_⟩ <;> (try simp) <;> (repeat' first
    | (refine fold_pending _ (fun s x => ?_) _ _ <;> try simp)
    | (refine fold_ident _ (fun s x => ?_) _ _ <;> try simp)
    | (split <;> try simp))

@[simp] theorem State.putResponse_keeps (s : State) (body : Bytes) : Keeps s (s.putResponse body) := by
  rw [State.putResponse]
  generalize signedResponse body = b
  generalize List.range 818 = l
  have k := State.putWords_keeps s b l
  exact ⟨(State.fset_pending _ _ _).trans k.1, (State.fset_ident _ _ _ (by simp)).trans k.2⟩

@[simp] theorem State.refuseEnrol_keeps (s : State) (tenant st : Nat) : Keeps s (State.refuseEnrol s tenant st) := by
  unfold State.refuseEnrol
  refine ⟨?_, ?_⟩ <;> simp

@[simp] theorem State.enrol_keeps (s : State) (n : Nat) (sigs : Bool) : Keeps s (State.enrol s n sigs) := by
  unfold State.enrol
  refine ⟨?_, ?_⟩ <;> (try simp) <;> (repeat' (split <;> try simp))

@[simp] theorem State.coreFence_keeps (s : State) (i : Nat) : Keeps s (State.coreFence s i) := by
  unfold State.coreFence
  refine ⟨?_, ?_⟩ <;> simp

@[simp] theorem State.coreRestore_keeps (s : State) (i : Nat) (kat : Bool) : Keeps s (State.coreRestore s i kat) := by
  unfold State.coreRestore
  refine ⟨?_, ?_⟩ <;> simp

end Sys2Proof.Machine
end

