-- ==== Sys2Proof/Laws/KeepsPowerOps.lean ====
section
/-! SUPPORT. What the operations of Machine/PowerOps.lean keep. -/

namespace Sys2Proof.Machine

@[simp] theorem State.supLog_keeps (s : State) (code value rail : Nat) : Keeps s (State.supLog s code value rail) := by
  unfold State.supLog
  refine ⟨?_, ?_⟩ <;> simp

@[simp] theorem State.pm_keeps (s : State) (rail code data : Nat) : Keeps s (State.pm s rail code data) := by
  unfold State.pm
  refine ⟨?_, ?_⟩ <;> simp

@[simp] theorem State.pmTry_keeps (rail code n : Nat) (ts : List PmTry) (s : State) : Keeps s (State.pmTry rail code n ts s).2.2 := by
  induction n generalizing ts s with
  | zero => cases ts <;> exact Keeps.refl _
  | succ n ih =>
    rcases ts with _ | ⟨_ | _ | _, ts⟩ <;> unfold State.pmTry
    · exact State.pm_keeps _ _ _ _
    · exact State.pm_keeps _ _ _ _
    · exact (State.pm_keeps _ _ _ _).trans (ih _ _)
    · exact ((State.pm_keeps _ _ _ _).trans (State.sat_keeps _ _ _ (by decide))).trans (ih _ _)

@[simp] theorem State.setVcore_keeps (s : State) (mv : Nat) : Keeps s (State.setVcore s mv) := by
  unfold State.setVcore
  refine ⟨?_, ?_⟩ <;> simp

@[simp] theorem State.railOn_keeps (s : State) (r : Nat) : Keeps s (State.railOn s r) := by
  unfold State.railOn
  refine ⟨?_, ?_⟩ <;> simp

@[simp] theorem State.railIsOff_keeps (s : State) (r mv : Nat) : Keeps s (State.railIsOff s r mv) := by
  unfold State.railIsOff
  refine ⟨?_, ?_⟩ <;> simp

@[simp] theorem State.railFails_keeps (s : State) (r cause code mv : Nat) : Keeps s (State.railFails s r cause code mv) := by
  unfold State.railFails
  refine ⟨?_, ?_⟩ <;> simp

@[simp] theorem State.latch_keeps (s : State) (rail cause : Nat) : Keeps s (State.latch s rail cause) := by
  unfold State.latch
  refine ⟨?_, ?_⟩ <;> simp

end Sys2Proof.Machine
end

