-- ==== Sys2Proof/Laws/KeepsCore14.lean ====
section
/-! SUPPORT. What the operations of Machine/Core14.lean keep. -/

namespace Sys2Proof.Machine

@[simp] theorem State.publishPace_keeps (s : State) (q v : Nat) : Keeps s (State.publishPace s q v) := by
  unfold State.publishPace
  refine ⟨?_, ?_⟩ <;> simp

@[simp] theorem State.clearMinmax_keeps (s : State) : Keeps s (State.clearMinmax s) := by
  unfold State.clearMinmax
  refine ⟨?_, ?_⟩ <;> (try simp) <;> (repeat' first
    | (refine fold_pending _ (fun s x => ?_) _ _ <;> try simp)
    | (refine fold_ident _ (fun s x => ?_) _ _ <;> try simp)
    | (split <;> try simp))

@[simp] theorem State.stepDone_keeps (s : State) : Keeps s (State.stepDone s) := by
  unfold State.stepDone
  refine ⟨?_, ?_⟩ <;> (try simp) <;> (repeat' (split <;> try simp))

@[simp] theorem State.vcoreStep_keeps (s : State) (w : Nat) : Keeps s (State.vcoreStep s w) := by
  unfold State.vcoreStep
  refine ⟨?_, ?_⟩ <;> (try simp) <;> (repeat' (split <;> try simp))

@[simp] theorem State.heldStep_keeps (s : State) : Keeps s (State.heldStep s) := by
  unfold State.heldStep
  refine ⟨?_, ?_⟩ <;> (try simp) <;> (repeat' (split <;> try simp))

end Sys2Proof.Machine
end

