-- ==== Sys2Proof/Laws/KeepsDomains.lean ====
section
/-! SUPPORT. What the operations of Machine/Domains.lean keep. -/

namespace Sys2Proof.Machine

@[simp] theorem State.cutJob_keeps (s : State) (job : Option FlsJob) : Keeps s (State.cutJob s job) := by
  unfold State.cutJob
  refine ⟨?_, ?_⟩ <;> (try simp) <;> (repeat' (split <;> try simp))

@[simp] theorem State.resetFls_keeps (s : State) : Keeps s s.resetFls := by
  unfold State.resetFls
  refine ⟨by simp, ?_⟩
  have k : Keeps s ((s.cutJob s.fls.job0).cutJob s.fls.job1) := ⟨by simp, by simp⟩
  rw [← k.2]
  dsimp only
  generalize (s.cutJob s.fls.job0).cutJob s.fls.job1 = u
  simp only [List.filter_filter]
  apply List.filter_congr
  intro p _
  simp only [identKey]
  by_cases c : p.1 < 64
  · have : ¬ (0x300000 * 64 ≤ p.1 ∧ p.1 < 0x400000 * 64) := by omega
    simp [c, this]
  · simp [c]

@[simp] theorem State.aonIslands_keeps (s : State) (jtag : Nat) : Keeps s (State.aonIslands s jtag) := by
  unfold State.aonIslands
  refine ⟨?_, ?_⟩ <;> simp

theorem kept_and (m : AMap Nat) : List.filter (fun a => identKey a && keptKey a.1) m = List.filter identKey m := by
  apply List.filter_congr
  intro p _
  simp only [identKey, keptKey]
  by_cases c : p.1 < 64 <;> simp [c]

@[simp] theorem State.resetData_keeps (s : State) : Keeps s s.resetData := by
  unfold State.resetData
  refine ⟨by simp, ?_⟩
  simp [kept_and]

@[simp] theorem State.resetSup_keeps (s : State) : Keeps s s.resetSup := by
  unfold State.resetSup
  refine ⟨by simp, ?_⟩
  rw [← (State.setCtx_keeps s 4096 {}).2]
  generalize s.setCtx 4096 {} = u
  simp only [List.filter_filter]
  apply List.filter_congr
  intro p _
  simp only [identKey]
  by_cases c : p.1 < 64
  · have : p.1 / 64 ≠ 0x108 := by omega
    simp [c, this]
  · simp [c]

@[simp] theorem State.resetCore_keeps (s : State) : Keeps s (State.resetCore s) := by
  unfold State.resetCore
  refine ⟨?_, ?_⟩ <;> simp

@[simp] theorem State.loadPair_keeps (s : State) : Keeps s (State.loadPair s) := by
  unfold State.loadPair
  refine ⟨?_, ?_⟩ <;> (try simp) <;> (repeat' (split <;> try simp))

end Sys2Proof.Machine
end

