-- ==== Sys2Proof/Laws/KeepsPower.lean ====
section
/-! SUPPORT. What the operations of Machine/Power.lean keep. -/

namespace Sys2Proof.Machine

@[simp] theorem State.startUnits_keeps (s : State) (g : Nat) : Keeps s (State.startUnits s g) := by
  unfold State.startUnits
  refine ⟨?_, ?_⟩ <;> (try simp) <;> (repeat' first
    | (refine fold_pending _ (fun s x => ?_) _ _ <;> try simp)
    | (refine fold_ident _ (fun s x => ?_) _ _ <;> try simp)
    | (split <;> try simp))

@[simp] theorem State.fenceUnits_keeps (s : State) (g : Nat) : Keeps s (State.fenceUnits s g) := by
  unfold State.fenceUnits
  repeat' first
    | with_reducible exact Keeps.refl _
    | (refine ⟨?_, ?_⟩ <;> simp <;> done)
    | (refine Keeps.trans ?_ (Keeps.of_fold _ (fun s x => ?_) _ _))
    | split
    | dsimp only

@[simp] theorem State.fenceGroup_keeps (s : State) (g mv : Nat) : Keeps s (State.fenceGroup s g mv) := by
  unfold State.fenceGroup
  refine ⟨?_, ?_⟩ <;> simp

@[simp] theorem State.groupRestored_keeps (s : State) (g : Nat) : Keeps s (State.groupRestored s g) := by
  unfold State.groupRestored
  refine ⟨?_, ?_⟩ <;> simp

@[simp] theorem State.powerGroup_keeps (s : State) (g : Nat) : Keeps s (State.powerGroup s g) := by
  unfold State.powerGroup
  refine ⟨?_, ?_⟩ <;> simp

@[simp] theorem State.pumpRestores_keeps (s : State) : Keeps s (State.pumpRestores s) := by
  unfold State.pumpRestores
  refine ⟨?_, ?_⟩ <;> (try simp) <;> (repeat' (split <;> try simp))

@[simp] theorem State.restoreGroupCmd_keeps (s : State) (g : Nat) : Keeps s (State.restoreGroupCmd s g) := by
  unfold State.restoreGroupCmd
  refine ⟨?_, ?_⟩ <;> simp

@[simp] theorem State.offEnds_keeps (s : State) (why : OffWhy) : Keeps s (State.offEnds s why) := by
  unfold State.offEnds
  refine ⟨?_, ?_⟩ <;> (try simp) <;> (repeat' (split <;> try simp))

@[simp] theorem State.nextOff_keeps (n : Nat) (s : State) : Keeps s (State.nextOff n s) := by
  induction n generalizing s with
  | zero => exact ⟨rfl, rfl⟩
  | succ n ih =>
    rw [State.nextOff]
    repeat' first
      | with_reducible exact Keeps.refl _
      | exact State.offEnds_keeps _ _
      | exact ih _
      | (refine ⟨?_, ?_⟩ <;> simp <;> done)
      | split
      | dsimp only

@[simp] theorem State.goDown_keeps (s : State) (l : List OffStep) (why : OffWhy) : Keeps s (s.goDown l why) := by
  unfold State.goDown
  repeat' first
    | with_reducible exact Keeps.refl _
    | exact State.nextOff_keeps _ _
    | (refine Keeps.trans ?_ (State.nextOff_keeps _ _))
    | split

@[simp] theorem State.stageEnds_keeps (s : State) : Keeps s (s.stageEnds ) := by
  unfold State.stageEnds
  repeat' first
    | with_reducible exact Keeps.refl _
    | exact State.nextOff_keeps _ _
    | (refine Keeps.trans ?_ (State.nextOff_keeps _ _))
    | split

@[simp] theorem State.afterDrainOff_keeps (s : State) : Keeps s (s.afterDrainOff ) := by
  unfold State.afterDrainOff
  repeat' first
    | with_reducible exact Keeps.refl _
    | exact State.nextOff_keeps _ _
    | (refine Keeps.trans ?_ (State.nextOff_keeps _ _))
    | split

@[simp] theorem State.criticalStop_keeps (s : State) (rail cause : Nat) : Keeps s (State.criticalStop s rail cause) := by
  unfold State.criticalStop
  refine ⟨?_, ?_⟩ <;> simp

@[simp] theorem State.stopDrain_keeps (s : State) : Keeps s (State.stopDrain s) := by
  unfold State.stopDrain
  refine ⟨?_, ?_⟩ <;> simp

@[simp] theorem State.enterSeq_keeps (s : State) (n : Nat) : Keeps s (s.enterSeq n) := by
  unfold State.enterSeq
  dsimp only
  generalize hu : (s.fset R.PWR_STAT.SEQ_STATE n).supLog 0x34 n 0 = u
  have k : Keeps s u := by rw [← hu]; refine ⟨?_, ?_⟩ <;> simp
  clear hu
  refine k.trans ?_
  have up : ∀ l : List Nat, Keeps u (l.foldl (fun s r => (s.fset (R.PWR_RAIL_STAT.STATE r) 1).fset (R.PWR_RAIL_STAT.CAUSE r) 0) u) :=
    fun l => Keeps.of_fold _ (fun s r => ⟨by simp, by simp⟩) l u
  have down : ∀ l : List Nat, Keeps u (l.foldl (fun s r =>
      (s.railIsOff r (s.fget (R.PWR_RAIL_STAT.MON_MV r))).fset (R.PWR_RAIL_STAT.STATE r) 0) u) :=
    fun l => Keeps.of_fold _ (fun s r => ⟨by simp, by simp⟩) l u
  split
  · split
    · exact Keeps.trans (t := { u with pwr := { u.pwr with seqHeld := false } }) ⟨rfl, rfl⟩ (State.nextOff_keeps 80 _)
    · exact ⟨rfl, rfl⟩
  split
  · refine ⟨?_, ?_⟩ <;> first | (simp; done) | (simp only []; exact (up _).1) | (simp; exact (up _).1) | (simp; exact (up _).2)
  split
  · refine ⟨?_, ?_⟩ <;> first | (simp; done) | (simp only []; exact (up _).1) | (simp; exact (up _).1) | (simp; exact (up _).2)
  split
  · refine ⟨?_, ?_⟩ <;> first | (simp; done) | (simp only []; exact (up _).1) | (simp; exact (up _).1) | (simp; exact (up _).2)
  split
  · exact ⟨rfl, rfl⟩
  split
  · refine ⟨?_, ?_⟩ <;> first | (simp; done) | (simp only []; exact (down _).1) | (simp; exact (down _).1) | (simp; exact (down _).2)
  split
  · refine ⟨?_, ?_⟩ <;> first | (simp; done) | (simp only []; exact (down _).1) | (simp; exact (down _).1) | (simp; exact (down _).2)
  · refine ⟨?_, ?_⟩ <;> first | (simp; done) | (simp only []; exact (down _).1) | (simp; exact (down _).1) | (simp; exact (down _).2)

@[simp] theorem State.seqSettle_keeps (s : State) : Keeps s (State.seqSettle s) := by
  unfold State.seqSettle
  refine ⟨?_, ?_⟩ <;> simp

@[simp] theorem State.seqAbort_keeps (s : State) (rail cause : Nat) : Keeps s (State.seqAbort s rail cause) := by
  unfold State.seqAbort
  refine ⟨?_, ?_⟩ <;> simp

@[simp] theorem State.startPowerUp_keeps (s : State) : Keeps s s.startPowerUp := by
  unfold State.startPowerUp
  dsimp only
  split
  · refine Keeps.trans ?_ (State.enterSeq_keeps _ _)
    refine ⟨?_, ?_⟩ <;> simp
  · refine ⟨?_, ?_⟩ <;> simp

@[simp] theorem State.sampleStraps_keeps (s : State) (senior seqMode : Bool) : Keeps s (State.sampleStraps s senior seqMode) := by
  unfold State.sampleStraps
  refine ⟨?_, ?_⟩ <;> simp

@[simp] theorem State.comeUpFails_keeps (s : State) (rail cause : Nat) : Keeps s (State.comeUpFails s rail cause) := by
  unfold State.comeUpFails
  refine ⟨?_, ?_⟩ <;> simp

@[simp] theorem State.upNext_keeps (s : State) (r : Nat) : Keeps s (State.upNext s r) := by
  unfold State.upNext
  refine ⟨?_, ?_⟩ <;> (try simp) <;> (repeat' (split <;> try simp))

@[simp] theorem State.groupWaves_keeps (s : State) (g : Nat) : Keeps s (State.groupWaves s g) := by
  unfold State.groupWaves
  refine ⟨?_, ?_⟩ <;> simp

@[simp] theorem State.releaseWave_keeps (s : State) (w : Nat) : Keeps s (s.releaseWave w) := by
  unfold State.releaseWave
  dsimp only
  generalize hu : (s.fset R.PWR_STAT.WAVE w).supLog 0x20 0 w = u
  have k : Keeps s u := by rw [← hu]; refine ⟨?_, ?_⟩ <;> simp
  clear hu
  refine k.trans ?_
  have run : ∀ l : List Nat, Keeps u (l.foldl (fun s i => s.fset (R.SUP_ISL_STAT.STATE i) 1) u) :=
    fun l => Keeps.of_fold _ (fun s r => ⟨by simp, by simp⟩) l u
  have sq : ∀ l : List Nat, Keeps u (l.foldl (fun s q => s.fset (R.KSK_SQUARE_STAT.KIOSKS_UP q) (s.kiosksUp q)) u) :=
    fun l => Keeps.of_fold _ (fun s r => ⟨by simp, by simp⟩) l u
  generalize hv : (if w = 1 then _ else _ : State) = v
  have kv : Keeps u v := by
    rw [← hv]
    repeat' split
    all_goals first
      | with_reducible exact sq _
      | exact ⟨by simp, by simp⟩
  clear hv
  refine kv.trans ?_
  generalize hx : (if w = 16 then v.noteTrained else v) = x
  have kx : Keeps v x := by rw [← hx]; split <;> exact ⟨by simp, by simp⟩
  clear hx
  refine kx.trans ?_
  split <;> exact ⟨by simp, by simp⟩

@[simp] theorem State.goCmd_keeps (s : State) : Keeps s (State.goCmd s) := by
  unfold State.goCmd
  refine ⟨?_, ?_⟩ <;> simp

@[simp] theorem State.commit_keeps (s : State) : Keeps s (State.commit s) := by
  unfold State.commit
  refine ⟨?_, ?_⟩ <;> simp

@[simp] theorem State.clearLatch_keeps (s : State) : Keeps s (State.clearLatch s) := by
  unfold State.clearLatch
  refine ⟨?_, ?_⟩ <;> simp

@[simp] theorem State.attend_keeps (s : State) (addr : Nat) (status : List (Fin 56 × BitVec 16)) : Keeps s (State.attend s addr status) := by
  unfold State.attend
  repeat' first
    | with_reducible exact Keeps.refl _
    | (refine ⟨?_, ?_⟩ <;> simp <;> done)
    | (refine Keeps.trans ?_ (Keeps.of_fold _ (fun s x => ?_) _ _))
    | split
    | dsimp only

@[simp] theorem State.readRail_keeps (s : State) (rail code : Nat) (tries : List PmTry) : Keeps s (State.readRail s rail code tries).2.2 := by
  unfold State.readRail
  dsimp only
  split
  · exact (State.pmTry_keeps _ _ _ _ _).trans (State.heldStep_keeps _)
  · exact ((State.pmTry_keeps _ _ _ _ _).trans (State.supLog_keeps _ _ _ _)).trans (State.heldStep_keeps _)

@[simp] theorem State.clearPeak_keeps (s : State) : Keeps s (State.clearPeak s) := by
  unfold State.clearPeak
  refine ⟨?_, ?_⟩ <;> simp

end Sys2Proof.Machine
end

