-- ==== Sys2Proof/Laws/KeepsReset.lean ====
section
/-! SUPPORT. What the operations of Machine/Reset.lean keep. -/

namespace Sys2Proof.Machine

@[simp] theorem State.restart_keeps (s : State) (cause : Nat) : Keeps s (State.restart s cause) := by
  unfold State.restart
  refine ⟨?_, ?_⟩ <;> simp

@[simp] theorem State.takeReset_keeps (s : State) : Keeps s (State.takeReset s) := by
  unfold State.takeReset
  refine ⟨?_, ?_⟩ <;> (try simp) <;> (repeat' (split <;> try simp))

@[simp] theorem State.requestReset_keeps (s : State) (cause : Nat) : Keeps s (State.requestReset s cause) := by
  unfold State.requestReset
  refine ⟨?_, ?_⟩ <;> simp

@[simp] theorem State.drainEnded_keeps (s : State) : Keeps s (State.drainEnded s) := by
  unfold State.drainEnded
  refine ⟨?_, ?_⟩ <;> simp

@[simp] theorem State.loadTap_keeps (s : State) (i : TapInstr) (dr : List Bool) : Keeps s (State.loadTap s i dr) := by
  unfold State.loadTap
  refine ⟨?_, ?_⟩ <;> simp

@[simp] theorem State.deviceResetCmd_keeps (s : State) : Keeps s (State.deviceResetCmd s) := by
  unfold State.deviceResetCmd
  refine ⟨?_, ?_⟩ <;> simp

@[simp] theorem State.warmRestart_keeps (s : State) (cause : Nat) : Keeps s (State.warmRestart s cause) := by
  unfold State.warmRestart
  refine ⟨?_, ?_⟩ <;> simp

@[simp] theorem State.belvedereRestartCmd_keeps (s : State) : Keeps s (State.belvedereRestartCmd s) := by
  unfold State.belvedereRestartCmd
  refine ⟨?_, ?_⟩ <;> simp

@[simp] theorem State.kick_keeps (s : State) : Keeps s (State.kick s) := by
  unfold State.kick
  refine ⟨?_, ?_⟩ <;> simp

@[simp] theorem State.romCommit_keeps (s : State) (st img fb tries : Nat) : Keeps s (State.romCommit s st img fb tries) := by
  unfold State.romCommit
  refine ⟨?_, ?_⟩ <;> simp

@[simp] theorem State.selectImage_keeps (s : State) (ok : Nat → Bool) : Keeps s (State.selectImage s ok).2 := by
  unfold State.selectImage
  refine ⟨?_, ?_⟩ <;> (try simp) <;> (repeat' (split <;> try simp))

@[simp] theorem State.loadSram_keeps (s : State) (img : Nat) : Keeps s (State.loadSram s img) := by
  unfold State.loadSram
  refine ⟨?_, ?_⟩ <;> simp

@[simp] theorem State.startSetup_keeps (s : State) : Keeps s (State.startSetup s) := by
  unfold State.startSetup
  refine ⟨?_, ?_⟩ <;> simp

end Sys2Proof.Machine
end

