-- ==== Sys2Proof/Laws/KeepsFlash.lean ====
section
/-! SUPPORT. What the operations of Machine/Flash.lean keep. -/

namespace Sys2Proof.Machine

@[simp] theorem State.flsSay_keeps (s : State) (r : FlsResult) : Keeps s (State.flsSay s r) := by
  unfold State.flsSay
  refine ⟨?_, ?_⟩ <;> simp

@[simp] theorem State.setJob_keeps (s : State) (bank : Nat) (j : Option FlsJob) : Keeps s (State.setJob s bank j) := by
  unfold State.setJob
  refine ⟨?_, ?_⟩ <;> simp

@[simp] theorem State.putBuf_keeps (s : State) (k : Nat) (b : Bytes) : Keeps s (State.putBuf s k b) := by
  unfold State.putBuf
  refine ⟨?_, ?_⟩ <;> (try simp) <;> (repeat' first
    | (refine fold_pending _ (fun s x => ?_) _ _ <;> try simp)
    | (refine fold_ident _ (fun s x => ?_) _ _ <;> try simp)
    | (split <;> try simp))

@[simp] theorem State.readWords_keeps (i : Nat) (ecc : List (Nat × EccResult)) (n k : Nat) (s : State) :
    Keeps s (State.readWords i ecc n k s) := by
  induction n generalizing k s with
  | zero => rw [State.readWords]; refine ⟨?_, ?_⟩ <;> simp
  | succ n ih =>
    rw [State.readWords]
    split
    · refine ⟨?_, ?_⟩ <;> simp
    · exact Keeps.trans ⟨by simp, by simp⟩ (ih _ _)
    · exact Keeps.trans ⟨by simp, by simp⟩ (ih _ _)

@[simp] theorem State.flsStart_keeps (s : State) (op : Nat) (arg : Word) : Keeps s (State.flsStart s op arg) := by
  unfold State.flsStart
  refine ⟨?_, ?_⟩ <;> simp

@[simp] theorem State.flsUnlock_keeps (s : State) (sec : Nat) (pw : Word) : Keeps s (State.flsUnlock s sec pw) := by
  unfold State.flsUnlock
  refine ⟨?_, ?_⟩ <;> simp

@[simp] theorem State.flsCommand_keeps (s : State) (op count addr : Nat) (arg : Word) (ecc : List (Nat × EccResult)) :
    Keeps s (s.flsCommand op count addr arg ecc) := by
  unfold State.flsCommand
  dsimp only
  split
  · exact Keeps.refl _
  split
  · split
    · exact State.flsSay_keeps ..
    · have k := State.flsStart_keeps s op 0
      generalize s.flsStart op 0 = u at k ⊢
      split
      · exact k.trans (State.setJob_keeps ..)
      · split
        · exact k.trans (State.setJob_keeps ..)
        · split
          · exact ⟨by simp, by simp⟩
          · exact k.trans (State.readWords_keeps ..)
  · split
    · exact State.flsUnlock_keeps ..
    · split
      · split
        · exact State.flsSay_keeps ..
        · split
          · exact State.flsSay_keeps ..
          · exact ⟨by simp, by simp⟩
      · exact State.flsSay_keeps ..

@[simp] theorem State.flsDrop_keeps (s : State) : Keeps s (State.flsDrop s) := by
  unfold State.flsDrop
  refine ⟨?_, ?_⟩ <;> simp

@[simp] theorem State.flsStray_keeps (s : State) : Keeps s (State.flsStray s) := by
  unfold State.flsStray
  refine ⟨?_, ?_⟩ <;> simp

@[simp] theorem State.flsKeyWrite_keeps (s : State) (v : Word) : Keeps s (State.flsKeyWrite s v) := by
  unfold State.flsKeyWrite
  refine ⟨?_, ?_⟩ <;> (try simp) <;> (repeat' (split <;> try simp))

@[simp] theorem State.flsCmdWrite_keeps (s : State) (v : Word) : Keeps s (State.flsCmdWrite s v) := by
  unfold State.flsCmdWrite
  refine ⟨?_, ?_⟩ <;> (try simp) <;> (repeat' (split <;> try simp))

@[simp] theorem State.flsAddrWrite_keeps (s : State) (v : Word) : Keeps s (State.flsAddrWrite s v) := by
  unfold State.flsAddrWrite
  refine ⟨?_, ?_⟩ <;> (try simp) <;> (repeat' (split <;> try simp))

@[simp] theorem State.flsArgWrite_keeps (s : State) (v : Word) : Keeps s (State.flsArgWrite s v) := by
  unfold State.flsArgWrite
  refine ⟨?_, ?_⟩ <;> (try simp) <;> (repeat' (split <;> try simp))

@[simp] theorem State.keyed_keeps (s : State) (op count addr : Nat) (arg : Word) (ecc : List (Nat × EccResult)) : Keeps s (State.keyed s op count addr arg ecc) := by
  unfold State.keyed
  refine ⟨?_, ?_⟩ <;> simp

@[simp] theorem State.programWords_keeps (i k : Nat) (l : List Bytes) (s : State) : Keeps s (State.programWords i k l s) := by
  induction l generalizing k s with
  | nil => rw [State.programWords]; refine ⟨?_, ?_⟩ <;> simp
  | cons b r ih =>
    rw [State.programWords]
    split
    · refine ⟨?_, ?_⟩ <;> simp
    · exact Keeps.trans ⟨by simp, by simp⟩ (ih _ _)

@[simp] theorem State.dropLines_keeps (s : State) (bank : Nat) : Keeps s (State.dropLines s bank) := by
  unfold State.dropLines
  refine ⟨?_, ?_⟩ <;> simp

@[simp] theorem State.commitFromArg_keeps (s : State) : Keeps s (State.commitFromArg s) := by
  unfold State.commitFromArg
  refine ⟨?_, ?_⟩ <;> simp

end Sys2Proof.Machine
end

