-- ==== Sys2Proof/Laws/KeepsTwoWire.lean ====
section
/-! SUPPORT. What the operations of Machine/TwoWire.lean keep. -/

namespace Sys2Proof.Machine

@[simp] theorem State.busNack_keeps (s : State) (pec : Bool) : Keeps s (State.busNack s pec) := by
  unfold State.busNack
  refine ⟨?_, ?_⟩ <;> simp

@[simp] theorem State.hearMctp_keeps (s : State) (p : MctpPacket) : Keeps s (State.hearMctp s p) := by
  unfold State.hearMctp
  refine ⟨?_, ?_⟩ <;> (try simp) <;> (repeat' (split <;> try simp))

@[simp] theorem State.arbLost_keeps (s : State) (p : MctpPacket) : Keeps s (State.arbLost s p) := by
  unfold State.arbLost
  refine ⟨?_, ?_⟩ <;> (try simp) <;> (repeat' (split <;> try simp))

@[simp] theorem State.mctpAnswer_keeps (s : State) (dst : BitVec 7) (cmd : Byte) (d : Bytes) : Keeps s (State.mctpAnswer s dst cmd d) := by
  unfold State.mctpAnswer
  refine ⟨?_, ?_⟩ <;> simp

@[simp] theorem State.setSession_keeps (s : State) (n : Nat) (x : Option Session) : Keeps s (State.setSession s n x) := by
  unfold State.setSession
  refine ⟨?_, ?_⟩ <;> simp

@[simp] theorem State.openSession_keeps (s : State) (both : Bool) (hash : BitVec 384) : Keeps s (State.openSession s both hash) := by
  unfold State.openSession
  refine ⟨?_, ?_⟩ <;> simp

end Sys2Proof.Machine
end

