-- ==== Sys2Proof/Laws/KeepsStatus.lean ====
section
/-! SUPPORT. What the operations of Machine/Status.lean keep. -/

namespace Sys2Proof.Machine

@[simp] theorem State.cqOverrun_keeps (s : State) (c : Nat) : Keeps s (State.cqOverrun s c) := by
  unfold State.cqOverrun
  refine ⟨?_, ?_⟩ <;> simp

@[simp] theorem State.cqBase_keeps (s : State) (c : Nat) (v : Word) : Keeps s (State.cqBase s c v) := by
  unfold State.cqBase
  refine ⟨?_, ?_⟩ <;> simp

@[simp] theorem State.flushTarget_keeps (s : State) (t : Nat) : Keeps s (State.flushTarget s t) := by
  unfold State.flushTarget
  refine ⟨?_, ?_⟩ <;> simp

@[simp] theorem State.targetWrite_keeps (s : State) (t : Nat) (v : Word) : Keeps s (State.targetWrite s t v) := by
  unfold State.targetWrite
  refine ⟨?_, ?_⟩ <;> simp

end Sys2Proof.Machine
end

