-- ==== Sys2Proof/Laws/KeepsJtag.lean ====
section
/-! SUPPORT. What the operations of Machine/Jtag.lean keep. -/

namespace Sys2Proof.Machine

@[simp] theorem State.driveTap_keeps (s : State) (i : TapInstr) (dr : List Bool) : Keeps s (State.driveTap s i dr) := by
  unfold State.driveTap
  refine ⟨?_, ?_⟩ <;> simp

@[simp] theorem State.recover_keeps (s : State) (op : RecoverOp) : Keeps s (State.recover s op) := by
  unfold State.recover
  refine ⟨?_, ?_⟩ <;> (try simp) <;> (repeat' (split <;> try simp))

end Sys2Proof.Machine
end

