-- ==== Sys2Proof/Laws/RegTable.lean ====
section
/-! SUPPORT. The register at offset 0 has no field that a store sets (R3, R16): every writable field of the tables lies above it. -/

namespace Sys2Proof.Machine

/-- Every field of `l` that is not RO lies above the register at offset 0. -/
abbrev Above (l : List RegDesc) : Prop := ∀ d ∈ l, ∀ p ∈ d.fields, p.1 = .ro ∨ ∀ n, 8 ≤ (p.2 n).off

theorem above_0 : Above regTable0 := by simp only [Above, regTable0, List.forall_mem_cons]; simp [-List.mem_cons]
theorem above_1 : Above regTable1 := by simp only [Above, regTable1, List.forall_mem_cons]; simp [-List.mem_cons]
theorem above_2 : Above regTable2 := by simp only [Above, regTable2, List.forall_mem_cons]; simp [-List.mem_cons]
theorem above_3 : Above regTable3 := by simp only [Above, regTable3, List.forall_mem_cons]; simp [-List.mem_cons]
theorem above_4 : Above regTable4 := by simp only [Above, regTable4, List.forall_mem_cons]; simp [-List.mem_cons]
theorem above_5 : Above regTable5 := by simp only [Above, regTable5, List.forall_mem_cons]; simp [-List.mem_cons]
theorem above_6 : Above regTable6 := by simp only [Above, regTable6, List.forall_mem_cons]; simp [-List.mem_cons]
theorem above_7 : Above regTable7 := by simp only [Above, regTable7, List.forall_mem_cons]; simp [-List.mem_cons]
theorem above_8 : Above regTable8 := by simp only [Above, regTable8, List.forall_mem_cons]; simp [-List.mem_cons]
theorem above_9 : Above regTable9 := by simp only [Above, regTable9, List.forall_mem_cons]; simp [-List.mem_cons]
theorem above_map : Above regTableMap := by
  intro d h p hp
  obtain ⟨w, n, rfl⟩ : ∃ w n, d = mapWords w n := by
    simp only [regTableMap, List.mem_cons, List.not_mem_nil, or_false] at h
    rcases h with rfl | rfl | rfl <;> exact ⟨_, _, rfl⟩
  obtain ⟨b, -, rfl⟩ := List.mem_map.mp hp
  right; intro n; simp [R.MED_MAP.LANE]; omega
theorem above_enrol : Above regTableEnrol := by simp only [Above, regTableEnrol, List.forall_mem_cons]; simp [-List.mem_cons]

theorem above_table : Above regTable := by
  intro d h
  simp only [regTable, List.mem_append] at h
  rcases h with ((((((((((h | h) | h) | h) | h) | h) | h) | h) | h) | h) | h) | h
  exacts [above_0 d h, above_1 d h, above_2 d h, above_3 d h, above_4 d h, above_5 d h, above_6 d h, above_7 d h, above_8 d h, above_9 d h,
    above_map d h, above_enrol d h]

theorem writable_off {off : Nat} {p : Acc × Fld} (h : p ∈ fieldsAt off) (hw : p.1 ≠ .ro) : 8 ≤ p.2.off := by
  unfold fieldsAt at h
  split at h
  · cases h
  · next d hd =>
    obtain ⟨q, hq, rfl⟩ := List.mem_map.mp h
    rcases above_table d (List.mem_of_find?_eq_some hd) q hq with e | e
    · exfalso; apply hw; simp only [accFor, e]; split <;> [rfl; split <;> rfl]
    · exact e _

end Sys2Proof.Machine
end

