-- ==== Sys2Proof/Laws/KeepsRegCheck.lean ====
section
/-! SUPPORT. What the operations of Machine/RegCheck.lean keep. -/

namespace Sys2Proof.Machine

@[simp] theorem State.putReg_keeps (s : State) (off : Nat) (v : Word) : Keeps s (s.putReg off v) := by
  unfold State.putReg
  have h : ∀ l : List (Acc × Fld), (∀ p ∈ l, p.1 ≠ .ro → 8 ≤ p.2.off) → ∀ s : State, Keeps s (l.foldl (fun (s : State) p =>
      match p.1 with
      | .rw => s.fset p.2 (v.toNat / 2 ^ p.2.lo)
      | .w1c => if v.getLsbD p.2.lo then s.fset p.2 0 else s
      | _ => s) s) := by
    intro l
    induction l with
    | nil => intro _ s; exact Keeps.refl _
    | cons p r ih =>
      intro hl s
      refine Keeps.trans ?_ (ih (fun q hq => hl q (List.mem_cons_of_mem _ hq)) _)
      have hp := hl p List.mem_cons_self
      obtain ⟨a, f⟩ := p
      cases a
      · exact Keeps.refl _
      · exact ⟨rfl, State.fset_ident _ _ _ (hp (by simp))⟩
      · dsimp only
        split
        · exact ⟨rfl, State.fset_ident _ _ _ (hp (by simp))⟩
        · exact Keeps.refl _
      · exact Keeps.refl _
      · exact Keeps.refl _
  exact h _ (fun p hp hw => writable_off hp hw) s

@[simp] theorem State.putAll_keeps (s : State) (l : List (Nat × Word)) : Keeps s (State.putAll s l) := by
  unfold State.putAll
  refine ⟨?_, ?_⟩ <;> simp

end Sys2Proof.Machine
end

