-- ==== Sys2Proof/Laws/KeepsRegisters.lean ====
section
/-! SUPPORT. What the operations of Machine/Registers.lean keep. -/

namespace Sys2Proof.Machine

@[simp] theorem State.drawCopies_keeps (s : State) : Keeps s s.drawCopies.2 := ⟨rfl, rfl⟩

@[simp] theorem State.pairCmd_keeps (s : State) (n : Nat) : Keeps s (s.pairCmd n).1 := by
  unfold State.pairCmd
  dsimp only
  split
  · cases h : s.establish? with
    | some t => exact State.establish?_keeps h
    | none => exact Keeps.refl _
  split
  · cases h : s.startSolo? with
    | some t => exact State.startSolo?_keeps h
    | none => exact Keeps.refl _
  split
  · cases h : s.admitReplacement? with
    | ok t => exact State.admitReplacement?_keeps h
    | error e => exact Keeps.refl _
  split
  · have k := State.drawCopies_keeps s
    generalize s.drawCopies = q at k ⊢
    cases h : q.2.forceSolo? q.1 with
    | some t => exact k.trans (State.forceSolo?_keeps h)
    | none => exact Keeps.refl _
  · exact Keeps.refl _

@[simp] theorem State.laneCmd_keeps (s : State) (n : Nat) : Keeps s (State.laneCmd s n) := by
  unfold State.laneCmd
  refine ⟨?_, ?_⟩ <;> (try simp) <;> (repeat' (split <;> try simp))

@[simp] theorem State.lockCmd_keeps (s : State) (n : Nat) : Keeps s (State.lockCmd s n) := by
  unfold State.lockCmd
  refine ⟨?_, ?_⟩ <;> (try simp) <;> (repeat' (split <;> try simp))

@[simp] theorem State.sliceCmd_keeps (s : State) (n : Nat) : Keeps s (State.sliceCmd s n) := by
  unfold State.sliceCmd
  refine ⟨?_, ?_⟩ <;> (try simp) <;> (repeat' (split <;> try simp))

@[simp] theorem State.kioskCmd_keeps (s : State) (n : Nat) : Keeps s (State.kioskCmd s n) := by
  unfold State.kioskCmd
  refine ⟨?_, ?_⟩ <;> (try simp) <;> (repeat' (split <;> try simp))

@[simp] theorem State.progCmd_keeps (s : State) (n : Nat) : Keeps s (State.progCmd s n) := by
  unfold State.progCmd
  refine ⟨?_, ?_⟩ <;> (try simp) <;> (repeat' (split <;> try simp))

@[simp] theorem State.netCmd_keeps (s : State) (n : Nat) : Keeps s (State.netCmd s n) := by
  unfold State.netCmd
  refine ⟨?_, ?_⟩ <;> (try simp) <;> (repeat' (split <;> try simp))

@[simp] theorem State.cxlCmd_keeps (s : State) (n : Nat) : Keeps s (State.cxlCmd s n) := by
  unfold State.cxlCmd
  refine ⟨?_, ?_⟩ <;> (try simp) <;> (repeat' (split <;> try simp))

@[simp] theorem State.dcCmd_keeps (s : State) (n : Nat) : Keeps s (State.dcCmd s n) := by
  unfold State.dcCmd
  refine ⟨?_, ?_⟩ <;> (try simp) <;> (repeat' (split <;> try simp))

@[simp] theorem State.coreCmd_keeps (s : State) (n : Nat) : Keeps s (State.coreCmd s n) := by
  unfold State.coreCmd
  refine ⟨?_, ?_⟩ <;> (try simp) <;> (repeat' (split <;> try simp))

@[simp] theorem State.tenCmd_keeps (s : State) (who n : Nat) : Keeps s (State.tenCmd s who n) := by
  unfold State.tenCmd
  refine ⟨?_, ?_⟩ <;> (try simp) <;> (repeat' (split <;> try simp))

@[simp] theorem State.enrolCmd_keeps (s : State) (n : Nat) : Keeps s (State.enrolCmd s n) := by
  unfold State.enrolCmd
  refine ⟨?_, ?_⟩ <;> (try simp) <;> (repeat' (split <;> try simp))

@[simp] theorem State.waveCmd_keeps (s : State) (n : Nat) : Keeps s (State.waveCmd s n) := by
  unfold State.waveCmd
  refine ⟨?_, ?_⟩ <;> (try simp) <;> (repeat' (split <;> try simp))

@[simp] theorem State.resetCmd_keeps (s : State) (n : Nat) : Keeps s (State.resetCmd s n) := by
  unfold State.resetCmd
  refine ⟨?_, ?_⟩ <;> (try simp) <;> (repeat' (split <;> try simp))

@[simp] theorem State.queueWrite_keeps (s : State) (q off : Nat) (v : Word) : Keeps s (State.queueWrite s q off v) := by
  unfold State.queueWrite
  refine ⟨?_, ?_⟩ <;> simp

@[simp] theorem State.ldWrite_keeps (s : State) (l off : Nat) (v : Word) : Keeps s (State.ldWrite s l off v) := by
  unfold State.ldWrite
  refine ⟨?_, ?_⟩ <;> simp

@[simp] theorem State.ringWrite_keeps (s : State) (j off : Nat) (v : Word) : Keeps s (State.ringWrite s j off v) := by
  unfold State.ringWrite
  refine ⟨?_, ?_⟩ <;> simp

@[simp] theorem State.vcoreWrite_keeps (s : State) (off : Nat) (v : Word) : Keeps s (State.vcoreWrite s off v) := by
  unfold State.vcoreWrite
  refine ⟨?_, ?_⟩ <;> simp

@[simp] theorem State.cqWriteReg_keeps (s : State) (c off : Nat) (v : Word) : Keeps s (State.cqWriteReg s c off v) := by
  unfold State.cqWriteReg
  refine ⟨?_, ?_⟩ <;> simp

@[simp] theorem State.pageWrite_keeps (s : State) (k off : Nat) (v : Word) : Keeps s (State.pageWrite s k off v) := by
  unfold State.pageWrite
  refine ⟨?_, ?_⟩ <;> simp

@[simp] theorem State.eqBaseWrite_keeps (s : State) (k off : Nat) (v : Word) : Keeps s (State.eqBaseWrite s k off v) := by
  unfold State.eqBaseWrite
  refine ⟨?_, ?_⟩ <;> simp

@[simp] theorem State.flsOther_keeps (s : State) (off : Nat) (v : Word) : Keeps s (State.flsOther s off v) := by
  unfold State.flsOther
  refine ⟨?_, ?_⟩ <;> simp

theorem arrayStore_keeps (s : State) (base stride count off : Nat) (f : Nat → State) (o : State) (h : ∀ n, Keeps s (f n)) (ho : Keeps s o) :
    Keeps s (arrayStore base stride count off f o) := by
  unfold arrayStore
  split
  · exact h _
  · exact ho

@[simp] theorem State.arrayWrite_keeps (s : State) (off : Nat) (v : Word) : Keeps s (s.arrayWrite off v) := by
  unfold State.arrayWrite
  repeat' refine arrayStore_keeps _ _ _ _ _ _ _ (fun n => ⟨by simp, by simp⟩) ?_
  split <;> exact ⟨by simp, by simp⟩

@[simp] theorem State.regStore_keeps (s : State) (who off : Nat) (v : Word) : Keeps s (s.regStore who off v).1 := by
  unfold State.regStore
  dsimp only
  refine ite_keeps _ _ (Keeps.refl _) ?_
  refine ite_keeps _ _ (State.doorStore_keeps ..) ?_
  refine ite_keeps _ _ (State.pairCmd_keeps ..) ?_
  repeat' refine ite_keeps _ _ ?_ ?_
  all_goals dsimp only
  all_goals first
    | (refine ⟨?_, ?_⟩ <;> simp; done)
    | (split <;> first | exact Keeps.refl _ | exact ⟨by simp, by simp⟩)

end Sys2Proof.Machine
end

