-- ==== Sys2Proof/Laws/KeepsAeloCommit.lean ====
section
/-! SUPPORT. What the operations of Machine/AeloCommit.lean keep. -/

namespace Sys2Proof.Machine

@[simp] theorem State.commitTask_keeps (s : State) (c : Ctx) (x : CtxSt) (t : Task) (result : Word) : Keeps s (State.commitTask s c x t result) := by
  unfold State.commitTask
  refine ⟨?_, ?_⟩ <;> (try simp) <;> (repeat' (split <;> try simp))

@[simp] theorem State.applyStores_keeps (s : State) (who : Nat) (l : List (Nat × Word)) : Keeps s (s.applyStores who l).1 := by
  unfold State.applyStores
  have h : ∀ (l : List (Nat × Word)) (p : Stored), Keeps p.1 (l.foldl (fun (p : Stored) q =>
      ((p.1.regStore who q.1 q.2).1, if p.2 = .ok then (p.1.regStore who q.1 q.2).2 else p.2)) p).1 := by
    intro l
    induction l with
    | nil => intro p; exact ⟨rfl, rfl⟩
    | cons q r ih => intro p; exact (State.regStore_keeps p.1 who q.1 q.2).trans (ih _)
  exact h l (s, .ok)

@[simp] theorem State.commitStores_keeps (s : State) (t : Task) : Keeps s (State.commitStores s t) := by
  unfold State.commitStores
  refine ⟨?_, ?_⟩ <;> simp

end Sys2Proof.Machine
end

