-- ==== Sys2Proof/Laws/KeepsIdle.lean ====
section
/-! SUPPORT. What the operations of Machine/Idle.lean keep. -/

namespace Sys2Proof.Machine

@[simp] theorem State.creditTick_keeps (s : State) (g : Nat) : Keeps s (State.creditTick s g) := by
  unfold State.creditTick
  refine ⟨?_, ?_⟩ <;> simp

@[simp] theorem State.idle_keeps (s : State) : Keeps s (State.idle s) := by
  unfold State.idle
  refine ⟨?_, ?_⟩ <;> simp

end Sys2Proof.Machine
end

