-- ==== Sys2Proof/Laws/Steps.lean ====
section
/-! SUPPORT. What the shared operations keep, stated from the equation that names their answer. -/

namespace Sys2Proof.Machine

theorem State.readAt_of {s u : State} {c : Ctx} {x : CtxSt} {a : Word} {n al : Nat} {o : Option (CtxSt × Bytes)}
    (h : s.readAt c x a n al = (o, u)) : Keeps s u := by
  have k := State.readAt_keeps s c x a n al
  rw [h] at k; exact k

theorem State.writeAt_of {s u : State} {c : Ctx} {x : CtxSt} {a : Word} {al : Nat} {b : Bytes} {o : Option CtxSt}
    (h : s.writeAt c x a al b = (o, u)) : Keeps s u := by
  have k := State.writeAt_keeps s c x a al b
  rw [h] at k; exact k

end Sys2Proof.Machine
end

