-- ==== Sys2Proof/Laws/ExecAeloAtomic.lean ====
section
/-! SUPPORT. What the meanings of Machine/AeloAtomic.lean keep. -/

namespace Sys2Proof.Machine

theorem execCas64_keeps {c : Ctx} {gp : BitVec 3} {d a b : BitVec 5} {s s' : State} (h : execCas64 c gp d a b s = .next s') : Keeps s s' := by
  unfold execCas64 at h
  cases h
  refine State.issue_keeps _ _ _ _ _ fun x => ?_
  exact ⟨by simp, by simp⟩

theorem execCas128_keeps {c : Ctx} {gp : BitVec 3} {d a b : BitVec 5} {s s' : State} (h : execCas128 c gp d a b s = .next s') : Keeps s s' := by
  unfold execCas128 at h
  cases h
  refine State.issue_keeps _ _ _ _ _ fun x => ?_
  exact ⟨by simp, by simp⟩

theorem execFadd64_keeps {c : Ctx} {gp : BitVec 3} {d a b : BitVec 5} {s s' : State} (h : execFadd64 c gp d a b s = .next s') : Keeps s s' := by
  unfold execFadd64 at h
  cases h
  refine State.issue_keeps _ _ _ _ _ fun x => ?_
  exact ⟨by simp, by simp⟩

theorem execFadd128_keeps {c : Ctx} {gp : BitVec 3} {d a b : BitVec 5} {s s' : State} (h : execFadd128 c gp d a b s = .next s') : Keeps s s' := by
  unfold execFadd128 at h
  cases h
  refine State.issue_keeps _ _ _ _ _ fun x => ?_
  exact ⟨by simp, by simp⟩

end Sys2Proof.Machine
end

