-- ==== Sys2Proof/Laws/ExecAeloCipher.lean ====
section
/-! SUPPORT. What the meanings of Machine/AeloCipher.lean keep. -/

namespace Sys2Proof.Machine

theorem execGcmEnc_keeps {c : Ctx} {gp : BitVec 3} {d a b : BitVec 5} {fnHi : BitVec 4} {s s' : State} (h : execGcmEnc c gp d a b fnHi s = .next s') : Keeps s s' := by
  unfold execGcmEnc at h
  cases h
  refine State.issue_keeps _ _ _ _ _ fun x => ?_
  exact ⟨by simp, by simp⟩

theorem execGcmDec_keeps {c : Ctx} {gp : BitVec 3} {d a b : BitVec 5} {fnHi : BitVec 4} {s s' : State} (h : execGcmDec c gp d a b fnHi s = .next s') : Keeps s s' := by
  unfold execGcmDec at h
  cases h
  refine State.issue_keeps _ _ _ _ _ fun x => ?_
  exact ⟨by simp, by simp⟩

theorem execXtsEnc_keeps {c : Ctx} {gp : BitVec 3} {d a b : BitVec 5} {fnHi : BitVec 4} {s s' : State} (h : execXtsEnc c gp d a b fnHi s = .next s') : Keeps s s' := by
  unfold execXtsEnc at h
  cases h
  refine State.issue_keeps _ _ _ _ _ fun x => ?_
  exact ⟨by simp, by simp⟩

theorem execXtsDec_keeps {c : Ctx} {gp : BitVec 3} {d a b : BitVec 5} {fnHi : BitVec 4} {s s' : State} (h : execXtsDec c gp d a b fnHi s = .next s') : Keeps s s' := by
  unfold execXtsDec at h
  cases h
  refine State.issue_keeps _ _ _ _ _ fun x => ?_
  exact ⟨by simp, by simp⟩

theorem execCmac_keeps {c : Ctx} {gp : BitVec 3} {d a b : BitVec 5} {fnHi : BitVec 4} {s s' : State} (h : execCmac c gp d a b fnHi s = .next s') : Keeps s s' := by
  unfold execCmac at h
  cases h
  refine State.issue_keeps _ _ _ _ _ fun x => ?_
  exact ⟨by simp, by simp⟩

end Sys2Proof.Machine
end

