-- ==== Sys2Proof/Laws/ExecAeloCommit.lean ====
section
/-! SUPPORT. What the meanings of Machine/AeloCommit.lean keep. -/

namespace Sys2Proof.Machine

theorem execCommit_keeps {c : Ctx} {gp : BitVec 3} {d a b : BitVec 5} {s s' : State}
    (h : execCommit c gp d a b s = .next s') : Keeps s s' := by
  unfold execCommit at h
  cases h
  refine State.issue_keeps _ _ _ _ _ fun x => ?_
  split
  · split
    · exact State.commitStores_keeps ..
    · exact State.commitTask_keeps ..
  · exact Keeps.refl _

end Sys2Proof.Machine
end

