-- ==== Sys2Proof/Laws/ExecAeloGate.lean ====
section
/-! SUPPORT. What the meanings of Machine/AeloGate.lean keep. -/

namespace Sys2Proof.Machine

theorem execGwait_keeps {c : Ctx} {gp : BitVec 3} {d a b : BitVec 5} {s s' : State} (h : execGwait c gp d a b s = .next s') : Keeps s s' := by
  unfold execGwait at h
  cases h
  refine State.issue_keeps _ _ _ _ _ fun x => ?_
  exact ⟨by simp, by simp⟩

theorem execGpoll_keeps {c : Ctx} {gp : BitVec 3} {d a b : BitVec 5} {s s' : State} (h : execGpoll c gp d a b s = .next s') : Keeps s s' := by
  unfold execGpoll at h
  cases h
  refine State.issue_keeps _ _ _ _ _ fun x => ?_
  exact ⟨by simp, by simp⟩

theorem execGadd_keeps {c : Ctx} {gp : BitVec 3} {d a b : BitVec 5} {s s' : State} (h : execGadd c gp d a b s = .next s') : Keeps s s' := by
  unfold execGadd at h
  cases h
  refine State.issue_keeps _ _ _ _ _ fun x => ?_
  exact ⟨by simp, by simp⟩

theorem execGrecv_keeps {c : Ctx} {gp : BitVec 3} {d a b : BitVec 5} {s s' : State} (h : execGrecv c gp d a b s = .next s') : Keeps s s' := by
  unfold execGrecv at h
  cases h
  refine State.issue_keeps _ _ _ _ _ fun x => ?_
  (try dsimp only)
  repeat' split
  all_goals first
    | exact Keeps.refl _
    | exact ⟨by simp, by simp⟩

theorem execGpost_keeps {c : Ctx} {gp : BitVec 3} {d a b : BitVec 5} {s s' : State} (h : execGpost c gp d a b s = .next s') : Keeps s s' := by
  unfold execGpost at h
  cases h
  refine State.issue_keeps _ _ _ _ _ fun x => ?_
  (try dsimp only)
  repeat' split
  all_goals first
    | exact Keeps.refl _
    | exact ⟨by simp, by simp⟩

theorem execSpawn_keeps {c : Ctx} {gp : BitVec 3} {d a b : BitVec 5} {s s' : State} (h : execSpawn c gp d a b s = .next s') : Keeps s s' := by
  unfold execSpawn at h
  cases h
  (try refine State.issue_keeps _ _ _ _ _ fun x => ?_)
  (try dsimp only)
  (repeat' split)
  all_goals first
    | exact Keeps.refl _
    | (have hk := State.takeEntry_keeps (by assumption); exact hk.trans ⟨by simp, by simp⟩)
    | (have hk := State.readAt_of (by assumption); exact hk.trans ⟨by simp, by simp⟩)
    | (have hk := State.writeAt_of (by assumption); exact hk.trans ⟨by simp, by simp⟩)
    | exact ⟨by simp, by simp⟩

theorem execAbort_keeps {c : Ctx} {gp : BitVec 3} {_d a _b : BitVec 5} {s s' : State} (h : execAbort c gp _d a _b s = .next s') : Keeps s s' := by
  unfold execAbort at h
  cases h
  refine State.issue_keeps _ _ _ _ _ fun x => ?_
  exact ⟨by simp, by simp⟩

theorem execTaskWaitEnd_keeps {c : Ctx} {s s' : State} (h : execTaskWaitEnd c s = .next s') : Keeps s s' := by
  unfold execTaskWaitEnd at h
  (try dsimp only at h)
  repeat' split at h
  all_goals first
    | (cases h; done)
    | (cases h; exact Keeps.refl _)
    | (cases h; exact ⟨by simp, by simp⟩)

theorem execInsnBudget_keeps {c : Ctx} {s s' : State} (h : execInsnBudget c s = .next s') : Keeps s s' := by
  unfold execInsnBudget at h
  cases h
  exact ⟨by simp, by simp⟩

theorem execTimeBudget_keeps {c : Ctx} {s s' : State} (h : execTimeBudget c s = .next s') : Keeps s s' := by
  unfold execTimeBudget at h
  cases h
  exact ⟨by simp, by simp⟩

theorem execChildMsgDeliver_keeps {c : Ctx} {s s' : State} (h : execChildMsgDeliver c s = .next s') : Keeps s s' := by
  unfold execChildMsgDeliver at h
  (try dsimp only at h)
  repeat' split at h
  all_goals first
    | (cases h; done)
    | (cases h; exact Keeps.refl _)
    | (cases h; exact ⟨by simp, by simp⟩)

end Sys2Proof.Machine
end

