-- ==== Sys2Proof/Laws/ExecAeloInt.lean ====
section
/-! SUPPORT. What the meanings of Machine/AeloInt.lean keep. -/

namespace Sys2Proof.Machine

theorem execAluOp_keeps {c : Ctx} {gp : BitVec 3} {d a b : BitVec 5} {fn : BitVec 8} {s s' : State} (h : execAluOp c gp d a b fn s = .next s') : Keeps s s' := by
  unfold execAluOp at h
  cases h
  refine State.issue_keeps _ _ _ _ _ fun x => ?_
  exact ⟨by simp, by simp⟩

theorem execAddi_keeps {c : Ctx} {gp : BitVec 3} {d a : BitVec 5} {imm : BitVec 13} {s s' : State} (h : execAddi c gp d a imm s = .next s') : Keeps s s' := by
  unfold execAddi at h
  cases h
  refine State.issue_keeps _ _ _ _ _ fun x => ?_
  exact ⟨by simp, by simp⟩

theorem execAndiOriXori_keeps {c : Ctx} {op : LogicOp} {gp : BitVec 3} {d a : BitVec 5} {imm : BitVec 13} {s s' : State} (h : execAndiOriXori c op gp d a imm s = .next s') : Keeps s s' := by
  unfold execAndiOriXori at h
  cases h
  refine State.issue_keeps _ _ _ _ _ fun x => ?_
  exact ⟨by simp, by simp⟩

theorem execShi_keeps {c : Ctx} {gp : BitVec 3} {d a : BitVec 5} {imm : BitVec 13} {s s' : State} (h : execShi c gp d a imm s = .next s') : Keeps s s' := by
  unfold execShi at h
  cases h
  refine State.issue_keeps _ _ _ _ _ fun x => ?_
  exact ⟨by simp, by simp⟩

theorem execLi_keeps {c : Ctx} {gp : BitVec 3} {d : BitVec 5} {imm : BitVec 18} {s s' : State} (h : execLi c gp d imm s = .next s') : Keeps s s' := by
  unfold execLi at h
  cases h
  refine State.issue_keeps _ _ _ _ _ fun x => ?_
  exact ⟨by simp, by simp⟩

theorem execLis_keeps {c : Ctx} {gp : BitVec 3} {d : BitVec 5} {imm : BitVec 18} {s s' : State} (h : execLis c gp d imm s = .next s') : Keeps s s' := by
  unfold execLis at h
  cases h
  refine State.issue_keeps _ _ _ _ _ fun x => ?_
  exact ⟨by simp, by simp⟩

theorem execCmp_keeps {c : Ctx} {gp : BitVec 3} {d a b : BitVec 5} {fn : BitVec 8} {s s' : State} (h : execCmp c gp d a b fn s = .next s') : Keeps s s' := by
  unfold execCmp at h
  cases h
  refine State.issue_keeps _ _ _ _ _ fun x => ?_
  exact ⟨by simp, by simp⟩

theorem execCmpi_keeps {c : Ctx} {gp : BitVec 3} {d a : BitVec 5} {imm : BitVec 13} {s s' : State} (h : execCmpi c gp d a imm s = .next s') : Keeps s s' := by
  unfold execCmpi at h
  cases h
  refine State.issue_keeps _ _ _ _ _ fun x => ?_
  exact ⟨by simp, by simp⟩

theorem execPredicateOp_keeps {c : Ctx} {gp : BitVec 3} {d a b : BitVec 5} {fn : BitVec 8} {s s' : State} (h : execPredicateOp c gp d a b fn s = .next s') : Keeps s s' := by
  unfold execPredicateOp at h
  cases h
  refine State.issue_keeps _ _ _ _ _ fun x => ?_
  exact ⟨by simp, by simp⟩

theorem execSpr_keeps {c : Ctx} {gp : BitVec 3} {d a : BitVec 5} {imm : BitVec 13} {s s' : State} (h : execSpr c gp d a imm s = .next s') : Keeps s s' := by
  unfold execSpr at h
  cases h
  refine State.issue_keeps _ _ _ _ _ fun x => ?_
  (try dsimp only)
  repeat' split
  all_goals first
    | exact Keeps.refl _
    | exact ⟨by simp, by simp⟩

theorem execBr_keeps {c : Ctx} {gp : BitVec 3} {off : BitVec 23} {s s' : State} (h : execBr c gp off s = .next s') : Keeps s s' := by
  unfold execBr at h
  cases h
  refine State.issue_keeps _ _ _ _ _ fun x => ?_
  exact ⟨by simp, by simp⟩

theorem execBrn_keeps {c : Ctx} {gp : BitVec 3} {off : BitVec 23} {s s' : State} (h : execBrn c gp off s = .next s') : Keeps s s' := by
  unfold execBrn at h
  cases h
  refine State.issueAny_keeps _ _ _ _ fun x => ?_
  split
  · exact State.advance_keeps ..
  · exact State.jump_keeps ..

theorem execCall_keeps {c : Ctx} {gp : BitVec 3} {off : BitVec 23} {s s' : State} (h : execCall c gp off s = .next s') : Keeps s s' := by
  unfold execCall at h
  cases h
  refine State.issue_keeps _ _ _ _ _ fun x => ?_
  exact ⟨by simp, by simp⟩

theorem execJr_keeps {c : Ctx} {gp : BitVec 3} {d a b : BitVec 5} {fn : BitVec 8} {s s' : State} (h : execJr c gp d a b fn s = .next s') : Keeps s s' := by
  unfold execJr at h
  cases h
  refine State.issue_keeps _ _ _ _ _ fun x => ?_
  exact ⟨by simp, by simp⟩

end Sys2Proof.Machine
end

