-- ==== Sys2Proof/Laws/ExecAeloMem.lean ====
section
/-! SUPPORT. What the meanings of Machine/AeloMem.lean keep. -/

namespace Sys2Proof.Machine

theorem execLd_keeps {c : Ctx} {sz : Size} {gp : BitVec 3} {d a : BitVec 5} {imm : BitVec 13} {s s' : State}
    (h : execLd c sz gp d a imm s = .next s') : Keeps s s' := by
  unfold execLd at h
  cases h
  refine State.issue_keeps _ _ _ _ _ fun x => ?_
  split
  · next e => exact (State.readAt_of e).trans (State.advance_keeps ..)
  · next e => exact State.readAt_of e

theorem execSt_keeps {c : Ctx} {sz : Size} {gp : BitVec 3} {d a : BitVec 5} {imm : BitVec 13} {s s' : State} (h : execSt c sz gp d a imm s = .next s') : Keeps s s' := by
  unfold execSt at h
  cases h
  (try refine State.issue_keeps _ _ _ _ _ fun x => ?_)
  (try dsimp only)
  (repeat' split)
  all_goals first
    | exact Keeps.refl _
    | (have hk := State.takeEntry_keeps (by assumption); exact hk.trans ⟨by simp, by simp⟩)
    | (have hk := State.readAt_of (by assumption); exact hk.trans ⟨by simp, by simp⟩)
    | (have hk := State.writeAt_of (by assumption); exact hk.trans ⟨by simp, by simp⟩)
    | exact ⟨by simp, by simp⟩

theorem execVld_keeps {c : Ctx} {gp : BitVec 3} {d a : BitVec 5} {imm : BitVec 13} {s s' : State} (h : execVld c gp d a imm s = .next s') : Keeps s s' := by
  unfold execVld at h
  cases h
  refine State.issue_keeps _ _ _ _ _ fun x => ?_
  generalize hk : State.readAt s _ _ _ _ _ = r
  have k : Keeps s r.2 := by rw [← hk]; exact State.readAt_keeps ..
  clear hk
  split <;> first | exact k.trans (State.advance_keeps ..) | exact k

theorem execVst_keeps {c : Ctx} {gp : BitVec 3} {d a : BitVec 5} {imm : BitVec 13} {s s' : State} (h : execVst c gp d a imm s = .next s') : Keeps s s' := by
  unfold execVst at h
  cases h
  refine State.issue_keeps _ _ _ _ _ fun x => ?_
  generalize hk : State.writeAt s _ _ _ _ _ = r
  have k : Keeps s r.2 := by rw [← hk]; exact State.writeAt_keeps ..
  clear hk
  split <;> first | exact k.trans (State.advance_keeps ..) | exact k

end Sys2Proof.Machine
end

