-- ==== Sys2Proof/Laws/ExecAeloVec.lean ====
section
/-! SUPPORT. What the meanings of Machine/AeloVec.lean keep. -/

namespace Sys2Proof.Machine

theorem execValu_keeps {c : Ctx} {gp : BitVec 3} {d a b : BitVec 5} {fn : BitVec 8} {s s' : State} (h : execValu c gp d a b fn s = .next s') : Keeps s s' := by
  unfold execValu at h
  cases h
  refine State.issue_keeps _ _ _ _ _ fun x => ?_
  exact ⟨by simp, by simp⟩

theorem execVectorMove_keeps {c : Ctx} {gp : BitVec 3} {d a b : BitVec 5} {fn : BitVec 8} {s s' : State} (h : execVectorMove c gp d a b fn s = .next s') : Keeps s s' := by
  unfold execVectorMove at h
  cases h
  refine State.issue_keeps _ _ _ _ _ fun x => ?_
  exact ⟨by simp, by simp⟩

theorem execFieldOp_keeps {c : Ctx} {gp : BitVec 3} {d a b : BitVec 5} {fn : BitVec 8} {s s' : State} (h : execFieldOp c gp d a b fn s = .next s') : Keeps s s' := by
  unfold execFieldOp at h
  cases h
  refine State.issue_keeps _ _ _ _ _ fun x => ?_
  exact ⟨by simp, by simp⟩

theorem execCrcOp_keeps {c : Ctx} {gp : BitVec 3} {d a b : BitVec 5} {fn : BitVec 8} {s s' : State} (h : execCrcOp c gp d a b fn s = .next s') : Keeps s s' := by
  unfold execCrcOp at h
  cases h
  refine State.issue_keeps _ _ _ _ _ fun x => ?_
  exact ⟨by simp, by simp⟩

theorem execKeccak_keeps {c : Ctx} {gp : BitVec 3} {d a b : BitVec 5} {fn : BitVec 8} {s s' : State} (h : execKeccak c gp d a b fn s = .next s') : Keeps s s' := by
  unfold execKeccak at h
  cases h
  refine State.issue_keeps _ _ _ _ _ fun x => ?_
  exact ⟨by simp, by simp⟩

end Sys2Proof.Machine
end

