-- ==== Sys2Proof/Laws/ExecAeloWin.lean ====
section
/-! SUPPORT. What the meanings of Machine/AeloWin.lean keep. -/

namespace Sys2Proof.Machine

theorem execTmap_keeps {c : Ctx} {gp : BitVec 3} {d a b : BitVec 5} {s s' : State} (h : execTmap c gp d a b s = .next s') : Keeps s s' := by
  unfold execTmap at h
  cases h
  refine State.issue_keeps _ _ _ _ _ fun x => ?_
  exact ⟨by simp, by simp⟩

theorem execTmapr_keeps {c : Ctx} {gp : BitVec 3} {d a b : BitVec 5} {s s' : State} (h : execTmapr c gp d a b s = .next s') : Keeps s s' := by
  unfold execTmapr at h
  cases h
  refine State.issue_keeps _ _ _ _ _ fun x => ?_
  exact ⟨by simp, by simp⟩

theorem execTmaps_keeps {c : Ctx} {gp : BitVec 3} {d a b : BitVec 5} {s s' : State} (h : execTmaps c gp d a b s = .next s') : Keeps s s' := by
  unfold execTmaps at h
  cases h
  refine State.issue_keeps _ _ _ _ _ fun x => ?_
  exact ⟨by simp, by simp⟩

theorem execTunmap_keeps {c : Ctx} {gp : BitVec 3} {d a b : BitVec 5} {s s' : State} (h : execTunmap c gp d a b s = .next s') : Keeps s s' := by
  unfold execTunmap at h
  cases h
  refine State.issue_keeps _ _ _ _ _ fun x => ?_
  exact ⟨by simp, by simp⟩

theorem execWalk_keeps {c : Ctx} {gp : BitVec 3} {d a b : BitVec 5} {s s' : State} (h : execWalk c gp d a b s = .next s') : Keeps s s' := by
  unfold execWalk at h
  cases h
  refine State.issue_keeps _ _ _ _ _ fun x => ?_
  dsimp only
  split
  · next e => exact State.readAt_of e
  · next y hd u e =>
    have k := State.readAt_of e
    generalize hr : (if 1 ≤ fieldAt hd 4 2 ∧ fieldAt hd 4 2 ≤ 4096 then State.readAt u c _ _ _ 1 else (some (_, []), u)) = r
    have kr : Keeps u r.2 := by
      rw [← hr]
      split
      · exact State.readAt_keeps ..
      · exact Keeps.refl _
    clear hr
    match r with
    | (none, v) => exact k.trans kr
    | (some (z, el), v) =>
      refine (k.trans kr).trans ?_
      dsimp only
      generalize (if 1 ≤ fieldAt hd 4 2 ∧ fieldAt hd 4 2 ≤ 4096 then parsePlan _ _ v.timeNs else none) = pl
      cases pl
      rotate_left
      · exact (State.declarePlan_keeps ..).trans (State.advance_keeps ..)
      · exact State.advance_keeps ..

theorem execWcancel_keeps {c : Ctx} {gp : BitVec 3} {d a b : BitVec 5} {s s' : State} (h : execWcancel c gp d a b s = .next s') : Keeps s s' := by
  unfold execWcancel at h
  cases h
  refine State.issue_keeps _ _ _ _ _ fun x => ?_
  exact ⟨by simp, by simp⟩

theorem execJstg_keeps {c : Ctx} {gp : BitVec 3} {d a b : BitVec 5} {s s' : State} (h : execJstg c gp d a b s = .next s') : Keeps s s' := by
  unfold execJstg at h
  cases h
  refine State.issue_keeps _ _ _ _ _ fun x => ?_
  dsimp only
  split
  · exact State.raise_keeps ..
  · split
    · next e => exact State.readAt_of e
    · next e =>
      split
      · next f => exact ((State.readAt_of e).trans (State.writeAt_of f)).trans (State.advance_keeps ..)
      · next f => exact (State.readAt_of e).trans (State.writeAt_of f)

theorem execJdrop_keeps {c : Ctx} {gp : BitVec 3} {d a b : BitVec 5} {s s' : State} (h : execJdrop c gp d a b s = .next s') : Keeps s s' := by
  unfold execJdrop at h
  cases h
  refine State.issue_keeps _ _ _ _ _ fun x => ?_
  exact ⟨by simp, by simp⟩

theorem execJfence_keeps {c : Ctx} {gp : BitVec 3} {d a b : BitVec 5} {s s' : State} (h : execJfence c gp d a b s = .next s') : Keeps s s' := by
  unfold execJfence at h
  cases h
  refine State.issue_keeps _ _ _ _ _ fun x => ?_
  exact ⟨by simp, by simp⟩

end Sys2Proof.Machine
end

