-- ==== Sys2Proof/Laws/ExecConn.lean ====
section
/-! SUPPORT. What the meanings of Machine/Conn.lean keep. -/

namespace Sys2Proof.Machine

theorem execCmReq_keeps {p : Fin 64} {r : CmReq} {s s' : State} (h : execCmReq p r s = .next s') : Keeps s s' := by
  unfold execCmReq at h
  (try dsimp only at h)
  repeat' split at h
  all_goals first
    | (cases h; done)
    | (cases h; exact Keeps.refl _)
    | (cases h; exact ⟨by simp, by simp⟩)

theorem execCmRtu_keeps {c : Conn} {s s' : State} (h : execCmRtu c s = .next s') : Keeps s s' := by
  unfold execCmRtu at h
  cases h
  exact ⟨by simp, by simp⟩

theorem execCmDreq_keeps {c : Conn} {s s' : State} (h : execCmDreq c s = .next s') : Keeps s s' := by
  unfold execCmDreq at h
  (try dsimp only at h)
  repeat' split at h
  all_goals first
    | (cases h; done)
    | (cases h; exact Keeps.refl _)
    | (cases h; exact ⟨by simp, by simp⟩)

theorem execCmDrep_keeps {c : Conn} {s s' : State} (h : execCmDrep c s = .next s') : Keeps s s' := by
  unfold execCmDrep at h
  cases h
  exact ⟨by simp, by simp⟩

theorem execErrorHoldExpire_keeps {c : Conn} {s s' : State} (h : execErrorHoldExpire c s = .next s') : Keeps s s' := by
  unfold execErrorHoldExpire at h
  cases h
  exact ⟨by simp, by simp⟩

end Sys2Proof.Machine
end

