-- ==== Sys2Proof/Laws/ExecCore14.lean ====
section
/-! SUPPORT. What the meanings of Machine/Core14.lean keep. -/

namespace Sys2Proof.Machine

theorem execPaceWindow_keeps {sq : Fin 16} {samples : List (BitVec 16 × BitVec 16)} {s s' : State} (h : execPaceWindow sq samples s = .next s') : Keeps s s' := by
  unfold execPaceWindow at h
  cases h
  refine ⟨?_, ?_⟩ <;> (try simp) <;> (repeat' first
    | (refine fold_pending _ (fun s x => ?_) _ _ <;> try simp)
    | (refine fold_ident _ (fun s x => ?_) _ _ <;> try simp)
    | (split <;> try simp))

theorem execClearMinmax_keeps {s s' : State} (h : execClearMinmax s = .next s') : Keeps s s' := by
  rw [execClearMinmax, Host.Outcome.next.injEq] at h
  rw [← h]
  exact State.clearMinmax_keeps s

theorem execVcoreStep_keeps {powerW : BitVec 8} {s s' : State} (h : execVcoreStep powerW s = .next s') : Keeps s s' := by
  unfold execVcoreStep at h
  cases h
  exact ⟨by simp, by simp⟩

theorem execIslandClockStopped_keeps {i : Fin 51} {s s' : State} (h : execIslandClockStopped i s = .next s') : Keeps s s' := by
  unfold execIslandClockStopped at h
  cases h
  exact ⟨by simp, by simp⟩

theorem execIslandHeartbeatReturn_keeps {i : Fin 51} {s s' : State} (h : execIslandHeartbeatReturn i s = .next s') : Keeps s s' := by
  unfold execIslandHeartbeatReturn at h
  cases h
  exact ⟨by simp, by simp⟩

theorem execTimebaseLost_keeps  {s s' : State} (h : execTimebaseLost s = .next s') : Keeps s s' := by
  unfold execTimebaseLost at h
  cases h
  exact ⟨by simp, by simp⟩

theorem execTimebaseReturn_keeps  {s s' : State} (h : execTimebaseReturn s = .next s') : Keeps s s' := by
  unfold execTimebaseReturn at h
  cases h
  exact ⟨by simp, by simp⟩

end Sys2Proof.Machine
end

