-- ==== Sys2Proof/Laws/ExecCxl.lean ====
section
/-! SUPPORT. What the meanings of Machine/Cxl.lean keep. -/

namespace Sys2Proof.Machine

theorem execMemRd_keeps {l : Fin 32} {a : BitVec 49} {tag : BitVec 16} {s s' : State} (h : execMemRd l a tag s = .next s') : Keeps s s' := by
  unfold execMemRd at h
  cases h
  exact ⟨by simp, by simp⟩

theorem execMemWr_keeps {l : Fin 32} {a : BitVec 49} {tag : BitVec 16} {d : Vec} {be : BitVec 64} {poison : Bool} {s s' : State} (h : execMemWr l a tag d be poison s = .next s') : Keeps s s' := by
  unfold execMemWr at h
  cases h
  exact ⟨by simp, by simp⟩

theorem execMemSpecRd_keeps {_l : Fin 32} {_a : BitVec 49} {s s' : State} (h : execMemSpecRd _l _a s = .next s') : Keeps s s' := by
  unfold execMemSpecRd at h
  cases h
  exact ⟨by simp, by simp⟩

theorem execCxlBadReq_keeps {p : Fin 2} {isRead : Bool} {tag : BitVec 16} {s s' : State} (h : execCxlBadReq p isRead tag s = .next s') : Keeps s s' := by
  unfold execCxlBadReq at h
  cases h
  exact ⟨by simp, by simp⟩

theorem execCombineWindowExpire_keeps {l : Fin 32} {t : Nat} {s s' : State} (h : execCombineWindowExpire l t s = .next s') : Keeps s s' := by
  unfold execCombineWindowExpire at h
  cases h
  exact ⟨by simp, by simp⟩

theorem execGlobalPersistentFlush_keeps {p : Fin 2} {s s' : State} (h : execGlobalPersistentFlush p s = .next s') : Keeps s s' := by
  unfold execGlobalPersistentFlush at h
  cases h
  exact ⟨by simp, by simp⟩

theorem execOffer_keeps {l : Fin 32} {e : Fin 524288} {s s' : State} (h : execOffer l e s = .next s') : Keeps s s' := by
  unfold execOffer at h
  cases h
  exact ⟨by simp, by simp⟩

theorem execWithdraw_keeps {l : Fin 32} {e : Fin 524288} {s s' : State} (h : execWithdraw l e s = .next s') : Keeps s s' := by
  unfold execWithdraw at h
  cases h
  exact ⟨by simp, by simp⟩

theorem execOfferLapse_keeps {l : Fin 32} {e : Fin 524288} {s s' : State} (h : execOfferLapse l e s = .next s') : Keeps s s' := by
  unfold execOfferLapse at h
  cases h
  exact ⟨by simp, by simp⟩

theorem execForcedRelease_keeps {l : Fin 32} {e : Fin 524288} {s s' : State} (h : execForcedRelease l e s = .next s') : Keeps s s' := by
  unfold execForcedRelease at h
  cases h
  exact ⟨by simp, by simp⟩

theorem execAddDcResponse_keeps {l : Fin 32} {es : List (Fin 524288)} {s s' : State} (h : execAddDcResponse l es s = .next s') : Keeps s s' := by
  unfold execAddDcResponse at h
  cases h
  exact ⟨by simp, by simp⟩

theorem execReleaseDc_keeps {l : Fin 32} {e : Fin 524288} {s s' : State} (h : execReleaseDc l e s = .next s') : Keeps s s' := by
  unfold execReleaseDc at h
  cases h
  exact ⟨by simp, by simp⟩

theorem execGetDcConfiguration_keeps {l : Fin 32} {s s' : State} (h : execGetDcConfiguration l s = .next s') : Keeps s s' := by
  unfold execGetDcConfiguration at h
  cases h
  exact ⟨by simp, by simp⟩

theorem execGetDcExtentList_keeps {l : Fin 32} {s s' : State} (h : execGetDcExtentList l s = .next s') : Keeps s s' := by
  unfold execGetDcExtentList at h
  cases h
  exact ⟨by simp, by simp⟩

theorem execIdentifyMemoryDevice_keeps {l : Fin 32} {s s' : State} (h : execIdentifyMemoryDevice l s = .next s') : Keeps s s' := by
  unfold execIdentifyMemoryDevice at h
  cases h
  exact ⟨by simp, by simp⟩

theorem execGetHealthInfo_keeps {l : Fin 32} {s s' : State} (h : execGetHealthInfo l s = .next s') : Keeps s s' := by
  unfold execGetHealthInfo at h
  cases h
  exact ⟨by simp, by simp⟩

theorem execGetEventRecords_keeps {l : Fin 32} {s s' : State} (h : execGetEventRecords l s = .next s') : Keeps s s' := by
  unfold execGetEventRecords at h
  cases h
  exact ⟨by simp, by simp⟩

theorem execClearEventRecords_keeps {l : Fin 32} {n : Nat} {s s' : State} (h : execClearEventRecords l n s = .next s') : Keeps s s' := by
  unfold execClearEventRecords at h
  cases h
  exact ⟨by simp, by simp⟩

theorem execGetPoisonList_keeps {l : Fin 32} {s s' : State} (h : execGetPoisonList l s = .next s') : Keeps s s' := by
  unfold execGetPoisonList at h
  cases h
  exact ⟨by simp, by simp⟩

theorem execMailboxUnsupported_keeps {l : Fin 32} {_op : BitVec 16} {s s' : State} (h : execMailboxUnsupported l _op s = .next s') : Keeps s s' := by
  unfold execMailboxUnsupported at h
  cases h
  exact ⟨by simp, by simp⟩

theorem execGetLdInfo_keeps {p : Fin 2} {s s' : State} (h : execGetLdInfo p s = .next s') : Keeps s s' := by
  unfold execGetLdInfo at h
  cases h
  exact ⟨by simp, by simp⟩

theorem execGetLdAllocations_keeps {p : Fin 2} {s s' : State} (h : execGetLdAllocations p s = .next s') : Keeps s s' := by
  unfold execGetLdAllocations at h
  cases h
  exact ⟨by simp, by simp⟩

theorem execFmApiRefused_keeps {p : Fin 2} {_op : BitVec 16} {s s' : State} (h : execFmApiRefused p _op s = .next s') : Keeps s s' := by
  unfold execFmApiRefused at h
  cases h
  exact ⟨by simp, by simp⟩

theorem execSpdmMessage_keeps {l : Fin 32} {m : SpdmStep} {s s' : State} (h : execSpdmMessage l m s = .next s') : Keeps s s' := by
  unfold execSpdmMessage at h
  (try dsimp only at h)
  repeat' split at h
  all_goals first
    | (cases h; done)
    | (cases h; exact Keeps.refl _)
    | (cases h; exact ⟨by simp, by simp⟩)

theorem execIdeKm_keeps {p : Fin 2} {stream : Byte} {key : BitVec 256} {s s' : State} (h : execIdeKm p stream key s = .next s') : Keeps s s' := by
  unfold execIdeKm at h
  cases h
  exact ⟨by simp, by simp⟩

theorem execCdatRead_keeps {l : Fin 32} {s s' : State} (h : execCdatRead l s = .next s') : Keeps s s' := by
  unfold execCdatRead at h
  cases h
  exact ⟨by simp, by simp⟩

theorem execIdeStateChange_keeps {p : Fin 2} {active : Bool} {s s' : State} (h : execIdeStateChange p active s = .next s') : Keeps s s' := by
  unfold execIdeStateChange at h
  cases h
  exact ⟨by simp, by simp⟩

theorem execRingBase_keeps {l : Fin 32} {r : Fin 8} {v : Word} {s s' : State} (h : execRingBase l r v s = .next s') : Keeps s s' := by
  unfold execRingBase at h
  cases h
  exact ⟨by simp, by simp⟩

theorem execCiAddr_keeps {l : Fin 32} {r : Fin 8} {v : Word} {s s' : State} (h : execCiAddr l r v s = .next s') : Keeps s s' := by
  unfold execCiAddr at h
  cases h
  exact ⟨by simp, by simp⟩

theorem execDoorbell_keeps {l : Fin 32} {r : Fin 8} {v : Word} {s s' : State} (h : execDoorbell l r v s = .next s') : Keeps s s' := by
  unfold execDoorbell at h
  cases h
  exact ⟨by simp, by simp⟩

theorem execRingFetchDone_keeps {l : Fin 32} {r : Fin 8} {ok : Bool} {ds : List Bytes} {s s' : State} (h : execRingFetchDone l r ok ds s = .next s') : Keeps s s' := by
  unfold execRingFetchDone at h
  cases h
  exact ⟨by simp, by simp⟩

theorem execPlanStatAddr_keeps {l : Fin 32} {v : Word} {s s' : State} (h : execPlanStatAddr l v s = .next s') : Keeps s s' := by
  unfold execPlanStatAddr at h
  cases h
  exact ⟨by simp, by simp⟩

theorem execPlanSubmit_keeps {l : Fin 32} {v : Word} {s s' : State} (h : execPlanSubmit l v s = .next s') : Keeps s s' := by
  unfold execPlanSubmit at h
  cases h
  exact ⟨by simp, by simp⟩

theorem execPlanReadDone_keeps {l : Fin 32} {b : Bytes} {s s' : State} (h : execPlanReadDone l b s = .next s') : Keeps s s' := by
  unfold execPlanReadDone at h
  cases h
  refine ⟨?_, ?_⟩ <;> (try simp) <;> (repeat' first
    | (refine fold_pending _ (fun s x => ?_) _ _ <;> try simp)
    | (refine fold_ident _ (fun s x => ?_) _ _ <;> try simp)
    | (split <;> try simp))

theorem execCxlDeniedAccess_keeps {l : Fin 32} {write : Bool} {a : HostAccess} {s s' : State}
    (h : execCxlDeniedAccess l write a s = .next s') : Keeps s s' := by
  unfold execCxlDeniedAccess at h
  cases h
  exact ⟨by simp, by simp⟩

theorem execCxlLinkTrained_keeps {p : Fin 2} {w : Fin 3} {g : Bool} {mld : Bool} {s s' : State} (h : execCxlLinkTrained p w g mld s = .next s') : Keeps s s' := by
  unfold execCxlLinkTrained at h
  cases h
  exact ⟨by simp, by simp⟩

theorem execCxlRetrainTimer_keeps {p : Fin 2} {s s' : State} (h : execCxlRetrainTimer p s = .next s') : Keeps s s' := by
  unfold execCxlRetrainTimer at h
  (try dsimp only at h)
  repeat' split at h
  all_goals first
    | (cases h; done)
    | (cases h; exact Keeps.refl _)
    | (cases h; exact ⟨by simp, by simp⟩)

theorem execCxlPortReset_keeps {p : Fin 2} {why : CxlReset} {s s' : State} (h : execCxlPortReset p why s = .next s') : Keeps s s' := by
  unfold execCxlPortReset at h
  cases h
  exact ⟨by simp, by simp⟩

theorem execCxlPerstDeassert_keeps {p : Fin 2} {s s' : State} (h : execCxlPerstDeassert p s = .next s') : Keeps s s' := by
  unfold execCxlPerstDeassert at h
  cases h
  exact ⟨by simp, by simp⟩

theorem execFunctionLevelReset_keeps {l : Fin 32} {s s' : State} (h : execFunctionLevelReset l s = .next s') : Keeps s s' := by
  unfold execFunctionLevelReset at h
  cases h
  exact ⟨by simp, by simp⟩

theorem execCxlPortFence_keeps {p : Fin 2} {s s' : State} (h : execCxlPortFence p s = .next s') : Keeps s s' := by
  unfold execCxlPortFence at h
  cases h
  exact ⟨by simp, by simp⟩

theorem execCxlPortRestore_keeps {p : Fin 2} {s s' : State} (h : execCxlPortRestore p s = .next s') : Keeps s s' := by
  unfold execCxlPortRestore at h
  cases h
  exact ⟨by simp, by simp⟩

theorem execCxlPortRetrain_keeps {p : Fin 2} {s s' : State} (h : execCxlPortRetrain p s = .next s') : Keeps s s' := by
  unfold execCxlPortRetrain at h
  cases h
  exact ⟨by simp, by simp⟩

end Sys2Proof.Machine
end

