-- ==== Sys2Proof/Laws/ExecFlash.lean ====
section
/-! SUPPORT. What the meanings of Machine/Flash.lean keep. -/

namespace Sys2Proof.Machine

theorem execFlsKey_keeps {v : Word} {s s' : State} (h : execFlsKey v s = .next s') : Keeps s s' := by
  unfold execFlsKey at h
  cases h
  exact ⟨by simp, by simp⟩

theorem execProgram_keeps {count : BitVec 12} {addr : BitVec 28} {s s' : State} (h : execProgram count addr s = .next s') : Keeps s s' := by
  unfold execProgram at h
  cases h
  exact ⟨by simp, by simp⟩

theorem execErase_keeps {count : BitVec 12} {addr : BitVec 28} {s s' : State} (h : execErase count addr s = .next s') : Keeps s s' := by
  unfold execErase at h
  cases h
  exact ⟨by simp, by simp⟩

theorem execRead_keeps {count : BitVec 12} {addr : BitVec 28} {ecc : List (Nat × EccResult)} {s s' : State} (h : execRead count addr ecc s = .next s') : Keeps s s' := by
  unfold execRead at h
  cases h
  exact ⟨by simp, by simp⟩

theorem execUnlock_keeps {addr : BitVec 28} {arg : Word} {s s' : State} (h : execUnlock addr arg s = .next s') : Keeps s s' := by
  unfold execUnlock at h
  cases h
  exact ⟨by simp, by simp⟩

theorem execWriteConfig_keeps {count : BitVec 12} {addr : BitVec 28} {s s' : State} (h : execWriteConfig count addr s = .next s') : Keeps s s' := by
  unfold execWriteConfig at h
  cases h
  exact ⟨by simp, by simp⟩

theorem execWriteCommit_keeps {count : BitVec 12} {addr : BitVec 28} {arg : Word} {s s' : State} (h : execWriteCommit count addr arg s = .next s') : Keeps s s' := by
  unfold execWriteCommit at h
  cases h
  exact ⟨by simp, by simp⟩

theorem execFlashCommandDone_keeps {bank : Fin 2} {ok : Bool} {s s' : State} (h : execFlashCommandDone bank ok s = .next s') : Keeps s s' := by
  unfold execFlashCommandDone at h
  cases h
  refine ⟨?_, ?_⟩ <;> (try simp) <;> (repeat' first
    | (refine fold_pending _ (fun s x => ?_) _ _ <;> try simp)
    | (refine fold_ident _ (fun s x => ?_) _ _ <;> try simp)
    | (split <;> try simp))

theorem execFlashRecordAppend_keeps  {s s' : State} (h : execFlashRecordAppend s = .next s') : Keeps s s' := by
  unfold execFlashRecordAppend at h
  (try dsimp only at h)
  repeat' split at h
  all_goals first
    | (cases h; done)
    | (cases h; exact Keeps.refl _)
    | (cases h; exact ⟨by simp, by simp⟩)

theorem execFlashScan_keeps  {s s' : State} (h : execFlashScan s = .next s') : Keeps s s' := by
  unfold execFlashScan at h
  cases h
  exact ⟨by simp, by simp⟩

theorem execConfigAutoWrite_keeps  {s s' : State} (h : execConfigAutoWrite s = .next s') : Keeps s s' := by
  unfold execConfigAutoWrite at h
  cases h
  split
  · exact Keeps.refl _
  · generalize (s.config.getD (List.replicate 65472 0)) = b
    exact ⟨by simp, by simp⟩

end Sys2Proof.Machine
end

