-- ==== Sys2Proof/Laws/ExecGatehouse.lean ====
section
/-! SUPPORT. What the meanings of Machine/Gatehouse.lean keep. -/

namespace Sys2Proof.Machine

theorem execCreate_keeps {t : BitVec 24} {s s' : State} (h : execCreate t s = .next s') : Keeps s s' := by
  unfold execCreate at h
  cases h
  exact ⟨by simp, by simp⟩

theorem execDestroy_keeps {t : BitVec 24} {s s' : State} (h : execDestroy t s = .next s') : Keeps s s' := by
  unfold execDestroy at h
  cases h
  exact ⟨by simp, by simp⟩

theorem execProcess_keeps {bytes : BitVec 16} {sigMldsaOk sigEcdsaOk : Bool} {s s' : State} (h : execProcess bytes sigMldsaOk sigEcdsaOk s = .next s') : Keeps s s' := by
  unfold execProcess at h
  cases h
  exact ⟨by simp, by simp⟩

theorem execEnrolResponse_keeps {kemCt : Bytes} {kemSecret : BitVec 256} {ecdhPub ecdhX : Bytes} {s s' : State} (h : execEnrolResponse kemCt kemSecret ecdhPub ecdhX s = .next s') : Keeps s s' := by
  unfold execEnrolResponse at h
  cases h
  split
  · exact Keeps.refl _
  · extract_lets st t done
    have k : Keeps s done := by
      show Keeps s (match s.tenant (BitVec.ofNat 24 t) with | some e => _ | none => _)
      split
      · split
        · exact State.refuseEnrol_keeps ..
        · exact (State.putResponse_keeps ..).trans ⟨State.fset_pending .., State.fset_ident _ _ _ (by simp)⟩
      · exact State.refuseEnrol_keeps ..
    exact k.trans ⟨State.fset_pending .., State.fset_ident _ _ _ (by simp)⟩

theorem execCipherCoreFence_keeps {i : Fin 96} {s s' : State} (h : execCipherCoreFence i s = .next s') : Keeps s s' := by
  unfold execCipherCoreFence at h
  cases h
  exact ⟨by simp, by simp⟩

theorem execCipherCoreRestore_keeps {i : Fin 96} {katOk : Bool} {s s' : State} (h : execCipherCoreRestore i katOk s = .next s') : Keeps s s' := by
  unfold execCipherCoreRestore at h
  cases h
  exact ⟨by simp, by simp⟩

theorem execKatTimer_keeps {i : Fin 96} {ok : Bool} {s s' : State} (h : execKatTimer i ok s = .next s') : Keeps s s' := by
  unfold execKatTimer at h
  cases h
  exact ⟨by simp, by simp⟩

end Sys2Proof.Machine
end

