-- ==== Sys2Proof/Laws/ExecJournal.lean ====
section
/-! SUPPORT. What the meanings of Machine/Journal.lean keep. -/

namespace Sys2Proof.Machine

theorem execRecordSubmit_keeps {w : Submitted} {s s' : State} (h : execRecordSubmit w s = .next s') : Keeps s s' := by
  unfold execRecordSubmit at h
  (try dsimp only at h)
  repeat' split at h
  all_goals first
    | (cases h; done)
    | (cases h; exact Keeps.refl _)
    | (cases h; exact ⟨by simp, by simp⟩)

theorem execRecordSpaceGranted_keeps {id : Nat} {s s' : State} (h : execRecordSpaceGranted id s = .next s') : Keeps s s' := by
  unfold execRecordSpaceGranted at h
  (try dsimp only at h)
  repeat' split at h
  all_goals first
    | (cases h; done)
    | (cases h; exact Keeps.refl _)
    | (cases h; exact ⟨by simp, by simp⟩)

theorem execRecordSequencerStep_keeps {id : Nat} {s s' : State} (h : execRecordSequencerStep id s = .next s') : Keeps s s' := by
  unfold execRecordSequencerStep at h
  (try dsimp only at h)
  repeat' split at h
  all_goals first
    | (cases h; done)
    | (cases h; exact Keeps.refl _)
    | (cases h; exact ⟨by simp, by simp⟩)

theorem execLagAgeBound_keeps  {s s' : State} (h : execLagAgeBound s = .next s') : Keeps s s' := by
  unfold execLagAgeBound at h
  cases h
  exact ⟨by simp, by simp⟩

theorem execReleaseFinish_keeps {e : Fin 524288} {s s' : State} (h : execReleaseFinish e s = .next s') : Keeps s s' := by
  unfold execReleaseFinish at h
  cases h
  exact ⟨by simp, by simp⟩

theorem execFenceComplete_keeps {id : Nat} {s s' : State} (h : execFenceComplete id s = .next s') : Keeps s s' := by
  unfold execFenceComplete at h
  (try dsimp only at h)
  repeat' split at h
  all_goals first
    | (cases h; done)
    | (cases h; exact Keeps.refl _)
    | (cases h; exact ⟨by simp, by simp⟩)

theorem execRetirementStart_keeps {t : Nat} {s s' : State} (h : execRetirementStart t s = .next s') : Keeps s s' := by
  unfold execRetirementStart at h
  cases h
  (try refine State.issue_keeps _ _ _ _ _ fun x => ?_)
  (try dsimp only)
  (repeat' split)
  all_goals first
    | exact Keeps.refl _
    | (have hk := State.takeEntry_keeps (by assumption); exact hk.trans ⟨by simp, by simp⟩)
    | (have hk := State.readAt_of (by assumption); exact hk.trans ⟨by simp, by simp⟩)
    | (have hk := State.writeAt_of (by assumption); exact hk.trans ⟨by simp, by simp⟩)
    | exact ⟨by simp, by simp⟩

theorem execRetirementComplete_keeps {t : Nat} {s s' : State} (h : execRetirementComplete t s = .next s') : Keeps s s' := by
  unfold execRetirementComplete at h
  (try dsimp only at h)
  repeat' split at h
  all_goals first
    | (cases h; done)
    | (cases h; exact Keeps.refl _)
    | (cases h; exact ⟨by simp, by simp⟩)

theorem execAttrPersistDone_keeps  {s s' : State} (h : execAttrPersistDone s = .next s') : Keeps s s' := by
  unfold execAttrPersistDone at h
  (try dsimp only at h)
  repeat' split at h
  all_goals first
    | (cases h; done)
    | (cases h; exact Keeps.refl _)
    | (cases h; exact ⟨by simp, by simp⟩)

theorem execRootRecordProgram_keeps  {s s' : State} (h : execRootRecordProgram s = .next s') : Keeps s s' := by
  unfold execRootRecordProgram at h
  (try dsimp only at h)
  repeat' split at h
  all_goals first
    | (cases h; done)
    | (cases h; exact Keeps.refl _)
    | (cases h; exact ⟨by simp, by simp⟩)

theorem execJournalRecovery_keeps {img : RecoveryImage} {s s' : State} (h : execJournalRecovery img s = .next s') : Keeps s s' := by
  unfold execJournalRecovery at h
  cases h
  refine ⟨?_, ?_⟩ <;> (try simp) <;> (repeat' first
    | (refine fold_pending _ (fun s x => ?_) _ _ <;> try simp)
    | (refine fold_ident _ (fun s x => ?_) _ _ <;> try simp)
    | (split <;> try simp))

theorem execGenRootCheck_keeps {l3 : List StoredCopy} {s s' : State} (h : execGenRootCheck l3 s = .next s') : Keeps s s' := by
  unfold execGenRootCheck at h
  cases h
  exact ⟨by simp, by simp⟩

theorem execMediaFillComplete_keeps {t : Nat} {terr : TerErr} {s s' : State} (h : execMediaFillComplete t terr s = .next s') : Keeps s s' := by
  unfold execMediaFillComplete at h
  cases h
  exact ⟨by simp, by simp⟩

theorem execHedgeTimer_keeps {t : Nat} {s s' : State} (h : execHedgeTimer t s = .next s') : Keeps s s' := by
  unfold execHedgeTimer at h
  (try dsimp only at h)
  repeat' split at h
  all_goals first
    | (cases h; done)
    | (cases h; exact Keeps.refl _)
    | (cases h; exact ⟨by simp, by simp⟩)

theorem execRepairTimeout_keeps {t : Nat} {s s' : State} (h : execRepairTimeout t s = .next s') : Keeps s s' := by
  unfold execRepairTimeout at h
  (try dsimp only at h)
  repeat' split at h
  all_goals first
    | (cases h; done)
    | (cases h; exact Keeps.refl _)
    | (cases h; exact ⟨by simp, by simp⟩)

theorem execRepairRetry_keeps {t : Nat} {s s' : State} (h : execRepairRetry t s = .next s') : Keeps s s' := by
  unfold execRepairRetry at h
  (try dsimp only at h)
  repeat' split at h
  all_goals first
    | (cases h; done)
    | (cases h; exact Keeps.refl _)
    | (cases h; exact ⟨by simp, by simp⟩)

theorem execRepairDeferredAccept_keeps {t : Nat} {s s' : State} (h : execRepairDeferredAccept t s = .next s') : Keeps s s' := by
  unfold execRepairDeferredAccept at h
  (try dsimp only at h)
  repeat' split at h
  all_goals first
    | (cases h; done)
    | (cases h; exact Keeps.refl _)
    | (cases h; exact ⟨by simp, by simp⟩)

theorem execCopyOutEnd_keeps {t : Nat} {s s' : State} (h : execCopyOutEnd t s = .next s') : Keeps s s' := by
  unfold execCopyOutEnd at h
  (try dsimp only at h)
  repeat' split at h
  all_goals first
    | (cases h; done)
    | (cases h; exact Keeps.refl _)
    | (cases h; exact ⟨by simp, by simp⟩)

end Sys2Proof.Machine
end

