-- ==== Sys2Proof/Laws/ExecJtag.lean ====
section
/-! SUPPORT. What the meanings of Machine/Jtag.lean keep. -/

namespace Sys2Proof.Machine

theorem execIdcode_keeps  {s s' : State} (h : execIdcode s = .next s') : Keeps s s' := by
  unfold execIdcode at h
  cases h
  exact ⟨by simp, by simp⟩

theorem execBypass_keeps  {s s' : State} (h : execBypass s = .next s') : Keeps s s' := by
  unfold execBypass at h
  cases h
  exact ⟨by simp, by simp⟩

theorem execSamplePreload_keeps {cells : List Bool} {s s' : State} (h : execSamplePreload cells s = .next s') : Keeps s s' := by
  unfold execSamplePreload at h
  cases h
  exact ⟨by simp, by simp⟩

theorem execExtest_keeps  {s s' : State} (h : execExtest s = .next s') : Keeps s s' := by
  unfold execExtest at h
  cases h
  exact ⟨by simp, by simp⟩

theorem execClamp_keeps  {s s' : State} (h : execClamp s = .next s') : Keeps s s' := by
  unfold execClamp at h
  cases h
  exact ⟨by simp, by simp⟩

theorem execHighz_keeps  {s s' : State} (h : execHighz s = .next s') : Keeps s s' := by
  unfold execHighz at h
  cases h
  exact ⟨by simp, by simp⟩

theorem execExtestPulse_keeps  {s s' : State} (h : execExtestPulse s = .next s') : Keeps s s' := by
  unfold execExtestPulse at h
  cases h
  exact ⟨by simp, by simp⟩

theorem execExtestTrain_keeps  {s s' : State} (h : execExtestTrain s = .next s') : Keeps s s' := by
  unfold execExtestTrain at h
  cases h
  exact ⟨by simp, by simp⟩

theorem execFlsRecover_keeps {op : RecoverOp} {s s' : State} (h : execFlsRecover op s = .next s') : Keeps s s' := by
  unfold execFlsRecover at h
  cases h
  exact ⟨by simp, by simp⟩

theorem execDbgUnlock_keeps {token : Bytes} {sigMldsaOk sigEcdsaOk : Bool} {s s' : State} (h : execDbgUnlock token sigMldsaOk sigEcdsaOk s = .next s') : Keeps s s' := by
  unfold execDbgUnlock at h
  cases h
  exact ⟨by simp, by simp⟩

theorem execTrst_keeps  {s s' : State} (h : execTrst s = .next s') : Keeps s s' := by
  unfold execTrst at h
  cases h
  exact ⟨by simp, by simp⟩

end Sys2Proof.Machine
end

