-- ==== Sys2Proof/Laws/ExecMedia.lean ====
section
/-! SUPPORT. What the meanings of Machine/Media.lean keep. -/

namespace Sys2Proof.Machine

theorem execMedDataFlit_keeps {lane : Fin 128} {head cw pad crc : Bytes} {s s' : State}
    (e : execMedDataFlit lane head cw pad crc s = .next s') : Keeps s s' := by
  cases e
  exact State.hearFlit_keeps ..

theorem execMedRespFlit_keeps {lane : Fin 128} {head body crc : Bytes} {s s' : State}
    (e : execMedRespFlit lane head body crc s = .next s') : Keeps s s' := by
  cases e
  exact State.hearFlit_keeps ..

theorem execMedReplayReq_keeps {lane : Fin 128} {line : Bytes} {s s' : State} (e : execMedReplayReq lane line s = .next s') : Keeps s s' := by
  cases e
  exact State.hearFlit_keeps ..

theorem execMedIdleFlit_keeps {lane : Fin 128} {line : Bytes} {s s' : State} (e : execMedIdleFlit lane line s = .next s') : Keeps s s' := by
  cases e
  exact State.hearFlit_keeps ..

theorem execMedAlignFlit_keeps {_lane : Fin 128} {s s' : State} (h : execMedAlignFlit _lane s = .next s') : Keeps s s' := by
  unfold execMedAlignFlit at h
  cases h
  exact ⟨by simp, by simp⟩

theorem execMedCmdTimeout_keeps {lane : Fin 128} {tag : Fin 128} {s s' : State} (h : execMedCmdTimeout lane tag s = .next s') : Keeps s s' := by
  unfold execMedCmdTimeout at h
  cases h
  exact ⟨by simp, by simp⟩

theorem execLaneTrainStageDone_keeps {lane : Fin 128} {ident : Ident} {replays : Nat} {s s' : State} (h : execLaneTrainStageDone lane ident replays s = .next s') : Keeps s s' := by
  unfold execLaneTrainStageDone at h
  (try dsimp only at h)
  repeat' split at h
  all_goals first
    | (cases h; done)
    | (cases h; exact Keeps.refl _)
    | (cases h; exact ⟨by simp, by simp⟩)

theorem execLaneTrainTimeout_keeps {lane : Fin 128} {s s' : State} (h : execLaneTrainTimeout lane s = .next s') : Keeps s s' := by
  unfold execLaneTrainTimeout at h
  cases h
  exact ⟨by simp, by simp⟩

theorem execModuleTableLoad_keeps {copies : List Bytes} {s s' : State} (h : execModuleTableLoad copies s = .next s') : Keeps s s' := by
  unfold execModuleTableLoad at h
  cases h
  split
  · exact Keeps.refl _
  · dsimp only
    generalize List.foldl _ none (copies.filterMap tableOf) = best
    split
    · refine Keeps.trans ?_ (Keeps.of_fold _ (fun s l => ?_) _ _)
      · exact Keeps.trans ⟨rfl, rfl⟩ (Keeps.of_fold _ (fun s p => ⟨by simp, by simp⟩) _ _)
      · split
        · split
          · exact ⟨by simp, by simp⟩
          · exact Keeps.refl _
        · exact Keeps.refl _
    · split <;> exact ⟨by simp, by simp⟩

theorem execLaneFence_keeps {lane : Fin 128} {s s' : State} (h : execLaneFence lane s = .next s') : Keeps s s' := by
  unfold execLaneFence at h
  cases h
  exact ⟨by simp, by simp⟩

theorem execLaneReplace_keeps {lane : Fin 128} {s s' : State} (h : execLaneReplace lane s = .next s') : Keeps s s' := by
  unfold execLaneReplace at h
  cases h
  exact ⟨by simp, by simp⟩

theorem execLaneRetrain_keeps {lane : Fin 128} {s s' : State} (h : execLaneRetrain lane s = .next s') : Keeps s s' := by
  unfold execLaneRetrain at h
  cases h
  exact ⟨by simp, by simp⟩

theorem execRebuildStripe_keeps {lane : Fin 128} {s s' : State} (h : execRebuildStripe lane s = .next s') : Keeps s s' := by
  unfold execRebuildStripe at h
  cases h
  (try refine State.issue_keeps _ _ _ _ _ fun x => ?_)
  (try dsimp only)
  (repeat' split)
  all_goals first
    | exact Keeps.refl _
    | (have hk := State.takeEntry_keeps (by assumption); exact hk.trans ⟨by simp, by simp⟩)
    | (have hk := State.readAt_of (by assumption); exact hk.trans ⟨by simp, by simp⟩)
    | (have hk := State.writeAt_of (by assumption); exact hk.trans ⟨by simp, by simp⟩)
    | exact ⟨by simp, by simp⟩

theorem execSweepTile_keeps  {s s' : State} (h : execSweepTile s = .next s') : Keeps s s' := by
  unfold execSweepTile at h
  cases h
  split
  · exact Keeps.refl _
  · split
    · split
      · exact State.endSweep_keeps ..
      · exact Keeps.refl _
    · split
      · exact Keeps.refl _
      · split
        · exact Keeps.refl _
        · next e =>
          refine (State.takeEntry_keeps e).trans ?_
          dsimp only
          refine Keeps.trans ?_ (State.oweResults_keeps ..)
          split
          · split <;> exact ⟨by simp, by simp⟩
          · exact ⟨by simp, by simp⟩

end Sys2Proof.Machine
end

