-- ==== Sys2Proof/Laws/ExecNet.lean ====
section
/-! SUPPORT. What the meanings of Machine/Net.lean keep. -/

namespace Sys2Proof.Machine

theorem execNetPortFence_keeps {p : Fin 64} {s s' : State} (h : execNetPortFence p s = .next s') : Keeps s s' := by
  unfold execNetPortFence at h
  cases h
  exact ⟨by simp, by simp⟩

theorem execNetPortRestore_keeps {p : Fin 64} {s s' : State} (h : execNetPortRestore p s = .next s') : Keeps s s' := by
  unfold execNetPortRestore at h
  cases h
  exact ⟨by simp, by simp⟩

theorem execNetPortRetrain_keeps {p : Fin 64} {s s' : State} (h : execNetPortRetrain p s = .next s') : Keeps s s' := by
  unfold execNetPortRetrain at h
  cases h
  exact ⟨by simp, by simp⟩

theorem execNetLinkUp_keeps {p : Fin 64} {pol : Byte} {s s' : State} (h : execNetLinkUp p pol s = .next s') : Keeps s s' := by
  unfold execNetLinkUp at h
  cases h
  exact ⟨by simp, by simp⟩

theorem execNetTrainTimeout_keeps {p : Fin 64} {s s' : State} (h : execNetTrainTimeout p s = .next s') : Keeps s s' := by
  unfold execNetTrainTimeout at h
  cases h
  exact ⟨by simp, by simp⟩

theorem execNetRetrainTimer_keeps {p : Fin 64} {s s' : State} (h : execNetRetrainTimer p s = .next s') : Keeps s s' := by
  unfold execNetRetrainTimer at h
  cases h
  exact ⟨by simp, by simp⟩

theorem execNetLinkDown_keeps {p : Fin 64} {cause : Fin 3} {s s' : State} (h : execNetLinkDown p cause s = .next s') : Keeps s s' := by
  unfold execNetLinkDown at h
  cases h
  exact ⟨by simp, by simp⟩

theorem execPfcFrame_keeps {p : Fin 64} {i : Fin 8} {q : BitVec 16} {s s' : State} (h : execPfcFrame p i q s = .next s') : Keeps s s' := by
  unfold execPfcFrame at h
  cases h
  exact ⟨by simp, by simp⟩

theorem execPauseFrame_keeps {p : Fin 64} {s s' : State} (h : execPauseFrame p s = .next s') : Keeps s s' := by
  unfold execPauseFrame at h
  cases h
  exact ⟨by simp, by simp⟩

theorem execPfcRefresh_keeps {p : Fin 64} {i : Fin 8} {s s' : State} (h : execPfcRefresh p i s = .next s') : Keeps s s' := by
  unfold execPfcRefresh at h
  cases h
  exact ⟨by simp, by simp⟩

theorem execPfcWatchdog_keeps {p : Fin 64} {i : Fin 8} {s s' : State} (h : execPfcWatchdog p i s = .next s') : Keeps s s' := by
  unfold execPfcWatchdog at h
  cases h
  exact ⟨by simp, by simp⟩

theorem execPfcWatchdogClear_keeps {p : Fin 64} {i : Fin 8} {s s' : State} (h : execPfcWatchdogClear p i s = .next s') : Keeps s s' := by
  unfold execPfcWatchdogClear at h
  cases h
  exact ⟨by simp, by simp⟩

theorem execPfcQuantaExpire_keeps {p : Fin 64} {i : Fin 8} {s s' : State} (h : execPfcQuantaExpire p i s = .next s') : Keeps s s' := by
  unfold execPfcQuantaExpire at h
  cases h
  exact ⟨by simp, by simp⟩

theorem execArpRequest_keeps {p : Fin 64} {ip : BitVec 128} {mac : BitVec 48} {s s' : State} (h : execArpRequest p ip mac s = .next s') : Keeps s s' := by
  unfold execArpRequest at h
  cases h
  exact ⟨by simp, by simp⟩

theorem execNeighborSolicitation_keeps {p : Fin 64} {ip : BitVec 128} {mac : BitVec 48} {s s' : State} (h : execNeighborSolicitation p ip mac s = .next s') : Keeps s s' := by
  unfold execNeighborSolicitation at h
  cases h
  exact ⟨by simp, by simp⟩

theorem execContextFetchDone_keeps {c : Conn} {s s' : State} (h : execContextFetchDone c s = .next s') : Keeps s s' := by
  unfold execContextFetchDone at h
  cases h
  split
  · exact Keeps.refl _
  · generalize hr : (if s.xpt.cache.length < 65536 then some s else _ : Option State) = r
    have kr : ∀ u, r = some u → Keeps s u := by
      intro u hu
      rw [← hr] at hu
      split at hu
      · cases hu; exact Keeps.refl _
      · split at hu
        · cases hu; exact ⟨rfl, rfl⟩
        · cases hu
    clear hr
    dsimp only
    cases r with
    | none => exact Keeps.refl _
    | some u =>
      refine (kr u rfl).trans ?_
      refine Keeps.trans ?_ (Keeps.of_fold _ (fun s x => State.takePacket_keeps ..) _ _)
      refine Keeps.trans ?_ (Keeps.of_fold _ (fun s x => State.noteHeld_keeps ..) _ _)
      exact ⟨by simp, by simp⟩

theorem execRoceFrame_keeps {p : Fin 64} {f : NetFrame} {s s' : State} (h : execRoceFrame p f s = .next s') : Keeps s s' := by
  unfold execRoceFrame at h
  cases h
  exact ⟨by simp, by simp⟩

theorem execCcRoundEnd_keeps {c : Conn} {s s' : State} (h : execCcRoundEnd c s = .next s') : Keeps s s' := by
  unfold execCcRoundEnd at h
  cases h
  exact ⟨by simp, by simp⟩

theorem execSrttReset_keeps {c : Conn} {s s' : State} (h : execSrttReset c s = .next s') : Keeps s s' := by
  unfold execSrttReset at h
  cases h
  exact ⟨by simp, by simp⟩

theorem execCnp_keeps {c : Conn} {p : Fin 64} {s s' : State} (h : execCnp c p s = .next s') : Keeps s s' := by
  unfold execCnp at h
  cases h
  exact ⟨by simp, by simp⟩

end Sys2Proof.Machine
end

