-- ==== Sys2Proof/Laws/ExecPower.lean ====
section
/-! SUPPORT. What the meanings of Machine/Power.lean keep. -/

namespace Sys2Proof.Machine

theorem execRestoreGroup_keeps {g : Fin 24} {s s' : State} (h : execRestoreGroup g s = .next s') : Keeps s s' := by
  unfold execRestoreGroup at h
  cases h
  exact ⟨by simp, by simp⟩

theorem execRailOffStage_keeps {mons : List (Fin 56 × BitVec 16)} {s s' : State} (h : execRailOffStage mons s = .next s') : Keeps s s' := by
  unfold execRailOffStage at h
  (try dsimp only at h)
  repeat' split at h
  all_goals first
    | (cases h; done)
    | (cases h; exact Keeps.refl _)
    | (cases h; exact ⟨by simp, by simp⟩)

theorem execSeqSyncStep_keeps  {s s' : State} (h : execSeqSyncStep s = .next s') : Keeps s s' := by
  unfold execSeqSyncStep at h
  cases h
  exact ⟨by simp, by simp⟩

theorem execSeqSyncAbort_keeps  {s s' : State} (h : execSeqSyncAbort s = .next s') : Keeps s s' := by
  unfold execSeqSyncAbort at h
  cases h
  exact ⟨by simp, by simp⟩

theorem execPowerOnResetEnd_keeps {senior seqMode : Bool} {s s' : State} (h : execPowerOnResetEnd senior seqMode s = .next s') : Keeps s s' := by
  unfold execPowerOnResetEnd at h
  cases h
  exact ⟨by simp, by simp⟩

theorem execRailPowerGood_keeps {rail : Fin 56} {mv : BitVec 16} {s s' : State} (h : execRailPowerGood rail mv s = .next s') : Keeps s s' := by
  unfold execRailPowerGood at h
  cases h
  exact ⟨by simp, by simp⟩

theorem execRailPgTimeout_keeps {rail : Fin 56} {cause : RailCause} {mv : BitVec 16} {s s' : State} (h : execRailPgTimeout rail cause mv s = .next s') : Keeps s s' := by
  unfold execRailPgTimeout at h
  cases h
  exact ⟨by simp, by simp⟩

theorem execWaveRelease_keeps  {s s' : State} (h : execWaveRelease s = .next s') : Keeps s s' := by
  unfold execWaveRelease at h
  cases h
  exact ⟨by simp, by simp⟩

theorem execGo_keeps  {s s' : State} (h : execGo s = .next s') : Keeps s s' := by
  unfold execGo at h
  cases h
  exact ⟨by simp, by simp⟩

theorem execGroupRailFail_keeps {rail : Fin 56} {high : Bool} {mv : BitVec 16} {s s' : State} (h : execGroupRailFail rail high mv s = .next s') : Keeps s s' := by
  unfold execGroupRailFail at h
  cases h
  exact ⟨by simp, by simp⟩

theorem execCriticalRailFail_keeps {rail : Fin 56} {high : Bool} {mv : BitVec 16} {s s' : State} (h : execCriticalRailFail rail high mv s = .next s') : Keeps s s' := by
  unfold execCriticalRailFail at h
  (try dsimp only at h)
  repeat' split at h
  all_goals first
    | (cases h; done)
    | (cases h; exact Keeps.refl _)
    | (cases h; exact ⟨by simp, by simp⟩)

theorem execVflFail_keeps {high : Bool} {mv : BitVec 16} {s s' : State} (h : execVflFail high mv s = .next s') : Keeps s s' := by
  unfold execVflFail at h
  cases h
  exact ⟨by simp, by simp⟩

theorem execVcoreLow_keeps {mv : BitVec 16} {s s' : State} (h : execVcoreLow mv s = .next s') : Keeps s s' := by
  unfold execVcoreLow at h
  cases h
  exact ⟨by simp, by simp⟩

theorem execThermalTrip_keeps {sensor : Fin 48} {temp : BitVec 8} {s s' : State} (h : execThermalTrip sensor temp s = .next s') : Keeps s s' := by
  unfold execThermalTrip at h
  cases h
  exact ⟨by simp, by simp⟩

theorem execPwrWarnCommit_keeps  {s s' : State} (h : execPwrWarnCommit s = .next s') : Keeps s s' := by
  unfold execPwrWarnCommit at h
  cases h
  exact ⟨by simp, by simp⟩

theorem execWarnGlitch_keeps {us : BitVec 5} {s s' : State} (h : execWarnGlitch us s = .next s') : Keeps s s' := by
  unfold execWarnGlitch at h
  cases h
  exact ⟨by simp, by simp⟩

theorem execInputStable_keeps  {s s' : State} (h : execInputStable s = .next s') : Keeps s s' := by
  unfold execInputStable at h
  cases h
  exact ⟨by simp, by simp⟩

theorem execClearLatch_keeps  {s s' : State} (h : execClearLatch s = .next s') : Keeps s s' := by
  unfold execClearLatch at h
  cases h
  exact ⟨by simp, by simp⟩

theorem execPwrbusAttention_keeps {answers : List (BitVec 7 × List (Fin 56 × BitVec 16))} {s s' : State} (h : execPwrbusAttention answers s = .next s') : Keeps s s' := by
  unfold execPwrbusAttention at h
  cases h
  exact ⟨by simp, by simp⟩

theorem execTelemetry_keeps {rail : Fin 56} {tries : List PmTry} {_vout iout _temp : BitVec 16} {s s' : State} (h : execTelemetry rail tries _vout iout _temp s = .next s') : Keeps s s' := by
  unfold execTelemetry at h
  cases h
  dsimp only
  split
  · exact Keeps.refl _
  · split
    · exact ((((State.readRail_keeps _ _ _ _).trans (State.readRail_keeps _ _ _ _)).trans (State.readRail_keeps _ _ _ _)).trans
        ⟨State.fset_pending _ _ _, by simp⟩).trans (State.readRail_keeps _ _ _ _)
    · exact (((State.readRail_keeps _ _ _ _).trans (State.readRail_keeps _ _ _ _)).trans (State.readRail_keeps _ _ _ _)).trans
        (State.readRail_keeps _ _ _ _)

theorem execClearPeak_keeps  {s s' : State} (h : execClearPeak s = .next s') : Keeps s s' := by
  unfold execClearPeak at h
  cases h
  exact ⟨by simp, by simp⟩

end Sys2Proof.Machine
end

