-- ==== Sys2Proof/Laws/ExecPromenade.lean ====
section
/-! SUPPORT. What the meanings of Machine/Promenade.lean keep. -/

namespace Sys2Proof.Machine

theorem execPrmRecord_keeps {f : PrmFrame} {s s' : State} (h : execPrmRecord f s = .next s') : Keeps s s' := by
  unfold execPrmRecord at h
  cases h
  refine State.prmRx_keeps _ _ _ _ fun p t => ?_
  (try dsimp only)
  (repeat' split)
  all_goals first
    | exact Keeps.refl _
    | exact ⟨by simp, by simp⟩

theorem execRack_keeps {f : PrmFrame} {s s' : State} (h : execRack f s = .next s') : Keeps s s' := by
  unfold execRack at h
  cases h
  refine State.prmRx_keeps _ _ _ _ fun p t => ?_
  (try dsimp only)
  (repeat' split)
  all_goals first
    | exact Keeps.refl _
    | exact ⟨by simp, by simp⟩

theorem execForward_keeps {f : PrmFrame} {s s' : State} (h : execForward f s = .next s') : Keeps s s' := by
  unfold execForward at h
  cases h
  refine State.prmRx_keeps _ _ _ _ fun p t => ?_
  (try dsimp only)
  (repeat' split)
  all_goals first
    | exact Keeps.refl _
    | exact ⟨by simp, by simp⟩

theorem execFwdResp_keeps {f : PrmFrame} {s s' : State} (h : execFwdResp f s = .next s') : Keeps s s' := by
  unfold execFwdResp at h
  cases h
  refine State.prmRx_keeps _ _ _ _ fun p t => ?_
  (try dsimp only)
  (repeat' split)
  all_goals first
    | exact Keeps.refl _
    | exact ⟨by simp, by simp⟩

theorem execHeartbeat_keeps {f : PrmFrame} {s s' : State} (h : execHeartbeat f s = .next s') : Keeps s s' := by
  unfold execHeartbeat at h
  cases h
  refine State.prmRx_keeps _ _ _ _ fun p t => ?_
  (try dsimp only)
  (repeat' split)
  all_goals first
    | exact Keeps.refl _
    | exact ⟨by simp, by simp⟩

theorem execRepairReq_keeps {f : PrmFrame} {s s' : State} (h : execRepairReq f s = .next s') : Keeps s s' := by
  unfold execRepairReq at h
  cases h
  refine State.prmRx_keeps _ _ _ _ fun p t => ?_
  (try dsimp only)
  (repeat' split)
  all_goals first
    | exact Keeps.refl _
    | exact ⟨by simp, by simp⟩

theorem execRepairData_keeps {f : PrmFrame} {s s' : State} (h : execRepairData f s = .next s') : Keeps s s' := by
  unfold execRepairData at h
  cases h
  refine State.prmRx_keeps _ _ _ _ fun p t => ?_
  (try dsimp only)
  (repeat' split)
  all_goals first
    | exact Keeps.refl _
    | exact ⟨by simp, by simp⟩

theorem execResyncMap_keeps {f : PrmFrame} {s s' : State} (h : execResyncMap f s = .next s') : Keeps s s' := by
  unfold execResyncMap at h
  cases h
  refine State.prmRx_keeps _ _ _ _ fun p t => ?_
  (try dsimp only)
  (repeat' split)
  all_goals first
    | exact Keeps.refl _
    | exact ⟨by simp, by simp⟩

theorem execResyncData_keeps {f : PrmFrame} {s s' : State} (h : execResyncData f s = .next s') : Keeps s s' := by
  unfold execResyncData at h
  cases h
  refine State.prmRx_keeps _ _ _ _ fun p t => ?_
  (try dsimp only)
  (repeat' split)
  all_goals first
    | exact Keeps.refl _
    | exact ⟨by simp, by simp⟩

theorem execResyncTileInstall_keeps {t : Nat} {s s' : State} (h : execResyncTileInstall t s = .next s') : Keeps s s' := by
  unfold execResyncTileInstall at h
  (try dsimp only at h)
  repeat' split at h
  all_goals first
    | (cases h; done)
    | (cases h; exact Keeps.refl _)
    | (cases h; exact ⟨by simp, by simp⟩)

theorem execResyncTileSend_keeps  {s s' : State} (h : execResyncTileSend s = .next s') : Keeps s s' := by
  unfold execResyncTileSend at h
  cases h
  (try refine State.issue_keeps _ _ _ _ _ fun x => ?_)
  (try dsimp only)
  (repeat' split)
  all_goals first
    | exact Keeps.refl _
    | (have hk := State.takeEntry_keeps (by assumption); exact hk.trans ⟨by simp, by simp⟩)
    | (have hk := State.readAt_of (by assumption); exact hk.trans ⟨by simp, by simp⟩)
    | (have hk := State.writeAt_of (by assumption); exact hk.trans ⟨by simp, by simp⟩)
    | exact ⟨by simp, by simp⟩

theorem execNack_keeps {f : PrmFrame} {s s' : State} (h : execNack f s = .next s') : Keeps s s' := by
  unfold execNack at h
  cases h
  refine State.prmRx_keeps _ _ _ _ fun p t => ?_
  (try dsimp only)
  (repeat' split)
  all_goals first
    | exact Keeps.refl _
    | exact ⟨by simp, by simp⟩

theorem execRekey_keeps {f : PrmFrame} {s s' : State} (h : execRekey f s = .next s') : Keeps s s' := by
  unfold execRekey at h
  cases h
  refine State.prmRx_keeps _ _ _ _ fun p t => ?_
  (try dsimp only)
  (repeat' split)
  all_goals first
    | exact Keeps.refl _
    | exact ⟨by simp, by simp⟩

theorem execHome_keeps {f : PrmFrame} {s s' : State} (h : execHome f s = .next s') : Keeps s s' := by
  unfold execHome at h
  cases h
  refine State.prmRx_keeps _ _ _ _ fun p t => ?_
  (try dsimp only)
  (repeat' split)
  all_goals first
    | exact Keeps.refl _
    | exact ⟨by simp, by simp⟩

theorem execIdle_keeps {f : PrmFrame} {s s' : State} (h : execIdle f s = .next s') : Keeps s s' := by
  unfold execIdle at h
  cases h
  refine State.prmRx_keeps _ _ _ _ fun p t => ?_
  (try dsimp only)
  (repeat' split)
  all_goals first
    | exact Keeps.refl _
    | exact ⟨by simp, by simp⟩

theorem execPrmRtoExpire_keeps {g : Fin 2} {s s' : State} (h : execPrmRtoExpire g s = .next s') : Keeps s s' := by
  unfold execPrmRtoExpire at h
  (try dsimp only at h)
  repeat' split at h
  all_goals first
    | (cases h; done)
    | (cases h; exact Keeps.refl _)
    | (cases h; exact ⟨by simp, by simp⟩)

theorem execPrmHeartbeatSend_keeps  {s s' : State} (h : execPrmHeartbeatSend s = .next s') : Keeps s s' := by
  unfold execPrmHeartbeatSend at h
  cases h
  exact ⟨by simp, by simp⟩

theorem execPrmHeartbeatMiss_keeps {g : Fin 2} {s s' : State} (h : execPrmHeartbeatMiss g s = .next s') : Keeps s s' := by
  unfold execPrmHeartbeatMiss at h
  cases h
  exact ⟨by simp, by simp⟩

theorem execPrmGroupTrained_keeps {g : Fin 2} {width : Fin 4} {flightNs : BitVec 11} {s s' : State} (h : execPrmGroupTrained g width flightNs s = .next s') : Keeps s s' := by
  unfold execPrmGroupTrained at h
  cases h
  split
  · exact Keeps.refl _
  · dsimp only
    unfold upFld widthFld
    refine ⟨?_, ?_⟩ <;> (repeat' split) <;> simp

theorem execTwinAliveToggle_keeps  {s s' : State} (h : execTwinAliveToggle s = .next s') : Keeps s s' := by
  unfold execTwinAliveToggle at h
  cases h
  exact ⟨by simp, by simp⟩

theorem execTwinAliveEdge_keeps  {s s' : State} (h : execTwinAliveEdge s = .next s') : Keeps s s' := by
  unfold execTwinAliveEdge at h
  cases h
  exact ⟨by simp, by simp⟩

theorem execTwinAliveQuiet_keeps  {s s' : State} (h : execTwinAliveQuiet s = .next s') : Keeps s s' := by
  unfold execTwinAliveQuiet at h
  cases h
  exact ⟨by simp, by simp⟩

theorem execEstablish_keeps  {s s' : State} (h : execEstablish s = .next s') : Keeps s s' := by
  unfold execEstablish at h
  cases h
  cases e : s.establish? with
  | none => exact Keeps.refl _
  | some t => exact State.establish?_keeps e

theorem execStartSolo_keeps  {s s' : State} (h : execStartSolo s = .next s') : Keeps s s' := by
  unfold execStartSolo at h
  cases h
  cases e : s.startSolo? with
  | none => exact Keeps.refl _
  | some t => exact State.startSolo?_keeps e

theorem execForceSolo_keeps {l3 : List StoredCopy} {s s' : State} (h : execForceSolo l3 s = .next s') : Keeps s s' := by
  unfold execForceSolo at h
  cases h
  cases e : s.forceSolo? l3 with
  | none => exact Keeps.refl _
  | some t => exact State.forceSolo?_keeps e

theorem execAdmitReplacement_keeps  {s s' : State} (h : execAdmitReplacement s = .next s') : Keeps s s' := by
  unfold execAdmitReplacement at h
  cases h
  cases e : s.admitReplacement? with
  | error _ => exact Keeps.refl _
  | ok t => exact State.admitReplacement?_keeps e

theorem execReanchorTile_keeps {t : Nat} {copy : StoredCopy} {s s' : State} (h : execReanchorTile t copy s = .next s') : Keeps s s' := by
  unfold execReanchorTile at h
  cases h
  split
  · exact Keeps.refl _
  · split
    · rename_i e
      exact (State.takeEntry_keeps e).trans ((State.reanchor_keeps _ _ _).trans (State.resolve_keeps _ _ _ _))
    · exact Keeps.refl _

theorem execPairing_keeps {f : PrmFrame} {m : PairMsg} {s s' : State} (h : execPairing f m s = .next s') : Keeps s s' := by
  unfold execPairing at h
  cases h
  refine State.prmRx_keeps _ _ _ _ fun p t => ?_
  (try dsimp only)
  (repeat' split)
  all_goals first
    | exact Keeps.refl _
    | exact ⟨by simp, by simp⟩

theorem execPairResume_keeps {p : PeerState} {s s' : State} (h : execPairResume p s = .next s') : Keeps s s' := by
  unfold execPairResume at h
  cases h
  split
  · exact Keeps.refl _
  · split
    · exact State.askResume_keeps _
    · dsimp only
      split
      · exact ⟨by simp, by simp⟩
      · split
        · exact ⟨by simp, by simp⟩
        · exact Keeps.trans ⟨by simp, by simp⟩ (State.settlePair_keeps _ _)

end Sys2Proof.Machine
end

