-- ==== Sys2Proof/Laws/ExecRdma.lean ====
section
/-! SUPPORT. What the meanings of Machine/Rdma.lean keep. -/

namespace Sys2Proof.Machine

theorem execRdmaWrite_keeps {c : Conn} {s s' : State} (h : execRdmaWrite c s = .next s') : Keeps s s' := by
  unfold execRdmaWrite at h
  cases h
  exact State.request_keeps _ _ _ _ _ (fun p t k => k.trans (State.ackDup_keeps ..))
    fun p t k => k.trans (State.memOp_keeps _ _ _ _ fun p t => State.takeWrite_keeps ..)

theorem execRdmaRead_keeps {c : Conn} {s s' : State} (h : execRdmaRead c s = .next s') : Keeps s s' := by
  unfold execRdmaRead at h
  cases h
  exact State.request_keeps _ _ _ _ _ (fun p t k => k.trans (State.dupRead_keeps ..))
    fun p t k => k.trans (State.memOp_keeps _ _ _ _ fun p t => State.takeRead_keeps ..)

theorem execCompareAndSwap_keeps {c : Conn} {s s' : State} (h : execCompareAndSwap c s = .next s') : Keeps s s' := by
  unfold execCompareAndSwap at h
  cases h
  exact State.request_keeps _ _ _ _ _ (fun p t k => k.trans (State.dupAtomic_keeps ..))
    fun p t k => k.trans (State.memOp_keeps _ _ _ _ fun p t => State.takeAtomicEth_keeps ..)

theorem execFetchAndAdd_keeps {c : Conn} {s s' : State} (h : execFetchAndAdd c s = .next s') : Keeps s s' := by
  unfold execFetchAndAdd at h
  cases h
  exact State.request_keeps _ _ _ _ _ (fun p t k => k.trans (State.dupAtomic_keeps ..))
    fun p t k => k.trans (State.memOp_keeps _ _ _ _ fun p t => State.takeAtomicEth_keeps ..)

theorem execAtomicWrite_keeps {c : Conn} {s s' : State} (h : execAtomicWrite c s = .next s') : Keeps s s' := by
  unfold execAtomicWrite at h
  cases h
  exact State.request_keeps _ _ _ _ _ (fun p t k => k.trans (State.ackDup_keeps ..))
    fun p t k => k.trans (State.memOp_keeps _ _ _ _ fun p t => State.takeAtomicWrite_keeps ..)

theorem execFlush_keeps {c : Conn} {s s' : State} (h : execFlush c s = .next s') : Keeps s s' := by
  unfold execFlush at h
  cases h
  refine State.request_keeps _ _ _ _ _ (fun p t k => k.trans ?_)
    fun p t k => k.trans (State.memOp_keeps _ _ _ _ fun p t => State.takeFlush_keeps ..)
  split
  · exact Keeps.refl _
  · exact State.answerDup_keeps ..

theorem execRoceUnsupported_keeps {c : Conn} {s s' : State} (h : execRoceUnsupported c s = .next s') : Keeps s s' := by
  unfold execRoceUnsupported at h
  cases h
  exact State.request_keeps _ _ _ _ _ (fun p t k => k) fun p t k => k.trans (State.refuseReq_keeps ..)

end Sys2Proof.Machine
end

