-- ==== Sys2Proof/Laws/ExecRegisters.lean ====
section
/-! SUPPORT. What the meanings of Machine/Registers.lean keep. -/

namespace Sys2Proof.Machine

theorem execRegisterWrite_keeps {off : BitVec 32} {v : Word} {s s' : State} (h : execRegisterWrite off v s = .next s') : Keeps s s' := by
  unfold execRegisterWrite at h
  (try dsimp only at h)
  repeat' split at h
  all_goals first
    | (cases h; done)
    | (cases h; exact Keeps.refl _)
    | (cases h; exact ⟨by simp, by simp⟩)

end Sys2Proof.Machine
end

