-- ==== Sys2Proof/Laws/ExecReset.lean ====
section
/-! SUPPORT. What the meanings of Machine/Reset.lean keep. -/

namespace Sys2Proof.Machine

theorem execDrainComplete_keeps  {s s' : State} (h : execDrainComplete s = .next s') : Keeps s s' := by
  unfold execDrainComplete at h
  cases h
  exact ⟨by simp, by simp⟩

theorem execDrainAbandon_keeps  {s s' : State} (h : execDrainAbandon s = .next s') : Keeps s s' := by
  unfold execDrainAbandon at h
  cases h
  exact ⟨by simp, by simp⟩

theorem execSysRstAssert_keeps  {s s' : State} (h : execSysRstAssert s = .next s') : Keeps s s' := by
  unfold execSysRstAssert at h
  cases h
  exact ⟨by simp, by simp⟩

theorem execSysRstDeassert_keeps  {s s' : State} (h : execSysRstDeassert s = .next s') : Keeps s s' := by
  unfold execSysRstDeassert at h
  cases h
  exact ⟨by simp, by simp⟩

theorem execDeviceReset_keeps  {s s' : State} (h : execDeviceReset s = .next s') : Keeps s s' := by
  unfold execDeviceReset at h
  cases h
  exact ⟨by simp, by simp⟩

theorem execBelvedereRestart_keeps  {s s' : State} (h : execBelvedereRestart s = .next s') : Keeps s s' := by
  unfold execBelvedereRestart at h
  cases h
  exact ⟨by simp, by simp⟩

theorem execBelvedereFault_keeps  {s s' : State} (h : execBelvedereFault s = .next s') : Keeps s s' := by
  unfold execBelvedereFault at h
  cases h
  exact ⟨by simp, by simp⟩

theorem execWatchdogExpire_keeps  {s s' : State} (h : execWatchdogExpire s = .next s') : Keeps s s' := by
  unfold execWatchdogExpire at h
  cases h
  exact ⟨by simp, by simp⟩

theorem execKick_keeps  {s s' : State} (h : execKick s = .next s') : Keeps s s' := by
  unfold execKick at h
  cases h
  exact ⟨by simp, by simp⟩

theorem execBootRomRun_keeps {aOk bOk : Bool} {s s' : State} (h : execBootRomRun aOk bOk s = .next s') : Keeps s s' := by
  unfold execBootRomRun at h
  cases h
  refine ⟨?_, ?_⟩ <;> (try simp) <;> (repeat' first
    | (refine fold_pending _ (fun s x => ?_) _ _ <;> try simp)
    | (refine fold_ident _ (fun s x => ?_) _ _ <;> try simp)
    | (split <;> try simp))

theorem execVaonLeavesWindow_keeps  {s s' : State} (h : execVaonLeavesWindow s = .next s') : Keeps s s' := by
  unfold execVaonLeavesWindow at h
  cases h
  dsimp only
  refine Keeps.trans (State.resetCore_keeps s) ?_
  generalize s.resetCore = u
  refine ⟨rfl, ?_⟩
  have k := (State.fput_keeps u R.PRM_STAT.SENIOR false (by simp)).2
  generalize u.fput R.PRM_STAT.SENIOR false = v at k ⊢
  rw [← k]
  simp only [List.filter_filter]
  apply List.filter_congr
  intro p _
  simp only [identKey]
  by_cases c : p.1 < 64 <;> simp [c]

theorem execVfuseVoltage_keeps {mv : BitVec 16} {s s' : State} (h : execVfuseVoltage mv s = .next s') : Keeps s s' := by
  unfold execVfuseVoltage at h
  cases h
  exact ⟨by simp, by simp⟩

end Sys2Proof.Machine
end

