-- ==== Sys2Proof/Laws/ExecSends.lean ====
section
/-! SUPPORT. What the meanings of Machine/Sends.lean keep. -/

namespace Sys2Proof.Machine

theorem execSendTaskDescriptors_keeps {c : Conn} {s s' : State} (h : execSendTaskDescriptors c s = .next s') : Keeps s s' := by
  unfold execSendTaskDescriptors at h
  cases h
  exact State.sendRow_keeps _ _ _ _ fun b u => State.runTasks_keeps ..

theorem execSendWalkPlan_keeps {c : Conn} {s s' : State} (h : execSendWalkPlan c s = .next s') : Keeps s s' := by
  unfold execSendWalkPlan at h
  cases h
  exact State.sendRow_keeps _ _ _ _ fun b u => State.tenantOnly_keeps _ _ _ _ fun b u => State.runPlan_keeps ..

theorem execSendPlanCancel_keeps {c : Conn} {s s' : State} (h : execSendPlanCancel c s = .next s') : Keeps s s' := by
  unfold execSendPlanCancel at h
  cases h
  refine State.sendRow_keeps _ _ _ _ fun b u => State.tenantOnly_keeps _ _ _ _ fun b u => ?_
  split
  · exact Keeps.refl _
  · exact State.endPlan_keeps ..

theorem execRegister_keeps {c : Conn} {s s' : State} (h : execRegister c s = .next s') : Keeps s s' := by
  unfold execRegister at h
  cases h
  exact State.keyRow_keeps _ _ _ _ fun b u => State.runRegister_keeps ..

theorem execRevoke_keeps {c : Conn} {s s' : State} (h : execRevoke c s = .next s') : Keeps s s' := by
  unfold execRevoke at h
  cases h
  exact State.keyRow_keeps _ _ _ _ fun b u => State.runRevoke_keeps ..

theorem execWorkRequestPost_keeps {c : Conn} {s s' : State} (h : execWorkRequestPost c s = .next s') : Keeps s s' := by
  unfold execWorkRequestPost at h
  cases h
  exact State.sendRow_keeps _ _ _ _ fun b u => State.tenantOnly_keeps _ _ _ _ fun b u => State.runPost_keeps ..

end Sys2Proof.Machine
end

