-- ==== Sys2Proof/Laws/ExecStatus.lean ====
section
/-! SUPPORT. What the meanings of Machine/Status.lean keep. -/

namespace Sys2Proof.Machine

theorem execCqCiPoll_keeps {cq : Fin 65536} {ci : BitVec 32} {s s' : State} (h : execCqCiPoll cq ci s = .next s') : Keeps s s' := by
  unfold execCqCiPoll at h
  cases h
  exact ⟨by simp, by simp⟩

theorem execCqFullTimeout_keeps {cq : Fin 65536} {s s' : State} (h : execCqFullTimeout cq s = .next s') : Keeps s s' := by
  unfold execCqFullTimeout at h
  cases h
  exact ⟨by simp, by simp⟩

theorem execCqBaseWrite_keeps {cq : Fin 65536} {v : Word} {s s' : State} (h : execCqBaseWrite cq v s = .next s') : Keeps s s' := by
  unfold execCqBaseWrite at h
  cases h
  exact ⟨by simp, by simp⟩

theorem execTargetWrite_keeps {t : Fin 4096} {v : Word} {s s' : State} (h : execTargetWrite t v s = .next s') : Keeps s s' := by
  unfold execTargetWrite at h
  cases h
  exact ⟨by simp, by simp⟩

theorem execPageRefresh_keeps  {s s' : State} (h : execPageRefresh s = .next s') : Keeps s s' := by
  unfold execPageRefresh at h
  cases h
  exact ⟨by simp, by simp⟩

theorem execPageMirror_keeps {slot : Fin 2048} {s s' : State} (h : execPageMirror slot s = .next s') : Keeps s s' := by
  unfold execPageMirror at h
  cases h
  exact ⟨by simp, by simp⟩

end Sys2Proof.Machine
end

