-- ==== Sys2Proof/Laws/ExecTasks.lean ====
section
/-! SUPPORT. What the meanings of Machine/Tasks.lean keep. -/

namespace Sys2Proof.Machine

theorem execTaskStart_keeps {sq : Fin 16} {s s' : State} (h : execTaskStart sq s = .next s') : Keeps s s' := by
  unfold execTaskStart at h
  cases h
  (try refine State.issue_keeps _ _ _ _ _ fun x => ?_)
  (try dsimp only)
  (repeat' split)
  all_goals first
    | exact Keeps.refl _
    | (have hk := State.takeEntry_keeps (by assumption); exact hk.trans ⟨by simp, by simp⟩)
    | (have hk := State.readAt_of (by assumption); exact hk.trans ⟨by simp, by simp⟩)
    | (have hk := State.writeAt_of (by assumption); exact hk.trans ⟨by simp, by simp⟩)
    | exact ⟨by simp, by simp⟩

theorem execLoadDescriptor_keeps {p : Fin 1024} {s s' : State} (h : execLoadDescriptor p s = .next s') : Keeps s s' := by
  unfold execLoadDescriptor at h
  cases h
  split
  · next t dpa len crc _ _ =>
    dsimp only
    split
    · exact ⟨by simp, by simp⟩
    · split
      · exact Keeps.refl _
      · next e => exact (State.takeEntry_keeps e).trans ⟨by simp, by simp⟩
  · exact Keeps.refl _

theorem execLoadComplete_keeps {p : Fin 1024} {s s' : State} (h : execLoadComplete p s = .next s') : Keeps s s' := by
  unfold execLoadComplete at h
  (try dsimp only at h)
  repeat' split at h
  all_goals first
    | (cases h; done)
    | (cases h; exact Keeps.refl _)
    | (cases h; exact ⟨by simp, by simp⟩)

theorem execLoadOldImageFreed_keeps {p : Fin 1024} {s s' : State} (h : execLoadOldImageFreed p s = .next s') : Keeps s s' := by
  unfold execLoadOldImageFreed at h
  cases h
  refine ⟨?_, ?_⟩ <;> (try simp) <;> (repeat' first
    | (refine fold_pending _ (fun s x => ?_) _ _ <;> try simp)
    | (refine fold_ident _ (fun s x => ?_) _ _ <;> try simp)
    | (split <;> try simp))

theorem execCancelDescriptor_keeps {q : Fin 1024} {s s' : State} (h : execCancelDescriptor q s = .next s') : Keeps s s' := by
  unfold execCancelDescriptor at h
  (try dsimp only at h)
  repeat' split at h
  all_goals first
    | (cases h; done)
    | (cases h; exact Keeps.refl _)
    | (cases h; exact ⟨by simp, by simp⟩)

theorem execProgramClear_keeps {p : Fin 1024} {s s' : State} (h : execProgramClear p s = .next s') : Keeps s s' := by
  unfold execProgramClear at h
  cases h
  exact ⟨by simp, by simp⟩

theorem execKioskFence_keeps {k : Fin 512} {s s' : State} (h : execKioskFence k s = .next s') : Keeps s s' := by
  unfold execKioskFence at h
  cases h
  exact ⟨by simp, by simp⟩

theorem execKioskRestore_keeps {k : Fin 512} {s s' : State} (h : execKioskRestore k s = .next s') : Keeps s s' := by
  unfold execKioskRestore at h
  cases h
  exact ⟨by simp, by simp⟩

theorem execQueueDisable_keeps {q : Fin 1024} {s s' : State} (h : execQueueDisable q s = .next s') : Keeps s s' := by
  unfold execQueueDisable at h
  cases h
  exact ⟨by simp, by simp⟩

theorem execMgmtTaskStart_keeps  {s s' : State} (h : execMgmtTaskStart s = .next s') : Keeps s s' := by
  unfold execMgmtTaskStart at h
  (try dsimp only at h)
  repeat' split at h
  all_goals first
    | (cases h; done)
    | (cases h; exact Keeps.refl _)
    | (cases h; exact ⟨by simp, by simp⟩)

end Sys2Proof.Machine
end

