-- ==== Sys2Proof/Laws/ExecTiers.lean ====
section
/-! SUPPORT. What the meanings of Machine/Tiers.lean keep. -/

namespace Sys2Proof.Machine

theorem execLineLock_keeps {line : BitVec 41} {s s' : State} (h : execLineLock line s = .next s') : Keeps s s' := by
  unfold execLineLock at h
  cases h
  exact ⟨by simp, by simp⟩

theorem execLineUnlock_keeps {line : BitVec 41} {s s' : State} (h : execLineUnlock line s = .next s') : Keeps s s' := by
  unfold execLineUnlock at h
  cases h
  exact ⟨by simp, by simp⟩

theorem execRangeInvalidation_keeps {release : Bool} {count : BitVec 20} {first : Fin 524288} {s s' : State} (h : execRangeInvalidation release count first s = .next s') : Keeps s s' := by
  unfold execRangeInvalidation at h
  cases h
  exact ⟨by simp, by simp⟩

theorem execRangeInvalidationDone_keeps  {s s' : State} (h : execRangeInvalidationDone s = .next s') : Keeps s s' := by
  unfold execRangeInvalidationDone at h
  cases h
  (try dsimp only)
  repeat' split
  all_goals first
    | exact ⟨by simp, by simp⟩
    | exact Keeps.refl _

theorem execSliceFence_keeps {sl : Fin 16} {s s' : State} (h : execSliceFence sl s = .next s') : Keeps s s' := by
  unfold execSliceFence at h
  cases h
  exact ⟨by simp, by simp⟩

theorem execSliceRestore_keeps {sl : Fin 16} {s s' : State} (h : execSliceRestore sl s = .next s') : Keeps s s' := by
  unfold execSliceRestore at h
  cases h
  exact ⟨by simp, by simp⟩

theorem execWaymodeWrite_keeps {lock : BitVec 4} {scratch : BitVec 4} {s s' : State} (h : execWaymodeWrite lock scratch s = .next s') : Keeps s s' := by
  unfold execWaymodeWrite at h
  cases h
  exact ⟨by simp, by simp⟩

theorem execScratchOwnerAssign_keeps {b : Fin 192} {tenant : BitVec 24} {s s' : State} (h : execScratchOwnerAssign b tenant s = .next s') : Keeps s s' := by
  unfold execScratchOwnerAssign at h
  cases h
  exact ⟨by simp, by simp⟩

theorem execScratchZeroDone_keeps {b : Fin 192} {s s' : State} (h : execScratchZeroDone b s = .next s') : Keeps s s' := by
  unfold execScratchZeroDone at h
  (try dsimp only at h)
  repeat' split at h
  all_goals first
    | (cases h; done)
    | (cases h; exact Keeps.refl _)
    | (cases h; exact ⟨by simp, by simp⟩)

theorem execLoggiaTtlExpire_keeps {line : BitVec 41} {s s' : State} (h : execLoggiaTtlExpire line s = .next s') : Keeps s s' := by
  unfold execLoggiaTtlExpire at h
  cases h
  exact ⟨by simp, by simp⟩

theorem execPlanIdleExpire_keeps {r : PlanReader} {s s' : State} (h : execPlanIdleExpire r s = .next s') : Keeps s s' := by
  unfold execPlanIdleExpire at h
  (try dsimp only at h)
  repeat' split at h
  all_goals first
    | (cases h; done)
    | (cases h; exact Keeps.refl _)
    | (cases h; exact ⟨by simp, by simp⟩)

theorem execPinLoadTile_keeps {t : Nat} {s s' : State} (h : execPinLoadTile t s = .next s') : Keeps s s' := by
  unfold execPinLoadTile at h
  cases h
  (try refine State.issue_keeps _ _ _ _ _ fun x => ?_)
  (try dsimp only)
  (repeat' split)
  all_goals first
    | exact Keeps.refl _
    | (have hk := State.takeEntry_keeps (by assumption); exact hk.trans ⟨by simp, by simp⟩)
    | (have hk := State.readAt_of (by assumption); exact hk.trans ⟨by simp, by simp⟩)
    | (have hk := State.writeAt_of (by assumption); exact hk.trans ⟨by simp, by simp⟩)
    | exact ⟨by simp, by simp⟩

theorem execTerraceTrainDone_keeps {up : BitVec 4} {s s' : State} (h : execTerraceTrainDone up s = .next s') : Keeps s s' := by
  unfold execTerraceTrainDone at h
  cases h
  exact ⟨by simp, by simp⟩

end Sys2Proof.Machine
end

