-- ==== Sys2Proof/Laws/ExecTurnstile.lean ====
section
/-! SUPPORT. What the meanings of Machine/Turnstile.lean keep. -/

namespace Sys2Proof.Machine

theorem execOpTimeout_keeps {tag : Fin 262144} {s s' : State} (h : execOpTimeout tag s = .next s') : Keeps s s' := by
  unfold execOpTimeout at h
  (try dsimp only at h)
  repeat' split at h
  all_goals first
    | (cases h; done)
    | (cases h; exact Keeps.refl _)
    | (cases h; exact ⟨by simp, by simp⟩)

theorem execDrainBound_keeps {u : DrainUnit} {s s' : State} (h : execDrainBound u s = .next s') : Keeps s s' := by
  unfold execDrainBound at h
  cases h
  refine ⟨?_, ?_⟩ <;> (try simp) <;> (repeat' first
    | (refine fold_pending _ (fun s x => ?_) _ _ <;> try simp)
    | (refine fold_ident _ (fun s x => ?_) _ _ <;> try simp)
    | (split <;> try simp))

theorem execClearHigh_keeps  {s s' : State} (h : execClearHigh s = .next s') : Keeps s s' := by
  unfold execClearHigh at h
  cases h
  exact ⟨by simp, by simp⟩

end Sys2Proof.Machine
end

