-- ==== Sys2Proof/Laws/ExecTwoWire.lean ====
section
/-! SUPPORT. What the meanings of Machine/TwoWire.lean keep. -/

namespace Sys2Proof.Machine

theorem execMctpPacket_keeps {p : MctpPacket} {s s' : State} (h : execMctpPacket p s = .next s') : Keeps s s' := by
  unfold execMctpPacket at h
  cases h
  (repeat' split) <;> first
    | exact Keeps.refl _
    | exact ⟨by simp, by simp⟩

theorem execMgmtRegisterRead_keeps {off : BitVec 32} {pecOk : Bool} {s s' : State} (h : execMgmtRegisterRead off pecOk s = .next s') : Keeps s s' := by
  unfold execMgmtRegisterRead at h
  cases h
  exact ⟨by simp, by simp⟩

theorem execMgmtClearLatch_keeps {data : Byte} {pecOk : Bool} {s s' : State} (h : execMgmtClearLatch data pecOk s = .next s') : Keeps s s' := by
  unfold execMgmtClearLatch at h
  cases h
  exact ⟨by simp, by simp⟩

theorem execSetEndpointId_keeps {src : BitVec 7} {eid : Byte} {s s' : State} (h : execSetEndpointId src eid s = .next s') : Keeps s s' := by
  unfold execSetEndpointId at h
  cases h
  exact ⟨by simp, by simp⟩

theorem execGetEndpointId_keeps {src : BitVec 7} {s s' : State} (h : execGetEndpointId src s = .next s') : Keeps s s' := by
  unfold execGetEndpointId at h
  cases h
  exact ⟨by simp, by simp⟩

theorem execGetMctpVersionSupport_keeps {src : BitVec 7} {typ : Byte} {s s' : State} (h : execGetMctpVersionSupport src typ s = .next s') : Keeps s s' := by
  unfold execGetMctpVersionSupport at h
  cases h
  exact ⟨by simp, by simp⟩

theorem execGetMessageTypeSupport_keeps {src : BitVec 7} {s s' : State} (h : execGetMessageTypeSupport src s = .next s') : Keeps s s' := by
  unfold execGetMessageTypeSupport at h
  cases h
  exact ⟨by simp, by simp⟩

theorem execMctpSpdm_keeps {src : BitVec 7} {m : SpdmStep} {s s' : State} (h : execMctpSpdm src m s = .next s') : Keeps s s' := by
  unfold execMctpSpdm at h
  (try dsimp only at h)
  repeat' split at h
  all_goals first
    | (cases h; done)
    | (cases h; exact Keeps.refl _)
    | (cases h; exact ⟨by simp, by simp⟩)

theorem execMctpSecuredMessage_keeps {src : BitVec 7} {session : Fin 2} {desc : Bytes} {s s' : State} (h : execMctpSecuredMessage src session desc s = .next s') : Keeps s s' := by
  unfold execMctpSecuredMessage at h
  (try dsimp only at h)
  repeat' split at h
  all_goals first
    | (cases h; done)
    | (cases h; exact Keeps.refl _)
    | (cases h; exact ⟨by simp, by simp⟩)

theorem execMctpSendTimeout_keeps  {s s' : State} (h : execMctpSendTimeout s = .next s') : Keeps s s' := by
  unfold execMctpSendTimeout at h
  (try dsimp only at h)
  repeat' split at h
  all_goals first
    | (cases h; done)
    | (cases h; exact Keeps.refl _)
    | (cases h; exact ⟨by simp, by simp⟩)

theorem execClockLowTimeout_keeps {bus : Fin 2} {s s' : State} (h : execClockLowTimeout bus s = .next s') : Keeps s s' := by
  unfold execClockLowTimeout at h
  cases h
  exact ⟨by simp, by simp⟩

theorem execBusRecovery_keeps {bus : Fin 2} {clocks : Fin 10} {s s' : State} (h : execBusRecovery bus clocks s = .next s') : Keeps s s' := by
  unfold execBusRecovery at h
  cases h
  exact ⟨by simp, by simp⟩

end Sys2Proof.Machine
end

