-- ==== Sys2Proof/Laws/ExecWorks.lean ====
section
/-! SUPPORT. What the meanings of Machine/Works.lean keep. -/

namespace Sys2Proof.Machine

theorem execWrIssue_keeps {c : Conn} {s s' : State} (h : execWrIssue c s = .next s') : Keeps s s' := by
  unfold execWrIssue at h
  cases h
  (try refine State.issue_keeps _ _ _ _ _ fun x => ?_)
  (try dsimp only)
  (repeat' split)
  all_goals first
    | exact Keeps.refl _
    | (have hk := State.takeEntry_keeps (by assumption); exact hk.trans ⟨by simp, by simp⟩)
    | (have hk := State.readAt_of (by assumption); exact hk.trans ⟨by simp, by simp⟩)
    | (have hk := State.writeAt_of (by assumption); exact hk.trans ⟨by simp, by simp⟩)
    | exact ⟨by simp, by simp⟩

theorem execRoceAcknowledge_keeps {c : Conn} {s s' : State} (h : execRoceAcknowledge c s = .next s') : Keeps s s' := by
  unfold execRoceAcknowledge at h
  cases h
  split
  · exact Keeps.refl _
  · next p _ =>
    dsimp only
    refine Keeps.trans (State.popReq_keeps s c.val) ?_
    generalize s.popReq c.val = u
    split
    · exact Keeps.refl _
    · split
      · exact ⟨by simp, by simp⟩
      · split
        · refine Keeps.trans (State.ackUpTo_keeps u c.val ((p.psn + 2 ^ 24 - 1) % 2 ^ 24)) ?_
          generalize State.ackUpTo u c.val _ = v
          split
          · exact State.resendWrs_keeps ..
          · split
            · exact State.failWr_keeps ..
            · exact Keeps.refl _
        · exact Keeps.refl _

theorem execRdmaReadResponse_keeps {c : Conn} {s s' : State} (h : execRdmaReadResponse c s = .next s') : Keeps s s' := by
  unfold execRdmaReadResponse at h
  cases h
  split
  · exact Keeps.refl _
  · next p _ =>
    dsimp only
    generalize (if p.opcode = 0x0E then p.plain else p.plain.drop 4) = b
    refine Keeps.trans (State.popReq_keeps s c.val) ?_
    generalize s.popReq c.val = u
    split
    · exact Keeps.refl _
    · split
      · exact Keeps.refl _
      · split
        · exact Keeps.refl _
        · next tag f _ _ =>
          refine Keeps.trans ((State.ackUpTo_keeps u c.val ((f + 2 ^ 24 - 1) % 2 ^ 24)).trans (State.rttUpTo_keeps _ c.val f)) ?_
          generalize State.rttUpTo _ c.val f = v
          split
          · split
            · exact ⟨by simp, by simp⟩
            · exact ⟨by simp, by simp⟩
          · split
            · exact ⟨by simp, by simp⟩
            · exact ⟨by simp, by simp⟩

theorem execRnrNak_keeps {c : Conn} {psn : BitVec 24} {timer : BitVec 5} {s s' : State} (h : execRnrNak c psn timer s = .next s') : Keeps s s' := by
  unfold execRnrNak at h
  cases h
  dsimp only
  split
  · exact Keeps.refl _
  · refine Keeps.trans (State.ackUpTo_keeps s c.val ((psn.toNat + 2 ^ 24 - 1) % 2 ^ 24)) ?_
    generalize State.ackUpTo s c.val _ = v
    split
    · generalize hf : List.foldl _ v (v.issuedOf c.val) = u
      have k : Keeps v u := by rw [← hf]; exact Keeps.of_fold _ (fun s x => State.setWr_keeps ..) _ v
      exact k.trans ⟨by simp, by simp⟩
    · exact Keeps.refl _

theorem execRnrRetryTimer_keeps {c : Conn} {s s' : State} (h : execRnrRetryTimer c s = .next s') : Keeps s s' := by
  unfold execRnrRetryTimer at h
  cases h
  exact ⟨by simp, by simp⟩

theorem execReqAckTimeout_keeps {c : Conn} {s s' : State} (h : execReqAckTimeout c s = .next s') : Keeps s s' := by
  unfold execReqAckTimeout at h
  (try dsimp only at h)
  repeat' split at h
  all_goals first
    | (cases h; done)
    | (cases h; exact Keeps.refl _)
    | (cases h; exact ⟨by simp, by simp⟩)

end Sys2Proof.Machine
end

