-- ==== Sys2Proof/Laws/State.lean ====
section
/-! SUPPORT. The parts of the state under each update of Machine/Ops.lean, so that no proof unfolds a record update. -/

namespace Sys2Proof.Machine

/-! ## fset -/

@[simp] theorem State.fset_ext (s : State) (f : Fld) (v : Nat) : (s.fset f v).ext = s.ext := rfl
@[simp] theorem State.fset_gen (s : State) (f : Fld) (v : Nat) : (s.fset f v).gen = s.gen := rfl
@[simp] theorem State.fset_persist (s : State) (f : Fld) (v : Nat) : (s.fset f v).persist = s.persist := rfl
@[simp] theorem State.fset_jnl (s : State) (f : Fld) (v : Nat) : (s.fset f v).jnl = s.jnl := rfl
@[simp] theorem State.fset_prm (s : State) (f : Fld) (v : Nat) : (s.fset f v).prm = s.prm := rfl
@[simp] theorem State.fset_med (s : State) (f : Fld) (v : Nat) : (s.fset f v).med = s.med := rfl
@[simp] theorem State.fset_tier (s : State) (f : Fld) (v : Nat) : (s.fset f v).tier = s.tier := rfl
@[simp] theorem State.fset_ksk (s : State) (f : Fld) (v : Nat) : (s.fset f v).ksk = s.ksk := rfl
@[simp] theorem State.fset_tst (s : State) (f : Fld) (v : Nat) : (s.fset f v).tst = s.tst := rfl
@[simp] theorem State.fset_ports (s : State) (f : Fld) (v : Nat) : (s.fset f v).ports = s.ports := rfl
@[simp] theorem State.fset_xpt (s : State) (f : Fld) (v : Nat) : (s.fset f v).xpt = s.xpt := rfl
@[simp] theorem State.fset_cxl (s : State) (f : Fld) (v : Nat) : (s.fset f v).cxl = s.cxl := rfl
@[simp] theorem State.fset_gth (s : State) (f : Fld) (v : Nat) : (s.fset f v).gth = s.gth := rfl
@[simp] theorem State.fset_pwr (s : State) (f : Fld) (v : Nat) : (s.fset f v).pwr = s.pwr := rfl
@[simp] theorem State.fset_sup (s : State) (f : Fld) (v : Nat) : (s.fset f v).sup = s.sup := rfl
@[simp] theorem State.fset_fls (s : State) (f : Fld) (v : Nat) : (s.fset f v).fls = s.fls := rfl
@[simp] theorem State.fset_twb (s : State) (f : Fld) (v : Nat) : (s.fset f v).twb = s.twb := rfl
@[simp] theorem State.fset_sta (s : State) (f : Fld) (v : Nat) : (s.fset f v).sta = s.sta := rfl
@[simp] theorem State.fset_jtag (s : State) (f : Fld) (v : Nat) : (s.fset f v).jtag = s.jtag := rfl
@[simp] theorem State.fset_pins (s : State) (f : Fld) (v : Nat) : (s.fset f v).pins = s.pins := rfl
@[simp] theorem State.fset_timeNs (s : State) (f : Fld) (v : Nat) : (s.fset f v).timeNs = s.timeNs := rfl
@[simp] theorem State.fset_out (s : State) (f : Fld) (v : Nat) : (s.fset f v).out = s.out := rfl
@[simp] theorem State.fset_xing (s : State) (f : Fld) (v : Nat) : (s.fset f v).xing = s.xing := rfl
@[simp] theorem State.fset_free (s : State) (f : Fld) (v : Nat) : (s.fset f v).free = s.free := rfl
@[simp] theorem State.fset_extent (s : State) (f : Fld) (v : Nat) (j : Nat) : (s.fset f v).extent j = s.extent j := rfl
@[simp] theorem State.fset_genEntry (s : State) (f : Fld) (v : Nat) (j : Nat) : (s.fset f v).genEntry j = s.genEntry j := rfl
@[simp] theorem State.fset_ctx (s : State) (f : Fld) (v : Nat) (j : Nat) : (s.fset f v).ctx j = s.ctx j := rfl
@[simp] theorem State.fset_conn (s : State) (f : Fld) (v : Nat) (j : Nat) : (s.fset f v).conn j = s.conn j := rfl
@[simp] theorem State.fset_ld (s : State) (f : Fld) (v : Nat) (j : Nat) : (s.fset f v).ld j = s.ld j := rfl
@[simp] theorem State.fset_port (s : State) (f : Fld) (v : Nat) (j : Nat) : (s.fset f v).port j = s.port j := rfl
@[simp] theorem State.fset_link (s : State) (f : Fld) (v : Nat) (j : Nat) : (s.fset f v).link j = s.link j := rfl
@[simp] theorem State.fset_prog (s : State) (f : Fld) (v : Nat) (j : Nat) : (s.fset f v).prog j = s.prog j := rfl
@[simp] theorem State.fset_ring (s : State) (f : Fld) (v : Nat) (j : Nat) : (s.fset f v).ring j = s.ring j := rfl
@[simp] theorem State.fset_cq (s : State) (f : Fld) (v : Nat) (j : Nat) : (s.fset f v).cq j = s.cq j := rfl
@[simp] theorem State.fset_eq (s : State) (f : Fld) (v : Nat) (j : Nat) : (s.fset f v).eq j = s.eq j := rfl
@[simp] theorem State.fset_grp (s : State) (f : Fld) (v : Nat) (j : Nat) : (s.fset f v).grp j = s.grp j := rfl
@[simp] theorem State.fset_tenant (s : State) (f : Fld) (v : Nat) (j : BitVec 24) : (s.fset f v).tenant j = s.tenant j := rfl

/-! ## setExtent -/

@[simp] theorem State.setExtent_ctl (s : State) (e : Nat) (x : Ext) : (s.setExtent e x).ctl = s.ctl := rfl
@[simp] theorem State.setExtent_gen (s : State) (e : Nat) (x : Ext) : (s.setExtent e x).gen = s.gen := rfl
@[simp] theorem State.setExtent_persist (s : State) (e : Nat) (x : Ext) : (s.setExtent e x).persist = s.persist := rfl
@[simp] theorem State.setExtent_jnl (s : State) (e : Nat) (x : Ext) : (s.setExtent e x).jnl = s.jnl := rfl
@[simp] theorem State.setExtent_prm (s : State) (e : Nat) (x : Ext) : (s.setExtent e x).prm = s.prm := rfl
@[simp] theorem State.setExtent_med (s : State) (e : Nat) (x : Ext) : (s.setExtent e x).med = s.med := rfl
@[simp] theorem State.setExtent_tier (s : State) (e : Nat) (x : Ext) : (s.setExtent e x).tier = s.tier := rfl
@[simp] theorem State.setExtent_ksk (s : State) (e : Nat) (x : Ext) : (s.setExtent e x).ksk = s.ksk := rfl
@[simp] theorem State.setExtent_tst (s : State) (e : Nat) (x : Ext) : (s.setExtent e x).tst = s.tst := rfl
@[simp] theorem State.setExtent_ports (s : State) (e : Nat) (x : Ext) : (s.setExtent e x).ports = s.ports := rfl
@[simp] theorem State.setExtent_xpt (s : State) (e : Nat) (x : Ext) : (s.setExtent e x).xpt = s.xpt := rfl
@[simp] theorem State.setExtent_cxl (s : State) (e : Nat) (x : Ext) : (s.setExtent e x).cxl = s.cxl := rfl
@[simp] theorem State.setExtent_gth (s : State) (e : Nat) (x : Ext) : (s.setExtent e x).gth = s.gth := rfl
@[simp] theorem State.setExtent_pwr (s : State) (e : Nat) (x : Ext) : (s.setExtent e x).pwr = s.pwr := rfl
@[simp] theorem State.setExtent_sup (s : State) (e : Nat) (x : Ext) : (s.setExtent e x).sup = s.sup := rfl
@[simp] theorem State.setExtent_fls (s : State) (e : Nat) (x : Ext) : (s.setExtent e x).fls = s.fls := rfl
@[simp] theorem State.setExtent_twb (s : State) (e : Nat) (x : Ext) : (s.setExtent e x).twb = s.twb := rfl
@[simp] theorem State.setExtent_sta (s : State) (e : Nat) (x : Ext) : (s.setExtent e x).sta = s.sta := rfl
@[simp] theorem State.setExtent_jtag (s : State) (e : Nat) (x : Ext) : (s.setExtent e x).jtag = s.jtag := rfl
@[simp] theorem State.setExtent_pins (s : State) (e : Nat) (x : Ext) : (s.setExtent e x).pins = s.pins := rfl
@[simp] theorem State.setExtent_timeNs (s : State) (e : Nat) (x : Ext) : (s.setExtent e x).timeNs = s.timeNs := rfl
@[simp] theorem State.setExtent_out (s : State) (e : Nat) (x : Ext) : (s.setExtent e x).out = s.out := rfl
@[simp] theorem State.setExtent_xing (s : State) (e : Nat) (x : Ext) : (s.setExtent e x).xing = s.xing := rfl
@[simp] theorem State.setExtent_free (s : State) (e : Nat) (x : Ext) : (s.setExtent e x).free = s.free := rfl
@[simp] theorem State.setExtent_pending (s : State) (e : Nat) (x : Ext) : (s.setExtent e x).pending = s.pending := rfl
@[simp] theorem State.setExtent_fget (s : State) (e : Nat) (x : Ext) (q : Fld) : (s.setExtent e x).fget q = s.fget q := rfl
@[simp] theorem State.setExtent_genEntry (s : State) (e : Nat) (x : Ext) (j : Nat) : (s.setExtent e x).genEntry j = s.genEntry j := rfl
@[simp] theorem State.setExtent_ctx (s : State) (e : Nat) (x : Ext) (j : Nat) : (s.setExtent e x).ctx j = s.ctx j := rfl
@[simp] theorem State.setExtent_conn (s : State) (e : Nat) (x : Ext) (j : Nat) : (s.setExtent e x).conn j = s.conn j := rfl
@[simp] theorem State.setExtent_ld (s : State) (e : Nat) (x : Ext) (j : Nat) : (s.setExtent e x).ld j = s.ld j := rfl
@[simp] theorem State.setExtent_port (s : State) (e : Nat) (x : Ext) (j : Nat) : (s.setExtent e x).port j = s.port j := rfl
@[simp] theorem State.setExtent_link (s : State) (e : Nat) (x : Ext) (j : Nat) : (s.setExtent e x).link j = s.link j := rfl
@[simp] theorem State.setExtent_prog (s : State) (e : Nat) (x : Ext) (j : Nat) : (s.setExtent e x).prog j = s.prog j := rfl
@[simp] theorem State.setExtent_ring (s : State) (e : Nat) (x : Ext) (j : Nat) : (s.setExtent e x).ring j = s.ring j := rfl
@[simp] theorem State.setExtent_cq (s : State) (e : Nat) (x : Ext) (j : Nat) : (s.setExtent e x).cq j = s.cq j := rfl
@[simp] theorem State.setExtent_eq (s : State) (e : Nat) (x : Ext) (j : Nat) : (s.setExtent e x).eq j = s.eq j := rfl
@[simp] theorem State.setExtent_grp (s : State) (e : Nat) (x : Ext) (j : Nat) : (s.setExtent e x).grp j = s.grp j := rfl
@[simp] theorem State.setExtent_tenant (s : State) (e : Nat) (x : Ext) (j : BitVec 24) : (s.setExtent e x).tenant j = s.tenant j := rfl

/-! ## setGen -/

@[simp] theorem State.setGen_ctl (s : State) (k : Nat) (g : Gen) : (s.setGen k g).ctl = s.ctl := rfl
@[simp] theorem State.setGen_ext (s : State) (k : Nat) (g : Gen) : (s.setGen k g).ext = s.ext := rfl
@[simp] theorem State.setGen_persist (s : State) (k : Nat) (g : Gen) : (s.setGen k g).persist = s.persist := rfl
@[simp] theorem State.setGen_jnl (s : State) (k : Nat) (g : Gen) : (s.setGen k g).jnl = s.jnl := rfl
@[simp] theorem State.setGen_prm (s : State) (k : Nat) (g : Gen) : (s.setGen k g).prm = s.prm := rfl
@[simp] theorem State.setGen_med (s : State) (k : Nat) (g : Gen) : (s.setGen k g).med = s.med := rfl
@[simp] theorem State.setGen_tier (s : State) (k : Nat) (g : Gen) : (s.setGen k g).tier = s.tier := rfl
@[simp] theorem State.setGen_ksk (s : State) (k : Nat) (g : Gen) : (s.setGen k g).ksk = s.ksk := rfl
@[simp] theorem State.setGen_tst (s : State) (k : Nat) (g : Gen) : (s.setGen k g).tst = s.tst := rfl
@[simp] theorem State.setGen_ports (s : State) (k : Nat) (g : Gen) : (s.setGen k g).ports = s.ports := rfl
@[simp] theorem State.setGen_xpt (s : State) (k : Nat) (g : Gen) : (s.setGen k g).xpt = s.xpt := rfl
@[simp] theorem State.setGen_cxl (s : State) (k : Nat) (g : Gen) : (s.setGen k g).cxl = s.cxl := rfl
@[simp] theorem State.setGen_gth (s : State) (k : Nat) (g : Gen) : (s.setGen k g).gth = s.gth := rfl
@[simp] theorem State.setGen_pwr (s : State) (k : Nat) (g : Gen) : (s.setGen k g).pwr = s.pwr := rfl
@[simp] theorem State.setGen_sup (s : State) (k : Nat) (g : Gen) : (s.setGen k g).sup = s.sup := rfl
@[simp] theorem State.setGen_fls (s : State) (k : Nat) (g : Gen) : (s.setGen k g).fls = s.fls := rfl
@[simp] theorem State.setGen_twb (s : State) (k : Nat) (g : Gen) : (s.setGen k g).twb = s.twb := rfl
@[simp] theorem State.setGen_sta (s : State) (k : Nat) (g : Gen) : (s.setGen k g).sta = s.sta := rfl
@[simp] theorem State.setGen_jtag (s : State) (k : Nat) (g : Gen) : (s.setGen k g).jtag = s.jtag := rfl
@[simp] theorem State.setGen_pins (s : State) (k : Nat) (g : Gen) : (s.setGen k g).pins = s.pins := rfl
@[simp] theorem State.setGen_timeNs (s : State) (k : Nat) (g : Gen) : (s.setGen k g).timeNs = s.timeNs := rfl
@[simp] theorem State.setGen_out (s : State) (k : Nat) (g : Gen) : (s.setGen k g).out = s.out := rfl
@[simp] theorem State.setGen_xing (s : State) (k : Nat) (g : Gen) : (s.setGen k g).xing = s.xing := rfl
@[simp] theorem State.setGen_free (s : State) (k : Nat) (g : Gen) : (s.setGen k g).free = s.free := rfl
@[simp] theorem State.setGen_pending (s : State) (k : Nat) (g : Gen) : (s.setGen k g).pending = s.pending := rfl
@[simp] theorem State.setGen_fget (s : State) (k : Nat) (g : Gen) (q : Fld) : (s.setGen k g).fget q = s.fget q := rfl
@[simp] theorem State.setGen_extent (s : State) (k : Nat) (g : Gen) (j : Nat) : (s.setGen k g).extent j = s.extent j := rfl
@[simp] theorem State.setGen_ctx (s : State) (k : Nat) (g : Gen) (j : Nat) : (s.setGen k g).ctx j = s.ctx j := rfl
@[simp] theorem State.setGen_conn (s : State) (k : Nat) (g : Gen) (j : Nat) : (s.setGen k g).conn j = s.conn j := rfl
@[simp] theorem State.setGen_ld (s : State) (k : Nat) (g : Gen) (j : Nat) : (s.setGen k g).ld j = s.ld j := rfl
@[simp] theorem State.setGen_port (s : State) (k : Nat) (g : Gen) (j : Nat) : (s.setGen k g).port j = s.port j := rfl
@[simp] theorem State.setGen_link (s : State) (k : Nat) (g : Gen) (j : Nat) : (s.setGen k g).link j = s.link j := rfl
@[simp] theorem State.setGen_prog (s : State) (k : Nat) (g : Gen) (j : Nat) : (s.setGen k g).prog j = s.prog j := rfl
@[simp] theorem State.setGen_ring (s : State) (k : Nat) (g : Gen) (j : Nat) : (s.setGen k g).ring j = s.ring j := rfl
@[simp] theorem State.setGen_cq (s : State) (k : Nat) (g : Gen) (j : Nat) : (s.setGen k g).cq j = s.cq j := rfl
@[simp] theorem State.setGen_eq (s : State) (k : Nat) (g : Gen) (j : Nat) : (s.setGen k g).eq j = s.eq j := rfl
@[simp] theorem State.setGen_grp (s : State) (k : Nat) (g : Gen) (j : Nat) : (s.setGen k g).grp j = s.grp j := rfl
@[simp] theorem State.setGen_tenant (s : State) (k : Nat) (g : Gen) (j : BitVec 24) : (s.setGen k g).tenant j = s.tenant j := rfl

/-! ## setCtx -/

@[simp] theorem State.setCtx_ctl (s : State) (c : Nat) (x : CtxSt) : (s.setCtx c x).ctl = s.ctl := rfl
@[simp] theorem State.setCtx_ext (s : State) (c : Nat) (x : CtxSt) : (s.setCtx c x).ext = s.ext := rfl
@[simp] theorem State.setCtx_gen (s : State) (c : Nat) (x : CtxSt) : (s.setCtx c x).gen = s.gen := rfl
@[simp] theorem State.setCtx_persist (s : State) (c : Nat) (x : CtxSt) : (s.setCtx c x).persist = s.persist := rfl
@[simp] theorem State.setCtx_jnl (s : State) (c : Nat) (x : CtxSt) : (s.setCtx c x).jnl = s.jnl := rfl
@[simp] theorem State.setCtx_prm (s : State) (c : Nat) (x : CtxSt) : (s.setCtx c x).prm = s.prm := rfl
@[simp] theorem State.setCtx_med (s : State) (c : Nat) (x : CtxSt) : (s.setCtx c x).med = s.med := rfl
@[simp] theorem State.setCtx_tier (s : State) (c : Nat) (x : CtxSt) : (s.setCtx c x).tier = s.tier := rfl
@[simp] theorem State.setCtx_tst (s : State) (c : Nat) (x : CtxSt) : (s.setCtx c x).tst = s.tst := rfl
@[simp] theorem State.setCtx_ports (s : State) (c : Nat) (x : CtxSt) : (s.setCtx c x).ports = s.ports := rfl
@[simp] theorem State.setCtx_xpt (s : State) (c : Nat) (x : CtxSt) : (s.setCtx c x).xpt = s.xpt := rfl
@[simp] theorem State.setCtx_cxl (s : State) (c : Nat) (x : CtxSt) : (s.setCtx c x).cxl = s.cxl := rfl
@[simp] theorem State.setCtx_gth (s : State) (c : Nat) (x : CtxSt) : (s.setCtx c x).gth = s.gth := rfl
@[simp] theorem State.setCtx_pwr (s : State) (c : Nat) (x : CtxSt) : (s.setCtx c x).pwr = s.pwr := rfl
@[simp] theorem State.setCtx_sup (s : State) (c : Nat) (x : CtxSt) : (s.setCtx c x).sup = s.sup := rfl
@[simp] theorem State.setCtx_fls (s : State) (c : Nat) (x : CtxSt) : (s.setCtx c x).fls = s.fls := rfl
@[simp] theorem State.setCtx_twb (s : State) (c : Nat) (x : CtxSt) : (s.setCtx c x).twb = s.twb := rfl
@[simp] theorem State.setCtx_sta (s : State) (c : Nat) (x : CtxSt) : (s.setCtx c x).sta = s.sta := rfl
@[simp] theorem State.setCtx_jtag (s : State) (c : Nat) (x : CtxSt) : (s.setCtx c x).jtag = s.jtag := rfl
@[simp] theorem State.setCtx_pins (s : State) (c : Nat) (x : CtxSt) : (s.setCtx c x).pins = s.pins := rfl
@[simp] theorem State.setCtx_timeNs (s : State) (c : Nat) (x : CtxSt) : (s.setCtx c x).timeNs = s.timeNs := rfl
@[simp] theorem State.setCtx_out (s : State) (c : Nat) (x : CtxSt) : (s.setCtx c x).out = s.out := rfl
@[simp] theorem State.setCtx_xing (s : State) (c : Nat) (x : CtxSt) : (s.setCtx c x).xing = s.xing := rfl
@[simp] theorem State.setCtx_free (s : State) (c : Nat) (x : CtxSt) : (s.setCtx c x).free = s.free := rfl
@[simp] theorem State.setCtx_pending (s : State) (c : Nat) (x : CtxSt) : (s.setCtx c x).pending = s.pending := rfl
@[simp] theorem State.setCtx_ksk_pool (s : State) (c : Nat) (x : CtxSt) : (s.setCtx c x).ksk.pool = s.ksk.pool := rfl
@[simp] theorem State.setCtx_ksk_loads (s : State) (c : Nat) (x : CtxSt) : (s.setCtx c x).ksk.loads = s.ksk.loads := rfl
@[simp] theorem State.setCtx_ksk_cancels (s : State) (c : Nat) (x : CtxSt) : (s.setCtx c x).ksk.cancels = s.ksk.cancels := rfl
@[simp] theorem State.setCtx_ksk_seq (s : State) (c : Nat) (x : CtxSt) : (s.setCtx c x).ksk.seq = s.ksk.seq := rfl
@[simp] theorem State.setCtx_ksk_rr (s : State) (c : Nat) (x : CtxSt) : (s.setCtx c x).ksk.rr = s.ksk.rr := rfl
@[simp] theorem State.setCtx_ksk_progs (s : State) (c : Nat) (x : CtxSt) : (s.setCtx c x).ksk.progs = s.ksk.progs := rfl
@[simp] theorem State.setCtx_ksk_mgmt (s : State) (c : Nat) (x : CtxSt) : (s.setCtx c x).ksk.mgmt = s.ksk.mgmt := rfl
@[simp] theorem State.setCtx_ksk_mgmtSrc (s : State) (c : Nat) (x : CtxSt) : (s.setCtx c x).ksk.mgmtSrc = s.ksk.mgmtSrc := rfl
@[simp] theorem State.setCtx_ksk_mgmtSeq (s : State) (c : Nat) (x : CtxSt) : (s.setCtx c x).ksk.mgmtSeq = s.ksk.mgmtSeq := rfl
@[simp] theorem State.setCtx_ksk_sram (s : State) (c : Nat) (x : CtxSt) : (s.setCtx c x).ksk.sram = s.ksk.sram := rfl
@[simp] theorem State.setCtx_ksk_stores (s : State) (c : Nat) (x : CtxSt) : (s.setCtx c x).ksk.stores = s.ksk.stores := rfl
@[simp] theorem State.setCtx_ksk_mgmtWait (s : State) (c : Nat) (x : CtxSt) : (s.setCtx c x).ksk.mgmtWait = s.ksk.mgmtWait := rfl
@[simp] theorem State.setCtx_fget (s : State) (c : Nat) (x : CtxSt) (q : Fld) : (s.setCtx c x).fget q = s.fget q := rfl
@[simp] theorem State.setCtx_extent (s : State) (c : Nat) (x : CtxSt) (j : Nat) : (s.setCtx c x).extent j = s.extent j := rfl
@[simp] theorem State.setCtx_genEntry (s : State) (c : Nat) (x : CtxSt) (j : Nat) : (s.setCtx c x).genEntry j = s.genEntry j := rfl
@[simp] theorem State.setCtx_conn (s : State) (c : Nat) (x : CtxSt) (j : Nat) : (s.setCtx c x).conn j = s.conn j := rfl
@[simp] theorem State.setCtx_ld (s : State) (c : Nat) (x : CtxSt) (j : Nat) : (s.setCtx c x).ld j = s.ld j := rfl
@[simp] theorem State.setCtx_port (s : State) (c : Nat) (x : CtxSt) (j : Nat) : (s.setCtx c x).port j = s.port j := rfl
@[simp] theorem State.setCtx_link (s : State) (c : Nat) (x : CtxSt) (j : Nat) : (s.setCtx c x).link j = s.link j := rfl
@[simp] theorem State.setCtx_prog (s : State) (c : Nat) (x : CtxSt) (j : Nat) : (s.setCtx c x).prog j = s.prog j := rfl
@[simp] theorem State.setCtx_ring (s : State) (c : Nat) (x : CtxSt) (j : Nat) : (s.setCtx c x).ring j = s.ring j := rfl
@[simp] theorem State.setCtx_cq (s : State) (c : Nat) (x : CtxSt) (j : Nat) : (s.setCtx c x).cq j = s.cq j := rfl
@[simp] theorem State.setCtx_eq (s : State) (c : Nat) (x : CtxSt) (j : Nat) : (s.setCtx c x).eq j = s.eq j := rfl
@[simp] theorem State.setCtx_grp (s : State) (c : Nat) (x : CtxSt) (j : Nat) : (s.setCtx c x).grp j = s.grp j := rfl
@[simp] theorem State.setCtx_tenant (s : State) (c : Nat) (x : CtxSt) (j : BitVec 24) : (s.setCtx c x).tenant j = s.tenant j := rfl

/-! ## setConn -/

@[simp] theorem State.setConn_ctl (s : State) (n : Nat) (x : Con) : (s.setConn n x).ctl = s.ctl := rfl
@[simp] theorem State.setConn_ext (s : State) (n : Nat) (x : Con) : (s.setConn n x).ext = s.ext := rfl
@[simp] theorem State.setConn_gen (s : State) (n : Nat) (x : Con) : (s.setConn n x).gen = s.gen := rfl
@[simp] theorem State.setConn_persist (s : State) (n : Nat) (x : Con) : (s.setConn n x).persist = s.persist := rfl
@[simp] theorem State.setConn_jnl (s : State) (n : Nat) (x : Con) : (s.setConn n x).jnl = s.jnl := rfl
@[simp] theorem State.setConn_prm (s : State) (n : Nat) (x : Con) : (s.setConn n x).prm = s.prm := rfl
@[simp] theorem State.setConn_med (s : State) (n : Nat) (x : Con) : (s.setConn n x).med = s.med := rfl
@[simp] theorem State.setConn_tier (s : State) (n : Nat) (x : Con) : (s.setConn n x).tier = s.tier := rfl
@[simp] theorem State.setConn_ksk (s : State) (n : Nat) (x : Con) : (s.setConn n x).ksk = s.ksk := rfl
@[simp] theorem State.setConn_tst (s : State) (n : Nat) (x : Con) : (s.setConn n x).tst = s.tst := rfl
@[simp] theorem State.setConn_ports (s : State) (n : Nat) (x : Con) : (s.setConn n x).ports = s.ports := rfl
@[simp] theorem State.setConn_cxl (s : State) (n : Nat) (x : Con) : (s.setConn n x).cxl = s.cxl := rfl
@[simp] theorem State.setConn_gth (s : State) (n : Nat) (x : Con) : (s.setConn n x).gth = s.gth := rfl
@[simp] theorem State.setConn_pwr (s : State) (n : Nat) (x : Con) : (s.setConn n x).pwr = s.pwr := rfl
@[simp] theorem State.setConn_sup (s : State) (n : Nat) (x : Con) : (s.setConn n x).sup = s.sup := rfl
@[simp] theorem State.setConn_fls (s : State) (n : Nat) (x : Con) : (s.setConn n x).fls = s.fls := rfl
@[simp] theorem State.setConn_twb (s : State) (n : Nat) (x : Con) : (s.setConn n x).twb = s.twb := rfl
@[simp] theorem State.setConn_sta (s : State) (n : Nat) (x : Con) : (s.setConn n x).sta = s.sta := rfl
@[simp] theorem State.setConn_jtag (s : State) (n : Nat) (x : Con) : (s.setConn n x).jtag = s.jtag := rfl
@[simp] theorem State.setConn_pins (s : State) (n : Nat) (x : Con) : (s.setConn n x).pins = s.pins := rfl
@[simp] theorem State.setConn_timeNs (s : State) (n : Nat) (x : Con) : (s.setConn n x).timeNs = s.timeNs := rfl
@[simp] theorem State.setConn_out (s : State) (n : Nat) (x : Con) : (s.setConn n x).out = s.out := rfl
@[simp] theorem State.setConn_xing (s : State) (n : Nat) (x : Con) : (s.setConn n x).xing = s.xing := rfl
@[simp] theorem State.setConn_free (s : State) (n : Nat) (x : Con) : (s.setConn n x).free = s.free := rfl
@[simp] theorem State.setConn_pending (s : State) (n : Nat) (x : Con) : (s.setConn n x).pending = s.pending := rfl
@[simp] theorem State.setConn_xpt_lastEpoch (s : State) (n : Nat) (x : Con) : (s.setConn n x).xpt.lastEpoch = s.xpt.lastEpoch := rfl
@[simp] theorem State.setConn_xpt_cache (s : State) (n : Nat) (x : Con) : (s.setConn n x).xpt.cache = s.xpt.cache := rfl
@[simp] theorem State.setConn_xpt_fetching (s : State) (n : Nat) (x : Con) : (s.setConn n x).xpt.fetching = s.xpt.fetching := rfl
@[simp] theorem State.setConn_xpt_hold (s : State) (n : Nat) (x : Con) : (s.setConn n x).xpt.hold = s.xpt.hold := rfl
@[simp] theorem State.setConn_xpt_holdFull (s : State) (n : Nat) (x : Con) : (s.setConn n x).xpt.holdFull = s.xpt.holdFull := rfl
@[simp] theorem State.setConn_xpt_holdNs (s : State) (n : Nat) (x : Con) : (s.setConn n x).xpt.holdNs = s.xpt.holdNs := rfl
@[simp] theorem State.setConn_xpt_keys (s : State) (n : Nat) (x : Con) : (s.setConn n x).xpt.keys = s.xpt.keys := rfl
@[simp] theorem State.setConn_xpt_wrs (s : State) (n : Nat) (x : Con) : (s.setConn n x).xpt.wrs = s.xpt.wrs := rfl
@[simp] theorem State.setConn_xpt_nextWr (s : State) (n : Nat) (x : Con) : (s.setConn n x).xpt.nextWr = s.xpt.nextWr := rfl
@[simp] theorem State.setConn_fget (s : State) (n : Nat) (x : Con) (q : Fld) : (s.setConn n x).fget q = s.fget q := rfl
@[simp] theorem State.setConn_extent (s : State) (n : Nat) (x : Con) (j : Nat) : (s.setConn n x).extent j = s.extent j := rfl
@[simp] theorem State.setConn_genEntry (s : State) (n : Nat) (x : Con) (j : Nat) : (s.setConn n x).genEntry j = s.genEntry j := rfl
@[simp] theorem State.setConn_ctx (s : State) (n : Nat) (x : Con) (j : Nat) : (s.setConn n x).ctx j = s.ctx j := rfl
@[simp] theorem State.setConn_ld (s : State) (n : Nat) (x : Con) (j : Nat) : (s.setConn n x).ld j = s.ld j := rfl
@[simp] theorem State.setConn_port (s : State) (n : Nat) (x : Con) (j : Nat) : (s.setConn n x).port j = s.port j := rfl
@[simp] theorem State.setConn_link (s : State) (n : Nat) (x : Con) (j : Nat) : (s.setConn n x).link j = s.link j := rfl
@[simp] theorem State.setConn_prog (s : State) (n : Nat) (x : Con) (j : Nat) : (s.setConn n x).prog j = s.prog j := rfl
@[simp] theorem State.setConn_ring (s : State) (n : Nat) (x : Con) (j : Nat) : (s.setConn n x).ring j = s.ring j := rfl
@[simp] theorem State.setConn_cq (s : State) (n : Nat) (x : Con) (j : Nat) : (s.setConn n x).cq j = s.cq j := rfl
@[simp] theorem State.setConn_eq (s : State) (n : Nat) (x : Con) (j : Nat) : (s.setConn n x).eq j = s.eq j := rfl
@[simp] theorem State.setConn_grp (s : State) (n : Nat) (x : Con) (j : Nat) : (s.setConn n x).grp j = s.grp j := rfl
@[simp] theorem State.setConn_tenant (s : State) (n : Nat) (x : Con) (j : BitVec 24) : (s.setConn n x).tenant j = s.tenant j := rfl

/-! ## setLd -/

@[simp] theorem State.setLd_ctl (s : State) (l : Nat) (x : Ld) : (s.setLd l x).ctl = s.ctl := rfl
@[simp] theorem State.setLd_ext (s : State) (l : Nat) (x : Ld) : (s.setLd l x).ext = s.ext := rfl
@[simp] theorem State.setLd_gen (s : State) (l : Nat) (x : Ld) : (s.setLd l x).gen = s.gen := rfl
@[simp] theorem State.setLd_persist (s : State) (l : Nat) (x : Ld) : (s.setLd l x).persist = s.persist := rfl
@[simp] theorem State.setLd_jnl (s : State) (l : Nat) (x : Ld) : (s.setLd l x).jnl = s.jnl := rfl
@[simp] theorem State.setLd_prm (s : State) (l : Nat) (x : Ld) : (s.setLd l x).prm = s.prm := rfl
@[simp] theorem State.setLd_med (s : State) (l : Nat) (x : Ld) : (s.setLd l x).med = s.med := rfl
@[simp] theorem State.setLd_tier (s : State) (l : Nat) (x : Ld) : (s.setLd l x).tier = s.tier := rfl
@[simp] theorem State.setLd_ksk (s : State) (l : Nat) (x : Ld) : (s.setLd l x).ksk = s.ksk := rfl
@[simp] theorem State.setLd_tst (s : State) (l : Nat) (x : Ld) : (s.setLd l x).tst = s.tst := rfl
@[simp] theorem State.setLd_ports (s : State) (l : Nat) (x : Ld) : (s.setLd l x).ports = s.ports := rfl
@[simp] theorem State.setLd_xpt (s : State) (l : Nat) (x : Ld) : (s.setLd l x).xpt = s.xpt := rfl
@[simp] theorem State.setLd_gth (s : State) (l : Nat) (x : Ld) : (s.setLd l x).gth = s.gth := rfl
@[simp] theorem State.setLd_pwr (s : State) (l : Nat) (x : Ld) : (s.setLd l x).pwr = s.pwr := rfl
@[simp] theorem State.setLd_sup (s : State) (l : Nat) (x : Ld) : (s.setLd l x).sup = s.sup := rfl
@[simp] theorem State.setLd_fls (s : State) (l : Nat) (x : Ld) : (s.setLd l x).fls = s.fls := rfl
@[simp] theorem State.setLd_twb (s : State) (l : Nat) (x : Ld) : (s.setLd l x).twb = s.twb := rfl
@[simp] theorem State.setLd_sta (s : State) (l : Nat) (x : Ld) : (s.setLd l x).sta = s.sta := rfl
@[simp] theorem State.setLd_jtag (s : State) (l : Nat) (x : Ld) : (s.setLd l x).jtag = s.jtag := rfl
@[simp] theorem State.setLd_pins (s : State) (l : Nat) (x : Ld) : (s.setLd l x).pins = s.pins := rfl
@[simp] theorem State.setLd_timeNs (s : State) (l : Nat) (x : Ld) : (s.setLd l x).timeNs = s.timeNs := rfl
@[simp] theorem State.setLd_out (s : State) (l : Nat) (x : Ld) : (s.setLd l x).out = s.out := rfl
@[simp] theorem State.setLd_xing (s : State) (l : Nat) (x : Ld) : (s.setLd l x).xing = s.xing := rfl
@[simp] theorem State.setLd_free (s : State) (l : Nat) (x : Ld) : (s.setLd l x).free = s.free := rfl
@[simp] theorem State.setLd_pending (s : State) (l : Nat) (x : Ld) : (s.setLd l x).pending = s.pending := rfl
@[simp] theorem State.setLd_cxl_rings (s : State) (l : Nat) (x : Ld) : (s.setLd l x).cxl.rings = s.cxl.rings := rfl
@[simp] theorem State.setLd_cxl_comb (s : State) (l : Nat) (x : Ld) : (s.setLd l x).cxl.comb = s.cxl.comb := rfl
@[simp] theorem State.setLd_cxl_rxq (s : State) (l : Nat) (x : Ld) : (s.setLd l x).cxl.rxq = s.cxl.rxq := rfl
@[simp] theorem State.setLd_cxl_perst (s : State) (l : Nat) (x : Ld) : (s.setLd l x).cxl.perst = s.cxl.perst := rfl
@[simp] theorem State.setLd_cxl_ide (s : State) (l : Nat) (x : Ld) : (s.setLd l x).cxl.ide = s.cxl.ide := rfl
@[simp] theorem State.setLd_fget (s : State) (l : Nat) (x : Ld) (q : Fld) : (s.setLd l x).fget q = s.fget q := rfl
@[simp] theorem State.setLd_extent (s : State) (l : Nat) (x : Ld) (j : Nat) : (s.setLd l x).extent j = s.extent j := rfl
@[simp] theorem State.setLd_genEntry (s : State) (l : Nat) (x : Ld) (j : Nat) : (s.setLd l x).genEntry j = s.genEntry j := rfl
@[simp] theorem State.setLd_ctx (s : State) (l : Nat) (x : Ld) (j : Nat) : (s.setLd l x).ctx j = s.ctx j := rfl
@[simp] theorem State.setLd_conn (s : State) (l : Nat) (x : Ld) (j : Nat) : (s.setLd l x).conn j = s.conn j := rfl
@[simp] theorem State.setLd_port (s : State) (l : Nat) (x : Ld) (j : Nat) : (s.setLd l x).port j = s.port j := rfl
@[simp] theorem State.setLd_link (s : State) (l : Nat) (x : Ld) (j : Nat) : (s.setLd l x).link j = s.link j := rfl
@[simp] theorem State.setLd_prog (s : State) (l : Nat) (x : Ld) (j : Nat) : (s.setLd l x).prog j = s.prog j := rfl
@[simp] theorem State.setLd_ring (s : State) (l : Nat) (x : Ld) (j : Nat) : (s.setLd l x).ring j = s.ring j := rfl
@[simp] theorem State.setLd_cq (s : State) (l : Nat) (x : Ld) (j : Nat) : (s.setLd l x).cq j = s.cq j := rfl
@[simp] theorem State.setLd_eq (s : State) (l : Nat) (x : Ld) (j : Nat) : (s.setLd l x).eq j = s.eq j := rfl
@[simp] theorem State.setLd_grp (s : State) (l : Nat) (x : Ld) (j : Nat) : (s.setLd l x).grp j = s.grp j := rfl
@[simp] theorem State.setLd_tenant (s : State) (l : Nat) (x : Ld) (j : BitVec 24) : (s.setLd l x).tenant j = s.tenant j := rfl

/-! ## setPort -/

@[simp] theorem State.setPort_ctl (s : State) (p : Nat) (x : Port) : (s.setPort p x).ctl = s.ctl := rfl
@[simp] theorem State.setPort_ext (s : State) (p : Nat) (x : Port) : (s.setPort p x).ext = s.ext := rfl
@[simp] theorem State.setPort_gen (s : State) (p : Nat) (x : Port) : (s.setPort p x).gen = s.gen := rfl
@[simp] theorem State.setPort_persist (s : State) (p : Nat) (x : Port) : (s.setPort p x).persist = s.persist := rfl
@[simp] theorem State.setPort_jnl (s : State) (p : Nat) (x : Port) : (s.setPort p x).jnl = s.jnl := rfl
@[simp] theorem State.setPort_prm (s : State) (p : Nat) (x : Port) : (s.setPort p x).prm = s.prm := rfl
@[simp] theorem State.setPort_med (s : State) (p : Nat) (x : Port) : (s.setPort p x).med = s.med := rfl
@[simp] theorem State.setPort_tier (s : State) (p : Nat) (x : Port) : (s.setPort p x).tier = s.tier := rfl
@[simp] theorem State.setPort_ksk (s : State) (p : Nat) (x : Port) : (s.setPort p x).ksk = s.ksk := rfl
@[simp] theorem State.setPort_tst (s : State) (p : Nat) (x : Port) : (s.setPort p x).tst = s.tst := rfl
@[simp] theorem State.setPort_xpt (s : State) (p : Nat) (x : Port) : (s.setPort p x).xpt = s.xpt := rfl
@[simp] theorem State.setPort_cxl (s : State) (p : Nat) (x : Port) : (s.setPort p x).cxl = s.cxl := rfl
@[simp] theorem State.setPort_gth (s : State) (p : Nat) (x : Port) : (s.setPort p x).gth = s.gth := rfl
@[simp] theorem State.setPort_pwr (s : State) (p : Nat) (x : Port) : (s.setPort p x).pwr = s.pwr := rfl
@[simp] theorem State.setPort_sup (s : State) (p : Nat) (x : Port) : (s.setPort p x).sup = s.sup := rfl
@[simp] theorem State.setPort_fls (s : State) (p : Nat) (x : Port) : (s.setPort p x).fls = s.fls := rfl
@[simp] theorem State.setPort_twb (s : State) (p : Nat) (x : Port) : (s.setPort p x).twb = s.twb := rfl
@[simp] theorem State.setPort_sta (s : State) (p : Nat) (x : Port) : (s.setPort p x).sta = s.sta := rfl
@[simp] theorem State.setPort_jtag (s : State) (p : Nat) (x : Port) : (s.setPort p x).jtag = s.jtag := rfl
@[simp] theorem State.setPort_pins (s : State) (p : Nat) (x : Port) : (s.setPort p x).pins = s.pins := rfl
@[simp] theorem State.setPort_timeNs (s : State) (p : Nat) (x : Port) : (s.setPort p x).timeNs = s.timeNs := rfl
@[simp] theorem State.setPort_out (s : State) (p : Nat) (x : Port) : (s.setPort p x).out = s.out := rfl
@[simp] theorem State.setPort_xing (s : State) (p : Nat) (x : Port) : (s.setPort p x).xing = s.xing := rfl
@[simp] theorem State.setPort_free (s : State) (p : Nat) (x : Port) : (s.setPort p x).free = s.free := rfl
@[simp] theorem State.setPort_pending (s : State) (p : Nat) (x : Port) : (s.setPort p x).pending = s.pending := rfl
@[simp] theorem State.setPort_fget (s : State) (p : Nat) (x : Port) (q : Fld) : (s.setPort p x).fget q = s.fget q := rfl
@[simp] theorem State.setPort_extent (s : State) (p : Nat) (x : Port) (j : Nat) : (s.setPort p x).extent j = s.extent j := rfl
@[simp] theorem State.setPort_genEntry (s : State) (p : Nat) (x : Port) (j : Nat) : (s.setPort p x).genEntry j = s.genEntry j := rfl
@[simp] theorem State.setPort_ctx (s : State) (p : Nat) (x : Port) (j : Nat) : (s.setPort p x).ctx j = s.ctx j := rfl
@[simp] theorem State.setPort_conn (s : State) (p : Nat) (x : Port) (j : Nat) : (s.setPort p x).conn j = s.conn j := rfl
@[simp] theorem State.setPort_ld (s : State) (p : Nat) (x : Port) (j : Nat) : (s.setPort p x).ld j = s.ld j := rfl
@[simp] theorem State.setPort_link (s : State) (p : Nat) (x : Port) (j : Nat) : (s.setPort p x).link j = s.link j := rfl
@[simp] theorem State.setPort_prog (s : State) (p : Nat) (x : Port) (j : Nat) : (s.setPort p x).prog j = s.prog j := rfl
@[simp] theorem State.setPort_ring (s : State) (p : Nat) (x : Port) (j : Nat) : (s.setPort p x).ring j = s.ring j := rfl
@[simp] theorem State.setPort_cq (s : State) (p : Nat) (x : Port) (j : Nat) : (s.setPort p x).cq j = s.cq j := rfl
@[simp] theorem State.setPort_eq (s : State) (p : Nat) (x : Port) (j : Nat) : (s.setPort p x).eq j = s.eq j := rfl
@[simp] theorem State.setPort_grp (s : State) (p : Nat) (x : Port) (j : Nat) : (s.setPort p x).grp j = s.grp j := rfl
@[simp] theorem State.setPort_tenant (s : State) (p : Nat) (x : Port) (j : BitVec 24) : (s.setPort p x).tenant j = s.tenant j := rfl

/-! ## setLink -/

@[simp] theorem State.setLink_ctl (s : State) (l : Nat) (x : Link) : (s.setLink l x).ctl = s.ctl := rfl
@[simp] theorem State.setLink_ext (s : State) (l : Nat) (x : Link) : (s.setLink l x).ext = s.ext := rfl
@[simp] theorem State.setLink_gen (s : State) (l : Nat) (x : Link) : (s.setLink l x).gen = s.gen := rfl
@[simp] theorem State.setLink_persist (s : State) (l : Nat) (x : Link) : (s.setLink l x).persist = s.persist := rfl
@[simp] theorem State.setLink_jnl (s : State) (l : Nat) (x : Link) : (s.setLink l x).jnl = s.jnl := rfl
@[simp] theorem State.setLink_prm (s : State) (l : Nat) (x : Link) : (s.setLink l x).prm = s.prm := rfl
@[simp] theorem State.setLink_tier (s : State) (l : Nat) (x : Link) : (s.setLink l x).tier = s.tier := rfl
@[simp] theorem State.setLink_ksk (s : State) (l : Nat) (x : Link) : (s.setLink l x).ksk = s.ksk := rfl
@[simp] theorem State.setLink_tst (s : State) (l : Nat) (x : Link) : (s.setLink l x).tst = s.tst := rfl
@[simp] theorem State.setLink_ports (s : State) (l : Nat) (x : Link) : (s.setLink l x).ports = s.ports := rfl
@[simp] theorem State.setLink_xpt (s : State) (l : Nat) (x : Link) : (s.setLink l x).xpt = s.xpt := rfl
@[simp] theorem State.setLink_cxl (s : State) (l : Nat) (x : Link) : (s.setLink l x).cxl = s.cxl := rfl
@[simp] theorem State.setLink_gth (s : State) (l : Nat) (x : Link) : (s.setLink l x).gth = s.gth := rfl
@[simp] theorem State.setLink_pwr (s : State) (l : Nat) (x : Link) : (s.setLink l x).pwr = s.pwr := rfl
@[simp] theorem State.setLink_sup (s : State) (l : Nat) (x : Link) : (s.setLink l x).sup = s.sup := rfl
@[simp] theorem State.setLink_fls (s : State) (l : Nat) (x : Link) : (s.setLink l x).fls = s.fls := rfl
@[simp] theorem State.setLink_twb (s : State) (l : Nat) (x : Link) : (s.setLink l x).twb = s.twb := rfl
@[simp] theorem State.setLink_sta (s : State) (l : Nat) (x : Link) : (s.setLink l x).sta = s.sta := rfl
@[simp] theorem State.setLink_jtag (s : State) (l : Nat) (x : Link) : (s.setLink l x).jtag = s.jtag := rfl
@[simp] theorem State.setLink_pins (s : State) (l : Nat) (x : Link) : (s.setLink l x).pins = s.pins := rfl
@[simp] theorem State.setLink_timeNs (s : State) (l : Nat) (x : Link) : (s.setLink l x).timeNs = s.timeNs := rfl
@[simp] theorem State.setLink_out (s : State) (l : Nat) (x : Link) : (s.setLink l x).out = s.out := rfl
@[simp] theorem State.setLink_xing (s : State) (l : Nat) (x : Link) : (s.setLink l x).xing = s.xing := rfl
@[simp] theorem State.setLink_free (s : State) (l : Nat) (x : Link) : (s.setLink l x).free = s.free := rfl
@[simp] theorem State.setLink_pending (s : State) (l : Nat) (x : Link) : (s.setLink l x).pending = s.pending := rfl
@[simp] theorem State.setLink_med_cmds (s : State) (l : Nat) (x : Link) : (s.setLink l x).med.cmds = s.med.cmds := rfl
@[simp] theorem State.setLink_med_waitq (s : State) (l : Nat) (x : Link) : (s.setLink l x).med.waitq = s.med.waitq := rfl
@[simp] theorem State.setLink_med_fetch (s : State) (l : Nat) (x : Link) : (s.setLink l x).med.fetch = s.med.fetch := rfl
@[simp] theorem State.setLink_med_mtSeq (s : State) (l : Nat) (x : Link) : (s.setLink l x).med.mtSeq = s.med.mtSeq := rfl
@[simp] theorem State.setLink_med_mtLoaded (s : State) (l : Nat) (x : Link) : (s.setLink l x).med.mtLoaded = s.med.mtLoaded := rfl
@[simp] theorem State.setLink_med_written (s : State) (l : Nat) (x : Link) : (s.setLink l x).med.written = s.med.written := rfl
@[simp] theorem State.setLink_med_rebuild (s : State) (l : Nat) (x : Link) : (s.setLink l x).med.rebuild = s.med.rebuild := rfl
@[simp] theorem State.setLink_med_owe (s : State) (l : Nat) (x : Link) : (s.setLink l x).med.owe = s.med.owe := rfl
@[simp] theorem State.setLink_med_sweepNext (s : State) (l : Nat) (x : Link) : (s.setLink l x).med.sweepNext = s.med.sweepNext := rfl
@[simp] theorem State.setLink_med_sweepStartNs (s : State) (l : Nat) (x : Link) : (s.setLink l x).med.sweepStartNs = s.med.sweepStartNs := rfl
@[simp] theorem State.setLink_med_sweepRead (s : State) (l : Nat) (x : Link) : (s.setLink l x).med.sweepRead = s.med.sweepRead := rfl
@[simp] theorem State.setLink_med_sweepFix (s : State) (l : Nat) (x : Link) : (s.setLink l x).med.sweepFix = s.med.sweepFix := rfl
@[simp] theorem State.setLink_fget (s : State) (l : Nat) (x : Link) (q : Fld) : (s.setLink l x).fget q = s.fget q := rfl
@[simp] theorem State.setLink_extent (s : State) (l : Nat) (x : Link) (j : Nat) : (s.setLink l x).extent j = s.extent j := rfl
@[simp] theorem State.setLink_genEntry (s : State) (l : Nat) (x : Link) (j : Nat) : (s.setLink l x).genEntry j = s.genEntry j := rfl
@[simp] theorem State.setLink_ctx (s : State) (l : Nat) (x : Link) (j : Nat) : (s.setLink l x).ctx j = s.ctx j := rfl
@[simp] theorem State.setLink_conn (s : State) (l : Nat) (x : Link) (j : Nat) : (s.setLink l x).conn j = s.conn j := rfl
@[simp] theorem State.setLink_ld (s : State) (l : Nat) (x : Link) (j : Nat) : (s.setLink l x).ld j = s.ld j := rfl
@[simp] theorem State.setLink_port (s : State) (l : Nat) (x : Link) (j : Nat) : (s.setLink l x).port j = s.port j := rfl
@[simp] theorem State.setLink_prog (s : State) (l : Nat) (x : Link) (j : Nat) : (s.setLink l x).prog j = s.prog j := rfl
@[simp] theorem State.setLink_ring (s : State) (l : Nat) (x : Link) (j : Nat) : (s.setLink l x).ring j = s.ring j := rfl
@[simp] theorem State.setLink_cq (s : State) (l : Nat) (x : Link) (j : Nat) : (s.setLink l x).cq j = s.cq j := rfl
@[simp] theorem State.setLink_eq (s : State) (l : Nat) (x : Link) (j : Nat) : (s.setLink l x).eq j = s.eq j := rfl
@[simp] theorem State.setLink_grp (s : State) (l : Nat) (x : Link) (j : Nat) : (s.setLink l x).grp j = s.grp j := rfl
@[simp] theorem State.setLink_tenant (s : State) (l : Nat) (x : Link) (j : BitVec 24) : (s.setLink l x).tenant j = s.tenant j := rfl

/-! ## setProg -/

@[simp] theorem State.setProg_ctl (s : State) (p : Nat) (x : Prog) : (s.setProg p x).ctl = s.ctl := rfl
@[simp] theorem State.setProg_ext (s : State) (p : Nat) (x : Prog) : (s.setProg p x).ext = s.ext := rfl
@[simp] theorem State.setProg_gen (s : State) (p : Nat) (x : Prog) : (s.setProg p x).gen = s.gen := rfl
@[simp] theorem State.setProg_persist (s : State) (p : Nat) (x : Prog) : (s.setProg p x).persist = s.persist := rfl
@[simp] theorem State.setProg_jnl (s : State) (p : Nat) (x : Prog) : (s.setProg p x).jnl = s.jnl := rfl
@[simp] theorem State.setProg_prm (s : State) (p : Nat) (x : Prog) : (s.setProg p x).prm = s.prm := rfl
@[simp] theorem State.setProg_med (s : State) (p : Nat) (x : Prog) : (s.setProg p x).med = s.med := rfl
@[simp] theorem State.setProg_tier (s : State) (p : Nat) (x : Prog) : (s.setProg p x).tier = s.tier := rfl
@[simp] theorem State.setProg_tst (s : State) (p : Nat) (x : Prog) : (s.setProg p x).tst = s.tst := rfl
@[simp] theorem State.setProg_ports (s : State) (p : Nat) (x : Prog) : (s.setProg p x).ports = s.ports := rfl
@[simp] theorem State.setProg_xpt (s : State) (p : Nat) (x : Prog) : (s.setProg p x).xpt = s.xpt := rfl
@[simp] theorem State.setProg_cxl (s : State) (p : Nat) (x : Prog) : (s.setProg p x).cxl = s.cxl := rfl
@[simp] theorem State.setProg_gth (s : State) (p : Nat) (x : Prog) : (s.setProg p x).gth = s.gth := rfl
@[simp] theorem State.setProg_pwr (s : State) (p : Nat) (x : Prog) : (s.setProg p x).pwr = s.pwr := rfl
@[simp] theorem State.setProg_sup (s : State) (p : Nat) (x : Prog) : (s.setProg p x).sup = s.sup := rfl
@[simp] theorem State.setProg_fls (s : State) (p : Nat) (x : Prog) : (s.setProg p x).fls = s.fls := rfl
@[simp] theorem State.setProg_twb (s : State) (p : Nat) (x : Prog) : (s.setProg p x).twb = s.twb := rfl
@[simp] theorem State.setProg_sta (s : State) (p : Nat) (x : Prog) : (s.setProg p x).sta = s.sta := rfl
@[simp] theorem State.setProg_jtag (s : State) (p : Nat) (x : Prog) : (s.setProg p x).jtag = s.jtag := rfl
@[simp] theorem State.setProg_pins (s : State) (p : Nat) (x : Prog) : (s.setProg p x).pins = s.pins := rfl
@[simp] theorem State.setProg_timeNs (s : State) (p : Nat) (x : Prog) : (s.setProg p x).timeNs = s.timeNs := rfl
@[simp] theorem State.setProg_out (s : State) (p : Nat) (x : Prog) : (s.setProg p x).out = s.out := rfl
@[simp] theorem State.setProg_xing (s : State) (p : Nat) (x : Prog) : (s.setProg p x).xing = s.xing := rfl
@[simp] theorem State.setProg_free (s : State) (p : Nat) (x : Prog) : (s.setProg p x).free = s.free := rfl
@[simp] theorem State.setProg_pending (s : State) (p : Nat) (x : Prog) : (s.setProg p x).pending = s.pending := rfl
@[simp] theorem State.setProg_ksk_ctx (s : State) (p : Nat) (x : Prog) : (s.setProg p x).ksk.ctx = s.ksk.ctx := rfl
@[simp] theorem State.setProg_ksk_pool (s : State) (p : Nat) (x : Prog) : (s.setProg p x).ksk.pool = s.ksk.pool := rfl
@[simp] theorem State.setProg_ksk_loads (s : State) (p : Nat) (x : Prog) : (s.setProg p x).ksk.loads = s.ksk.loads := rfl
@[simp] theorem State.setProg_ksk_cancels (s : State) (p : Nat) (x : Prog) : (s.setProg p x).ksk.cancels = s.ksk.cancels := rfl
@[simp] theorem State.setProg_ksk_seq (s : State) (p : Nat) (x : Prog) : (s.setProg p x).ksk.seq = s.ksk.seq := rfl
@[simp] theorem State.setProg_ksk_rr (s : State) (p : Nat) (x : Prog) : (s.setProg p x).ksk.rr = s.ksk.rr := rfl
@[simp] theorem State.setProg_ksk_mgmt (s : State) (p : Nat) (x : Prog) : (s.setProg p x).ksk.mgmt = s.ksk.mgmt := rfl
@[simp] theorem State.setProg_ksk_mgmtSrc (s : State) (p : Nat) (x : Prog) : (s.setProg p x).ksk.mgmtSrc = s.ksk.mgmtSrc := rfl
@[simp] theorem State.setProg_ksk_mgmtSeq (s : State) (p : Nat) (x : Prog) : (s.setProg p x).ksk.mgmtSeq = s.ksk.mgmtSeq := rfl
@[simp] theorem State.setProg_ksk_sram (s : State) (p : Nat) (x : Prog) : (s.setProg p x).ksk.sram = s.ksk.sram := rfl
@[simp] theorem State.setProg_ksk_stores (s : State) (p : Nat) (x : Prog) : (s.setProg p x).ksk.stores = s.ksk.stores := rfl
@[simp] theorem State.setProg_ksk_mgmtWait (s : State) (p : Nat) (x : Prog) : (s.setProg p x).ksk.mgmtWait = s.ksk.mgmtWait := rfl
@[simp] theorem State.setProg_fget (s : State) (p : Nat) (x : Prog) (q : Fld) : (s.setProg p x).fget q = s.fget q := rfl
@[simp] theorem State.setProg_extent (s : State) (p : Nat) (x : Prog) (j : Nat) : (s.setProg p x).extent j = s.extent j := rfl
@[simp] theorem State.setProg_genEntry (s : State) (p : Nat) (x : Prog) (j : Nat) : (s.setProg p x).genEntry j = s.genEntry j := rfl
@[simp] theorem State.setProg_ctx (s : State) (p : Nat) (x : Prog) (j : Nat) : (s.setProg p x).ctx j = s.ctx j := rfl
@[simp] theorem State.setProg_conn (s : State) (p : Nat) (x : Prog) (j : Nat) : (s.setProg p x).conn j = s.conn j := rfl
@[simp] theorem State.setProg_ld (s : State) (p : Nat) (x : Prog) (j : Nat) : (s.setProg p x).ld j = s.ld j := rfl
@[simp] theorem State.setProg_port (s : State) (p : Nat) (x : Prog) (j : Nat) : (s.setProg p x).port j = s.port j := rfl
@[simp] theorem State.setProg_link (s : State) (p : Nat) (x : Prog) (j : Nat) : (s.setProg p x).link j = s.link j := rfl
@[simp] theorem State.setProg_ring (s : State) (p : Nat) (x : Prog) (j : Nat) : (s.setProg p x).ring j = s.ring j := rfl
@[simp] theorem State.setProg_cq (s : State) (p : Nat) (x : Prog) (j : Nat) : (s.setProg p x).cq j = s.cq j := rfl
@[simp] theorem State.setProg_eq (s : State) (p : Nat) (x : Prog) (j : Nat) : (s.setProg p x).eq j = s.eq j := rfl
@[simp] theorem State.setProg_grp (s : State) (p : Nat) (x : Prog) (j : Nat) : (s.setProg p x).grp j = s.grp j := rfl
@[simp] theorem State.setProg_tenant (s : State) (p : Nat) (x : Prog) (j : BitVec 24) : (s.setProg p x).tenant j = s.tenant j := rfl

/-! ## setRing -/

@[simp] theorem State.setRing_ctl (s : State) (i : Nat) (x : Ring) : (s.setRing i x).ctl = s.ctl := rfl
@[simp] theorem State.setRing_ext (s : State) (i : Nat) (x : Ring) : (s.setRing i x).ext = s.ext := rfl
@[simp] theorem State.setRing_gen (s : State) (i : Nat) (x : Ring) : (s.setRing i x).gen = s.gen := rfl
@[simp] theorem State.setRing_persist (s : State) (i : Nat) (x : Ring) : (s.setRing i x).persist = s.persist := rfl
@[simp] theorem State.setRing_jnl (s : State) (i : Nat) (x : Ring) : (s.setRing i x).jnl = s.jnl := rfl
@[simp] theorem State.setRing_prm (s : State) (i : Nat) (x : Ring) : (s.setRing i x).prm = s.prm := rfl
@[simp] theorem State.setRing_med (s : State) (i : Nat) (x : Ring) : (s.setRing i x).med = s.med := rfl
@[simp] theorem State.setRing_tier (s : State) (i : Nat) (x : Ring) : (s.setRing i x).tier = s.tier := rfl
@[simp] theorem State.setRing_ksk (s : State) (i : Nat) (x : Ring) : (s.setRing i x).ksk = s.ksk := rfl
@[simp] theorem State.setRing_tst (s : State) (i : Nat) (x : Ring) : (s.setRing i x).tst = s.tst := rfl
@[simp] theorem State.setRing_ports (s : State) (i : Nat) (x : Ring) : (s.setRing i x).ports = s.ports := rfl
@[simp] theorem State.setRing_xpt (s : State) (i : Nat) (x : Ring) : (s.setRing i x).xpt = s.xpt := rfl
@[simp] theorem State.setRing_gth (s : State) (i : Nat) (x : Ring) : (s.setRing i x).gth = s.gth := rfl
@[simp] theorem State.setRing_pwr (s : State) (i : Nat) (x : Ring) : (s.setRing i x).pwr = s.pwr := rfl
@[simp] theorem State.setRing_sup (s : State) (i : Nat) (x : Ring) : (s.setRing i x).sup = s.sup := rfl
@[simp] theorem State.setRing_fls (s : State) (i : Nat) (x : Ring) : (s.setRing i x).fls = s.fls := rfl
@[simp] theorem State.setRing_twb (s : State) (i : Nat) (x : Ring) : (s.setRing i x).twb = s.twb := rfl
@[simp] theorem State.setRing_sta (s : State) (i : Nat) (x : Ring) : (s.setRing i x).sta = s.sta := rfl
@[simp] theorem State.setRing_jtag (s : State) (i : Nat) (x : Ring) : (s.setRing i x).jtag = s.jtag := rfl
@[simp] theorem State.setRing_pins (s : State) (i : Nat) (x : Ring) : (s.setRing i x).pins = s.pins := rfl
@[simp] theorem State.setRing_timeNs (s : State) (i : Nat) (x : Ring) : (s.setRing i x).timeNs = s.timeNs := rfl
@[simp] theorem State.setRing_out (s : State) (i : Nat) (x : Ring) : (s.setRing i x).out = s.out := rfl
@[simp] theorem State.setRing_xing (s : State) (i : Nat) (x : Ring) : (s.setRing i x).xing = s.xing := rfl
@[simp] theorem State.setRing_free (s : State) (i : Nat) (x : Ring) : (s.setRing i x).free = s.free := rfl
@[simp] theorem State.setRing_pending (s : State) (i : Nat) (x : Ring) : (s.setRing i x).pending = s.pending := rfl
@[simp] theorem State.setRing_cxl_lds (s : State) (i : Nat) (x : Ring) : (s.setRing i x).cxl.lds = s.cxl.lds := rfl
@[simp] theorem State.setRing_cxl_comb (s : State) (i : Nat) (x : Ring) : (s.setRing i x).cxl.comb = s.cxl.comb := rfl
@[simp] theorem State.setRing_cxl_rxq (s : State) (i : Nat) (x : Ring) : (s.setRing i x).cxl.rxq = s.cxl.rxq := rfl
@[simp] theorem State.setRing_cxl_perst (s : State) (i : Nat) (x : Ring) : (s.setRing i x).cxl.perst = s.cxl.perst := rfl
@[simp] theorem State.setRing_cxl_ide (s : State) (i : Nat) (x : Ring) : (s.setRing i x).cxl.ide = s.cxl.ide := rfl
@[simp] theorem State.setRing_fget (s : State) (i : Nat) (x : Ring) (q : Fld) : (s.setRing i x).fget q = s.fget q := rfl
@[simp] theorem State.setRing_extent (s : State) (i : Nat) (x : Ring) (j : Nat) : (s.setRing i x).extent j = s.extent j := rfl
@[simp] theorem State.setRing_genEntry (s : State) (i : Nat) (x : Ring) (j : Nat) : (s.setRing i x).genEntry j = s.genEntry j := rfl
@[simp] theorem State.setRing_ctx (s : State) (i : Nat) (x : Ring) (j : Nat) : (s.setRing i x).ctx j = s.ctx j := rfl
@[simp] theorem State.setRing_conn (s : State) (i : Nat) (x : Ring) (j : Nat) : (s.setRing i x).conn j = s.conn j := rfl
@[simp] theorem State.setRing_ld (s : State) (i : Nat) (x : Ring) (j : Nat) : (s.setRing i x).ld j = s.ld j := rfl
@[simp] theorem State.setRing_port (s : State) (i : Nat) (x : Ring) (j : Nat) : (s.setRing i x).port j = s.port j := rfl
@[simp] theorem State.setRing_link (s : State) (i : Nat) (x : Ring) (j : Nat) : (s.setRing i x).link j = s.link j := rfl
@[simp] theorem State.setRing_prog (s : State) (i : Nat) (x : Ring) (j : Nat) : (s.setRing i x).prog j = s.prog j := rfl
@[simp] theorem State.setRing_cq (s : State) (i : Nat) (x : Ring) (j : Nat) : (s.setRing i x).cq j = s.cq j := rfl
@[simp] theorem State.setRing_eq (s : State) (i : Nat) (x : Ring) (j : Nat) : (s.setRing i x).eq j = s.eq j := rfl
@[simp] theorem State.setRing_grp (s : State) (i : Nat) (x : Ring) (j : Nat) : (s.setRing i x).grp j = s.grp j := rfl
@[simp] theorem State.setRing_tenant (s : State) (i : Nat) (x : Ring) (j : BitVec 24) : (s.setRing i x).tenant j = s.tenant j := rfl

/-! ## setCq -/

@[simp] theorem State.setCq_ctl (s : State) (c : Nat) (x : Cq) : (s.setCq c x).ctl = s.ctl := rfl
@[simp] theorem State.setCq_ext (s : State) (c : Nat) (x : Cq) : (s.setCq c x).ext = s.ext := rfl
@[simp] theorem State.setCq_gen (s : State) (c : Nat) (x : Cq) : (s.setCq c x).gen = s.gen := rfl
@[simp] theorem State.setCq_persist (s : State) (c : Nat) (x : Cq) : (s.setCq c x).persist = s.persist := rfl
@[simp] theorem State.setCq_jnl (s : State) (c : Nat) (x : Cq) : (s.setCq c x).jnl = s.jnl := rfl
@[simp] theorem State.setCq_prm (s : State) (c : Nat) (x : Cq) : (s.setCq c x).prm = s.prm := rfl
@[simp] theorem State.setCq_med (s : State) (c : Nat) (x : Cq) : (s.setCq c x).med = s.med := rfl
@[simp] theorem State.setCq_tier (s : State) (c : Nat) (x : Cq) : (s.setCq c x).tier = s.tier := rfl
@[simp] theorem State.setCq_ksk (s : State) (c : Nat) (x : Cq) : (s.setCq c x).ksk = s.ksk := rfl
@[simp] theorem State.setCq_tst (s : State) (c : Nat) (x : Cq) : (s.setCq c x).tst = s.tst := rfl
@[simp] theorem State.setCq_ports (s : State) (c : Nat) (x : Cq) : (s.setCq c x).ports = s.ports := rfl
@[simp] theorem State.setCq_xpt (s : State) (c : Nat) (x : Cq) : (s.setCq c x).xpt = s.xpt := rfl
@[simp] theorem State.setCq_cxl (s : State) (c : Nat) (x : Cq) : (s.setCq c x).cxl = s.cxl := rfl
@[simp] theorem State.setCq_gth (s : State) (c : Nat) (x : Cq) : (s.setCq c x).gth = s.gth := rfl
@[simp] theorem State.setCq_pwr (s : State) (c : Nat) (x : Cq) : (s.setCq c x).pwr = s.pwr := rfl
@[simp] theorem State.setCq_sup (s : State) (c : Nat) (x : Cq) : (s.setCq c x).sup = s.sup := rfl
@[simp] theorem State.setCq_fls (s : State) (c : Nat) (x : Cq) : (s.setCq c x).fls = s.fls := rfl
@[simp] theorem State.setCq_twb (s : State) (c : Nat) (x : Cq) : (s.setCq c x).twb = s.twb := rfl
@[simp] theorem State.setCq_jtag (s : State) (c : Nat) (x : Cq) : (s.setCq c x).jtag = s.jtag := rfl
@[simp] theorem State.setCq_pins (s : State) (c : Nat) (x : Cq) : (s.setCq c x).pins = s.pins := rfl
@[simp] theorem State.setCq_timeNs (s : State) (c : Nat) (x : Cq) : (s.setCq c x).timeNs = s.timeNs := rfl
@[simp] theorem State.setCq_out (s : State) (c : Nat) (x : Cq) : (s.setCq c x).out = s.out := rfl
@[simp] theorem State.setCq_xing (s : State) (c : Nat) (x : Cq) : (s.setCq c x).xing = s.xing := rfl
@[simp] theorem State.setCq_free (s : State) (c : Nat) (x : Cq) : (s.setCq c x).free = s.free := rfl
@[simp] theorem State.setCq_pending (s : State) (c : Nat) (x : Cq) : (s.setCq c x).pending = s.pending := rfl
@[simp] theorem State.setCq_sta_xfers (s : State) (c : Nat) (x : Cq) : (s.setCq c x).sta.xfers = s.sta.xfers := rfl
@[simp] theorem State.setCq_sta_eqs (s : State) (c : Nat) (x : Cq) : (s.setCq c x).sta.eqs = s.sta.eqs := rfl
@[simp] theorem State.setCq_sta_overflow (s : State) (c : Nat) (x : Cq) : (s.setCq c x).sta.overflow = s.sta.overflow := rfl
@[simp] theorem State.setCq_sta_ring (s : State) (c : Nat) (x : Cq) : (s.setCq c x).sta.ring = s.sta.ring := rfl
@[simp] theorem State.setCq_sta_devSeq (s : State) (c : Nat) (x : Cq) : (s.setCq c x).sta.devSeq = s.sta.devSeq := rfl
@[simp] theorem State.setCq_sta_pageSeq (s : State) (c : Nat) (x : Cq) : (s.setCq c x).sta.pageSeq = s.sta.pageSeq := rfl
@[simp] theorem State.setCq_sta_pages (s : State) (c : Nat) (x : Cq) : (s.setCq c x).sta.pages = s.sta.pages := rfl
@[simp] theorem State.setCq_sta_tasks (s : State) (c : Nat) (x : Cq) : (s.setCq c x).sta.tasks = s.sta.tasks := rfl
@[simp] theorem State.setCq_sta_conflicts (s : State) (c : Nat) (x : Cq) : (s.setCq c x).sta.conflicts = s.sta.conflicts := rfl
@[simp] theorem State.setCq_sta_overruns (s : State) (c : Nat) (x : Cq) : (s.setCq c x).sta.overruns = s.sta.overruns := rfl
@[simp] theorem State.setCq_fget (s : State) (c : Nat) (x : Cq) (q : Fld) : (s.setCq c x).fget q = s.fget q := rfl
@[simp] theorem State.setCq_extent (s : State) (c : Nat) (x : Cq) (j : Nat) : (s.setCq c x).extent j = s.extent j := rfl
@[simp] theorem State.setCq_genEntry (s : State) (c : Nat) (x : Cq) (j : Nat) : (s.setCq c x).genEntry j = s.genEntry j := rfl
@[simp] theorem State.setCq_ctx (s : State) (c : Nat) (x : Cq) (j : Nat) : (s.setCq c x).ctx j = s.ctx j := rfl
@[simp] theorem State.setCq_conn (s : State) (c : Nat) (x : Cq) (j : Nat) : (s.setCq c x).conn j = s.conn j := rfl
@[simp] theorem State.setCq_ld (s : State) (c : Nat) (x : Cq) (j : Nat) : (s.setCq c x).ld j = s.ld j := rfl
@[simp] theorem State.setCq_port (s : State) (c : Nat) (x : Cq) (j : Nat) : (s.setCq c x).port j = s.port j := rfl
@[simp] theorem State.setCq_link (s : State) (c : Nat) (x : Cq) (j : Nat) : (s.setCq c x).link j = s.link j := rfl
@[simp] theorem State.setCq_prog (s : State) (c : Nat) (x : Cq) (j : Nat) : (s.setCq c x).prog j = s.prog j := rfl
@[simp] theorem State.setCq_ring (s : State) (c : Nat) (x : Cq) (j : Nat) : (s.setCq c x).ring j = s.ring j := rfl
@[simp] theorem State.setCq_eq (s : State) (c : Nat) (x : Cq) (j : Nat) : (s.setCq c x).eq j = s.eq j := rfl
@[simp] theorem State.setCq_grp (s : State) (c : Nat) (x : Cq) (j : Nat) : (s.setCq c x).grp j = s.grp j := rfl
@[simp] theorem State.setCq_tenant (s : State) (c : Nat) (x : Cq) (j : BitVec 24) : (s.setCq c x).tenant j = s.tenant j := rfl

/-! ## setEq -/

@[simp] theorem State.setEq_ctl (s : State) (k : Nat) (x : Eq) : (s.setEq k x).ctl = s.ctl := rfl
@[simp] theorem State.setEq_ext (s : State) (k : Nat) (x : Eq) : (s.setEq k x).ext = s.ext := rfl
@[simp] theorem State.setEq_gen (s : State) (k : Nat) (x : Eq) : (s.setEq k x).gen = s.gen := rfl
@[simp] theorem State.setEq_persist (s : State) (k : Nat) (x : Eq) : (s.setEq k x).persist = s.persist := rfl
@[simp] theorem State.setEq_jnl (s : State) (k : Nat) (x : Eq) : (s.setEq k x).jnl = s.jnl := rfl
@[simp] theorem State.setEq_prm (s : State) (k : Nat) (x : Eq) : (s.setEq k x).prm = s.prm := rfl
@[simp] theorem State.setEq_med (s : State) (k : Nat) (x : Eq) : (s.setEq k x).med = s.med := rfl
@[simp] theorem State.setEq_tier (s : State) (k : Nat) (x : Eq) : (s.setEq k x).tier = s.tier := rfl
@[simp] theorem State.setEq_ksk (s : State) (k : Nat) (x : Eq) : (s.setEq k x).ksk = s.ksk := rfl
@[simp] theorem State.setEq_tst (s : State) (k : Nat) (x : Eq) : (s.setEq k x).tst = s.tst := rfl
@[simp] theorem State.setEq_ports (s : State) (k : Nat) (x : Eq) : (s.setEq k x).ports = s.ports := rfl
@[simp] theorem State.setEq_xpt (s : State) (k : Nat) (x : Eq) : (s.setEq k x).xpt = s.xpt := rfl
@[simp] theorem State.setEq_cxl (s : State) (k : Nat) (x : Eq) : (s.setEq k x).cxl = s.cxl := rfl
@[simp] theorem State.setEq_gth (s : State) (k : Nat) (x : Eq) : (s.setEq k x).gth = s.gth := rfl
@[simp] theorem State.setEq_pwr (s : State) (k : Nat) (x : Eq) : (s.setEq k x).pwr = s.pwr := rfl
@[simp] theorem State.setEq_sup (s : State) (k : Nat) (x : Eq) : (s.setEq k x).sup = s.sup := rfl
@[simp] theorem State.setEq_fls (s : State) (k : Nat) (x : Eq) : (s.setEq k x).fls = s.fls := rfl
@[simp] theorem State.setEq_twb (s : State) (k : Nat) (x : Eq) : (s.setEq k x).twb = s.twb := rfl
@[simp] theorem State.setEq_jtag (s : State) (k : Nat) (x : Eq) : (s.setEq k x).jtag = s.jtag := rfl
@[simp] theorem State.setEq_pins (s : State) (k : Nat) (x : Eq) : (s.setEq k x).pins = s.pins := rfl
@[simp] theorem State.setEq_timeNs (s : State) (k : Nat) (x : Eq) : (s.setEq k x).timeNs = s.timeNs := rfl
@[simp] theorem State.setEq_out (s : State) (k : Nat) (x : Eq) : (s.setEq k x).out = s.out := rfl
@[simp] theorem State.setEq_xing (s : State) (k : Nat) (x : Eq) : (s.setEq k x).xing = s.xing := rfl
@[simp] theorem State.setEq_free (s : State) (k : Nat) (x : Eq) : (s.setEq k x).free = s.free := rfl
@[simp] theorem State.setEq_pending (s : State) (k : Nat) (x : Eq) : (s.setEq k x).pending = s.pending := rfl
@[simp] theorem State.setEq_sta_xfers (s : State) (k : Nat) (x : Eq) : (s.setEq k x).sta.xfers = s.sta.xfers := rfl
@[simp] theorem State.setEq_sta_cqs (s : State) (k : Nat) (x : Eq) : (s.setEq k x).sta.cqs = s.sta.cqs := rfl
@[simp] theorem State.setEq_sta_overflow (s : State) (k : Nat) (x : Eq) : (s.setEq k x).sta.overflow = s.sta.overflow := rfl
@[simp] theorem State.setEq_sta_ring (s : State) (k : Nat) (x : Eq) : (s.setEq k x).sta.ring = s.sta.ring := rfl
@[simp] theorem State.setEq_sta_devSeq (s : State) (k : Nat) (x : Eq) : (s.setEq k x).sta.devSeq = s.sta.devSeq := rfl
@[simp] theorem State.setEq_sta_pageSeq (s : State) (k : Nat) (x : Eq) : (s.setEq k x).sta.pageSeq = s.sta.pageSeq := rfl
@[simp] theorem State.setEq_sta_pages (s : State) (k : Nat) (x : Eq) : (s.setEq k x).sta.pages = s.sta.pages := rfl
@[simp] theorem State.setEq_sta_tasks (s : State) (k : Nat) (x : Eq) : (s.setEq k x).sta.tasks = s.sta.tasks := rfl
@[simp] theorem State.setEq_sta_conflicts (s : State) (k : Nat) (x : Eq) : (s.setEq k x).sta.conflicts = s.sta.conflicts := rfl
@[simp] theorem State.setEq_sta_overruns (s : State) (k : Nat) (x : Eq) : (s.setEq k x).sta.overruns = s.sta.overruns := rfl
@[simp] theorem State.setEq_fget (s : State) (k : Nat) (x : Eq) (q : Fld) : (s.setEq k x).fget q = s.fget q := rfl
@[simp] theorem State.setEq_extent (s : State) (k : Nat) (x : Eq) (j : Nat) : (s.setEq k x).extent j = s.extent j := rfl
@[simp] theorem State.setEq_genEntry (s : State) (k : Nat) (x : Eq) (j : Nat) : (s.setEq k x).genEntry j = s.genEntry j := rfl
@[simp] theorem State.setEq_ctx (s : State) (k : Nat) (x : Eq) (j : Nat) : (s.setEq k x).ctx j = s.ctx j := rfl
@[simp] theorem State.setEq_conn (s : State) (k : Nat) (x : Eq) (j : Nat) : (s.setEq k x).conn j = s.conn j := rfl
@[simp] theorem State.setEq_ld (s : State) (k : Nat) (x : Eq) (j : Nat) : (s.setEq k x).ld j = s.ld j := rfl
@[simp] theorem State.setEq_port (s : State) (k : Nat) (x : Eq) (j : Nat) : (s.setEq k x).port j = s.port j := rfl
@[simp] theorem State.setEq_link (s : State) (k : Nat) (x : Eq) (j : Nat) : (s.setEq k x).link j = s.link j := rfl
@[simp] theorem State.setEq_prog (s : State) (k : Nat) (x : Eq) (j : Nat) : (s.setEq k x).prog j = s.prog j := rfl
@[simp] theorem State.setEq_ring (s : State) (k : Nat) (x : Eq) (j : Nat) : (s.setEq k x).ring j = s.ring j := rfl
@[simp] theorem State.setEq_cq (s : State) (k : Nat) (x : Eq) (j : Nat) : (s.setEq k x).cq j = s.cq j := rfl
@[simp] theorem State.setEq_grp (s : State) (k : Nat) (x : Eq) (j : Nat) : (s.setEq k x).grp j = s.grp j := rfl
@[simp] theorem State.setEq_tenant (s : State) (k : Nat) (x : Eq) (j : BitVec 24) : (s.setEq k x).tenant j = s.tenant j := rfl

/-! ## setGrp -/

@[simp] theorem State.setGrp_ctl (s : State) (g : Nat) (x : Grp) : (s.setGrp g x).ctl = s.ctl := rfl
@[simp] theorem State.setGrp_ext (s : State) (g : Nat) (x : Grp) : (s.setGrp g x).ext = s.ext := rfl
@[simp] theorem State.setGrp_gen (s : State) (g : Nat) (x : Grp) : (s.setGrp g x).gen = s.gen := rfl
@[simp] theorem State.setGrp_persist (s : State) (g : Nat) (x : Grp) : (s.setGrp g x).persist = s.persist := rfl
@[simp] theorem State.setGrp_jnl (s : State) (g : Nat) (x : Grp) : (s.setGrp g x).jnl = s.jnl := rfl
@[simp] theorem State.setGrp_med (s : State) (g : Nat) (x : Grp) : (s.setGrp g x).med = s.med := rfl
@[simp] theorem State.setGrp_tier (s : State) (g : Nat) (x : Grp) : (s.setGrp g x).tier = s.tier := rfl
@[simp] theorem State.setGrp_ksk (s : State) (g : Nat) (x : Grp) : (s.setGrp g x).ksk = s.ksk := rfl
@[simp] theorem State.setGrp_tst (s : State) (g : Nat) (x : Grp) : (s.setGrp g x).tst = s.tst := rfl
@[simp] theorem State.setGrp_ports (s : State) (g : Nat) (x : Grp) : (s.setGrp g x).ports = s.ports := rfl
@[simp] theorem State.setGrp_xpt (s : State) (g : Nat) (x : Grp) : (s.setGrp g x).xpt = s.xpt := rfl
@[simp] theorem State.setGrp_cxl (s : State) (g : Nat) (x : Grp) : (s.setGrp g x).cxl = s.cxl := rfl
@[simp] theorem State.setGrp_gth (s : State) (g : Nat) (x : Grp) : (s.setGrp g x).gth = s.gth := rfl
@[simp] theorem State.setGrp_pwr (s : State) (g : Nat) (x : Grp) : (s.setGrp g x).pwr = s.pwr := rfl
@[simp] theorem State.setGrp_sup (s : State) (g : Nat) (x : Grp) : (s.setGrp g x).sup = s.sup := rfl
@[simp] theorem State.setGrp_fls (s : State) (g : Nat) (x : Grp) : (s.setGrp g x).fls = s.fls := rfl
@[simp] theorem State.setGrp_twb (s : State) (g : Nat) (x : Grp) : (s.setGrp g x).twb = s.twb := rfl
@[simp] theorem State.setGrp_sta (s : State) (g : Nat) (x : Grp) : (s.setGrp g x).sta = s.sta := rfl
@[simp] theorem State.setGrp_jtag (s : State) (g : Nat) (x : Grp) : (s.setGrp g x).jtag = s.jtag := rfl
@[simp] theorem State.setGrp_pins (s : State) (g : Nat) (x : Grp) : (s.setGrp g x).pins = s.pins := rfl
@[simp] theorem State.setGrp_timeNs (s : State) (g : Nat) (x : Grp) : (s.setGrp g x).timeNs = s.timeNs := rfl
@[simp] theorem State.setGrp_out (s : State) (g : Nat) (x : Grp) : (s.setGrp g x).out = s.out := rfl
@[simp] theorem State.setGrp_xing (s : State) (g : Nat) (x : Grp) : (s.setGrp g x).xing = s.xing := rfl
@[simp] theorem State.setGrp_free (s : State) (g : Nat) (x : Grp) : (s.setGrp g x).free = s.free := rfl
@[simp] theorem State.setGrp_pending (s : State) (g : Nat) (x : Grp) : (s.setGrp g x).pending = s.pending := rfl
@[simp] theorem State.setGrp_prm_pairGiven (s : State) (g : Nat) (x : Grp) : (s.setGrp g x).prm.pairGiven = s.prm.pairGiven := by unfold State.setGrp; split <;> rfl
@[simp] theorem State.setGrp_prm_pairAcked (s : State) (g : Nat) (x : Grp) : (s.setGrp g x).prm.pairAcked = s.prm.pairAcked := by unfold State.setGrp; split <;> rfl
@[simp] theorem State.setGrp_prm_seqHigh (s : State) (g : Nat) (x : Grp) : (s.setGrp g x).prm.seqHigh = s.prm.seqHigh := by unfold State.setGrp; split <;> rfl
@[simp] theorem State.setGrp_prm_reasm (s : State) (g : Nat) (x : Grp) : (s.setGrp g x).prm.reasm = s.prm.reasm := by unfold State.setGrp; split <;> rfl
@[simp] theorem State.setGrp_prm_fwdReasm (s : State) (g : Nat) (x : Grp) : (s.setGrp g x).prm.fwdReasm = s.prm.fwdReasm := by unfold State.setGrp; split <;> rfl
@[simp] theorem State.setGrp_prm_rxRecs (s : State) (g : Nat) (x : Grp) : (s.setGrp g x).prm.rxRecs = s.prm.rxRecs := by unfold State.setGrp; split <;> rfl
@[simp] theorem State.setGrp_prm_rxWait (s : State) (g : Nat) (x : Grp) : (s.setGrp g x).prm.rxWait = s.prm.rxWait := by unfold State.setGrp; split <;> rfl
@[simp] theorem State.setGrp_prm_nextRef (s : State) (g : Nat) (x : Grp) : (s.setGrp g x).prm.nextRef = s.prm.nextRef := by unfold State.setGrp; split <;> rfl
@[simp] theorem State.setGrp_prm_fwd (s : State) (g : Nat) (x : Grp) : (s.setGrp g x).prm.fwd = s.prm.fwd := by unfold State.setGrp; split <;> rfl
@[simp] theorem State.setGrp_prm_repairs (s : State) (g : Nat) (x : Grp) : (s.setGrp g x).prm.repairs = s.prm.repairs := by unfold State.setGrp; split <;> rfl
@[simp] theorem State.setGrp_prm_secret (s : State) (g : Nat) (x : Grp) : (s.setGrp g x).prm.secret = s.prm.secret := by unfold State.setGrp; split <;> rfl
@[simp] theorem State.setGrp_prm_pairInc (s : State) (g : Nat) (x : Grp) : (s.setGrp g x).prm.pairInc = s.prm.pairInc := by unfold State.setGrp; split <;> rfl
@[simp] theorem State.setGrp_prm_joinInc (s : State) (g : Nat) (x : Grp) : (s.setGrp g x).prm.joinInc = s.prm.joinInc := by unfold State.setGrp; split <;> rfl
@[simp] theorem State.setGrp_prm_establishing (s : State) (g : Nat) (x : Grp) : (s.setGrp g x).prm.establishing = s.prm.establishing := by unfold State.setGrp; split <;> rfl
@[simp] theorem State.setGrp_prm_attested (s : State) (g : Nat) (x : Grp) : (s.setGrp g x).prm.attested = s.prm.attested := by unfold State.setGrp; split <;> rfl
@[simp] theorem State.setGrp_prm_replacing (s : State) (g : Nat) (x : Grp) : (s.setGrp g x).prm.replacing = s.prm.replacing := by unfold State.setGrp; split <;> rfl
@[simp] theorem State.setGrp_prm_dirty (s : State) (g : Nat) (x : Grp) : (s.setGrp g x).prm.dirty = s.prm.dirty := by unfold State.setGrp; split <;> rfl
@[simp] theorem State.setGrp_prm_dirtyLost (s : State) (g : Nat) (x : Grp) : (s.setGrp g x).prm.dirtyLost = s.prm.dirtyLost := by unfold State.setGrp; split <;> rfl
@[simp] theorem State.setGrp_prm_resync (s : State) (g : Nat) (x : Grp) : (s.setGrp g x).prm.resync = s.prm.resync := by unfold State.setGrp; split <;> rfl
@[simp] theorem State.setGrp_prm_lost (s : State) (g : Nat) (x : Grp) : (s.setGrp g x).prm.lost = s.prm.lost := by unfold State.setGrp; split <;> rfl
@[simp] theorem State.setGrp_prm_stale (s : State) (g : Nat) (x : Grp) : (s.setGrp g x).prm.stale = s.prm.stale := by unfold State.setGrp; split <;> rfl
@[simp] theorem State.setGrp_prm_forced (s : State) (g : Nat) (x : Grp) : (s.setGrp g x).prm.forced = s.prm.forced := by unfold State.setGrp; split <;> rfl
@[simp] theorem State.setGrp_prm_anchored (s : State) (g : Nat) (x : Grp) : (s.setGrp g x).prm.anchored = s.prm.anchored := by unfold State.setGrp; split <;> rfl
@[simp] theorem State.setGrp_prm_peerLost (s : State) (g : Nat) (x : Grp) : (s.setGrp g x).prm.peerLost = s.prm.peerLost := by unfold State.setGrp; split <;> rfl
@[simp] theorem State.setGrp_prm_bootState (s : State) (g : Nat) (x : Grp) : (s.setGrp g x).prm.bootState = s.prm.bootState := by unfold State.setGrp; split <;> rfl
@[simp] theorem State.setGrp_prm_homeSeq (s : State) (g : Nat) (x : Grp) : (s.setGrp g x).prm.homeSeq = s.prm.homeSeq := by unfold State.setGrp; split <;> rfl
@[simp] theorem State.setGrp_fget (s : State) (g : Nat) (x : Grp) (q : Fld) : (s.setGrp g x).fget q = s.fget q := rfl
@[simp] theorem State.setGrp_extent (s : State) (g : Nat) (x : Grp) (j : Nat) : (s.setGrp g x).extent j = s.extent j := rfl
@[simp] theorem State.setGrp_genEntry (s : State) (g : Nat) (x : Grp) (j : Nat) : (s.setGrp g x).genEntry j = s.genEntry j := rfl
@[simp] theorem State.setGrp_ctx (s : State) (g : Nat) (x : Grp) (j : Nat) : (s.setGrp g x).ctx j = s.ctx j := rfl
@[simp] theorem State.setGrp_conn (s : State) (g : Nat) (x : Grp) (j : Nat) : (s.setGrp g x).conn j = s.conn j := rfl
@[simp] theorem State.setGrp_ld (s : State) (g : Nat) (x : Grp) (j : Nat) : (s.setGrp g x).ld j = s.ld j := rfl
@[simp] theorem State.setGrp_port (s : State) (g : Nat) (x : Grp) (j : Nat) : (s.setGrp g x).port j = s.port j := rfl
@[simp] theorem State.setGrp_link (s : State) (g : Nat) (x : Grp) (j : Nat) : (s.setGrp g x).link j = s.link j := rfl
@[simp] theorem State.setGrp_prog (s : State) (g : Nat) (x : Grp) (j : Nat) : (s.setGrp g x).prog j = s.prog j := rfl
@[simp] theorem State.setGrp_ring (s : State) (g : Nat) (x : Grp) (j : Nat) : (s.setGrp g x).ring j = s.ring j := rfl
@[simp] theorem State.setGrp_cq (s : State) (g : Nat) (x : Grp) (j : Nat) : (s.setGrp g x).cq j = s.cq j := rfl
@[simp] theorem State.setGrp_eq (s : State) (g : Nat) (x : Grp) (j : Nat) : (s.setGrp g x).eq j = s.eq j := rfl
@[simp] theorem State.setGrp_tenant (s : State) (g : Nat) (x : Grp) (j : BitVec 24) : (s.setGrp g x).tenant j = s.tenant j := rfl

/-! ## emit -/

@[simp] theorem State.emit_ctl (s : State) (o : Out) : (s.emit o).ctl = s.ctl := rfl
@[simp] theorem State.emit_ext (s : State) (o : Out) : (s.emit o).ext = s.ext := rfl
@[simp] theorem State.emit_gen (s : State) (o : Out) : (s.emit o).gen = s.gen := rfl
@[simp] theorem State.emit_persist (s : State) (o : Out) : (s.emit o).persist = s.persist := rfl
@[simp] theorem State.emit_jnl (s : State) (o : Out) : (s.emit o).jnl = s.jnl := rfl
@[simp] theorem State.emit_prm (s : State) (o : Out) : (s.emit o).prm = s.prm := rfl
@[simp] theorem State.emit_med (s : State) (o : Out) : (s.emit o).med = s.med := rfl
@[simp] theorem State.emit_tier (s : State) (o : Out) : (s.emit o).tier = s.tier := rfl
@[simp] theorem State.emit_ksk (s : State) (o : Out) : (s.emit o).ksk = s.ksk := rfl
@[simp] theorem State.emit_tst (s : State) (o : Out) : (s.emit o).tst = s.tst := rfl
@[simp] theorem State.emit_ports (s : State) (o : Out) : (s.emit o).ports = s.ports := rfl
@[simp] theorem State.emit_xpt (s : State) (o : Out) : (s.emit o).xpt = s.xpt := rfl
@[simp] theorem State.emit_cxl (s : State) (o : Out) : (s.emit o).cxl = s.cxl := rfl
@[simp] theorem State.emit_gth (s : State) (o : Out) : (s.emit o).gth = s.gth := rfl
@[simp] theorem State.emit_pwr (s : State) (o : Out) : (s.emit o).pwr = s.pwr := rfl
@[simp] theorem State.emit_sup (s : State) (o : Out) : (s.emit o).sup = s.sup := rfl
@[simp] theorem State.emit_fls (s : State) (o : Out) : (s.emit o).fls = s.fls := rfl
@[simp] theorem State.emit_twb (s : State) (o : Out) : (s.emit o).twb = s.twb := rfl
@[simp] theorem State.emit_sta (s : State) (o : Out) : (s.emit o).sta = s.sta := rfl
@[simp] theorem State.emit_jtag (s : State) (o : Out) : (s.emit o).jtag = s.jtag := rfl
@[simp] theorem State.emit_pins (s : State) (o : Out) : (s.emit o).pins = s.pins := rfl
@[simp] theorem State.emit_timeNs (s : State) (o : Out) : (s.emit o).timeNs = s.timeNs := rfl
@[simp] theorem State.emit_free (s : State) (o : Out) : (s.emit o).free = s.free := rfl
@[simp] theorem State.emit_pending (s : State) (o : Out) : (s.emit o).pending = s.pending := rfl
@[simp] theorem State.emit_fget (s : State) (o : Out) (q : Fld) : (s.emit o).fget q = s.fget q := rfl
@[simp] theorem State.emit_extent (s : State) (o : Out) (j : Nat) : (s.emit o).extent j = s.extent j := rfl
@[simp] theorem State.emit_genEntry (s : State) (o : Out) (j : Nat) : (s.emit o).genEntry j = s.genEntry j := rfl
@[simp] theorem State.emit_ctx (s : State) (o : Out) (j : Nat) : (s.emit o).ctx j = s.ctx j := rfl
@[simp] theorem State.emit_conn (s : State) (o : Out) (j : Nat) : (s.emit o).conn j = s.conn j := rfl
@[simp] theorem State.emit_ld (s : State) (o : Out) (j : Nat) : (s.emit o).ld j = s.ld j := rfl
@[simp] theorem State.emit_port (s : State) (o : Out) (j : Nat) : (s.emit o).port j = s.port j := rfl
@[simp] theorem State.emit_link (s : State) (o : Out) (j : Nat) : (s.emit o).link j = s.link j := rfl
@[simp] theorem State.emit_prog (s : State) (o : Out) (j : Nat) : (s.emit o).prog j = s.prog j := rfl
@[simp] theorem State.emit_ring (s : State) (o : Out) (j : Nat) : (s.emit o).ring j = s.ring j := rfl
@[simp] theorem State.emit_cq (s : State) (o : Out) (j : Nat) : (s.emit o).cq j = s.cq j := rfl
@[simp] theorem State.emit_eq (s : State) (o : Out) (j : Nat) : (s.emit o).eq j = s.eq j := rfl
@[simp] theorem State.emit_grp (s : State) (o : Out) (j : Nat) : (s.emit o).grp j = s.grp j := rfl
@[simp] theorem State.emit_tenant (s : State) (o : Out) (j : BitVec 24) : (s.emit o).tenant j = s.tenant j := rfl

/-! ## startDrain -/

@[simp] theorem State.startDrain_ctl (s : State) (u : DrainUnit) : (s.startDrain u).ctl = s.ctl := rfl
@[simp] theorem State.startDrain_ext (s : State) (u : DrainUnit) : (s.startDrain u).ext = s.ext := rfl
@[simp] theorem State.startDrain_gen (s : State) (u : DrainUnit) : (s.startDrain u).gen = s.gen := rfl
@[simp] theorem State.startDrain_persist (s : State) (u : DrainUnit) : (s.startDrain u).persist = s.persist := rfl
@[simp] theorem State.startDrain_jnl (s : State) (u : DrainUnit) : (s.startDrain u).jnl = s.jnl := rfl
@[simp] theorem State.startDrain_prm (s : State) (u : DrainUnit) : (s.startDrain u).prm = s.prm := rfl
@[simp] theorem State.startDrain_med (s : State) (u : DrainUnit) : (s.startDrain u).med = s.med := rfl
@[simp] theorem State.startDrain_tier (s : State) (u : DrainUnit) : (s.startDrain u).tier = s.tier := rfl
@[simp] theorem State.startDrain_ksk (s : State) (u : DrainUnit) : (s.startDrain u).ksk = s.ksk := rfl
@[simp] theorem State.startDrain_ports (s : State) (u : DrainUnit) : (s.startDrain u).ports = s.ports := rfl
@[simp] theorem State.startDrain_xpt (s : State) (u : DrainUnit) : (s.startDrain u).xpt = s.xpt := rfl
@[simp] theorem State.startDrain_cxl (s : State) (u : DrainUnit) : (s.startDrain u).cxl = s.cxl := rfl
@[simp] theorem State.startDrain_gth (s : State) (u : DrainUnit) : (s.startDrain u).gth = s.gth := rfl
@[simp] theorem State.startDrain_pwr (s : State) (u : DrainUnit) : (s.startDrain u).pwr = s.pwr := rfl
@[simp] theorem State.startDrain_sup (s : State) (u : DrainUnit) : (s.startDrain u).sup = s.sup := rfl
@[simp] theorem State.startDrain_fls (s : State) (u : DrainUnit) : (s.startDrain u).fls = s.fls := rfl
@[simp] theorem State.startDrain_twb (s : State) (u : DrainUnit) : (s.startDrain u).twb = s.twb := rfl
@[simp] theorem State.startDrain_sta (s : State) (u : DrainUnit) : (s.startDrain u).sta = s.sta := rfl
@[simp] theorem State.startDrain_jtag (s : State) (u : DrainUnit) : (s.startDrain u).jtag = s.jtag := rfl
@[simp] theorem State.startDrain_pins (s : State) (u : DrainUnit) : (s.startDrain u).pins = s.pins := rfl
@[simp] theorem State.startDrain_timeNs (s : State) (u : DrainUnit) : (s.startDrain u).timeNs = s.timeNs := rfl
@[simp] theorem State.startDrain_out (s : State) (u : DrainUnit) : (s.startDrain u).out = s.out := rfl
@[simp] theorem State.startDrain_xing (s : State) (u : DrainUnit) : (s.startDrain u).xing = s.xing := rfl
@[simp] theorem State.startDrain_free (s : State) (u : DrainUnit) : (s.startDrain u).free = s.free := rfl
@[simp] theorem State.startDrain_pending (s : State) (u : DrainUnit) : (s.startDrain u).pending = s.pending := rfl
@[simp] theorem State.startDrain_tst_ops (s : State) (u : DrainUnit) : (s.startDrain u).tst.ops = s.tst.ops := rfl
@[simp] theorem State.startDrain_fget (s : State) (u : DrainUnit) (q : Fld) : (s.startDrain u).fget q = s.fget q := rfl
@[simp] theorem State.startDrain_extent (s : State) (u : DrainUnit) (j : Nat) : (s.startDrain u).extent j = s.extent j := rfl
@[simp] theorem State.startDrain_genEntry (s : State) (u : DrainUnit) (j : Nat) : (s.startDrain u).genEntry j = s.genEntry j := rfl
@[simp] theorem State.startDrain_ctx (s : State) (u : DrainUnit) (j : Nat) : (s.startDrain u).ctx j = s.ctx j := rfl
@[simp] theorem State.startDrain_conn (s : State) (u : DrainUnit) (j : Nat) : (s.startDrain u).conn j = s.conn j := rfl
@[simp] theorem State.startDrain_ld (s : State) (u : DrainUnit) (j : Nat) : (s.startDrain u).ld j = s.ld j := rfl
@[simp] theorem State.startDrain_port (s : State) (u : DrainUnit) (j : Nat) : (s.startDrain u).port j = s.port j := rfl
@[simp] theorem State.startDrain_link (s : State) (u : DrainUnit) (j : Nat) : (s.startDrain u).link j = s.link j := rfl
@[simp] theorem State.startDrain_prog (s : State) (u : DrainUnit) (j : Nat) : (s.startDrain u).prog j = s.prog j := rfl
@[simp] theorem State.startDrain_ring (s : State) (u : DrainUnit) (j : Nat) : (s.startDrain u).ring j = s.ring j := rfl
@[simp] theorem State.startDrain_cq (s : State) (u : DrainUnit) (j : Nat) : (s.startDrain u).cq j = s.cq j := rfl
@[simp] theorem State.startDrain_eq (s : State) (u : DrainUnit) (j : Nat) : (s.startDrain u).eq j = s.eq j := rfl
@[simp] theorem State.startDrain_grp (s : State) (u : DrainUnit) (j : Nat) : (s.startDrain u).grp j = s.grp j := rfl
@[simp] theorem State.startDrain_tenant (s : State) (u : DrainUnit) (j : BitVec 24) : (s.startDrain u).tenant j = s.tenant j := rfl

/-! ## endDrain -/

@[simp] theorem State.endDrain_ctl (s : State) (u : DrainUnit) : (s.endDrain u).ctl = s.ctl := rfl
@[simp] theorem State.endDrain_ext (s : State) (u : DrainUnit) : (s.endDrain u).ext = s.ext := rfl
@[simp] theorem State.endDrain_gen (s : State) (u : DrainUnit) : (s.endDrain u).gen = s.gen := rfl
@[simp] theorem State.endDrain_persist (s : State) (u : DrainUnit) : (s.endDrain u).persist = s.persist := rfl
@[simp] theorem State.endDrain_jnl (s : State) (u : DrainUnit) : (s.endDrain u).jnl = s.jnl := rfl
@[simp] theorem State.endDrain_prm (s : State) (u : DrainUnit) : (s.endDrain u).prm = s.prm := rfl
@[simp] theorem State.endDrain_med (s : State) (u : DrainUnit) : (s.endDrain u).med = s.med := rfl
@[simp] theorem State.endDrain_tier (s : State) (u : DrainUnit) : (s.endDrain u).tier = s.tier := rfl
@[simp] theorem State.endDrain_ksk (s : State) (u : DrainUnit) : (s.endDrain u).ksk = s.ksk := rfl
@[simp] theorem State.endDrain_ports (s : State) (u : DrainUnit) : (s.endDrain u).ports = s.ports := rfl
@[simp] theorem State.endDrain_xpt (s : State) (u : DrainUnit) : (s.endDrain u).xpt = s.xpt := rfl
@[simp] theorem State.endDrain_cxl (s : State) (u : DrainUnit) : (s.endDrain u).cxl = s.cxl := rfl
@[simp] theorem State.endDrain_gth (s : State) (u : DrainUnit) : (s.endDrain u).gth = s.gth := rfl
@[simp] theorem State.endDrain_pwr (s : State) (u : DrainUnit) : (s.endDrain u).pwr = s.pwr := rfl
@[simp] theorem State.endDrain_sup (s : State) (u : DrainUnit) : (s.endDrain u).sup = s.sup := rfl
@[simp] theorem State.endDrain_fls (s : State) (u : DrainUnit) : (s.endDrain u).fls = s.fls := rfl
@[simp] theorem State.endDrain_twb (s : State) (u : DrainUnit) : (s.endDrain u).twb = s.twb := rfl
@[simp] theorem State.endDrain_sta (s : State) (u : DrainUnit) : (s.endDrain u).sta = s.sta := rfl
@[simp] theorem State.endDrain_jtag (s : State) (u : DrainUnit) : (s.endDrain u).jtag = s.jtag := rfl
@[simp] theorem State.endDrain_pins (s : State) (u : DrainUnit) : (s.endDrain u).pins = s.pins := rfl
@[simp] theorem State.endDrain_timeNs (s : State) (u : DrainUnit) : (s.endDrain u).timeNs = s.timeNs := rfl
@[simp] theorem State.endDrain_out (s : State) (u : DrainUnit) : (s.endDrain u).out = s.out := rfl
@[simp] theorem State.endDrain_xing (s : State) (u : DrainUnit) : (s.endDrain u).xing = s.xing := rfl
@[simp] theorem State.endDrain_free (s : State) (u : DrainUnit) : (s.endDrain u).free = s.free := rfl
@[simp] theorem State.endDrain_pending (s : State) (u : DrainUnit) : (s.endDrain u).pending = s.pending := rfl
@[simp] theorem State.endDrain_tst_ops (s : State) (u : DrainUnit) : (s.endDrain u).tst.ops = s.tst.ops := rfl
@[simp] theorem State.endDrain_fget (s : State) (u : DrainUnit) (q : Fld) : (s.endDrain u).fget q = s.fget q := rfl
@[simp] theorem State.endDrain_extent (s : State) (u : DrainUnit) (j : Nat) : (s.endDrain u).extent j = s.extent j := rfl
@[simp] theorem State.endDrain_genEntry (s : State) (u : DrainUnit) (j : Nat) : (s.endDrain u).genEntry j = s.genEntry j := rfl
@[simp] theorem State.endDrain_ctx (s : State) (u : DrainUnit) (j : Nat) : (s.endDrain u).ctx j = s.ctx j := rfl
@[simp] theorem State.endDrain_conn (s : State) (u : DrainUnit) (j : Nat) : (s.endDrain u).conn j = s.conn j := rfl
@[simp] theorem State.endDrain_ld (s : State) (u : DrainUnit) (j : Nat) : (s.endDrain u).ld j = s.ld j := rfl
@[simp] theorem State.endDrain_port (s : State) (u : DrainUnit) (j : Nat) : (s.endDrain u).port j = s.port j := rfl
@[simp] theorem State.endDrain_link (s : State) (u : DrainUnit) (j : Nat) : (s.endDrain u).link j = s.link j := rfl
@[simp] theorem State.endDrain_prog (s : State) (u : DrainUnit) (j : Nat) : (s.endDrain u).prog j = s.prog j := rfl
@[simp] theorem State.endDrain_ring (s : State) (u : DrainUnit) (j : Nat) : (s.endDrain u).ring j = s.ring j := rfl
@[simp] theorem State.endDrain_cq (s : State) (u : DrainUnit) (j : Nat) : (s.endDrain u).cq j = s.cq j := rfl
@[simp] theorem State.endDrain_eq (s : State) (u : DrainUnit) (j : Nat) : (s.endDrain u).eq j = s.eq j := rfl
@[simp] theorem State.endDrain_grp (s : State) (u : DrainUnit) (j : Nat) : (s.endDrain u).grp j = s.grp j := rfl
@[simp] theorem State.endDrain_tenant (s : State) (u : DrainUnit) (j : BitVec 24) : (s.endDrain u).tenant j = s.tenant j := rfl

/-! ## resetCtl -/

@[simp] theorem State.resetCtl_ext (s : State) (lo hi : Nat) : (s.resetCtl lo hi).ext = s.ext := rfl
@[simp] theorem State.resetCtl_gen (s : State) (lo hi : Nat) : (s.resetCtl lo hi).gen = s.gen := rfl
@[simp] theorem State.resetCtl_persist (s : State) (lo hi : Nat) : (s.resetCtl lo hi).persist = s.persist := rfl
@[simp] theorem State.resetCtl_jnl (s : State) (lo hi : Nat) : (s.resetCtl lo hi).jnl = s.jnl := rfl
@[simp] theorem State.resetCtl_prm (s : State) (lo hi : Nat) : (s.resetCtl lo hi).prm = s.prm := rfl
@[simp] theorem State.resetCtl_med (s : State) (lo hi : Nat) : (s.resetCtl lo hi).med = s.med := rfl
@[simp] theorem State.resetCtl_tier (s : State) (lo hi : Nat) : (s.resetCtl lo hi).tier = s.tier := rfl
@[simp] theorem State.resetCtl_ksk (s : State) (lo hi : Nat) : (s.resetCtl lo hi).ksk = s.ksk := rfl
@[simp] theorem State.resetCtl_tst (s : State) (lo hi : Nat) : (s.resetCtl lo hi).tst = s.tst := rfl
@[simp] theorem State.resetCtl_ports (s : State) (lo hi : Nat) : (s.resetCtl lo hi).ports = s.ports := rfl
@[simp] theorem State.resetCtl_xpt (s : State) (lo hi : Nat) : (s.resetCtl lo hi).xpt = s.xpt := rfl
@[simp] theorem State.resetCtl_cxl (s : State) (lo hi : Nat) : (s.resetCtl lo hi).cxl = s.cxl := rfl
@[simp] theorem State.resetCtl_gth (s : State) (lo hi : Nat) : (s.resetCtl lo hi).gth = s.gth := rfl
@[simp] theorem State.resetCtl_pwr (s : State) (lo hi : Nat) : (s.resetCtl lo hi).pwr = s.pwr := rfl
@[simp] theorem State.resetCtl_sup (s : State) (lo hi : Nat) : (s.resetCtl lo hi).sup = s.sup := rfl
@[simp] theorem State.resetCtl_fls (s : State) (lo hi : Nat) : (s.resetCtl lo hi).fls = s.fls := rfl
@[simp] theorem State.resetCtl_twb (s : State) (lo hi : Nat) : (s.resetCtl lo hi).twb = s.twb := rfl
@[simp] theorem State.resetCtl_sta (s : State) (lo hi : Nat) : (s.resetCtl lo hi).sta = s.sta := rfl
@[simp] theorem State.resetCtl_jtag (s : State) (lo hi : Nat) : (s.resetCtl lo hi).jtag = s.jtag := rfl
@[simp] theorem State.resetCtl_pins (s : State) (lo hi : Nat) : (s.resetCtl lo hi).pins = s.pins := rfl
@[simp] theorem State.resetCtl_timeNs (s : State) (lo hi : Nat) : (s.resetCtl lo hi).timeNs = s.timeNs := rfl
@[simp] theorem State.resetCtl_out (s : State) (lo hi : Nat) : (s.resetCtl lo hi).out = s.out := rfl
@[simp] theorem State.resetCtl_xing (s : State) (lo hi : Nat) : (s.resetCtl lo hi).xing = s.xing := rfl
@[simp] theorem State.resetCtl_free (s : State) (lo hi : Nat) : (s.resetCtl lo hi).free = s.free := rfl
@[simp] theorem State.resetCtl_extent (s : State) (lo hi : Nat) (j : Nat) : (s.resetCtl lo hi).extent j = s.extent j := rfl
@[simp] theorem State.resetCtl_genEntry (s : State) (lo hi : Nat) (j : Nat) : (s.resetCtl lo hi).genEntry j = s.genEntry j := rfl
@[simp] theorem State.resetCtl_ctx (s : State) (lo hi : Nat) (j : Nat) : (s.resetCtl lo hi).ctx j = s.ctx j := rfl
@[simp] theorem State.resetCtl_conn (s : State) (lo hi : Nat) (j : Nat) : (s.resetCtl lo hi).conn j = s.conn j := rfl
@[simp] theorem State.resetCtl_ld (s : State) (lo hi : Nat) (j : Nat) : (s.resetCtl lo hi).ld j = s.ld j := rfl
@[simp] theorem State.resetCtl_port (s : State) (lo hi : Nat) (j : Nat) : (s.resetCtl lo hi).port j = s.port j := rfl
@[simp] theorem State.resetCtl_link (s : State) (lo hi : Nat) (j : Nat) : (s.resetCtl lo hi).link j = s.link j := rfl
@[simp] theorem State.resetCtl_prog (s : State) (lo hi : Nat) (j : Nat) : (s.resetCtl lo hi).prog j = s.prog j := rfl
@[simp] theorem State.resetCtl_ring (s : State) (lo hi : Nat) (j : Nat) : (s.resetCtl lo hi).ring j = s.ring j := rfl
@[simp] theorem State.resetCtl_cq (s : State) (lo hi : Nat) (j : Nat) : (s.resetCtl lo hi).cq j = s.cq j := rfl
@[simp] theorem State.resetCtl_eq (s : State) (lo hi : Nat) (j : Nat) : (s.resetCtl lo hi).eq j = s.eq j := rfl
@[simp] theorem State.resetCtl_grp (s : State) (lo hi : Nat) (j : Nat) : (s.resetCtl lo hi).grp j = s.grp j := rfl
@[simp] theorem State.resetCtl_tenant (s : State) (lo hi : Nat) (j : BitVec 24) : (s.resetCtl lo hi).tenant j = s.tenant j := rfl

/-! ## Reading what was written -/

@[simp] theorem State.setExtent_extent_same (s : State) (e : Nat) (x : Ext) : (s.setExtent e x).extent e = x := AMap.get_set_same ..
theorem State.setExtent_extent_ne (s : State) (e : Nat) (x : Ext) (j : Nat) (h : e ≠ j) : (s.setExtent e x).extent j = s.extent j := AMap.get_set_ne _ _ _ _ (Ne.symm h)
@[simp] theorem State.setGen_genEntry_same (s : State) (k : Nat) (g : Gen) : (s.setGen k g).genEntry k = g := AMap.get_set_same ..
theorem State.setGen_genEntry_ne (s : State) (k : Nat) (g : Gen) (j : Nat) (h : k ≠ j) : (s.setGen k g).genEntry j = s.genEntry j := AMap.get_set_ne _ _ _ _ (Ne.symm h)
@[simp] theorem State.setCtx_ctx_same (s : State) (c : Nat) (x : CtxSt) : (s.setCtx c x).ctx c = x := AMap.get_set_same ..
theorem State.setCtx_ctx_ne (s : State) (c : Nat) (x : CtxSt) (j : Nat) (h : c ≠ j) : (s.setCtx c x).ctx j = s.ctx j := AMap.get_set_ne _ _ _ _ (Ne.symm h)
@[simp] theorem State.setConn_conn_same (s : State) (n : Nat) (x : Con) : (s.setConn n x).conn n = x := AMap.get_set_same ..
theorem State.setConn_conn_ne (s : State) (n : Nat) (x : Con) (j : Nat) (h : n ≠ j) : (s.setConn n x).conn j = s.conn j := AMap.get_set_ne _ _ _ _ (Ne.symm h)
@[simp] theorem State.setLd_ld_same (s : State) (l : Nat) (x : Ld) : (s.setLd l x).ld l = x := AMap.get_set_same ..
theorem State.setLd_ld_ne (s : State) (l : Nat) (x : Ld) (j : Nat) (h : l ≠ j) : (s.setLd l x).ld j = s.ld j := AMap.get_set_ne _ _ _ _ (Ne.symm h)
@[simp] theorem State.setPort_port_same (s : State) (p : Nat) (x : Port) : (s.setPort p x).port p = x := AMap.get_set_same ..
theorem State.setPort_port_ne (s : State) (p : Nat) (x : Port) (j : Nat) (h : p ≠ j) : (s.setPort p x).port j = s.port j := AMap.get_set_ne _ _ _ _ (Ne.symm h)
@[simp] theorem State.setLink_link_same (s : State) (l : Nat) (x : Link) : (s.setLink l x).link l = x := AMap.get_set_same ..
theorem State.setLink_link_ne (s : State) (l : Nat) (x : Link) (j : Nat) (h : l ≠ j) : (s.setLink l x).link j = s.link j := AMap.get_set_ne _ _ _ _ (Ne.symm h)
@[simp] theorem State.setProg_prog_same (s : State) (p : Nat) (x : Prog) : (s.setProg p x).prog p = x := AMap.get_set_same ..
theorem State.setProg_prog_ne (s : State) (p : Nat) (x : Prog) (j : Nat) (h : p ≠ j) : (s.setProg p x).prog j = s.prog j := AMap.get_set_ne _ _ _ _ (Ne.symm h)
@[simp] theorem State.setRing_ring_same (s : State) (i : Nat) (x : Ring) : (s.setRing i x).ring i = x := AMap.get_set_same ..
theorem State.setRing_ring_ne (s : State) (i : Nat) (x : Ring) (j : Nat) (h : i ≠ j) : (s.setRing i x).ring j = s.ring j := AMap.get_set_ne _ _ _ _ (Ne.symm h)
@[simp] theorem State.setCq_cq_same (s : State) (c : Nat) (x : Cq) : (s.setCq c x).cq c = x := AMap.get_set_same ..
theorem State.setCq_cq_ne (s : State) (c : Nat) (x : Cq) (j : Nat) (h : c ≠ j) : (s.setCq c x).cq j = s.cq j := AMap.get_set_ne _ _ _ _ (Ne.symm h)
@[simp] theorem State.setEq_eq_same (s : State) (k : Nat) (x : Eq) : (s.setEq k x).eq k = x := AMap.get_set_same ..
theorem State.setEq_eq_ne (s : State) (k : Nat) (x : Eq) (j : Nat) (h : k ≠ j) : (s.setEq k x).eq j = s.eq j := AMap.get_set_ne _ _ _ _ (Ne.symm h)
@[simp] theorem State.fset_fget_same (s : State) (f : Fld) (v : Nat) : (s.fset f v).fget f = v % 2 ^ f.wid := AMap.get_set_same ..
theorem State.fset_fget_ne (s : State) (f g : Fld) (v : Nat) (h : f.key ≠ g.key) : (s.fset f v).fget g = s.fget g := by
  unfold State.fget State.fset
  exact AMap.get_set_ne _ _ _ _ (Ne.symm h)
@[simp] theorem State.setGrp_grp_same (s : State) (g : Nat) (x : Grp) : (s.setGrp g x).grp g = x := by
  unfold State.setGrp State.grp; split <;> simp_all

/-! ## What is not at its reset value -/

theorem State.reset_fget (f : Fld) : State.reset.fget f = f.rst := rfl

end Sys2Proof.Machine
end

