-- ==== Sys2Proof/Laws/Aelo.lean ====
section
/-! SUPPORT. What issuing an Aelo instruction comes to: one lemma for a context that issues, one for a bad word, one for a guard that
reads 0. -/

namespace Sys2Proof.Machine

theorem State.issueAny_runs {s : State} {c : Ctx} {body : CtxSt → State} (h : s.Runs c) :
    s.issueAny c false body = body (s.counted c) := by
  obtain ⟨ht, hw, hi, hp, hn, hb⟩ := h
  unfold State.issueAny State.counted
  dsimp only
  have ht' : (s.ctx c.val).task.isNone = false := by cases e : (s.ctx c.val).task <;> simp_all
  rw [if_neg (by simp [ht', hw]), if_neg (by rintro ⟨h1, h2⟩; simp [hi h1] at h2), if_neg (by simp [hp]), if_neg (by simp [hn])]
  rw [if_neg (by
    rintro ⟨h1, h2, h3⟩
    rcases hb with e | e | e
    · simp [e] at h1
    · exact h2 e
    · exact e h3)]

theorem State.issue_runs {s : State} {c : Ctx} {gp : BitVec 3} {bad : Bool} {body : CtxSt → State} (h : s.Runs c)
    (hg : (s.ctx c.val).rp gp.toNat = true) (hb : bad = false) : s.issue c gp bad body = body (s.counted c) := by
  subst hb
  unfold State.issue
  rw [State.issueAny_runs h]
  have : (s.counted c).rp gp.toNat = true := by
    unfold State.counted CtxSt.rp at *
    dsimp only
    split <;> exact hg
  rw [if_pos this]

theorem State.issue_bad {s : State} {c : Ctx} {gp : BitVec 3} {bad : Bool} {body : CtxSt → State} (h : s.Runs c) (hb : bad = true) :
    s.issue c gp bad body = s.raise c .illegal := by
  subst hb
  obtain ⟨ht, hw, hi, hp, -⟩ := h
  unfold State.issue State.issueAny
  dsimp only
  have ht' : (s.ctx c.val).task.isNone = false := by cases e : (s.ctx c.val).task <;> simp_all
  rw [if_neg (by simp [ht', hw]), if_neg (by rintro ⟨h1, h2⟩; simp [hi h1] at h2), if_neg (by simp [hp]), if_pos (by simp)]

theorem State.issue_skips {s : State} {c : Ctx} {gp : BitVec 3} {bad : Bool} {body : CtxSt → State} (h : s.Runs c)
    (hg : (s.ctx c.val).rp gp.toNat = false) (hb : bad = false) :
    s.issue c gp bad body = s.setCtx c.val (s.counted c).after := by
  subst hb
  unfold State.issue
  rw [State.issueAny_runs h]
  have : (s.counted c).rp gp.toNat = false := by
    unfold State.counted CtxSt.rp at *
    dsimp only
    split <;> exact hg
  rw [if_neg (by simp [this])]
  rfl

theorem State.advance_eq (s : State) (c : Ctx) (x : CtxSt) : s.advance c x = s.setCtx c.val x.after := rfl
theorem State.jump_eq (s : State) (c : Ctx) (x : CtxSt) (pc : Word) : s.jump c x pc = s.setCtx c.val (x.goto pc) := rfl

@[simp] theorem State.counted_ra (s : State) (c : Ctx) (n : BitVec 5) : (s.counted c).ra n = (s.ctx c.val).ra n := by
  unfold State.counted; dsimp only; split <;> rfl
@[simp] theorem State.counted_task (s : State) (c : Ctx) : (s.counted c).task = (s.ctx c.val).task := by
  unfold State.counted; dsimp only; split <;> rfl
@[simp] theorem State.counted_ls (s : State) (c : Ctx) : (s.counted c).ls = (s.ctx c.val).ls := by
  unfold State.counted; dsimp only; split <;> rfl
@[simp] theorem State.counted_lsSize (s : State) (c : Ctx) : (s.counted c).lsSize = (s.ctx c.val).lsSize := by
  unfold State.counted; dsimp only; split <;> rfl
@[simp] theorem State.counted_inbox (s : State) (c : Ctx) : (s.counted c).inbox = (s.ctx c.val).inbox := by
  unfold State.counted; dsimp only; split <;> rfl
@[simp] theorem State.counted_wins (s : State) (c : Ctx) : (s.counted c).wins = (s.ctx c.val).wins := by
  unfold State.counted; dsimp only; split <;> rfl
@[simp] theorem State.counted_rg (s : State) (c : Ctx) (n : Nat) : (s.counted c).rg n = (s.ctx c.val).rg n := by
  unfold State.counted; dsimp only; split <;> rfl

/-- A meaning that is one issue whose body advances. -/
theorem does_of {i : Instr} {c : Ctx} {gp : BitVec 3} {f : State → CtxSt → CtxSt} {bad : Bool} (hb : bad = false)
    (h : ∀ s : State, s.Runs c → exec i s = .next (s.issue c gp bad fun x => s.advance c (f s x))) : Does i c gp f := by
  intro s hr hg
  rw [h s hr, State.issue_runs hr hg hb, State.advance_eq]

/-! ## Registers -/

@[simp] theorem CtxSt.wa_zero (x : CtxSt) (v : Word) : x.wa 0 v = x := rfl
@[simp] theorem CtxSt.ra_zero (x : CtxSt) : x.ra 0 = 0 := rfl
theorem CtxSt.ra_wa (x : CtxSt) (d e : BitVec 5) (v : Word) : (x.wa d v).ra e = if e = 0 then 0 else if e = d then v else x.ra e := by
  by_cases h0 : e = 0
  · rw [if_pos h0, h0]; rfl
  · rw [if_neg h0]
    by_cases h1 : d = 0
    · subst h1; rw [if_neg h0]; rfl
    · unfold CtxSt.wa
      rw [if_neg h1]
      unfold CtxSt.ra
      rw [if_neg h0, if_neg h0]
      by_cases h2 : e = d
      · subst h2; rw [if_pos rfl]; exact AMap.get_set_same ..
      · rw [if_neg h2]; exact AMap.get_set_ne _ _ _ _ fun h => h2 (BitVec.eq_of_toNat_eq h)

/-! ## Local-store accesses of a Kiosk (R246, R648) -/

/-- An aligned access inside the partition of a Kiosk's task leads into the local store. -/
theorem State.locate_ls {s : State} {c : Ctx} {x : CtxSt} {addr : Word} {n al off : Nat} (wr : Bool) (h : addr.toNat = off)
    (hc : c.val ≠ 4096) (h1 : off % al = 0) (h2 : off + n ≤ x.lsSize) (h3 : off < 2 ^ 32) : s.locate c x addr n al wr = .ok (.ls off) := by
  unfold State.locate
  simp only [h]
  have e1 : off / 2 ^ 32 % 16 = 0 := by omega
  have e2 : off % 2 ^ 32 = off := by omega
  have e3 : off / 2 ^ 36 = 0 := by omega
  rw [e1, e2, e3]
  simp [h1, hc, h2]

@[simp] theorem loadBytes_length (m : AMap Byte) (i n : Nat) : (loadBytes m i n).length = n := by simp [loadBytes]

/-- A read there brings the bytes and changes nothing. -/
theorem State.readAt_ls {s : State} {c : Ctx} {x : CtxSt} {addr : Word} {n al off : Nat} (h : addr.toNat = off)
    (hc : c.val ≠ 4096) (h1 : off % al = 0) (h2 : off + n ≤ x.lsSize) (h3 : off < 2 ^ 32) :
    s.readAt c x addr n al = (some (x, loadBytes x.ls off n), s) := by
  unfold State.readAt
  rw [State.locate_ls false h hc h1 h2 h3]
  rfl

/-- A write there changes the local store alone. -/
theorem State.writeAt_ls {s : State} {c : Ctx} {x : CtxSt} {addr : Word} {al off : Nat} {b : Bytes} (h : addr.toNat = off)
    (hc : c.val ≠ 4096) (h1 : off % al = 0) (h2 : off + b.length ≤ x.lsSize) (h3 : off < 2 ^ 32) :
    s.writeAt c x addr al b = (some { x with ls := storeBytes x.ls off b }, s) := by
  unfold State.writeAt
  rw [State.locate_ls true h hc h1 h2 h3]
  rfl

end Sys2Proof.Machine
end

