-- ==== Sys2Proof/Laws/Reports.lean ====
section
/-! SUPPORT. What reporting can change: completion records and events (R610 to R619) change the status unit's part of the state and its
registers, held results, work requests and outputs, and nothing else. One lemma for each operation of Machine/Report.lean. -/

namespace Sys2Proof.Machine

/-- `t` is `s` but for the status unit, the Turnstile's and the transport's lists, outputs and free values; of the control registers those
of the status unit alone differ. -/
structure Reports (s t : State) : Prop where
  same : t = { s with ctl := t.ctl, sta := t.sta, tst := t.tst, xpt := t.xpt, out := t.out, xing := t.xing, free := t.free }
  regs : ∀ f : Fld, f.key < 64 * 0x03080000 → t.fget f = s.fget f

theorem Reports.refl (s : State) : Reports s s := ⟨rfl, fun _ _ => rfl⟩

theorem Reports.trans {s t u : State} (a : Reports s t) (b : Reports t u) : Reports s u where
  same := by rw [b.same, a.same]
  regs f h := (b.regs f h).trans (a.regs f h)

theorem Reports.of_fold {α : Type} (f : State → α → State) (h : ∀ s x, Reports s (f s x)) (l : List α) (s : State) :
    Reports s (l.foldl f s) := by
  induction l generalizing s with
  | nil => exact Reports.refl s
  | cons x r ih => exact (h s x).trans (ih (f s x))

theorem Reports.ite {s a b : State} (c : Prop) [Decidable c] (ha : Reports s a) (hb : Reports s b) : Reports s (if c then a else b) := by
  split <;> assumption

theorem Reports.ksk {s t : State} (h : Reports s t) : t.ksk = s.ksk := by rw [h.same]
theorem Reports.ext {s t : State} (h : Reports s t) : t.ext = s.ext := by rw [h.same]
theorem Reports.gen {s t : State} (h : Reports s t) : t.gen = s.gen := by rw [h.same]
theorem Reports.persist {s t : State} (h : Reports s t) : t.persist = s.persist := by rw [h.same]
theorem Reports.jnl {s t : State} (h : Reports s t) : t.jnl = s.jnl := by rw [h.same]
theorem Reports.prm {s t : State} (h : Reports s t) : t.prm = s.prm := by rw [h.same]
theorem Reports.med {s t : State} (h : Reports s t) : t.med = s.med := by rw [h.same]
theorem Reports.tier {s t : State} (h : Reports s t) : t.tier = s.tier := by rw [h.same]
theorem Reports.ports {s t : State} (h : Reports s t) : t.ports = s.ports := by rw [h.same]
theorem Reports.cxl {s t : State} (h : Reports s t) : t.cxl = s.cxl := by rw [h.same]
theorem Reports.gth {s t : State} (h : Reports s t) : t.gth = s.gth := by rw [h.same]
theorem Reports.pwr {s t : State} (h : Reports s t) : t.pwr = s.pwr := by rw [h.same]
theorem Reports.sup {s t : State} (h : Reports s t) : t.sup = s.sup := by rw [h.same]
theorem Reports.fls {s t : State} (h : Reports s t) : t.fls = s.fls := by rw [h.same]
theorem Reports.twb {s t : State} (h : Reports s t) : t.twb = s.twb := by rw [h.same]
theorem Reports.jtag {s t : State} (h : Reports s t) : t.jtag = s.jtag := by rw [h.same]
theorem Reports.pins {s t : State} (h : Reports s t) : t.pins = s.pins := by rw [h.same]
theorem Reports.timeNs {s t : State} (h : Reports s t) : t.timeNs = s.timeNs := by rw [h.same]
theorem Reports.pending {s t : State} (h : Reports s t) : t.pending = s.pending := by rw [h.same]
theorem Reports.ctx {s t : State} (h : Reports s t) (c : Nat) : t.ctx c = s.ctx c := by unfold State.ctx; rw [h.ksk]
theorem Reports.prog {s t : State} (h : Reports s t) (p : Nat) : t.prog p = s.prog p := by unfold State.prog; rw [h.ksk]
theorem Reports.extent {s t : State} (h : Reports s t) (e : Nat) : t.extent e = s.extent e := by unfold State.extent; rw [h.ext]
theorem Reports.genEntry {s t : State} (h : Reports s t) (k : Nat) : t.genEntry k = s.genEntry k := by unfold State.genEntry; rw [h.gen]
theorem Reports.link {s t : State} (h : Reports s t) (l : Nat) : t.link l = s.link l := by unfold State.link; rw [h.med]
theorem Reports.port {s t : State} (h : Reports s t) (p : Nat) : t.port p = s.port p := by unfold State.port; rw [h.ports]
theorem Reports.ld {s t : State} (h : Reports s t) (l : Nat) : t.ld l = s.ld l := by unfold State.ld; rw [h.cxl]

/-- A field of the status unit is set. -/
theorem Reports.fset {s : State} {f : Fld} {v : Nat} (h : 0x03080000 ≤ f.off) : Reports s (s.fset f v) where
  same := rfl
  regs g hg := State.fset_fget_ne _ _ _ _ (by have : f.key = f.off * 64 + f.lo := rfl; omega)

theorem State.inc_reports (s : State) {f : Fld} (n : Nat) (h : 0x03080000 ≤ f.off) : Reports s (s.inc f n) := Reports.fset h
theorem State.dec_reports (s : State) {f : Fld} (n : Nat) (h : 0x03080000 ≤ f.off) : Reports s (s.dec f n) := Reports.fset h
theorem State.sat_reports (s : State) {f : Fld} (n : Nat) (h : 0x03080000 ≤ f.off) : Reports s (s.sat f n) := Reports.fset h

theorem State.emit_reports (s : State) (o : Out) : Reports s (s.emit o) := ⟨rfl, fun _ _ => rfl⟩
theorem State.setCq_reports (s : State) (c : Nat) (x : Cq) : Reports s (s.setCq c x) := ⟨rfl, fun _ _ => rfl⟩
theorem State.setEq_reports (s : State) (k : Nat) (x : Eq) : Reports s (s.setEq k x) := ⟨rfl, fun _ _ => rfl⟩
theorem State.setOp_reports (s : State) (k : Nat) (x : Op) : Reports s (s.setOp k x) := ⟨rfl, fun _ _ => rfl⟩
theorem State.drawWord_reports (s : State) : Reports s s.drawWord.2 := ⟨rfl, fun _ _ => rfl⟩
theorem State.openGates_reports (s : State) (p : Wr → Bool) : Reports s (s.openGates p) := ⟨rfl, fun _ _ => rfl⟩

theorem State.hostXfer_reports (s : State) (t addr : Nat) (b : Bytes) (n : Nat) : Reports s (s.hostXfer t addr b n) := by
  unfold State.hostXfer
  exact Reports.ite _ ((State.emit_reports s _).trans ⟨rfl, fun _ _ => rfl⟩) (State.emit_reports s _)

theorem State.oweResults_reports (s : State) (tag n : Nat) : Reports s (s.oweResults tag n) := by
  unfold State.oweResults
  split
  · exact Reports.refl s
  · exact State.setOp_reports s _ _

/-! ## Completion records -/

theorem State.cqState_reports (s : State) (c : Nat) : Reports s (s.cqState c) := by
  unfold State.cqState
  split
  · exact Reports.refl s
  · exact Reports.fset (by simp [R.STA_CQ0.STATE]; omega)

theorem State.cqWrite_reports (s : State) (c : Nat) : Reports s (s.cqWrite c) := by
  unfold State.cqWrite
  dsimp only
  split
  · exact Reports.refl s
  · split
    · exact (((State.setCq_reports s _ _).trans (State.hostXfer_reports _ _ _ _ _)).trans
        (State.inc_reports _ _ (by decide))).trans (State.dec_reports _ _ (by decide))
    · exact Reports.refl s

theorem State.cqFlush_reports (s : State) (c : Nat) : Reports s (s.cqFlush c) := by
  unfold State.cqFlush
  dsimp only
  refine Reports.trans ?_ (State.cqState_reports _ c)
  have h := Reports.of_fold (fun s (_ : Bytes) => s.cqWrite c) (fun s _ => State.cqWrite_reports s c) (s.cq c).waiting s
  split
  · exact h.trans (State.hostXfer_reports _ _ _ _ _)
  · exact h

theorem State.cqPush_reports (s : State) (c : Nat) (r : Bytes) : Reports s (s.cqPush c r) := by
  unfold State.cqPush
  exact ((State.setCq_reports s _ _).trans (State.inc_reports _ _ (by decide))).trans (State.cqFlush_reports _ c)

theorem State.produce_reports (s : State) (c : Nat) (ten : BitVec 24) (r : Bytes) (tag : Option Nat) : Reports s (s.produce c ten r tag) := by
  unfold State.produce
  split
  · exact State.sat_reports s _ (by decide)
  · have h : Reports s ((s.inc (R.STA_CQ3.COUNT c)).openGates fun w => w.gate == 2 && w.gateCq == c &&
        gateReached ((s.inc (R.STA_CQ3.COUNT c)).fget (R.STA_CQ3.COUNT c)) w.gateArg) :=
      (State.inc_reports s 1 (by simp [R.STA_CQ3.COUNT]; omega)).trans (State.openGates_reports _ _)
    dsimp only
    split
    · exact h.trans (State.sat_reports _ _ (by simp [R.STA_CQ3.LOST]; omega))
    · split
      · exact h.trans (State.cqPush_reports _ _ _)
      · refine h.trans ?_
        refine Reports.trans ?_ (State.cqState_reports _ c)
        cases tag with
        | none => exact ⟨rfl, fun _ _ => rfl⟩
        | some k => exact (State.oweResults_reports _ k 1).trans ⟨rfl, fun _ _ => rfl⟩

/-! ## Events -/

theorem State.eqRoom_reports (s : State) (k : Nat) : Reports s (s.eqRoom k).2 := by
  unfold State.eqRoom
  dsimp only
  split
  · exact Reports.refl s
  · split
    · exact Reports.refl s
    · exact ((State.hostXfer_reports s _ _ _ _).trans (State.drawWord_reports _)).trans (State.setEq_reports _ _ _)

theorem State.eqWrite_reports (s : State) (k code : Nat) (d : Bool) (a b : Nat) : Reports s (s.eqWrite k code d a b) := by
  unfold State.eqWrite
  exact (State.setEq_reports s _ _).trans (State.hostXfer_reports _ _ _ _ _)

theorem State.eqPost_reports (s : State) (k code : Nat) (d : Bool) (a b : Nat) : Reports s (s.eqPost k code d a b) := by
  unfold State.eqPost
  dsimp only
  have h := State.eqRoom_reports s k
  split
  · exact h.trans (State.setEq_reports _ _ _)
  · split
    · exact h.trans (State.eqWrite_reports _ _ _ _ _ _)
    · have h2 := (h.trans (State.eqWrite_reports _ k 0x0C01 false 0 ((s.eqRoom k).2.eq k).owed)).trans
        (State.setEq_reports _ k { ((s.eqRoom k).2.eqWrite k 0x0C01 false 0 ((s.eqRoom k).2.eq k).owed).eq k with owed := 0 })
      have h3 := h2.trans (State.eqRoom_reports _ k)
      split
      · exact h3.trans (State.eqWrite_reports _ _ _ _ _ _)
      · exact h3.trans (State.setEq_reports _ _ _)

theorem State.postTenant_reports (s : State) (t : BitVec 24) (code : Nat) (d : Bool) (a b : Nat) : Reports s (s.postTenant t code d a b) := by
  unfold State.postTenant
  split
  · exact State.sat_reports s _ (by decide)
  · exact State.eqPost_reports s _ _ _ _ _

theorem State.postD_reports (s : State) (code a b : Nat) : Reports s (s.postD code a b) := by
  unfold State.postD
  dsimp only
  refine Reports.trans ?_ (State.postTenant_reports _ _ _ _ _ _)
  refine Reports.trans ?_ (Reports.of_fold _ (fun s w => Reports.fset (by simp [R.STA_EVLOG.WORD]; omega)) _ _)
  have h : ∀ x : Sta, Reports s ({ s with sta := x } : State) := fun x => ⟨rfl, fun _ _ => rfl⟩
  exact (h _).trans (Reports.fset (f := R.STA_STAT.EVLOG_SEQ) (by decide))

theorem State.postT_reports (s : State) (t : BitVec 24) (code a b : Nat) : Reports s (s.postT t code a b) := State.postTenant_reports s _ _ _ _ _

theorem State.postTD_reports (s : State) (t : BitVec 24) (code a b : Nat) : Reports s (s.postTD t code a b) :=
  (State.postD_reports s _ _ _).trans (State.postT_reports _ _ _ _ _)

end Sys2Proof.Machine
end

