-- ==== Sys2Proof/Laws/Entries.lean ====
section
/-! SUPPORT. What taking and freeing a Turnstile entry can do (R323 to R330): the entry itself and the Turnstile's own registers. -/

namespace Sys2Proof.Machine

/-- `t` is `s` but for control registers of the Turnstile and the list of held entries. -/
structure Counts (s t : State) : Prop where
  same : t = { s with ctl := t.ctl, tst := t.tst }
  regs : ∀ f : Fld, f.key < 64 * 0x00400000 ∨ 64 * 0x00400300 ≤ f.key → t.fget f = s.fget f

theorem Counts.refl (s : State) : Counts s s := ⟨rfl, fun _ _ => rfl⟩

theorem Counts.trans {s t u : State} (a : Counts s t) (b : Counts t u) : Counts s u where
  same := by rw [b.same, a.same]
  regs f h := (b.regs f h).trans (a.regs f h)

/-- A register of the Turnstile is set. -/
theorem Counts.fset {s : State} {f : Fld} {v : Nat} (h : 0x00400000 ≤ f.off ∧ f.off * 64 + f.lo < 64 * 0x00400300) : Counts s (s.fset f v) where
  same := rfl
  regs g hg := State.fset_fget_ne _ _ _ _ (by have : f.key = f.off * 64 + f.lo := rfl; omega)

theorem State.setOps_counts (s : State) (x : Tst) : Counts s { s with tst := x } := ⟨rfl, fun _ _ => rfl⟩

/-- An entry is taken where the source is below its quota: the lowest free tag of its range holds the operation. -/
theorem State.takeEntry_some (s : State) (src : Src) (o : Op) (h : s.fget (R.TST_SRC_STAT.IN_USE src.num) < src.quota) :
    ∃ v, s.takeEntry src o = some (firstFree s.tst.ops src.base, v) ∧ Counts s v
      ∧ v.tst = { s.tst with ops := AMap.put s.tst.ops (firstFree s.tst.ops src.base) o } := by
  have hn : src.num ≤ 5 := by cases src <;> decide
  unfold State.takeEntry
  dsimp only
  rw [if_pos h]
  refine ⟨_, rfl, ?_, ?_⟩
  · have a := State.setOps_counts s { s.tst with ops := AMap.put s.tst.ops (firstFree s.tst.ops src.base) o }
    have up : ∀ {u : State} {f : Fld} (v : Nat), Counts s u → (0x00400000 ≤ f.off ∧ f.off * 64 + f.lo < 64 * 0x00400300) → Counts s (u.fset f v) :=
      fun v hu hf => hu.trans (Counts.fset hf)
    have b (u : State) (hu : Counts s u) : Counts s (((u.inc R.TST_STAT.IN_USE).inc (R.TST_SRC_STAT.IN_USE src.num)).peak
        (R.TST_SRC_STAT.HIGH_WATER src.num) (s.fget (R.TST_SRC_STAT.IN_USE src.num) + 1)) :=
      up _ (up _ (up _ hu (by decide)) (by simp [R.TST_SRC_STAT.IN_USE]; omega)) (by simp [R.TST_SRC_STAT.HIGH_WATER]; omega)
    split
    · exact up _ (up _ (b _ a) (by decide)) (by simp [R.TST_SRC_CNT.STALLS]; omega)
    · exact b _ a
  · split <;> rfl

theorem State.takeEntry_room {s : State} {src : Src} (o : Op) (h : s.HasRoom src) :
    s.takeEntry src o = some (s.newTag src, s.entered src o) := by
  obtain ⟨v, e, -⟩ := s.takeEntry_some src o h
  unfold State.entered
  rw [e]
  rfl

/-- What taking an entry changes: the entry, and the Turnstile's own registers. -/
theorem State.entered_counts {s : State} {src : Src} (o : Op) (h : s.HasRoom src) :
    Counts s (s.entered src o) ∧ (s.entered src o).tst = { s.tst with ops := AMap.put s.tst.ops (s.newTag src) o } := by
  obtain ⟨v, e, c⟩ := s.takeEntry_some src o h
  unfold State.entered
  rw [e]
  exact c

end Sys2Proof.Machine
end

