-- ==== Sys2Proof/Laws/Memory.lean ====
section
/-! SUPPORT. The laws of byte memories (local stores, scratchpads, the Belvedere's SRAM, staged bytes): the canonical form is kept, a store
reads back, and every other address reads as before. -/

namespace Sys2Proof.Machine

/-- Every store keeps the canonical form. -/
theorem storeBytes_wf (b : Bytes) (m : AMap Byte) (i : Nat) (h : Memory.wf m) : Memory.wf (storeBytes m i b) := by
  induction b generalizing m i with
  | nil => exact h
  | cons x r ih => exact ih _ _ (AMap.wf_set i x h)

/-- A store leaves what lies outside its bytes. -/
theorem storeBytes_outside (b : Bytes) (m : AMap Byte) (i a : Nat) (h : a < i ∨ i + b.length ≤ a) :
    AMap.get 0 (storeBytes m i b) a = AMap.get 0 m a := by
  induction b generalizing m i with
  | nil => rfl
  | cons x r ih =>
    simp only [List.length_cons] at h
    rw [storeBytes, ih _ _ (by omega), AMap.get_set_ne _ _ _ _ (by omega)]

/-- A stored byte reads back. -/
theorem storeBytes_inside (b : Bytes) (m : AMap Byte) (i k : Nat) (h : k < b.length) :
    AMap.get 0 (storeBytes m i b) (i + k) = b[k] := by
  induction b generalizing m i k with
  | nil => exact absurd h (Nat.not_lt_zero _)
  | cons x r ih =>
    rw [storeBytes]
    cases k with
    | zero => rw [storeBytes_outside _ _ _ _ (by omega)]; simp
    | succ k =>
      have := ih (AMap.set 0 m i x) (i + 1) k (by simpa using h)
      rw [show i + (k + 1) = i + 1 + k by omega, this]; rfl

end Sys2Proof.Machine
end

