-- ==== Sys2Proof/Tests/Slice0.lean ====
section
/-! SUPPORT. Smoke tests of the checks and of the decoder, worked examples of the manual, and for every statement with hypotheses a state and
operands that meet them (a witness for each kind of clause). -/

namespace Sys2Proof.Tests

open Sys2Proof.Machine

/-! ## Well-formedness: an ill-formed term for each check -/

theorem test_wf_tile_key : (Instr.hedgeTimer (2 ^ 37 + 268960770)).wf = false ∧ (Instr.hedgeTimer (2 ^ 37 + 268960769)).wf = true := by decide
theorem test_wf_tile_keys :
    ∀ i ∈ ([.retirementStart (2 ^ 38), .retirementComplete (2 ^ 38), .mediaFillComplete (2 ^ 38) .none, .repairTimeout (2 ^ 38), .repairRetry (2 ^ 38),
      .repairDeferredAccept (2 ^ 38), .copyOutEnd (2 ^ 38), .resyncTileInstall (2 ^ 38), .pinLoadTile (2 ^ 38), .combineWindowExpire 0 (2 ^ 38)] :
      List Instr), i.wf = false := by decide

/-- A tile of a stored copy is 4,160 bytes. -/
def copyOf (tag cipher : Nat) : StoredCopy := ⟨List.replicate tag 0, List.replicate cipher 0⟩
theorem test_wf_stored_copy : (copyOf 63 4096).wf = false ∧ (copyOf 64 4095).wf = false ∧ (copyOf 64 4096).wf = true
    ∧ (Instr.reanchorTile 0 (copyOf 0 0)).wf = false ∧ (Instr.reanchorTile (2 ^ 38) (copyOf 64 4096)).wf = false
    ∧ (Instr.genRootCheck [copyOf 0 0]).wf = false ∧ (Instr.forceSolo [copyOf 0 0]).wf = false := by
  simp [-List.reduceReplicate, Instr.wf, StoredCopy.wf, copyOf, tileKeyOk]
/-- A Promenade frame with a payload of n bytes. -/
def frameOf (n : Nat) : PrmFrame := ⟨0, true, true, false, 0, 0, 0, 0, List.replicate n 0, 0⟩
theorem test_wf_frame_length : (frameOf 4184).wf = true ∧ ∀ i ∈ ([.prmRecord (frameOf 4192), .rack (frameOf 4192), .forward (frameOf 4192),
    .fwdResp (frameOf 4192), .heartbeat (frameOf 4192), .repairReq (frameOf 4192), .repairData (frameOf 4192), .resyncMap (frameOf 4192),
    .resyncData (frameOf 4192), .nack (frameOf 4192), .rekey (frameOf 4192), .home (frameOf 4192), .idle (frameOf 4192)] : List Instr),
      i.wf = false := by
  simp [-List.reduceReplicate, Instr.wf, PrmFrame.wf, frameOf]
/-- A RoCE frame with a base transport header of n bytes. -/
def netOf (n : Nat) : NetFrame :=
  { fcsOk := true, len := 64, dstMac := 0, srcMac := 0, pcp := none, srcIp := 0, dstIp := 0, ce := false, udpPort := 4791, icrcOk := true
    bth := List.replicate n 0, body := [] }
theorem test_wf_roce : (Instr.roceFrame 0 (netOf 11)).wf = false ∧ (Instr.roceFrame 0 (netOf 12)).wf = true := by decide
/-- A connection request. -/
def reqOf (priv mtu : Nat) : CmReq := ⟨0x19640, List.replicate priv 0, 1, 0, mtu, 0, 0, 0⟩
theorem test_wf_cm_req : (Instr.cmReq 0 (reqOf 91 4096)).wf = false ∧ (Instr.cmReq 0 (reqOf 92 8192)).wf = false
    ∧ (Instr.cmReq 0 (reqOf 92 4096)).wf = true := by decide
theorem test_wf_recovery_image : (Instr.journalRecovery ⟨[(0, 0, List.replicate 299 0)]⟩).wf = false
    ∧ (Instr.journalRecovery ⟨[(0, 0, List.replicate 300 0)]⟩).wf = true ∧ (Instr.journalRecovery ⟨[]⟩).wf = true := by
  simp [-List.reduceReplicate, Instr.wf, RecoveryImage.wf]
theorem test_wf_lengths : (Instr.medDataFlit 0 [] [] [] []).wf = false ∧ (Instr.medRespFlit 0 [] [] []).wf = false
    ∧ (Instr.medReplayReq 0 []).wf = false ∧ (Instr.medIdleFlit 0 []).wf = false ∧ (Instr.ringFetchDone 0 0 true [[]]).wf = false
    ∧ (Instr.mctpSecuredMessage 0 0 []).wf = false ∧ (Instr.samplePreload []).wf = false := by decide

/-- A PAIRING frame is a frame. -/
theorem test_wf_pairing : (Instr.pairing (frameOf 4192) (.request 0)).wf = false := by
  simp [-List.reduceReplicate, Instr.wf, PrmFrame.wf, frameOf]

/-- No row of the table gives bits, so no word spells a command. -/
theorem test_no_word_spells_a_command : decodeTableWord 32 0x04000000 = none := by decide

/-! ## Worked examples of the manual -/

/-- R262: 0x80 times 0x03 is 0x9D. -/
theorem test_gf8_example : gf8 0x80 0x03 = 0x9D := by decide
/-- R259: division by zero, and the smallest number by -1. -/
theorem test_division_corners :
    (aluRows.filter (fun r => r.1 == 0x23)).map (fun r => r.2 5 0) = [0xFFFFFFFFFFFFFFFF]
    ∧ (aluRows.filter (fun r => r.1 == 0x24)).map (fun r => r.2 5 0) = [5]
    ∧ (aluRows.filter (fun r => r.1 == 0x25)).map (fun r => r.2 0x8000000000000000 0xFFFFFFFFFFFFFFFF) = [0x8000000000000000]
    ∧ (aluRows.filter (fun r => r.1 == 0x26)).map (fun r => r.2 0x8000000000000000 0xFFFFFFFFFFFFFFFF) = [0] := by decide
/-- R263: a byte 0x01 into a CRC-64 of 0 leaves the polynomial. -/
theorem test_crc64_step : crc64 0 [0x01] = 0x42F0E1EBA9EA3693 := by decide
/-- R263: a byte 0x80 into a reflected CRC-32C of 0 leaves the polynomial. -/
theorem test_crc32_step : crc32 0 [0x80] = 0x82F63B78 := by decide

/-! ## Witnesses: Aelo -/

/-- A task of tenant 7 in queue 0 and program 0. -/
def task0 : Task := { num := 5, queue := 0, tenant := 7, prog := 0, userTag := 0, insn := 0, tiles := 0, timeUs := 0, args := [] }
/-- Its context: 100 instructions left, 4,096 bytes of local store, and the given registers. -/
def ctxOf (a : List (Nat × Word)) : CtxSt := { task := some task0, insnLeft := 100, lsSize := 4096, a := a }
/-- A state whose Kiosk context 0 runs it; its image is of words 0x04000000, which is ADD a0, a0, a0. -/
def running (x : CtxSt) : State := (State.reset.setCtx 0 x).setProg 0 { img0 := (List.replicate 16 [0x00, 0x00, 0x00, 0x04]).flatten }
/-- The first context. -/
def c0 : Ctx := 0

/-- The context issues at its guard p0, which reads 1; its guard p1 reads 0. The rows and operands of the statements about ALU, compare,
predicate, immediate, vector, field, CRC and Keccak rows are any that their bounds admit. -/
theorem witness_AluAndPredicatesWriteTheirRow : (running (ctxOf [])).Runs c0 ∧ ((running (ctxOf [])).ctx 0).rp 0 = true ∧ aluRows.length = 27 := by
  decide
theorem witness_IntegerImmediatesWriteD : (running (ctxOf [(31, 2)])).Runs c0 ∧ ((running (ctxOf [])).ctx 0).rp 0 = true ∧ 63 < 64
    ∧ (65535#18).toNat < 65536 := by decide
theorem witness_SprReadsItsTable : (running (ctxOf [])).Runs c0 ∧ ((running (ctxOf [])).ctx 0).rp 0 = true
    ∧ ((running (ctxOf [])).ctx 0).task = some task0 ∧ c0.val ≠ 4096 := by decide
theorem witness_BranchesMoveThePc : (running (ctxOf [(1, 6)])).Runs c0 ∧ ((running (ctxOf [])).ctx 0).rp 0 = true := by decide
theorem witness_GuardsAndIllegalWords : (running (ctxOf [])).Runs c0 ∧ ((running (ctxOf [])).ctx 0).rp 1 = false := by decide
theorem witness_ValuWorksByElement : (running (ctxOf [])).Runs c0 ∧ ((running (ctxOf [])).ctx 0).rp 0 = true ∧ (15#5).toNat < 16 := by decide
theorem witness_VectorMovesFieldsAndHashes : (running (ctxOf [])).Runs c0 ∧ ((running (ctxOf [])).ctx 0).rp 0 = true ∧ (15#5).toNat < 16
    ∧ (7#5).toNat < 8 ∧ (12#5).toNat = 12 := by decide
/-- The last 8 and the last 64 bytes of the local store. -/
theorem witness_LocalStoreAccesses :
    let s := running (ctxOf [(1, 4088), (2, 4032)])
    s.Runs c0 ∧ (s.ctx 0).rp 0 = true ∧ ((s.ctx 0).ra 1 + (0#13).signExtend 64).toNat = 4088 ∧ 4088 + Size.bytes .b64 ≤ (s.ctx 0).lsSize
    ∧ ((s.ctx 0).ra 2 + 64 * (0#13).signExtend 64).toNat = 4032 ∧ 4032 + 64 ≤ (s.ctx 0).lsSize := by decide
/-- One access for each cause. -/
theorem witness_AccessesAreRefusedInOrder :
    let x : CtxSt := { ctxOf [(1, 4096)] with wins := [(0, .dpa 0 1 true)] }
    let s := running x
    s.locate c0 x 0x1000000000 8 8 false = .error .range ∧ s.locate c0 x 4 8 8 false = .error .align
    ∧ s.locate c0 x 4096 8 8 false = .error .range ∧ s.locate c0 x 4088 8 8 false = .ok (.ls 4088)
    ∧ s.locate c0 x 0x200000000 8 8 false = .error .unmapped ∧ s.locate c0 x 0x100000004 8 8 false = .error .align
    ∧ s.locate c0 x 0x100001000 8 8 false = .error .range ∧ s.locate c0 x 0x100000000 8 8 true = .error .readOnly
    ∧ s.locate c0 x 0x100000ff8 8 8 false = .ok (.dpa 4088)
    ∧ s.Runs c0 ∧ (s.ctx 0).rp 0 = true ∧ s.dbgOpen = false
    ∧ s.locate c0 (s.counted c0) ((s.ctx 0).ra 1 + (0#13).signExtend 64) 8 8 false = .error .range := by decide
/-- An extent of the task's tenant, and a scratchpad block of its. -/
theorem witness_WindowsMapAfterTheirChecks :
    let s := ((running (ctxOf [(1, 0x40000000), (2, 262144), (3, 1), (4, 7)])).setExtent 1 { state := .assigned, owner := 7 }).fset
      (R.ORG_SCR_OWNER.TENANT 1024) 7
    s.Runs c0 ∧ (s.ctx 0).rp 0 = true ∧ (s.ctx 0).task = some task0
    ∧ ((s.ctx 0).ra 1).toNat % 4096 = 0 ∧ ((s.ctx 0).ra 1).toNat % 2 ^ 30 + ((s.ctx 0).ra 2).toNat * 4096 ≤ 2 ^ 30
    ∧ (s.extent (((s.ctx 0).ra 1).toNat / 2 ^ 30)).state = .assigned ∧ task0.tenant = (s.extent (((s.ctx 0).ra 1).toNat / 2 ^ 30)).owner
    ∧ ((s.ctx 0).ra 4).toNat % 4096 ≠ 0 ∧ (s.extent 0).state ≠ .assigned
    ∧ s.fget (R.ORG_SCR_OWNER.TENANT (0x40000000 / 2 ^ 20 + 0)) = task0.tenant.toNat := by decide
/-- A plan of one entry that is good, one whose bytes are zeros, and an n of 0. -/
theorem witness_WalkPlansBeginAndEnd :
    let s := running (ctxOf [(1, 64)])
    s.Runs c0 ∧ (s.ctx 0).rp 0 = true ∧ (s.ctx 0).task = some task0 ∧ ((s.ctx 0).ra 1).toNat = 64 ∧ 64 + 32 ≤ (s.ctx 0).lsSize
    ∧ (s.ctx 0).lsSize ≤ 65536 ∧ fieldAt (loadBytes (s.ctx 0).ls 64 32) 4 2 = 0 ∧ parsePlan (List.replicate 48 0) 7 0 = none := by decide
theorem witness_JournalInstructionsStageDropAndFence :
    let s := running (ctxOf [(1, 2048), (2, 2048), (3, 65537)])
    s.Runs c0 ∧ (s.ctx 0).rp 0 = true ∧ ((s.ctx 0).ra 4).toNat = 0 ∧ 65536 < ((s.ctx 0).ra 3).toNat
    ∧ 0 + ((s.ctx 0).ra 2).toNat ≤ (s.counted c0).lsSize ∧ ((s.ctx 0).ra 1).toNat + ((s.ctx 0).ra 2).toNat ≤ (s.counted c0).lsSize
    ∧ (s.counted c0).lsSize ≤ 2 ^ 32 := by decide
/-- A scratchpad window on a block of the tenant, and a device window on an extent of its. -/
theorem witness_AtomicsExchangeOnce :
    let x : CtxSt := { ctxOf [(1, 0x100000000), (2, 0x200000000), (3, 8)] with wins := [(0, .scratch 0 1), (1, .dpa 0 1 false)], tilesLeft := 4 }
    let s := ((running x).setExtent 0 { state := .assigned, owner := 7 }).fset (R.ORG_SCR_OWNER.TENANT 0) 7
    s.Runs c0 ∧ (s.ctx 0).rp 0 = true ∧ (s.ctx 0).task = some task0
    ∧ s.locate c0 (s.counted c0) ((s.counted c0).ra 1) 8 8 true = .ok (.scr 0)
    ∧ s.locate c0 (s.counted c0) ((s.counted c0).ra 1) 16 16 true = .ok (.scr 0)
    ∧ s.locate c0 (s.counted c0) ((s.counted c0).ra 2) 8 8 true = .ok (.dpa 0)
    ∧ s.locate c0 (s.counted c0) ((s.counted c0).ra 3) 8 8 true = .ok (.ls 8)
    ∧ s.extentCheck (s.counted c0) 0 true = none ∧ ((s.counted c0).touch 0).isSome = true := by decide
theorem witness_GatesCountAndWait :
    let s := running (ctxOf [(1, 1)])
    let w := running { ctxOf [] with wait := .gate 3 0 2 }
    s.Runs c0 ∧ (s.ctx 0).rp 0 = true ∧ ((s.counted c0).ra 0).toNat ≤ ((s.counted c0).rg 3).toNat
    ∧ ((s.counted c0).rg 3).toNat < ((s.counted c0).ra 1).toNat ∧ (w.ctx 0).wait = .gate 3 0 2 := by decide
/-- A message of tag 9 for the context, a task 6 of the same tenant in context 1, and none of number 8; a parent without children. -/
theorem witness_MessagesAndChildren :
    let x : CtxSt := { ctxOf [(1, 9), (2, 6), (3, 8), (4, 4)] with inbox := [0x900000001] }
    let s := (running x).setCtx 1 { ctxOf [] with task := some { task0 with num := 6 }, held := [5] }
    s.Runs c0 ∧ (s.ctx 0).rp 0 = true ∧ (s.counted c0).inbox = [] ++ (0x900000001 : Word) :: []
    ∧ s.ctxOfTask ((s.counted c0).ra 2).toNat = some 1 ∧ (s.ctx 1).task.map (·.tenant) = (s.counted c0).task.map (·.tenant)
    ∧ (s.ctx 1).inbox.length < inboxSize ∧ s.ctxOfTask ((s.counted c0).ra 3).toNat = none ∧ (s.ctx 1).held = 5 :: []
    ∧ (s.ctx 0).task = some task0 ∧ 0 + 128 ≤ (s.ctx 0).lsSize ∧ (s.counted c0).children < 16 := by decide
theorem witness_TasksEndAndFreeTheirContext :
    let s := running (ctxOf [])
    s.Runs c0 ∧ (s.ctx 0).task = some task0 ∧ task0.parent = none
    ∧ ((running { ctxOf [] with insnLeft := 0 }).ctx 0).insnLeft = 0 ∧ ((running { ctxOf [] with insnLeft := 0 }).ctx 0).charged = false := by decide
/-- Nothing staged, one byte staged in an extent at home here, and one in an extent whose home is the twin. -/
theorem witness_CommitFormsOneRecord :
    let s := running (ctxOf [])
    let w := running { ctxOf [] with staged := [(0, 1)] }
    s.Runs c0 ∧ (s.counted c0).staged = [] ∧ w.Runs c0 ∧ (w.counted c0).staged ≠ [] ∧ commitTooLarge (w.counted c0) = false
    ∧ w.homeHere 0 = true
    ∧ (w.fset R.PRM_STAT.STATE 2).homeHere 0 = false := by decide
/-- Call blocks of zeros (no purpose), of length 0, and good ones of 16 bytes for XTS, CMAC and GCM. -/
theorem witness_CipherCallsWriteTheirResult :
    let blk := fun (p len : Nat) => natLe 1 p ++ List.replicate 11 (0 : Byte) ++ natLe 4 len ++ natLe 8 64 ++ natLe 8 128 ++ List.replicate 32 (0 : Byte)
    let s := running (ctxOf [])
    let w := running { ctxOf [] with ls := storeBytes [] 0 (blk 0x11 16) }
    s.Runs c0 ∧ (s.ctx 0).task = some task0 ∧ ((s.ctx 0).ra 0).toNat = 0 ∧ 0 + 64 ≤ (s.ctx 0).lsSize ∧ s.dbgOpen = false
    ∧ CiphFn.xtsEnc.purposes.contains (fieldAt (loadBytes (s.ctx 0).ls 0 64) 0 1) = false
    ∧ w.Runs c0 ∧ CiphFn.xtsEnc.purposes.contains (fieldAt (loadBytes (w.ctx 0).ls 0 64) 0 1) = true
    ∧ ciphBad .xtsEnc (loadBytes (w.ctx 0).ls 0 64) = false ∧ fieldAt (loadBytes (w.ctx 0).ls 0 64) 16 8 + 16 ≤ (w.ctx 0).lsSize
    ∧ fieldAt (loadBytes (w.ctx 0).ls 0 64) 24 8 + 16 ≤ (w.ctx 0).lsSize
    ∧ ciphBad .cmac (blk 0x12 16) = false ∧ CiphFn.cmac.purposes.contains 0x12 = true
    ∧ ciphBad .gcmEnc (blk 0x10 16) = false ∧ CiphFn.gcmDec.purposes.contains 0x10 = true ∧ ciphBad .cmac (blk 0x12 0) = true := by decide

/-! ## Witnesses: tasks and programs -/

/-- Queue 0 of Square 0 with one task in the pool and its program loaded and ACTIVE. -/
def queued : State :=
  let s := (((State.reset.fset (R.KSK_QSTAT.STATE 0) 1).fset (R.KSK_PROG0.STATE 0) 2).fset (R.KSK_PROG0.OWNER 0) 7).fset (R.KSK_QCFG0.WEIGHT 0) 1
  { s with ksk := { s.ksk with pool := [task0] } }
theorem witness_TasksStartWithTheirArguments :
    queued.pickQueue 0 = some (0, 1) ∧ (queued.startable 0 0).isSome = true ∧ queued.fget (R.TST_SRC_STAT.IN_USE 3) < 49152
    ∧ queued.fget (R.KSK_PROG0.OWNER 0) = task0.tenant.toNat
    ∧ (let s : State := { State.reset.fset R.SUP_BOOT_STAT.STATE 2 with ksk := { mgmt := [(task0, .rdma 0)] } }
       s.fget R.SUP_BOOT_STAT.STATE = 2 ∧ (s.ctx 4096).task = none ∧ s.ksk.mgmtWait = none ∧ s.ksk.mgmt = (task0, .rdma 0) :: []
       ∧ (s.progFlags task0.prog).any (fun f => f.testBit 1) = false) := by decide
/-- A LOAD of an empty image that waits for old-image tasks, and one that is complete. -/
def loadJob (waiting : Bool) (crc : Word) : LoadJob := { task := task0, tag := 3, dpa := 0, len := 0, crc := crc, waiting := waiting, back := 0 }
theorem witness_ProgramsAndQueuesGoOn :
    let s := (State.reset.fset (R.KSK_PROG0.OWNER 0) 7).setProg 0 { job := some (loadJob true 0) }
    let l : State := { State.reset.fset (R.KSK_PROG0.OWNER 0) 7 with ksk := { loads := [(task0, 0, 0, 0)], cancels := [(0, 5, task0)], pool := [task0] } }
    (s.prog 0).job = some (loadJob true 0) ∧ s.fget (R.KSK_PROG1.RUN_OLD 0) = 0 ∧ (loadJob true 0).status = none
    ∧ (loadJob true 0).len ≤ (loadJob true 0).got.length ∧ crc64 0 (loadJob false 0).got = 0 ∧ crc64 0 (loadJob false 1).got ≠ 1
    ∧ s.fget (R.KSK_PROG0.STATE 0) ≠ 2 ∧ (s.fset (R.KSK_PROG0.STATE 0) 4).fget (R.KSK_PROG0.STATE 0) = 4
    ∧ l.ksk.loads.find? (fun l => l.1.prog == 0) = some (task0, 0, 0, 0) ∧ (l.prog 0).job = none
    ∧ l.fget (R.KSK_PROG0.OWNER 0) = task0.tenant.toNat ∧ (l.takeEntry .tasks { kind := .load 0 }).isSome = true
    ∧ State.reset.fget (R.KSK_PROG0.OWNER 0) ≠ task0.tenant.toNat
    ∧ l.ksk.cancels.find? (fun c => c.1 == 0) = some (0, 5, task0)
    ∧ l.ksk.pool.find? (fun v => v.num == 5 && v.queue == 0) = some task0 ∧ State.reset.ctxOfTask 5 = none
    ∧ queued.fget (R.KSK_QSTAT.STATE 0) = 1 ∧ State.reset.fget (R.KSK_KIOSK_STAT.STATE 511) = 0
    ∧ (State.reset.fset (R.KSK_KIOSK_STAT.STATE 511) 2).fget (R.KSK_KIOSK_STAT.STATE 511) = 2
    ∧ (State.reset.fset (R.KSK_KIOSK_STAT.CTX_BUSY 0) 1).fget (R.KSK_KIOSK_STAT.CTX_BUSY 0) ≠ 0 := by decide

/-! ## Witnesses: the journal -/

/-- An attribute record of the device itself. -/
def rec0 : Rec := { id := 3, body := .attr (.freed 1), mirror := true, tenant := 0, origin := 6, owner := .engine }
/-- A journal that runs, with the record in the given lists. -/
def journal (j : Jnl) : State := { (State.reset.fset R.JNL_STAT.STATE 2).fset R.SUP_START_STAT.SERVING 1 with jnl := j }
theorem witness_RecordsAreAdmittedInOrder :
    let s := journal { formed := [rec0] }
    let w := journal { waiting := [rec0] }
    let r := journal { reserved := [rec0] }
    let x : Rec := { rec0 with body := .data [], owner := .ops [], readSet := [(5, ⟨1, 1⟩)] }
    s.jnl.formed.find? (fun q => q.id == 3) = some rec0 ∧ s.jnl.closed = false ∧ s.jnlState = 2 ∧ s.awayFrom rec0 = false
    ∧ s.recCheck rec0 ≠ none ∧ rec0.twin = false
    ∧ (journal { formed := [rec0], closed := true }).jnl.closed = true
    ∧ w.jnl.waiting.find? (fun q => q.id == 3) = some rec0 ∧ w.spaceFor rec0.body = true ∧ w.indexFor rec0.body = true ∧ w.jnl.lagPaused = false
    ∧ r.jnl.reserved.find? (fun q => q.id == 3) = some rec0 ∧ r.recCheck x = none ∧ r.readSetOk [] = true ∧ r.readSetOk x.readSet = false
    ∧ (∃ q ∈ [{ rec0 with twin := true, pairSeq := 1 }], q.twin = true ∧ q.pairSeq < 2) ∧ (State.reset.ctx 4096).task = none := by decide
/-- A fence of GPF that is reached, an extent in RECLAIMING without an operation, a retirement without an outstanding lane. -/
theorem witness_LagFencesAndRetirement :
    let f : Fence := { id := 4, jsn := 0, owner := .gpf 0 }
    let s := (journal { fences := [f], recs := [rec0], root := some (1, 2, 3), rootDue := true }).setExtent 1 { state := .reclaiming, owner := 7 }
    let u : Retire := { tile := 9, jsn := 0, tag := 0, ver := ⟨0, 0⟩, reading := false }
    s.jnl.unacked = [] ∧ s.jnl.fences.find? (fun q => q.id == 4) = some f ∧ s.fenceReached f = true ∧ f.owner = .gpf 0
    ∧ s.jnlOpen = true ∧ s.homeHere 1 = true ∧ s.prmState ≠ 4 ∧ (s.extent 1).state = .reclaiming ∧ s.extentBusy 1 = false
    ∧ (journal {}).spaceFor (.attr (.freed 1)) = true ∧ (s.extent 2).state ≠ .reclaiming
    ∧ s.jnl.recs = [] ++ rec0 :: [] ∧ rec0.body = .attr (.freed 1) ∧ s.jnl.root = some (1, 2, 3) ∧ s.jnl.rootDue = true ∧ s.fls.fenced = false
    ∧ s.retireTurn 0 = false ∧ u.lanes = [] ∧ (journal { retiring := [u] }).retireOf 9 = some u := by decide
/-- A drain with its codewords acknowledged; recovery without an image, with one and no shutdown record; the root check's phase. -/
theorem witness_DrainAndRecovery :
    let s := { State.reset.fset R.JNL_STAT.STATE 3 with jnl := { drain := some {} } }
    let w := (State.reset.fset R.JNL_STAT.STATE 1).fset R.SUP_START_STAT.PHASE 4
    s.jnlState = 3 ∧ s.jnl.drain.isSome = true ∧ s.drainCmds = [] ∧ State.reset.jnlState ≠ 3 ∧ w.jnlState = 1
    ∧ w.fget R.SUP_START_STAT.PHASE = 4 ∧ w.med.mtLoaded = false ∧ w.flashRoot = none ∧ w.hasWrap = false ∧ bestShut [] = none
    ∧ (w.fset R.SUP_START_STAT.PHASE 5).fget R.SUP_START_STAT.PHASE = 5 := by decide
/-- A fetch with codeword 0 missing, repairs in each step, and a frame that is being copied. -/
theorem witness_FetchesAndRepairsGoOn :
    let f : Fetch := { tile := 9, issued := [0, 15] }
    let r : RepairStep → Repair := fun k => { tile := 9, step := k }
    let s : RepairStep → State := fun k => { State.reset with
      med := { fetch := [f] }, prm := { repairs := [r k] }
      tier := { dir := [(9, { state := .moving 2 true, ver := ⟨0, 0⟩, seal64 := 0, bytes := [] })] } }
    (s .asked).fetchOf 9 = some f ∧ 0 < (f.issued.filter (fun i => !(f.got.any fun g => g.1 == i))).length ∧ (∀ i ∈ f.issued, i < 16)
    ∧ f.held = false ∧ f.hedged = false ∧ f.repairing = false
    ∧ (s .queued).prm.repairs.find? (fun q => q.tile == 9) = some (r .queued) ∧ RepairStep.asked ≠ .queued
    ∧ (s (.again 1)).prm.repairs.find? (fun q => q.tile == 9) = some (r (.again 1)) ∧ (s (.again 1)).fget R.JNL_MIRROR_JSN.JSN < 1
    ∧ 0 ≤ (s (.again 0)).fget R.JNL_MIRROR_JSN.JSN ∧ ((s (.deferred [] ⟨0, 0⟩)).liveVer 9).lt ⟨0, 1⟩ = true
    ∧ ((s (.deferred [] ⟨0, 0⟩)).liveVer 9).lt ⟨0, 0⟩ = false
    ∧ ((s .asked).frame 9).map (·.state) = some (.moving 2 true) ∧ (s .asked).clsOf 9 = .normal ∧ ((s .asked).clsOf 9).caches = true := by decide

/-! ## Witnesses: the Promenade -/

/-- A paired device whose group A is up. -/
def paired : State :=
  let s := ((State.reset.fset R.PRM_STAT.STATE 2).fset R.PRM_STAT.GRP_A_UP 1).fset R.JNL_STAT.STATE 2
  { s with prm := { secret := some 5 } }
/-- Every wave has come, and rails r and r + 1 are up. -/
def railsOn (s : State) (r : Nat) : State :=
  ((s.fset R.PWR_STAT.WAVE 24).fset (R.PWR_RAIL_STAT.STATE r) 2).fset (R.PWR_RAIL_STAT.STATE (r + 1)) 2
/-- A frame resent less often than RETRIES, resync sides with and without work, pairing before and after. -/
theorem witness_LinksResyncAndPairing :
    let f : TxFrame := { typ := 1, fsn := 0, last := true, payload := [], sends := 3 }
    let s := paired.setGrp 0 { rtx := [f] }
    let x : ResyncTile := { tile := 9, tag := 0, ver := ⟨0, 0⟩, readSeq := 1, status := .ok, zero := true, bytes := [], seal64 := 0 }
    let r : Resync := { source := false, all := true, got := [x], granules := [2] }
    let t : State := { paired.fset R.PRM_STAT.STATE 6 with prm := { resync := some r, seqHigh := 1 } }
    let v : State := { paired.fset R.PRM_STAT.STATE 5 with prm := { resync := some r } }
    let o : State := { paired.fset R.PRM_STAT.STATE 3 with prm := { secret := some 5 } }
    let z : State := { State.reset with prm := { forced := true, lost := true, secret := some 5 }, gen := [(9, { zero := false })] }
    s.grpUp 0 = true ∧ (s.grp 0).rtx = f :: [] ∧ f.sends < s.fget R.PRM_LINK_CTL.RETRIES ∧ s.fget R.PRM_LINK_CTL.RETRIES ≤ f.sends + 1
    ∧ (s.grp 1).rtx = [] ∧ s.prm.secret.isSome = true ∧ s.fget R.TER_STAT.STATE ≠ 3 ∧ s.jnlState ≠ 4 ∧ s.grpUp 1 = false
    ∧ (railsOn s 18).groupOn 5 = true ∧ s.jnlState = 2 ∧ State.reset.jnlState = 0
    ∧ t.prmState = 6 ∧ t.prm.resync = some r ∧ r.got.find? (fun y => y.tile == 9) = some x ∧ x.readSeq ≤ t.prm.seqHigh ∧ t.retireOf 9 = none
    ∧ v.prmState = 5 ∧ v.flag R.PRM_RESYNC_CTL.PAUSE = false ∧ r.next < 15 ∧ (v.takeEntry .maint { kind := .maint 32 }).isSome = true
    ∧ (v.genEntry 32).zero = true ∧ v.pendingFor 32 = []
    ∧ State.reset.dbgOpen = false ∧ State.reset.assignedExts = [] ∧ State.reset.prmState = 0
    ∧ o.prmState = 3 ∧ o.prm.replacing = false ∧ o.prm.pairInc ≠ 0xFFFF ∧ o.prm.lost = false ∧ o.prm.stale = false
    ∧ (z.fset R.SUP_START_STAT.PHASE 6).sendGrp = none ∧ z.prm.anchored.contains 9 = false ∧ (z.genEntry 9).zero = false ∧ isSys 9 = false
    ∧ (paired.fset R.PRM_STAT.STATE 1).linked = false ∧ (paired.fset R.PRM_STAT.STATE 1).sendGrp.isSome = true ∧ paired.linked = true := by decide

/-! ## Witnesses: media, tiers, the turnstile -/

/-- Lane 0 in service. -/
def served (m : Med) : State := { State.reset.fset (R.MED_LANE_STAT.STATE 0) 2 with med := m }
theorem witness_FlitsAreTakenInOrder :
    let c : Cmd := { opcode := 1, slot := 0, count := 1, owner := .system }
    let s := served { cmds := [(0, c)] }
    let k := served { links := [(0, { sent := [{ ftype := 1 }] })] }
    s.laneHears 0 = true ∧ (0 : BitVec 12) = (s.link 0).lastGood + 1 ∧ (1 : BitVec 12) ≠ (s.link 0).lastGood + 1
    ∧ AMap.find? ((s.setLink 0 { s.link 0 with lastGood := 0 }).flitAck 0 0xFFF).med.cmds (0 * 128 + 0) = some c ∧ c.opcode = 1 ∧ 0 = c.data
    ∧ c.data < c.count ∧ (1 : Nat) ≠ c.data ∧ k.laneHears 0 = true ∧ ((k.flitAck 0 0xFFF).link 0).sent ≠ []
    ∧ ((k.flitAck 0 0xFFF).link 0).replays < (k.flitAck 0 0xFFF).fget R.MED_LINK_CTL.REPLAYS := by decide
theorem witness_LanesAndRebuilds :
    let k := fun (st : Stage) => served { links := [(0, { stage := st })] }
    let r : Rebuild := { extents := [0], system := false, todo := [9] }
    let s := ((served { rebuild := [(0, r)] }).fset R.JNL_STAT.STATE 2).fset R.MED_SWEEP_CTL.ENABLE 1
    ((k .detect).link 0).stage = .detect ∧ ((k .identify).link 0).stage = .identify ∧ ((k .identify).link 0).quick = false
    ∧ (k .identify).wrongSerial 0 ⟨1, 5, 19595788288⟩ = false ∧ 19595788288 ≤ (19595788288 : Word).toNat ∧ ((k .test).link 0).stage = .test
    ∧ AMap.find? s.med.cmds 0 = none ∧ (AMap.find? (served { cmds := [(0, ⟨1, 0, 1, 0, .system, []⟩)] }).med.cmds 0).isSome = true
    ∧ s.laneState 0 = 2 ∧ (s.fset (R.MED_LANE_STAT.STATE 0) 4).laneState 0 = 4 ∧ (railsOn s 24).groupOn 8 = true
    ∧ State.reset.laneState 127 = 0 ∧ State.reset.med.mtLoaded = false ∧ State.reset.streetsTrained = false
    ∧ AMap.find? s.med.rebuild 0 = some r ∧ r.todo = 9 :: [] ∧ s.flag R.MED_REBUILD_CTL.PAUSE = false ∧ s.storedKeys.contains 9 = false
    ∧ s.flag R.MED_SWEEP_CTL.ENABLE = true ∧ s.jnlState = 2 ∧ s.storedKeys.contains (sysBase + lvl3) = true
    ∧ (s.takeEntry .maint { kind := .maint (sysBase + lvl3) }).map (fun q => decide (q.2.med = s.med)) = some true
    ∧ (s.storedKeys.filter fun t => isSys t || (s.extent (extOf t)).state == .assigned).find? (fun x => s.med.sweepNext ≤ x) = some (sysBase + lvl3)
    ∧ (s.storedKeys.filter fun t => isSys t || (s.extent (extOf t)).state == .assigned).find? (fun x => 2 ^ 40 ≤ x) = none
    ∧ s.med.fetch = [] ∧ s.readsOf Waiter.rebuilds < 1024 := by decide
theorem witness_LinesAndTiersObey :
    let s := (State.reset.setExtent 0 { state := .assigned, owner := 7 }).fset R.ORG_WAYMODE.LOCK_WAYS 2
    let l : State := { s with tier := { lines := [(0, { way := 0, locked := true })], loggia := [{ line := 1, cls := .stream, bytes := [] }], zeroing := [(3, 7)], inval := some (0, 1, false) } }
    let d := (State.reset.fset R.TER_STAT.STATE 1).fset R.PWR_STAT.WAVE 5
    let p := ((State.reset.setExtent 0 { state := .assigned, owner := 7, cls := .pinned }).fset R.SUP_START_STAT.SERVING 1)
    (AMap.find? l.tier.lines 0).any (fun l => l.locked) = true ∧ AMap.find? s.tier.lines 0 = none ∧ (s.extent (extOf (0 / 16))).state = .assigned
    ∧ (s.extent (extOf (0 / 16))).cls.caches = true ∧ s.sliceUp (sliceOf 0) = true ∧ 0 < s.fget R.ORG_WAYMODE.LOCK_WAYS ∧ s.setLines 0 = []
    ∧ l.tier.inval = some (0, 1, false) ∧ s.tier.inval = none ∧ State.reset.fget (R.ORG_SLICE_STAT.STATE 15) ≠ 2 ∧ s.tier.lines = []
    ∧ (s.fset (R.ORG_SLICE_STAT.STATE 0) 2).fget (R.ORG_SLICE_STAT.STATE 0) = 2 ∧ s.fget R.ORG_WAYMODE.SCRATCH_WAYS ≤ 12
    ∧ AMap.find? l.tier.zeroing 3 = some 7 ∧ (l.loggiaLine 1).isSome = true ∧ s.loggiaLine 1 = none
    ∧ d.fget R.TER_STAT.STATE = 1 ∧ 5 ≤ d.fget R.PWR_STAT.WAVE ∧ d.fget R.TER_STAT.STACK_UP ||| 15 = 15
    ∧ p.clsOf 0 = .pinned ∧ p.frame 0 = none ∧ s.clsOf 0 ≠ .pinned ∧ p.flag R.SUP_START_STAT.SERVING = true
    ∧ (p.takeEntry .maint { kind := .maint 0 }).isSome = true := by decide
theorem witness_TimeoutsAndDrainBounds :
    let o : Op := { kind := .maint 0 }
    let s : State := { State.reset with tst := { ops := [(262143, o)], draining := [.netPort 63, .cxlPort 1] } }
    AMap.find? s.tst.ops 262143 = some o ∧ o.lingering = false ∧ o.jsn = none ∧ s.ctxOfTag 262143 = none ∧ s.twinRec 262143 = none
    ∧ AMap.find? s.tst.ops 0 = none ∧ s.tst.draining.contains (.netPort 63) = true ∧ s.tst.draining.contains (.cxlPort 1) = true
    ∧ s.tst.draining.contains (.cxlPort 0) = false := by decide

/-! ## Witnesses: the network -/

/-- Port 0 is up, the device serves, the address table holds address 0 of port 0, and extent 0 is tenant 7's. -/
def wired (x : Xpt) : State :=
  let s := ((State.reset.fset R.SUP_START_STAT.SERVING 1).fset (R.NET_PORT_STAT.STATE 0) 2).fset (R.XPT_ADDR0.VALID 0) 1
  { s.setExtent 0 { state := .assigned, owner := 7 } with xpt := x }
theorem witness_PortsTrainAndFence :
    let s := wired {}
    let p := fun (n : Nat) => s.fset (R.NET_PORT_STAT.STATE 0) n
    let k := s.setPort 0 { downs := [0] }
    s.portOk 0 = true ∧ (s.fset R.NET_MODE.MODE 2).portOk 63 = false ∧ s.portState 0 = 2 ∧ (p 4).portState 0 = 4 ∧ (railsOn (p 4) 8).netOut 0 = true
    ∧ (p 1).portState 0 = 1 ∧ (p 0).portState 0 = 0 ∧ (p 3).portState 0 = 3 ∧ (railsOn (p 0) 8).netOut 0 = true
    ∧ ((k.fset (R.NET_PORT_CFG.FLAP_MAX 0) 1).fget (R.NET_PORT_CFG.FLAP_MAX 0)) < (((k.port 0).downs.filter fun t => k.timeNs < t + 10000000000) ++ [k.timeNs]).length
    ∧ (((s.port 0).downs.filter fun t => s.timeNs < t + 10000000000) ++ [s.timeNs]).length ≤ (k.fset (R.NET_PORT_CFG.FLAP_MAX 0) 1).fget (R.NET_PORT_CFG.FLAP_MAX 0)
    ∧ (s.port 0).trainFail = false := by decide
theorem witness_PrioritiesPauseAndResume :
    let s := (wired {}).fset R.NET_PFC_CTL.PRIO_MASK 0x80
    let k := s.setPort 0 { paused := 0x80 }
    let x := s.setPort 0 { xoff := 0x80, storm := 0x80 }
    s.portOk 0 = true ∧ s.netSends 0 = true ∧ s.pfcOn 7 = true ∧ (s.port 0).storm.getLsbD 7 = false ∧ (x.port 0).storm.getLsbD 7 = true
    ∧ (x.port 0).xoff.getLsbD 7 = true ∧ (x.fset R.NET_PFC_CTL.XON_KIB 0).fget R.NET_PFC_CTL.XON_KIB * 1024 ≤ AMap.get 0 (x.port 0).occ 7
    ∧ (s.port 0).xoff.getLsbD 7 = false ∧ k.prioPaused 0 7 = true ∧ s.prioPaused 0 7 = false ∧ (k.port 0).paused.getLsbD 7 = true
    ∧ (s.port 0).paused.getLsbD 7 = false := by decide
/-- A RoCE frame to port 0 of the longest length. -/
def roce (fcs icrc : Bool) (ip : BitVec 128) : NetFrame :=
  { netOf 12 with fcsOk := fcs, icrcOk := icrc, len := 9216, dstMac := macOf 0, dstIp := ip }
theorem witness_FramesReachConnections :
    let s := wired { conns := [(5, { state := .rts, cnpSeen := true }), (6, { state := .rts })], fetching := [5] }
    let u := (s.rxTake 0 (s.fget R.NET_PFC_CTL.UNTAGGED_PRIO) 9216).inc (R.NET_PORT_CNT0.RX_FRAMES 0)
    s.portOk 0 = true ∧ s.portState 0 = 2 ∧ s.flag R.SUP_START_STAT.SERVING = true
    ∧ (roce false true 0).fcsOk = false ∧ (netOf 12).udpPort = 4791 ∧ ({ roce true true 0 with len := 9217 } : NetFrame).len = 9217
    ∧ (roce true true 0).pcp = none ∧ (s.port 0).used + 9216 ≤ s.rxShare ∧ u.notServing = false ∧ (roce true false 0).icrcOk = false
    ∧ u.addrEntry 0 1 = none ∧ (u.addrEntry 0 0).isSome = true ∧ s.addrEntry 0 1 = none ∧ s.addrEntry 0 0 = some 0
    ∧ (s.inc (R.NET_PORT_CNT0.RX_FRAMES 0)).notServing = false
    ∧ s.xpt.fetching.contains 5 = true ∧ s.xpt.fetching.contains 6 = false ∧ s.xpt.cache.length < 65536 ∧ s.xpt.hold = []
    ∧ (s.conn 7).state = .free ∧ (s.conn 5).state ≠ .free ∧ (s.conn 5).cnpSeen = true ∧ (s.conn 5).srtt ≤ s.fget R.NET_CC_CTL1.TARGET_RTT_US * 1000
    ∧ 0 < s.fget R.NET_CC_CTL0.MD ∧ (s.conn 6).cnpSeen = false ∧ (s.conn 6).limited = false ∧ s.notServing = false ∧ (s.conn 5).port = 0 := by decide
theorem witness_frame_to_the_port : (roce true true 0).dstMac = macOf 0 := rfl

/-- A REQ of tenant 7 with a PROOF. -/
def proofReq (x : Bytes) : CmReq := { reqOf 0 1024 with priv := [0x1C, 0x4E, 1, 0, 7, 0, 0, 0] ++ List.replicate 24 0 ++ x ++ List.replicate 44 0 }
theorem proofReq_fields (x : Bytes) (h : x.length = 16) : reqForm (proofReq x) = true ∧ reqProofInput (proofReq x) = reqProofInput (proofReq [])
    ∧ slice (proofReq x).priv 32 16 = x ∧ reqTenant (proofReq x) = 7 ∧ reqBind (proofReq x) = none ∧ reqMgmt (proofReq x) = false :=
  match x, h with
  | [x0, x1, x2, x3, x4, x5, x6, x7, x8, x9, x10, x11, x12, x13, x14, x15], _ => by
    have e0 : fieldAt (proofReq [x0, x1, x2, x3, x4, x5, x6, x7, x8, x9, x10, x11, x12, x13, x14, x15]).priv 3 1 = 0 := by
      change leNat [0] = 0
      decide
    have e1 : fieldAt (proofReq [x0, x1, x2, x3, x4, x5, x6, x7, x8, x9, x10, x11, x12, x13, x14, x15]).priv 0 2 = 0x4E1C := by
      change leNat [0x1c, 0x4e] = 0x4E1C
      decide
    have e2 : fieldAt (proofReq [x0, x1, x2, x3, x4, x5, x6, x7, x8, x9, x10, x11, x12, x13, x14, x15]).priv 2 1 = 1 := by
      change leNat [1] = 1
      decide
    have e3 : fieldAt (proofReq [x0, x1, x2, x3, x4, x5, x6, x7, x8, x9, x10, x11, x12, x13, x14, x15]).priv 7 1 = 0 := by
      change leNat [0] = 0
      decide
    have e4 : fieldAt (proofReq [x0, x1, x2, x3, x4, x5, x6, x7, x8, x9, x10, x11, x12, x13, x14, x15]).priv 8 2 = 0 := by
      change leNat [0, 0] = 0
      decide
    have e5 : fieldAt (proofReq [x0, x1, x2, x3, x4, x5, x6, x7, x8, x9, x10, x11, x12, x13, x14, x15]).priv 10 6 = 0 := by
      change leNat [0, 0, 0, 0, 0, 0] = 0
      decide
    have e6 : fieldAt (proofReq [x0, x1, x2, x3, x4, x5, x6, x7, x8, x9, x10, x11, x12, x13, x14, x15]).priv 48 44 = 0 := by
      change leNat (List.replicate 44 (0 : Byte)) = 0
      decide
    have e7 : fieldAt (proofReq [x0, x1, x2, x3, x4, x5, x6, x7, x8, x9, x10, x11, x12, x13, x14, x15]).priv 4 3 = 7 := by
      change leNat [7, 0, 0] = 7
      decide
    have m : (proofReq [x0, x1, x2, x3, x4, x5, x6, x7, x8, x9, x10, x11, x12, x13, x14, x15]).mtu = 1024 := rfl
    refine ⟨?_, rfl, rfl, rfl, ?_, ?_⟩ <;> simp [reqForm, reqBind, reqMgmt, reqTenant, e0, e1, e2, e3, e4, e5, e6, e7, m]
/-- A REQ of tenant 7 whose PROOF is right under epoch 0. -/
def goodReq (s : State) : CmReq :=
  proofReq (cmac (s.admitKey 7 0) (reqProofInput (proofReq [])))
/-- Tenant 7 is enrolled, in epoch 0. -/
def enrolled (x : Xpt) : State := { wired x with gth := { tenants := [(7, { enrolled := true })] } }
theorem witness_ConnectionsOpenAndClose :
    let s := enrolled {}
    let r := goodReq s
    let q := reqOf 0 1024
    let k : Con := { state := .establishing }
    let t := wired { conns := [(5, { state := .rts }), (6, k), (7, { state := .error }), (8, { state := .closing })] }
    (s.fset R.NET_MODE.MODE 2).portOk 63 = false ∧ s.portOk 0 = true ∧ s.portState 0 = 2 ∧ s.addrEntry 0 0 = some 0 ∧ q.serviceId = 0x19640
    ∧ State.reset.flag R.SUP_START_STAT.SERVING = false ∧ s.flag R.SUP_START_STAT.SERVING = true
    ∧ (wired { conns := [(6, { k with hostQp := q.qpn })] }).repeated 0 q = some (6, { k with hostQp := q.qpn })
    ∧ s.repeated 0 q = none ∧ s.reqCheck q = .error .malformed ∧ s.reqCheck r = .ok (0, 0)
    ∧ (t.conn 6).state = .establishing ∧ (t.conn 7).state = .error ∧ (t.conn 9).state = .free ∧ (t.conn 8).state = .closing
    ∧ (t.conn 5).state = .rts ∧ t.xpt.wrs = [] ∧ (((t.setConn 5 { t.conn 5 with state := .closing, rxq := [] }).breakTargets 1 (qpn 5)).xpt.wrs = []) := by
  refine ⟨by decide, by decide, by decide, by decide, by decide, by decide, by decide, by decide, by decide, by decide, ?_, by decide, by decide,
    by decide, by decide, by decide, by decide, by decide⟩
  obtain ⟨h1, h2, h3, h4, h5, h6⟩ := proofReq_fields _ (cmac_wide ((enrolled {}).admitKey 7 0) (reqProofInput (proofReq [])))
  have he : (enrolled {}).reqEpoch (goodReq (enrolled {})) = some 0 := by
    simp only [State.reqEpoch, goodReq, h4]
    rw [show (enrolled {}).tenant 7 = some { enrolled := true } from rfl]
    show List.find? (fun e => cmac ((enrolled {}).admitKey 7 e) (reqProofInput _) == slice _ 32 16) [0] = some 0
    rw [h2, h3]
    simp
  simp only [goodReq] at he
  simp only [State.reqCheck, goodReq, h1, h5, h6, he]
  rfl

/-- Connection 5 is tenant 7's, bound to queue 0, with a request at its head; key 2 of variant 3 covers extent 0 with every right. -/
def asking (p : Pkt) : State :=
  let k : Con := { state := .rts, tenant := 7, bind := some 0, rxq := [p] }
  let m : Key := { state := .valid, variant := 3, tenant := 7, base := 0, len := 2 ^ 30, rights := 31 }
  ((((wired { conns := [(5, k)], keys := [(2, m)] }).fset (R.KSK_QCFG0.TENANT 0) 7).fset (R.XPT_KRANGE0.VALID 0) 1).fset (R.XPT_KRANGE0.TENANT 0) 7).fset
    (R.XPT_KRANGE1.COUNT 0) 16
def pkt (op : Nat) (b : Bytes) : Pkt := { opcode := op, psn := 0, ackReq := true, plain := b }
theorem witness_turn (op : Nat) (b : Bytes) : (asking (pkt op b)).Turn 5 (pkt op b) :=
  ⟨⟨[], rfl⟩, rfl, rfl, by show psnDist 0 0 = 0; decide, rfl, rfl⟩
/-- Address 0x40 and key 2 with a length. -/
def reth (n : Nat) : Bytes := natBe 8 0x40 ++ natBe 4 0x203 ++ natBe 4 n
/-- A request of each row in its turn, with room in the network's quota. -/
theorem witness_RequestsInTheirTurn :
    let w := pkt 0x0A (reth 8 ++ natBe 8 1)
    let r := pkt 0x0C (reth 8192)
    let u := fun (p : Pkt) => (asking p).judged 5
    ((u w).conn 5).mgmt = false ∧ ((u w).writePkt 5 (pkt 0x0A (reth 8))).isNone = true
    ∧ ((u w).writePkt 5 w).any (fun q => q.1 == 0x40 && q.2.1 == 0x203 && q.2.2.1 == natBe 8 1) = true
    ∧ (u w).keyCheck 7 0x203 0x40 8 [.write] = none ∧ (u w).keyCheck 7 0x204 0x40 8 [.write] = some .access
    ∧ ((u w).takeEntry .net { kind := .netWrite 5 0 none, key := some 2 }).isSome = true
    ∧ (u r).respOut 5 < (u r).fget R.XPT_CONN_CTL.RESP_RES ∧ (u r).readCheck 5 r = none
    ∧ ((u r).takeEntry .net { kind := .netRead 5 0 0x40 8192 0, key := some 2 }).isSome = true := by decide
theorem witness_AtomicsAndFlush :
    let a := pkt 0x13 (natBe 8 0x40 ++ natBe 4 0x203 ++ natBe 8 1 ++ natBe 8 0)
    let f := pkt 0x1C (natBe 4 0x20 ++ List.replicate 16 0)
    let u := fun (p : Pkt) => (asking p).judged 5
    a.plain.length = 28 ∧ 0x40 = beNat (slice a.plain 0 8) ∧ 0x203 = BitVec.ofNat 32 (beNat (slice a.plain 8 4))
    ∧ (u a).respOut 5 < (u a).fget R.XPT_CONN_CTL.RESP_RES ∧ (u a).keyCheck 7 0x203 0x40 8 [.atomic] = none
    ∧ ((u a).takeEntry .net { kind := .netAtomic 5 0, key := some 2 }).isSome = true
    ∧ rethOf (pkt 0x1D (reth 8 ++ natBe 8 1)).plain = (0x40, 0x203, 8) ∧ (pkt 0x1D (reth 8 ++ natBe 8 1)).plain.length = 24
    ∧ f.plain.length = 20 ∧ 2 ≤ beNat (slice f.plain 0 4) / 16 % 4
    ∧ ((u f).takeEntry .net { kind := .netFlush 5 0, key := none }).isSome = true := by decide
/-- A key command of 64 bytes on key n of variant 3. -/
def keyCmd (action key len rights : Nat) : Bytes :=
  natLe 2 0x6B3D ++ [1] ++ natLe 1 action ++ natLe 4 (key * 256 + 3) ++ natLe 8 0 ++ natLe 8 len ++ natLe 8 rights ++ List.replicate 32 0
/-- A walk plan of one entry. -/
def planCmd : Bytes := natLe 2 0x57A1 ++ [1, 0] ++ natLe 2 1 ++ [1, 0] ++ List.replicate 40 0
theorem witness_SendsRunTheirCommand :
    let v := fun (b : Bytes) => ((asking (pkt 0x04 b)).judged 5).takeEntry .net { kind := .netSend 5 0 }
    let w := keyCmd 1 3 4096 31
    let r := keyCmd 2 2 0 0
    let n := natLe 2 0x57C0 ++ List.replicate 6 0
    let o := natLe 2 0x3A91 ++ List.replicate 14 0
    let d := natLe 2 0x7A5C ++ List.replicate 126 0
    ((asking (pkt 0x04 w)).judged 5).sendPart 5 (pkt 0x04 w) = some (w, none, true)
    ∧ (v d).map (fun q => decide ((State.runTasks 5 d q.2).1 = .rnr)) = some true ∧ fieldAt d 0 2 = 0x7A5C
    ∧ (v d).map (fun q => decide ((State.runTasks 5 d (q.2.fset (R.KSK_QCFG0.TENANT 0) 8)).1 = .done .access)) = some true
    ∧ (v planCmd).map (fun q => decide ((State.runPlan 5 planCmd q.2).1 = .done .ok ∧ (q.2.conn 5).mgmt = false)) = some true
    ∧ fieldAt planCmd 0 2 = 0x57A1 ∧ fieldAt n 0 2 = 0x57C0 ∧ n.length = 8 ∧ fieldAt n 2 6 = 0 ∧ (v n).isSome = true
    ∧ fieldAt w 0 2 = 0x6B3D ∧ keyForm w = true ∧ fieldAt w 3 1 = 1 ∧ fieldAt w 4 4 / 256 = 3 ∧ fieldAt w 8 8 + fieldAt w 16 8 ≤ 2 ^ 49
    ∧ fieldAt w 16 8 ≠ 0 ∧ fieldAt w 24 1 < 32 ∧ fieldAt w 28 4 = 0
    ∧ (v w).map (fun q => q.2.inRange 7 3 && q.2.ownsRange 7 0 4096 && (AMap.find? q.2.xpt.keys 3).isNone) = some true
    ∧ keyForm r = true ∧ fieldAt r 3 1 = 2 ∧ fieldAt r 24 1 = 0 ∧ fieldAt r 28 4 < 2 ^ 20
    ∧ (v r).map (fun q => (AMap.find? q.2.xpt.keys (fieldAt r 4 4 / 256)).any fun k => k.state == .valid && k.variant.toNat == fieldAt r 4 4 % 256)
      = some true
    ∧ (v (keyCmd 2 9 0 0)).map (fun q => (AMap.find? q.2.xpt.keys 9).isNone) = some true
    ∧ fieldAt o 0 2 = 0x3A91 ∧ (v o).map (fun q => decide ((State.runPost 5 o q.2).1 = .done .malformed)) = some true := by decide

/-- A write of 8 bytes on connection 5, opened. -/
def wr5 : Wr :=
  { id := 1, conn := 5, tenant := 7, opcode := 1, signaled := true, fence := false, durable := false, gate := 0, gateArg := 0, gateCq := 0,
    localAddr := 0x40, localKey := 0x203, len := 8, remoteVa := 0, remoteKey := 0, imm := 0, userTag := 0, cq := 0, opened := some 0 }
/-- Connection 5 with the given work requests, and a response at the head of its queue. -/
def working (op : Nat) (b : Bytes) (ws : List Wr) : State :=
  let s := asking (pkt op b)
  { s with xpt := { s.xpt with wrs := ws } }
theorem witness_WorkRequestsGoOut :
    let s := working 0x11 [0, 0, 0, 0] [wr5]
    let w := { wr5 with issued := some (3, 0), sent := 1 }
    let r := { w with opcode := 5 }
    let t := working 0x0E (natBe 8 1) [r]
    let u := (working 0x11 [0x60, 0, 0, 0] [w]).ackUpTo 5 ((0 + 2 ^ 24 - 1) % 2 ^ 24)
    s.nextWrOf 6 = none ∧ s.nextWrOf 5 = some wr5 ∧ (s.conn 5).state = .rts ∧ s.jnl.closed = false ∧ s.wrHeld wr5 = false
    ∧ s.wrHeld { wr5 with opcode := 6 } = false ∧ s.keyCheck 7 0x203 0x40 8 (wrRights wr5) = none
    ∧ (s.takeEntry .net { kind := .netReq 5 1 }).isSome = true
    ∧ (s.conn 5).rxq = [pkt 0x11 [0, 0, 0, 0]] ∧ fieldAt (pkt 0x11 [0, 0, 0, 0]).plain 0 1 / 32 % 4 = 0 ∧ fieldAt (pkt 0x11 [0x60, 0, 0, 0]).plain 0 1 = 0x60
    ∧ (s.conn 6).rxq = [] ∧ (t.conn 5).rxq = [pkt 0x0E (natBe 8 1)] ∧ (t.popReq 5).wrAt 5 0 = some r ∧ psnDist 0 0 = r.acked
    ∧ (natBe 8 1).length = min ((t.popReq 5).conn 5).mtu (r.len - 0 * ((t.popReq 5).conn 5).mtu)
    ∧ (s.conn 6).state = .free ∧ s.netSends (s.conn 5).port = true ∧ s.wrAt 5 0 = none
    ∧ (s.ackUpTo 5 ((0 + 2 ^ 24 - 1) % 2 ^ 24)).wrAt 5 0 = none ∧ u.wrAt 5 0 = some w ∧ u.issuedOf 5 = [w]
    ∧ ((working 0 [] [w]).issuedOf 5).find? (fun w => !w.allRead ((working 0 [] [w]).conn 5).mtu) = some w ∧ w.rnr = false
    ∧ w.retries < s.fget R.XPT_REQ_CTL.RETRY_CNT ∧ s.fget R.XPT_REQ_CTL.RETRY_CNT ≤ ({ w with retries := 255 } : Wr).retries
    ∧ s.issuedOf 6 = [] := by decide

/-! ## Witnesses: CXL -/

/-- Port 1 is up as an MLD; logical device 31 is tenant 7's; extent 0 is tenant 7's and accepted by it. -/
def hosted (c : Cxl) : State :=
  let s := ((wired {}).fset (R.CXL_PORT_STAT.STATE 1) 2).fset (R.CXL_PORT_STAT.MLD 1) 1
  let s := s.fset (R.CXL_PORT_STAT.IDE_ACTIVE 1) 1
  let s := (s.fset (R.CXL_LD_CFG.VALID 31) 1).fset (R.CXL_LD_CFG.TENANT 31) 7
  { s.setExtent 0 { state := .assigned, owner := 7, accepted := 0x80000000 } with cxl := c }
theorem witness_CxlRequestsTakeEffect :
    let s := hosted {}
    let w : Combine := { ld := 31, tile := 0, tags := [5], segs := [] }
    let o : Op := { kind := .cxlRd 31 0 0 }
    let h := fun (g : Gen) => ({ s with gen := [(0, g)] } : State)
    s.cxl.rxq = [] ∧ s.ldCredits 0 = false ∧ s.ldCredits 31 = true ∧ s.lineWrites 31 0 = []
    ∧ (s.takeEntry (.cxl (portOf 31)) o).map (fun (q : Nat × State) => !q.2.jnl.closed && q.2.ldMay 31 0 && !q.2.ldMay 31 (2 ^ 30)) = some true
    ∧ (({ s with jnl := { s.jnl with closed := true } } : State).takeEntry (.cxl (portOf 31)) o).map (fun (q : Nat × State) => q.2.jnl.closed) = some true
    ∧ (s.takeEntry (.cxl (portOf 31)) { kind := .cxlWr 31 0 0 }).isSome = true
    ∧ s.cxl.comb = [] ∧ (hosted { comb := [w] }).cxl.comb = [w] ∧ s.fget (R.CXL_PORT_STAT.STATE 1) = 2 ∧ s.fget (R.CXL_PORT_STAT.STATE 0) ≠ 2
    ∧ s.jnl.closed = false ∧ s.portWrites 1 = false
    ∧ (s.readSpan 0 0 64 (s.clsOf 0)).1 = .data (List.replicate 64 0)
    ∧ ((h { zero := false }).readSpan 0 0 64 ((h {}).clsOf 0)).1 = .miss
    ∧ ((h { zero := false, quar := true }).readSpan 0 0 64 ((h {}).clsOf 0)).1 = .poison := by decide
theorem witness_CapacityIsOfferedAndTaken :
    let s := (hosted {}).setExtent 1 { state := .assigned, owner := 7 }
    let f := s.setLd 31 { offers := [1], withdrawn := [0], spdm := true }
    let g : State := { s with gth := { tenants := [(7, { enrolled := true })] }, cxl := { s.cxl with ide := [(1, 0, 0)] } }
    ((s.extent 1).state = .assigned ∧ (s.extent 1).owner = s.ldTenant 31 ∧ s.flag (R.CXL_LD_CFG.VALID 31) = true
      ∧ (s.ld 31).offers.contains 1 = false ∧ (s.extent 1).accepted.getLsbD 31 = false)
    ∧ (s.extent 2).state ≠ .assigned ∧ (s.extent 0).accepted.getLsbD 31 = true ∧ (s.ld 31).withdrawn.contains 0 = false
    ∧ (f.ld 31).withdrawn.contains 0 = true ∧ (f.extent 0).accepted.getLsbD 31 = true ∧ s.ldUp 31 = true ∧ s.ldUp 0 = false ∧ 5 ∉ (f.ld 31).offers
    ∧ (f.ld 31).offers.contains 1 = true ∧ s.gen = [] ∧ isSys 0 = false ∧ (s.extent (extOf 0)).accepted.getLsbD 31 = true
    ∧ (g.tenant (g.ldTenant 31)).isSome = true ∧ s.fmUp 1 = true ∧ s.fmUp 0 = false ∧ s.cxlUp 1 = true ∧ (∃ i ∈ List.range 16, (f.ld (16 * 1 + i)).spdm = true)
    ∧ (∀ i ∈ List.range 16, (s.ld (16 * 1 + i)).spdm = false) ∧ s.cxlUp 0 = false ∧ (1, 0, 0) ∈ g.cxl.ide := by decide
theorem witness_CxlPortsTrainAndReset :
    let p := fun (n : Nat) => State.reset.fset (R.CXL_PORT_STAT.STATE 1) n
    (p 1).fget (R.CXL_PORT_STAT.STATE 1) = 1 ∧ ((p 1).fset (R.CXL_PORT_CFG.MAX_WIDTH 1) 1).fget (R.CXL_PORT_CFG.MAX_WIDTH 1) = 1
    ∧ ((p 1).fset (R.CXL_PORT_CFG.MAX_GTS 1) 1).flag (R.CXL_PORT_CFG.MAX_GTS 1) = true ∧ (p 1).flag (R.CXL_PORT_CFG.MAX_GTS 1) = false
    ∧ (p 0).fget (R.CXL_PORT_STAT.STATE 1) = 0 ∧ (railsOn ({ p 0 with cxl := {} }) 22).cxlOut 1 = true ∧ (p 0).cxlOut 1 = false
    ∧ (p 0).groupOn 7 = false ∧ (railsOn (p 0) 22).groupOn 7 = true ∧ CxlReset.hot ≠ .perst ∧ (hosted {}).ldUp 31 = true
    ∧ (p 2).fget (R.CXL_PORT_STAT.STATE 1) = 2 ∧ (p 3).fget (R.CXL_PORT_STAT.STATE 1) = 3 ∧ (p 4).fget (R.CXL_PORT_STAT.STATE 1) = 4 := by decide
theorem witness_RingsAndPlansAreServed :
    let i := ringIx 31 7
    let s := ((hosted {}).fset (R.CXL_RING_CFG.VALID i) 1).fset (R.KSK_QCFG0.TENANT 0) 7
    let t := (s.fset (R.CXL_RING_CFG.STATE i) 1).setRing i { base := 4096, size := 16, cons := 0, prod := 0, asked := 1 }
    let u := (t.fset (R.KSK_QSTAT.STATE 0) 1).fset (R.KSK_QCFG3.POOL_MAX 0) 1
    let x : Word := 0xF0
    let n : Word := 0x1000
    let d : Word := 16
    s.ldUp 31 = true ∧ (hosted {}).ringUsable 31 7 = false ∧ s.ringUsable 31 7 = true ∧ x.toNat / 16 % 256 ≠ 0 ∧ n.toNat / 4096 ≠ 0 ∧ n.toNat % 16 ≤ 8
    ∧ s.fget (R.CXL_RING_CFG.STATE i) ≠ 1 ∧ t.fget (R.CXL_RING_CFG.STATE i) = 1 ∧ (t.ring i).cons = (t.ring i).prod ∧ (t.ring i).asked ≠ 0
    ∧ (d.toNat + 2 ^ 32 - (t.ring i).cons) % 2 ^ 32 ≤ (t.ring i).size ∧ (t.ring i).size < (n.toNat + 2 ^ 32 - (t.ring i).cons) % 2 ^ 32
    ∧ d.toNat % 8 = 0 ∧ d.toNat % 32 ≠ 0 ∧ n.toNat % 32 = 0
    ∧ (u.setRing i { u.ring i with asked := 0 }).queueRoom (u.fget (R.CXL_RING_CFG.QUEUE i)) 1 = true
    ∧ (s.ld 31).planAddrs = [] ∧ ((s.setLd 31 { planAddrs := [32] }).ld 31).planAddrs = [32] ∧ parsePlan [] 7 0 = none
    ∧ (parsePlan planCmd 7 0).isSome = true ∧ s.hostPlans < 4096 := by decide

/-! ## Witnesses: Gatehouse, the core, power -/

theorem flatMap_wide (f : Nat → Bytes) (h : ∀ i, (f i).length = 8) (l : List Nat) : (l.flatMap f).length = 8 * l.length := by
  induction l with
  | nil => rfl
  | cons i l ih => simp [h, ih]; omega
/-- The request buffer holds an enrolment request of tenant 7 with its first eight bytes alone, and the device is paired. -/
def requested (g : Gth) : State := { paired.fset (R.GTH_REQ_BUF.DATA 0) 0x0000000700013E77 with gth := g }
theorem take_flatMap (f : Nat → Bytes) (h : (f 0).length = 8) (m n : Nat) :
    ((List.range (m + 1)).flatMap f).take (8 + n) = f 0 ++ ((List.range m).flatMap fun i => f (i + 1)).take n := by
  rw [List.range_succ_eq_map, List.flatMap_cons, List.flatMap_map, List.take_append, h, List.take_of_length_le (by omega)]
  simp
theorem requested_bytes : ∃ l, (requested {}).reqBytes 9117 = [0x77, 0x3E, 1, 0, 7, 0, 0, 0] ++ l ∧ l.length = 9109 := by
  have h0 : natLe 8 ((requested {}).fget (R.GTH_REQ_BUF.DATA 0)) = [0x77, 0x3E, 1, 0, 7, 0, 0, 0] := by decide
  have := take_flatMap (fun i => natLe 8 ((requested {}).fget (R.GTH_REQ_BUF.DATA i))) (natLe_length 8 _) 1139 9109
  refine ⟨_, this.trans (by rw [h0]), ?_⟩
  rw [List.length_take, flatMap_wide _ (fun i => natLe_length 8 _), List.length_range]; rfl
theorem words_wide (l : List Word) : ((l.map fun w => natLe 8 w.toNat).flatten).length = 8 * l.length := by
  induction l with
  | nil => rfl
  | cons i l ih => simp [ih]; omega
theorem witness_EnrolmentPasses : ∃ s : State, s.enrolRefusal (s.reqBytes 9117) true = none ∧ s.flag R.GTH_ENROL_STAT.BUSY = false := by
  obtain ⟨l, h, hl⟩ := requested_bytes
  obtain ⟨r, hr⟩ : ∃ r, (requested {}).reqBytes 9117 = r := ⟨_, rfl⟩
  rw [hr] at h
  let x := leNat (sha3_384 (slice r 1705 2689))
  have hx : x < 2 ^ 384 := by
    refine Nat.lt_of_lt_of_le (leNat_lt _) ?_
    rw [show (256 : Nat) = 2 ^ 8 from rfl, ← Nat.pow_mul]
    refine Nat.pow_le_pow_right (by omega) ?_
    simp only [sha3_384, words_wide, List.length_take]; omega
  refine ⟨requested { tenants := [(7, { hash := BitVec.ofNat 384 x })] }, ?_, ?_⟩
  rw [show (requested { tenants := [(7, { hash := BitVec.ofNat 384 x })] }).reqBytes 9117 = r from hr]
  have e0 : r.length = 9117 := by rw [h, List.length_append, hl]; rfl
  have e1 : fieldAt r 0 2 = 0x3E77 := by rw [h]; change leNat [0x77, 0x3E] = _; decide
  have e2 : fieldAt r 2 1 = 1 := by rw [h]; change leNat [1] = _; decide
  have e3 : fieldAt r 3 1 = 0 := by rw [h]; change leNat [0] = _; decide
  have e4 : fieldAt r 4 3 = 7 := by rw [h]; change leNat [7, 0, 0] = _; decide
  have e5 : fieldAt r 7 1 = 0 := by rw [h]; change leNat [0] = _; decide
  have e6 : (requested { tenants := [(7, { hash := BitVec.ofNat 384 x })] }).tenant (BitVec.ofNat 24 7) = some { hash := BitVec.ofNat 384 x } := rfl
  have e7 : ∀ g, (requested g).dbgOpen = false := fun g => (show State.dbgOpen paired = false by decide)
  have e8 : ∀ g, (requested g).prmState = 2 := fun g => (show State.prmState paired = 2 by decide)
  simp only [State.enrolRefusal, e0, e1, e2, e3, e4, e5, e6, e7, e8]
  simp only [BitVec.toNat_ofNat, Nat.mod_eq_of_lt hx]
  simp [x]
  · exact (show State.flag paired R.GTH_ENROL_STAT.BUSY = false by decide)

/-! ## Witnesses: Aelo, the remaining clauses -/

/-- A setup program on the Belvedere, with the given stores of its COMMIT. -/
def belv (l : List (Nat × Word)) : State := { State.reset.setCtx 4096 (ctxOf []) with ksk := { (State.reset.setCtx 4096 (ctxOf [])).ksk with stores := l } }
theorem witness_Spr_on_the_Belvedere : (belv []).Runs 4096 ∧ ((belv []).ctx 4096).rp 0 = true ∧ ((belv []).ctx 4096).task = some task0 := by decide
/-- The last block of the scratchpad's ways is tenant 7's; the same with a task of tenant 0. -/
theorem witness_Scratchpad_windows :
    let w := fun (t : BitVec 24) (n : Word) => (((running { ctxOf [(1, 0xF00000), (3, n)] with task := some { task0 with tenant := t } }).fset
      (R.ORG_SCR_OWNER.TENANT 15) 7).fset R.ORG_WAYMODE.SCRATCH_WAYS 1)
    (w 7 1).Runs c0 ∧ ((w 7 1).ctx 0).rp 0 = true ∧ ((w 7 1).ctx 0).task = some task0 ∧ ((w 7 1).ctx 0).ra 1 = 0xF00000
    ∧ 0xF00000 % 2 ^ 20 = 0 ∧ 0xF00000 / 2 ^ 20 + 1 ≤ (w 7 1).fget R.ORG_WAYMODE.SCRATCH_WAYS * 16
    ∧ (∀ i ∈ List.range 1, (w 7 1).fget (R.ORG_SCR_OWNER.TENANT (15 + i)) = task0.tenant.toNat) ∧ task0.tenant ≠ 0
    ∧ ((w 0 1).ctx 0).task.map (·.tenant) = some 0 ∧ (w 7 2).fget R.ORG_WAYMODE.SCRATCH_WAYS * 16 < 0xF00000 / 2 ^ 20 + 2 := by decide
/-- A plan of one entry at the end of the local store. -/
def plan1 : Bytes := natLe 2 0x57A1 ++ [1, 0] ++ natLe 2 1 ++ [1, 0] ++ List.replicate 40 0
theorem witness_WALK_of_a_good_plan :
    let s := running { ctxOf [(1, 4048)] with ls := storeBytes [] 4048 plan1 }
    s.Runs c0 ∧ ((s.ctx 0).ra 1).toNat = 4048 ∧ fieldAt (loadBytes (s.ctx 0).ls 4048 32) 4 2 = 1 ∧ 4048 + 32 + 16 * 1 ≤ (s.ctx 0).lsSize
    ∧ (parsePlan (loadBytes (s.ctx 0).ls 4048 32 ++ loadBytes (s.ctx 0).ls 4080 16) task0.tenant s.timeNs).isSome = true := by decide
/-- Atomics on the last bytes of a scratchpad window, on bytes staged and on bytes not staged. -/
theorem witness_Atomics_in_every_space :
    let x : CtxSt := { ctxOf [(1, 0x1000FFFF0), (2, 0x200000000), (4, 0x200000010)] with
      wins := [(0, .scratch 0 1), (1, .dpa 0 1 false)], tilesLeft := 4, staged := [(0x17, 5)] }
    let s := (((running x).setExtent 0 { state := .assigned, owner := 7 }).fset (R.ORG_SCR_OWNER.TENANT 0) 7).fset R.ORG_WAYMODE.SCRATCH_WAYS 1
    s.locate c0 (s.counted c0) ((s.counted c0).ra 1) 16 16 true = .ok (.scr 0xFFFF0) ∧ s.scratchCheck (s.counted c0) 0xFFFF0 16 = none
    ∧ s.scratchCheck (s.counted c0) 0xFFFF0 8 = none ∧ s.extentCheck (s.counted c0) 0 true = none ∧ ((s.counted c0).touch 0).isSome = true
    ∧ s.locate c0 (s.counted c0) ((s.counted c0).ra 4) 8 8 true = .ok (.dpa 0x10)
    ∧ (AMap.find? (s.counted c0).staged (0x10 + 7)).isSome = true ∧ s.locate c0 (s.counted c0) ((s.counted c0).ra 2) 8 8 true = .ok (.dpa 0)
    ∧ (∀ i ∈ List.range 8, AMap.find? (s.counted c0).staged (0 + i) = none) := by decide
/-- A block with a length the function does not take, its buffers in the local store or in the tenant's extent, with and without a tile left. -/
theorem witness_Cipher_blocks_refused :
    let blk := fun (src : Nat) => natLe 1 0x11 ++ List.replicate 11 (0 : Byte) ++ natLe 4 5 ++ natLe 8 src ++ natLe 8 128 ++ List.replicate 32 (0 : Byte)
    let s := fun (src : Nat) (n : Nat) => ((running { ctxOf [] with ls := storeBytes [] 0 (blk src), wins := [(0, .dpa 0 1 false)], tilesLeft := n }).setExtent 0
      { state := .assigned, owner := 7 })
    ciphBad .xtsEnc (blk 64) = true ∧ CiphFn.xtsEnc.purposes.contains 0x11 = true
    ∧ ((s 64 0).touchNamed c0 ((s 64 0).counted c0) (CiphFn.xtsEnc.buffers (blk 64))).isSome = true
    ∧ (s 0x100000000 0).touchNamed c0 ((s 0x100000000 0).counted c0) (CiphFn.xtsEnc.buffers (blk 0x100000000)) = none
    ∧ AMap.get 0 (s 64 0).gth.counters 0 ≠ nonceEnd := by decide
/-- A wait for a gate that has been reached, and one that has not. -/
theorem witness_Gate_waits_end :
    let s := fun (n : Word) => running { ctxOf [] with wait := .gate 0 n 3, gc := [(0, 5)] }
    ((s 5).ctx 0).wait = .gate 0 5 3 ∧ (5 : Word).toNat ≤ (((s 5).ctx 0).rg 0).toNat ∧ (((s 6).ctx 0).rg 0).toNat < (6 : Word).toNat := by decide
/-- Full inboxes, and a message of no asked tag. -/
theorem witness_Full_inboxes :
    let s := ((running { ctxOf [(1, 9), (2, 6)] with inbox := [0x900000001] }).setCtx 1
      { ctxOf [] with task := some { task0 with num := 6 }, held := [5], inbox := List.replicate inboxSize 1 })
    s.Runs c0 ∧ ((s.counted c0).inbox.all fun k => k.toNat / 2 ^ 32 != 6) = true ∧ ((s.counted c0).ra 2).toNat % 2 ^ 32 = 6
    ∧ s.ctxOfTask 6 = some 1 ∧ inboxSize ≤ (s.ctx 1).inbox.length ∧ (s.ctx 1).held = 5 :: [] := by decide
/-- A good RUN descriptor with room in the queue, and one of zeros with none. -/
theorem witness_SPAWN_of_children :
    let run := natLe 2 0x7A5C ++ [1, 0] ++ List.replicate 124 (0 : Byte)
    let s := State.reset
    let q := (s.fset (R.KSK_QSTAT.STATE 0) 1).fset (R.KSK_QCFG3.POOL_MAX 0) 1
    (descOf run).kind = 0 ∧ q.descOk 0 run = true ∧ q.queueRoom 0 1 = true ∧ s.queueRoom 0 1 = false
    ∧ s.descOk 0 (List.replicate 128 0) = false := by decide
/-- Its 128 bytes lie at the end of the local store. -/
theorem witness_SPAWN_reads_it : loadBytes (storeBytes [] 3968 (natLe 2 0x7A5C ++ [1, 0])) 3968 8 = natLe 2 0x7A5C ++ [1, 0] ++ List.replicate 4 0
    ∧ 3968 + 128 ≤ (ctxOf []).lsSize := by decide
/-- A read set that no longer holds, a staged byte whose home is the twin, and stores of a setup program that pass and that do not. -/
theorem witness_COMMIT_outcomes :
    let w := (running { ctxOf [] with staged := [(0, 1)] }).fset R.PRM_STAT.STATE 2
    let r := running { ctxOf [] with readSet := [(0, ⟨1, 1⟩)] }
    let b := belv [(0x01000020, 0)]
    r.readSetOk (r.counted c0).readSet = false ∧ (r.counted c0).staged = [] ∧ (running (ctxOf [])).readSetOk [] = true
    ∧ (∃ g ∈ stagedSegs (w.counted c0).staged, w.homeHere (extOf g.tile) = false)
    ∧ (∀ g ∈ stagedSegs ((running { ctxOf [] with staged := [(0, 1)] }).counted c0).staged,
        (running { ctxOf [] with staged := [(0, 1)] }).homeHere (extOf g.tile) = true)
    ∧ b.Runs 4096 ∧ (b.storesOk b.ksk.stores && b.mapsOk b.ksk.stores) = false
    ∧ ((belv []).storesOk (belv []).ksk.stores && (belv []).mapsOk (belv []).ksk.stores) = true ∧ (belv []).ksk.mgmtSrc = none := by decide
theorem witness_COMMIT_too_large (b : Nat × Byte) : commitTooLarge { ctxOf [] with staged := List.replicate 1048577 b } = true := by
  have h : 1048576 < (List.replicate 1048577 b).length := by rw [List.length_replicate]; omega
  simp only [commitTooLarge, decide_eq_true h, Bool.true_or]

/-! ## Witnesses: tasks and the journal, the remaining clauses -/

/-- The program's OWNER is another tenant; a management descriptor of the last program that the library has and of the first it has not; a
CANCEL of a task that runs; a LOAD that has failed. -/
theorem witness_Tasks_that_do_not_start :
    let m := fun (n : Nat) => ({ State.reset.fset R.SUP_BOOT_STAT.STATE 2 with ksk := { mgmt := [({ task0 with prog := n }, .rdma 0)] } } : State)
    let r := running (ctxOf [])
    (queued.fset (R.KSK_PROG0.OWNER 0) 8).fget (R.KSK_PROG0.OWNER 0) ≠ task0.tenant.toNat ∧ queued.fget (R.KSK_PROG0.STATE 0) = 2
    ∧ queued.HasRoom .tasks ∧ (queued.startable 0 0).any (fun p => p.2.1 < 4096) = true ∧ State.reset.pickQueue 0 = none
    ∧ (m 255).ksk.mgmt = ({ task0 with prog := 255 }, .rdma 0) :: [] ∧ ((m 255).progFlags 255).any (fun f => f.testBit 1) = false
    ∧ (m 256).fget R.SUP_BOOT_STAT.STATE = 2 ∧ ((m 256).ctx 4096).task = none ∧ (m 256).ksk.mgmtWait = none
    ∧ r.ksk.pool.find? (fun v => v.num == 5 && v.queue == 0) = none ∧ r.ctxOfTask 5 = some 0
    ∧ ((r.ctx 0).task.any (fun v => v.queue == 0)) = true
    ∧ { loadJob true 0 with status := some Status.timeout }.status = some .timeout
    ∧ (State.reset.fset (R.KSK_KIOSK_STAT.CTX_BUSY 511) 1).fget (R.KSK_KIOSK_STAT.STATE 511) = 0 := by decide

/-- A record of tenant 7's data in its extent, one of the twin's, and an atomic. -/
def recD : Rec := { rec0 with body := .data [⟨9, 0, [1, 2]⟩], owner := .ops [], tenant := 7, origin := 3 }
def recT : Rec := { recD with twin := true, pairSeq := 2 }
def recA : Rec := { rec0 with body := .rmw 9 8 8 (.add 1), owner := .atomic 0 1, tenant := 7, origin := 3 }
/-- A journal that runs, with extent 0 tenant 7's and extent 1 in RECLAIMING. -/
def journalOf (j : Jnl) : State := ((journal j).setExtent 0 { state := .assigned, owner := 7 }).setExtent 1 { state := .reclaiming, owner := 7 }
/-- Tile 9 is quarantined in a leaf that the cache does not hold. -/
def leafy (j : Jnl) : State := { journalOf j with gen := [(9, { zero := false, quar := true }), (sysBase, { zero := false })] }
theorem witness_Records_are_checked :
    let s := journalOf { formed := [recD] }
    let x := journalOf { formed := [{ recD with body := .reloc 524288 }] }
    s.jnl.closed = false ∧ s.jnlState = 2 ∧ s.awayFrom recD = false ∧ s.recCheck recD = none ∧ s.awayFrom recT = false
    ∧ x.recCheck { recD with body := .reloc 524288 } ≠ none ∧ x.leafNeeded { recD with body := .reloc 524288 } = none
    ∧ (journalOf { formed := [{ recT with body := .reloc 524288 }] }).leafNeeded { recT with body := .reloc 524288 } = none
    ∧ (journalOf {}).recCheck { recT with body := .reloc 524288 } ≠ none
    ∧ (leafy {}).recCheck recD ≠ none ∧ (leafy {}).leafNeeded recD = some 9
    ∧ (journalOf {}).recRoom rec0 = true ∧ ((journalOf {}).fset R.JNL_LIMIT_CTL.DRAIN_LIMIT 0).recRoom rec0 = false
    ∧ (State.reset.ctx 4096).task = none
    ∧ (let b := ((journal {}).setCtx 4096 (ctxOf [])); (b.ctx 4096).task = some task0) := by decide +kernel
theorem witness_Records_are_sequenced :
    let s := journalOf {}
    let l := journalOf { lagPaused := true }
    l.lagHolds recD = true ∧ s.lagHolds recD = false
    ∧ (∃ q ∈ [recT, { recT with pairSeq := 1 }], q.twin = true ∧ q.pairSeq < recT.pairSeq)
    ∧ s.leafNeeded recD = none ∧ s.recCheck recD = none ∧ s.readSetOk [(5, ⟨1, 1⟩)] = false ∧ s.readSetOk [] = true
    ∧ s.oldWanted recD = none ∧ s.recCheck recA = none
    ∧ (match s.atomBytes recA 9 with | .data _ => true | _ => false) = true := by decide
/-- A record not yet mirrored; fences of each owner that are reached, and one that is not. -/
theorem witness_Lag_and_fences :
    let un : Unacked := { jsn := 0, pairSeq := 0, bytes := 5, admitNs := 0, owner := .engine, wait := false }
    let s := (journalOf { unacked := [un] }).fset R.PRM_STAT.STATE 2
    let f : FenceOwner → Nat → Fence := fun o j => ⟨4, j, o⟩
    let t := (journalOf { fences := [f (.task 0 1) 0] }).setCtx 0 { ctxOf [] with wait := .fence 4 }
    s.jnl.unacked ≠ [] ∧ s.mirrors = true ∧ (journalOf {}).jnlOpen = true ∧ (journalOf {}).extentBusy 1 = false ∧ (journalOf {}).freeing 1 = false
    ∧ ((journalOf {}).extent 1).state = .reclaiming ∧ (journalOf {}).homeHere 1 = true
    ∧ (journalOf {}).recRoom { id := 0, body := .attr (.freed 1), mirror := true, tenant := 0, origin := 6, owner := .engine } = true
    ∧ ((journalOf {}).fset R.JNL_LIMIT_CTL.DRAIN_LIMIT 0).recRoom { id := 0, body := .attr (.freed 1), mirror := true, tenant := 0, origin := 6
                                                                    owner := .engine } = false
    ∧ ((journalOf {}).fset R.PRM_STAT.STATE 2).fenceReached (f (.gpf 0) 9) = false ∧ t.fenceReached (f (.task 0 1) 0) = true
    ∧ (t.ctx 0).wait = .fence 4 ∧ t.fenceReached (f (.flush 0) 0) = true := by decide
/-- A record of 100 µs ago, whose tile's retirement is due; one whose lanes have acknowledged. -/
theorem witness_Retirements_are_due :
    let s : State := { journalOf { recs := [recD] } with timeNs := 100000 }
    let u : Retire := { tile := 9, jsn := 0, tag := 0, ver := ⟨0, 0⟩, reading := false }
    s.jnlOpen = true ∧ s.flag R.SUP_START_STAT.SERVING = true ∧ s.retireTurn 9 = true ∧ s.retireDue 9 = true ∧ s.remote 9 = false
    ∧ s.isMoving 9 = false ∧ s.fetchOf 9 = none ∧ s.readsLeft 9 = false ∧ s.HasRoom .maint ∧ (journalOf { recs := [recD] }).retireDue 9 = false
    ∧ (journalOf { retiring := [u] }).retireOf 9 = some u ∧ (journalOf { retiring := [u] }).entryFits 9 = true
    ∧ ((journalOf { retiring := [u] }).fset R.JNL_LIMIT_CTL.DRAIN_LIMIT 0).entryFits 9 = false := by decide
/-- A stripe of the shutdown record that does not decode; a device that has been paired, with no image. -/
theorem witness_Recovery_of_a_lost_journal :
    let w := (State.reset.fset R.JNL_STAT.STATE 1).fset R.SUP_START_STAT.PHASE 4
    let img : RecoveryImage := ⟨[(0, 0, List.replicate 300 0)]⟩
    let u := w.fset R.SUP_START_STAT.PHASE 5
    w.jnlState = 1 ∧ w.fget R.SUP_START_STAT.PHASE = 4 ∧ (u.shutWords img).any (fun x => fieldAt x 0 4 == 0x5D0E7A11) = false
    ∧ (u.fset R.SUP_START_STAT.PHASE 5).fget R.SUP_START_STAT.PHASE = 5 := by decide
theorem witness_Fetches_and_repairs :
    let f : Fetch := { tile := 9, issued := [0, 15], hedged := true }
    let r : Repair := { tile := 9, step := .deferred [] ⟨0, 0⟩ }
    let s := fun (m : DirState) => ({ (State.reset.setExtent 0 { state := .assigned, owner := 7, cls := .stream }) with
      med := { fetch := [f] }, prm := { repairs := [r] }, tier := { dir := [(9, { state := m, ver := ⟨0, 0⟩, seal64 := 0, bytes := [] })] } } : State)
    (s .valid).fetchOf 9 = some f ∧ f.hedged = true ∧ ((s .valid).clsOf 9).caches = false
    ∧ ((s (.moving 1 false)).frame 9).map (·.state) = some (.moving 1 false) := by decide

/-! ## Witnesses: the Promenade, the remaining clauses -/

/-- A frame of the twin's on group A with the given payload, encrypted and tagged under the receive key that stands. -/
def twinFrame (s : State) (typ : Nat) (p : Bytes) : PrmFrame :=
  let key := s.prmKey (!s.isSenior) 0 (s.grp 0).peerEpoch
  let f : PrmFrame := ⟨0, !s.isSenior, true, (s.grp 0).peerSel, 0, 0, 0, 0, gcmCrypt key (prmNonce (!s.isSenior) 0 0) p, 0⟩
  { f with tag := BitVec.ofNat 128 (beNat (gcmTag key (prmNonce (!s.isSenior) 0 0) (frameAad f typ) f.body)) }
theorem opens_twinFrame {s : State} {typ : Nat} (p : Bytes) (h : s.prm.secret.isNone = false) (hc : typ ≠ 0x0C) :
    s.openFrame (twinFrame s typ p) typ = some (p, s.grp 0) := by
  have e : ∀ key iv aad c, natBe 16 (BitVec.ofNat 128 (beNat (gcmTag key iv aad c))).toNat = gcmTag key iv aad c := by
    intro key iv aad c
    have h1 := gcmTag_length key iv aad c
    have h2 := natBe_beNat (gcmTag key iv aad c)
    have h3 : beNat (gcmTag key iv aad c) < 2 ^ 128 := by
      have := leNat_lt (gcmTag key iv aad c).reverse
      rw [List.length_reverse, h1] at this
      rw [beNat_eq]; exact this
    rw [h1] at h2
    rw [BitVec.toNat_ofNat, Nat.mod_eq_of_lt h3, h2]
  simp only [State.openFrame, twinFrame, if_neg hc, h, e]
  simp [frameAad, gcmOpen, gcmCrypt_twice]
/-- What the frame leaves: its payload matters to the credit alone. -/
def left (s : State) (typ n : Nat) : State :=
  let v := (s.setGrp 0 (s.grp 0)).takeAck 0 0 0
  if unnumbered typ then v else (v.setGrp 0 { v.grp 0 with rxNext := 1 }).giveCredit 0 (credits typ n)
theorem takes_twinFrame {s : State} {typ : Nat} (p : Bytes) (h1 : s.grpUp 0 = true) (h2 : s.prm.secret.isNone = false) (hc : typ ≠ 0x0C)
    (h3 : 0 = (((s.setGrp 0 (s.grp 0)).takeAck 0 0 0).grp 0).rxNext) : s.Takes (twinFrame s typ p) typ p (left s typ p.length) := by
  refine ⟨h1, s.grp 0, opens_twinFrame p h2 hc, ?_⟩
  have e : (twinFrame s typ p).body.length = p.length := gcmCrypt_length _ _ _
  simp only [e, left]
  split
  · rfl
  · exact ⟨h3, rfl⟩
def pairedIn (st : Nat) (p : Prm) : State := { paired.fset R.PRM_STAT.STATE st with prm := { p with secret := some 5 } }
/-- A numbered frame that is taken in, one of PAIRING, and a group that is down. -/
theorem witness_FramesActOnTheirPayload : paired.Takes (twinFrame paired 0x01 []) 0x01 [] (left paired 0x01 0) ∧ State.reset.grpUp 0 = false
    ∧ (paired.openFrame (twinFrame paired 0x0C []) 0x0C).isSome = true :=
  ⟨takes_twinFrame [] (by decide) rfl (by decide) (by decide), by decide, rfl⟩
/-- A paired device and one that resynchronises take a frame of each TYPE, whatever its payload. -/
theorem witness_Frames_of_every_TYPE (typ : Nat) (p : Bytes) (hc : typ ≠ 0x0C) :
    (∀ x : Option Resync, (pairedIn 6 { resync := x }).Takes (twinFrame (pairedIn 6 { resync := x }) typ p) typ p (left (pairedIn 6 { resync := x }) typ p.length))
    ∧ (∀ l m, (pairedIn 2 { fwd := l, repairs := m }).Takes (twinFrame (pairedIn 2 { fwd := l, repairs := m }) typ p) typ p
      (left (pairedIn 2 { fwd := l, repairs := m }) typ p.length)) :=
  ⟨fun x => takes_twinFrame p rfl rfl hc (by cases x <;> rfl), fun l m => takes_twinFrame p rfl rfl hc rfl⟩
/-- Each of them leaves the state in which its clause acts. -/
theorem witness_Frames_act :
    let n := 4184
    let f : Rec := { rec0 with owner := .ops [5] }
    let u := fun (typ : Nat) => left (pairedIn 2 { fwd := [(3, f), (4, { rec0 with owner := .enrol })], repairs := [{ tile := 9, step := .asked }] }) typ n
    let r := fun (k : Nat) => ({ source := false, all := true, parts := List.range' 1 k } : Resync)
    let t := fun (k : Nat) => left (pairedIn 6 { resync := some (r k) }) 0x08 n
    (∀ typ ∈ [0x01, 0x02, 0x03, 0x05, 0x06], (u typ).linked = true) ∧ (u 0x09).prmState ≠ 6 ∧ (t 0).prmState = 6 ∧ (t 0).linked = true
    ∧ (u 0x04).prm.fwd.find? (fun q => q.1 == fieldAt (natLe 8 3) 0 8) = some (3, f)
    ∧ (u 0x04).prm.fwd.find? (fun q => q.1 == fieldAt (natLe 8 4) 0 8) = some (4, { rec0 with owner := .enrol })
    ∧ (u 0x04).prm.fwd.find? (fun q => q.1 == fieldAt (natLe 8 5) 0 8) = none
    ∧ (u 0x07).prm.repairs.find? (fun r => r.tile == fieldAt (natLe 8 9) 0 8 && (r.step == .asked || r.step == .askedAgain)) =
        some { tile := 9, step := .asked }
    ∧ (u 0x07).prm.repairs.find? (fun r => r.tile == fieldAt (natLe 8 8) 0 8 && (r.step == .asked || r.step == .askedAgain)) = none
    ∧ (t 14).prm.resync = some (r 14) ∧ (insertRising 0 (r 14).parts).length ≠ 16 ∧ (t 15).prm.resync = some (r 15)
    ∧ (insertRising 0 (r 15).parts).length = 16 ∧ (r 16).parts.length = 16 ∧ (r 16).mapDue.filter (· ≠ 15) = [] ∧ (r 16).mapsIn = false
    ∧ fieldAt ([] : Bytes) 0 4 = 0 ∧ fieldAt (natLe 4 1 ++ natLe 4 15) 0 4 ≠ 0 := by
  intro n f u r t
  refine ⟨?_, by decide, by decide, by decide, by decide, by decide, by decide, by decide, by decide, by decide, by decide, by decide, by decide,
    by decide, by decide, by decide, by decide, by decide⟩
  intro typ h
  fin_cases h <;> decide
theorem slice_mid {a b c : Bytes} {i n : Nat} (h1 : a.length = i) (h2 : b.length = n) : slice (a ++ b ++ c) i n = b := by
  subst h1 h2
  simp [slice]
/-- A repair copy whose tag and seal are those of the tile. -/
theorem witness_A_good_repair_copy (u : State) (b : Bytes) (hb : b.length = 4096) : ∃ p : Bytes, fieldAt p 0 8 = 9 ∧ fieldAt p 8 1 = 0 ∧ p.length = 4184
    ∧ slice p 4120 64 = u.tileTag 9 (verOfWord (fieldAt p 16 8)) (BitVec.ofNat 64 (fieldAt p 4120 8))
    ∧ u.tileSeal 9 (verOfWord (fieldAt p 16 8)) (slice p 24 4096) = BitVec.ofNat 64 (fieldAt p 4120 8) := by
  let q := u.tileSeal 9 (verOfWord 0) b
  let rest := natLe 6 (verOfWord 0).gen ++ natLe 2 ((verOfWord 0).reloc + 4096 * (isSys 9).toNat) ++ natLe 4 (if isSys 9 then 1 else extOf 9)
    ++ natLe 4 (if isSys 9 then 9 - sysBase else 9 % 2 ^ 18) ++ natLe 4 (u.tileLabel 9).2.2 ++ List.replicate 36 0
  have ht : u.tileTag 9 (verOfWord 0) q = natLe 8 q.toNat ++ rest := by simp only [State.tileTag, rest, List.append_assoc]
  have hl : (natLe 8 q.toNat ++ rest).length = 64 := by simp [rest]
  let h : Bytes := natLe 8 9 ++ natLe 8 0 ++ natLe 8 0
  have hh : h.length = 24 := rfl
  have hq : leNat (natLe 8 q.toNat) = q.toNat := by
    have g : ∀ n x : Nat, x < 256 ^ n → leNat (natLe n x) = x := by
      intro n
      induction n with
      | zero => intro x hx; simp only [Nat.pow_zero] at hx; simp [natLe, leNat]; omega
      | succ n ih =>
        intro x hx
        rw [natLe, leNat, ih (x / 256) (by rw [Nat.pow_succ] at hx; omega), BitVec.toNat_ofNat]; omega
    exact g 8 _ (by have := q.isLt; norm_num; omega)
  have f1 : ∀ i n, i + n ≤ 24 → fieldAt (h ++ b ++ (natLe 8 q.toNat ++ rest)) i n = fieldAt h i n := by
    intro i n hin
    have : slice (h ++ b ++ (natLe 8 q.toNat ++ rest)) i n = slice h i n := by
      simp only [slice]
      rw [List.append_assoc, List.drop_append_of_le_length (by omega), List.take_append_of_le_length (by simp; omega)]
    simp only [fieldAt, this]
  have f2 : fieldAt (h ++ b ++ (natLe 8 q.toNat ++ rest)) 4120 8 = q.toNat := by
    have := slice_mid (a := h ++ b) (b := natLe 8 q.toNat) (c := rest) (i := 4120) (n := 8) (by simp [hh, hb]) (by simp)
    rw [List.append_assoc] at this
    simp only [fieldAt, this, hq]
  have f3 : fieldAt h 16 8 = 0 := by decide
  refine ⟨h ++ b ++ (natLe 8 q.toNat ++ rest), by rw [f1 _ _ (by omega)]; decide, by rw [f1 _ _ (by omega)]; decide, by simp [hh, hb, rest], ?_, ?_⟩
  · have := slice_mid (a := h ++ b) (b := natLe 8 q.toNat ++ rest) (c := []) (i := 4120) (n := 64) (by simp [hh, hb]) hl
    rw [List.append_nil] at this
    rw [f1 16 8 (by omega), f2, f3, this, ← ht, BitVec.ofNat_toNat, BitVec.setWidth_eq]
  · rw [f1 16 8 (by omega), f2, f3, slice_mid hh hb, BitVec.ofNat_toNat, BitVec.setWidth_eq]
/-- A frame with a wrong tag does not open. -/
theorem witness_Frames_that_do_not_open (s : State) (typ : Nat) (p : Bytes) (h : s.prm.secret.isNone = false) (hc : typ ≠ 0x0C) :
    s.openFrame { twinFrame s typ p with fromSenior := s.isSenior } typ = none := by
  simp only [State.openFrame, if_neg hc, h]
  simp

/-- A source that sends: no room, a tile quarantined, one at hand and one to be fetched. -/
theorem witness_Resync_sources :
    let src := fun (g : List Nat) (n : Nat) => pairedIn 5 { resync := some { source := true, all := true, granules := g, next := n } }
    let q := { (src [2] 15).setExtent 0 { state := .assigned, owner := 7 } with gen := [(47, { zero := false, quar := true })] }
    let m := { (src [2] 3).setExtent 0 { state := .assigned, owner := 7 } with gen := [(35, { zero := false })] }
    let d := { m with tier := { dir := [(35, { state := .valid, ver := ⟨0, 0⟩, seal64 := 0, bytes := [] })] } }
    (src [] 0).prmState = 5 ∧ (src [2] 0).flag R.PRM_RESYNC_CTL.PAUSE = false ∧ (src [2] 0).HasRoom .prm
    ∧ ((src [2] 0).fput R.PRM_RESYNC_CTL.PAUSE true).flag R.PRM_RESYNC_CTL.PAUSE = true
    ∧ ¬ ((src [2] 0).fset (R.TST_SRC_STAT.IN_USE 4) 8192).HasRoom .prm
    ∧ (((q.genEntry 47).zero && q.pendingFor 47 == []) = false) ∧ (match q.tileNow 47 with | .poison => true | _ => false) = true
    ∧ (match m.tileNow 35 with | .miss => true | _ => false) = true ∧ (match d.tileNow 35 with | .data _ => true | _ => false) = true
    ∧ (((src [2] 0).genEntry 32).zero && (src [2] 0).pendingFor 32 == []) = true
    ∧ (paired.setGrp 0 { rtx := [{ typ := 1, fsn := 0, last := true, payload := [], sends := 4 }] }).fget R.PRM_LINK_CTL.RETRIES ≤ 4 := by decide
/-- Pair commands in the states in which they run; a tile not anchored. -/
theorem witness_Pair_commands :
    let s := fun (st : Nat) (p : Prm) => (pairedIn st p).fset R.SUP_START_STAT.PHASE 6
    let f := { s 3 { forced := true, lost := true } with gen := [(10, { zero := false })] }
    ((s 1 {}).prmState ≤ 1 ∧ (s 1 {}).fget R.SUP_START_STAT.PHASE = 6) ∧ (s 4 {}).prmState = 4
    ∧ ¬ ((s 3 {}).prmState ≤ 1 ∧ (s 3 {}).fget R.SUP_START_STAT.PHASE = 6 ∨ (s 3 {}).prmState = 4)
    ∧ (s 3 { lost := true, peerLost := true }).prm.peerLost = true ∧ (s 3 { lost := true }).sendGrp.isSome = true
    ∧ ((s 3 { stale := true }).fput R.PRM_STAT.GRP_A_UP false).sendGrp = none
    ∧ (s 3 {}).prm.replacing = false ∧ (s 3 {}).prm.pairInc ≠ 0xFFFF ∧ (s 3 { replacing := true }).prm.replacing = true
    ∧ f.unanchored 10 = true ∧ (s 3 {}).unanchored 9 = false ∧ isSys 10 = false ∧ f.HasRoom .maint
    ∧ (s 1 {}).prm.nonce = none ∧ (s 1 {}).jnlState = 2 ∧ (s 1 {}).linked = false ∧ (s 1 { nonce := some [7] }).prm.nonce = some [7]
    ∧ (s 1 {}).sendGrp.isSome = true := by decide
/-- A twin whose strap, attestation and confirmation decide as PAIR_RESUME says. -/
theorem witness_PAIR_RESUME (u : State) (n : Bytes) : ∃ p : PeerState, p.senior ≠ u.isSenior ∧ p.attestOk = true
    ∧ natBe 16 p.mac.toNat = u.confirmMac p.senior (natLe 32 p.nonce.toNat) n ∧ p.pairId = u.pairId := by
  let m := u.confirmMac (!u.isSenior) (natLe 32 0) n
  have hm : m.length = 16 := cmac_wide _ _
  have h3 : beNat m < 2 ^ 128 := by
    have := leNat_lt m.reverse
    rw [List.length_reverse, hm] at this
    rw [beNat_eq]; exact this
  refine ⟨{ attestOk := true, nonce := 0, mac := BitVec.ofNat 128 (beNat m), senior := !u.isSenior, pairId := u.pairId, state := 2, term := 0
            seqHigh := 0, lost := false, forced := false, mapLost := false, diverged := [], own := [] }, by simp, rfl, ?_, rfl⟩
  have := natBe_beNat m
  rw [hm] at this
  simp only [BitVec.toNat_ofNat, Nat.mod_eq_of_lt h3, this]
  rfl

/-! ## Witnesses: media, tiers, the Turnstile, the network, the remaining clauses -/

/-- Every flit on a line is intact, descrambled from what was scrambled: one of each type, with and without reserved bits, in and out of order. -/
theorem witness_Flits_of_every_type :
    let k : Cmd := { opcode := 1, slot := 0, count := 1, owner := .system }
    let s := fun (c : Cmd) => served { cmds := [(0, c)] }
    let r := fun (n : Nat) (q : Bool) => served { links := [(0, { sent := [{ ftype := 1 }], replays := n, retrained := q })] }
    let u := ((s k).setLink 0 { (s k).link 0 with lastGood := 0 }).flitAck 0 0xFFF
    (s k).laneHears 0 = true ∧ State.reset.laneHears 0 = false ∧ (0 : BitVec 12) = ((s k).link 0).lastGood + 1
    ∧ AMap.find? u.med.cmds (0 * 128 + 0) = some k ∧ AMap.find? u.med.cmds (0 * 128 + 5) = none ∧ k.opcode = 1 ∧ 0 = k.data ∧ k.data < k.count
    ∧ 1 ≠ k.data ∧ k.data ≠ k.count ∧ ({ k with data := 1 } : Cmd).data = k.count ∧ ({ k with opcode := 2 } : Cmd).opcode ≠ 1
    ∧ ((r 0 false).flitAck 0 0xFFF).link 0 = (r 0 false).link 0 ∧ ((r 0 false).link 0).sent ≠ []
    ∧ ((r 0 false).link 0).replays < (r 0 false).fget R.MED_LINK_CTL.REPLAYS
    ∧ (r 200 true).fget R.MED_LINK_CTL.REPLAYS ≤ ((r 200 true).link 0).replays ∧ ((r 200 true).link 0).retrained = true
    ∧ ((r 200 false).link 0).retrained = false ∧ ((s k).link 0).sent = [] := by decide
/-- Training in each of its stages, with the outcomes of IDENTIFY; a lane that rests; a rebuild at its bound, and a tile of a freed extent. -/
theorem witness_Lane_stages :
    let k := fun (st : Stage) (q : Bool) => served { links := [(0, { stage := st, quick := q })] }
    let r : Rebuild := { extents := [0], system := false, todo := [9] }
    let s := (served { rebuild := [(0, r)] }).fset R.JNL_STAT.STATE 2
    let w := fun (n : Nat) => served { fetch := [{ tile := 9, waiters := List.replicate n (.rebuild 0 1) }] }
    (∀ st ∈ [Stage.none, .detect, .lock, .align, .identify, .test], ((k st true).link 0).stage = st)
    ∧ (k .identify true).wrongSerial 0 ⟨1, 5, 19595788288⟩ = false ∧ ((k .identify true).link 0).quick = true
    ∧ (19595788287 : Word).toNat < 19595788288 ∧ (2 : Nat) ≠ 1 ∧ (k .none false).laneState 0 = 2
    ∧ s.rebuildNext r = some 9 ∧ s.storedKeys.contains 9 = false ∧ (s.fput R.MED_REBUILD_CTL.PAUSE true).flag R.MED_REBUILD_CTL.PAUSE = true
    ∧ s.readsOf Waiter.rebuilds < 1024 ∧ s.readsOf Waiter.sweeps = 0 ∧ (w 1).readsOf Waiter.rebuilds = 1
    ∧ State.reset.storedKeys.contains (sysBase + lvl3) = true ∧ s.HasRoom .maint ∧ s.fetchOf 9 = none
    ∧ (s.fset (R.MED_LANE_STAT.STATE 0) 3).laneState 0 = 3 := by decide
/-- The lowest lockable ways taken, one free; a zero tile of a PINNED extent and one that is not; ways of the Orangery lowered. -/
theorem witness_Ways_and_pins :
    let s := ((State.reset.setExtent 0 { state := .assigned, owner := 7 }).fset R.ORG_WAYMODE.LOCK_WAYS 2)
    let l : State := { s with tier := { lines := [(2 ^ 17, { way := 0, locked := true })] } }
    let p := ((State.reset.setExtent 0 { state := .assigned, owner := 7, cls := .pinned }).fset R.SUP_START_STAT.SERVING 1)
    let g : State := { p with gen := [(0, { zero := false })] }
    (s.setLines 0).all (fun p => !(p.2.way == 0 && p.2.locked)) = true ∧ 0 < s.fget R.ORG_WAYMODE.LOCK_WAYS
    ∧ (l.setLines (2 ^ 17)).any (fun p => p.2.way == 0 && p.2.locked) = true
    ∧ g.clsOf 0 = .pinned ∧ (g.genEntry 0).zero = false ∧ (g.genEntry 0).quar = false ∧ g.frame 0 = none ∧ g.HasRoom .maint
    ∧ isSys 0 = false ∧ g.readsOf Waiter.rebuilds < 1024 ∧ (12 : BitVec 4).toNat ≤ 12 ∧ 12 < (13 : BitVec 4).toNat
    ∧ ((State.reset.fset R.TER_STAT.STATE 1).fset R.PWR_STAT.WAVE 3).fget R.PWR_STAT.WAVE < 4 ∧ State.reset.fget R.TER_STAT.STACK_UP = 0 := by decide
/-- An operation of a task and one of the twin's record, its turn and not; each unit that drains. -/
theorem witness_Timeouts_of_every_kind :
    let o : Op := { kind := .maint 0 }
    let t := running { ctxOf [] with tag := 9 }
    let r : Nat → Rec := fun q => { recT with owner := .twin 9, pairSeq := q }
    let w : State := { journalOf { formed := [r 1, { r 2 with id := 8, owner := .twin 10 }] } with tst := { ops := [(9, o), (10, o)] } }
    let d : State := { State.reset with tst := { draining := [.kiosk 511, .lane 127, .queue 1023, .slice 15] } }
    ({ t with tst := { ops := [(9, o)] } } : State).ctxOfTag 9 = some 0 ∧ o.lingering = false ∧ o.jsn = none ∧ { o with jsn := some 1 }.jsn.isSome = true
    ∧ w.ctxOfTag 9 = none ∧ (w.twinRec 9).any (fun q => q.twin && w.pairTurn q) = true ∧ (w.twinRec 10).any (fun q => q.twin && !w.pairTurn q) = true
    ∧ d.tst.draining.contains (.kiosk 511) = true ∧ d.tst.draining.contains (.lane 127) = true ∧ d.tst.draining.contains (.queue 1023) = true
    ∧ d.tst.draining.contains (.slice 15) = true ∧ d.tst.draining.contains (.slice 14) = false := by decide
/-- A full context cache, with a context to evict and with none; a response of a work request, a NAK and an answer's timeout. -/
theorem witness_Contexts_and_responses :
    let c : State := wired { conns := [(5, { state := .rts })], fetching := [5], cache := [6], writing := [(6, 5)] }
    let w : Wr := { wr5 with issued := some (3, 0), sent := 1, opcode := 5 }
    let t := working 0x0E (natBe 8 1) [w]
    c.xpt.fetching.contains 5 = true ∧ c.evictFor 5 = some 6 ∧ c.evictFor 7 = none ∧ c.xpt.cache.erase 6 = []
    ∧ w.issued = some (3, 0) ∧ w.sent ≠ 0 ∧ w.target = none ∧ natBe 8 1 ≠ [] ∧ (t.popReq 5).wrAt 5 0 = some w ∧ psnDist 0 0 = w.acked
    ∧ (t.conn 5).state = .rts ∧ t.HasRoom .net := by decide
/-- With 65,536 contexts a cache is full. -/
theorem witness_A_full_cache : 65536 ≤ (wired { cache := List.replicate 65536 6 }).xpt.cache.length := by
  show 65536 ≤ (List.replicate 65536 6).length
  rw [List.length_replicate]

/-! ## Witnesses: CXL, the core, power, the remaining clauses -/

theorem witness_Cxl_loads_and_stores :
    let s := hosted {}
    let f := s.fset (R.TST_SRC_STAT.IN_USE 2) 32768
    let o : State := { s with tst := { ops := [(5, { kind := .cxlWr 31 0 0 })] } }
    s.HasRoom (.cxl (portOf 31)) ∧ ¬ f.HasRoom (.cxl (portOf 31)) ∧ f.cxl.rxq = [] ∧ o.lineWrites 31 0 ≠ [] ∧ s.lineWrites 31 0 = []
    ∧ (∀ q ∈ o.tst.ops, q.2.after = []) ∧ o.HasRoom (.cxl (portOf 31)) ∧ (0 : BitVec 64) = 0 ∧ (1 : BitVec 64) ≠ 0
    ∧ (hosted { comb := [{ ld := 31, tile := 0, tags := [5], segs := [] }] }).cxl.comb.find? (fun w => w.ld = 31 ∧ w.tile = 0) ≠ none
    ∧ o.portWrites 1 = true ∧ s.portWrites 1 = false ∧ ({ s with jnl := { s.jnl with closed := true } } : State).jnl.closed = true := by decide
/-- An event waits, a tile of the accepted extent is quarantined; accesses to control space of each kind; doorbells in and out of range. -/
theorem witness_Hosts_reach_what_they_may :
    let s := hosted {}
    let f := s.setLd 31 { events := [.addCapacity 1], withdrawn := [0], offers := [1] }
    let g : State := { s with gen := [(0, { zero := false, quar := true })] }
    let i := ringIx 31 7
    let t := (s.fset (R.CXL_RING_CFG.STATE i) 1).setRing i { base := 4096, size := 16, cons := 0, prod := 8, asked := 0 }
    let n : Word := 0xC0000000
    s.ldUp 31 = true ∧ (f.ld 31).events.length < 2 ∧ 1 ≤ (f.ld 31).events.length ∧ g.gen = [(0, { zero := false, quar := true })] ∧ s.gen = []
    ∧ (0x2FF00E0 : BitVec 26).toNat = 0x2E00000 + 65536 * 31 + 32 * 7 ∧ (4 : BitVec 26).toNat % 8 ≠ 0 ∧ (8 : BitVec 26).toNat / 65536 ≠ 0x2E0 + 31
    ∧ (0x3020000 : BitVec 26).toNat / 4096 = 0x3001 + 31 ∧ (0x3000000 : BitVec 26).toNat / 4096 = 0x3000
    ∧ s.hostMayRead 31 0x3001000 = false ∧ t.fget (R.CXL_RING_CFG.STATE i) = 1 ∧ n.toNat < 2 ^ 32
    ∧ (t.ring i).size < (n.toNat + 2 ^ 32 - (t.ring i).cons) % 2 ^ 32 ∧ 2 ^ 31 ≤ (n.toNat + 2 ^ 32 - (t.ring i).prod) % 2 ^ 32
    ∧ 2 ^ 32 ≤ (0x100000000 : Word).toNat := by decide
/-- Enrolment: busy, waiting for its record, ended without its tenant, refused, and the cores of both waves. -/
theorem witness_Tenants_and_cores :
    let b := fun (g : Gth) => (requested g).fset R.GTH_ENROL_STAT.BUSY 1
    let r : Bytes := [0x77, 0x3E, 1, 0, 7, 0, 0, 0]
    let o := b { tenants := [(7, {})], req := r }
    let w := fun (n : Nat) (c : Nat) => (State.reset.fset R.PWR_STAT.WAVE n).fset (R.GTH_CORE_STAT.STATE c) 2
    (b {}).flag R.GTH_ENROL_STAT.BUSY = true ∧ ({ o with jnl := { formed := [{ rec0 with owner := .enrol }] } } : State).enrolOpen = true
    ∧ o.enrolOpen = false ∧ (o.tenant (BitVec.ofNat 24 (fieldAt o.gth.req 4 3))).isSome = true
    ∧ (b { req := r }).tenant (BitVec.ofNat 24 (fieldAt r 4 3)) = none ∧ o.fget R.GTH_ENROL_STAT.STATUS ≤ 1
    ∧ 1 < (o.fset R.GTH_ENROL_STAT.STATUS 4).fget R.GTH_ENROL_STAT.STATUS
    ∧ 32768 < (32769 : BitVec 16).toNat ∧ (9117 : BitVec 16) ≠ 0
    ∧ (State.reset.attrCheck (.tenantCreate 9 0 0)) = none ∧ ((requested { tenants := [(9, {})] }).attrCheck (.tenantCreate 9 0 0)).isSome = true
    ∧ (requested { tenants := [(9, {})] }).attrCheck (.tenantDestroy 9) = none ∧ (State.reset.attrCheck (.tenantDestroy 9)).isSome = true
    ∧ (w 2 79).fget (R.GTH_CORE_STAT.STATE 79) = 2 ∧ 2 ≤ (w 2 79).fget R.PWR_STAT.WAVE ∧ (w 2 95).fget R.PWR_STAT.WAVE < 3
    ∧ (w 3 95).fget (R.GTH_CORE_STAT.STATE 94) = 0 := by decide
/-- The pace's island counts; VCORE adapts, throttles, or holds its step; islands whose clock stops and returns. -/
theorem witness_Pace_and_VCORE :
    let on := (railsOn State.reset 3).fset (R.SUP_ISL_STAT.STATE 50) 1
    let a := on.fset R.PWR_VCORE_CTL.MODE 1
    let q := a.fset (R.KSK_SQUARE_STAT.KIOSKS_UP 15) 3
    let v := q.fset R.PWR_VCORE_STAT.SET_MV 620
    on.railState 3 = 2 ∧ on.fget (R.SUP_ISL_STAT.STATE 50) = 1 ∧ State.reset.railState 3 ≠ 2 ∧ (1 : BitVec 16) ≠ 2
    ∧ ({ a with pwr := { a.pwr with stepLast := true } } : State).pwr.stepLast = true ∧ a.pwr.stepLast = false
    ∧ a.flag R.PWR_VCORE_CTL.MODE = true ∧ a.flag R.PWR_STAT.SEQ_MODE = false ∧ (∀ i ∈ List.range 16, a.squareUp i = false) ∧ q.squareUp 15 = true
    ∧ (v.vcoreNext 0 none).1 = v.fget R.PWR_VCORE_STAT.SET_MV ∧ (q.vcoreNext 0 (some 100)).1 ≠ (v.fset R.PWR_VCORE_STAT.SET_MV 900).fget R.PWR_VCORE_STAT.SET_MV
    ∧ (q.fset R.PWR_STAT.SEQ_MODE 1).flag R.PWR_STAT.SEQ_MODE = true
    ∧ (on.fset (R.SUP_ISL_STAT.STATE 48) 1).fget (R.SUP_ISL_STAT.STATE 48) = 1 ∧ (on.fset (R.SUP_ISL_STAT.STATE 49) 1).fget (R.SUP_ISL_STAT.STATE 49) = 1
    ∧ (on.fset (R.SUP_ISL_STAT.STATE 48) 2).fget (R.SUP_ISL_STAT.STATE 48) = 2 ∧ on.fget (R.SUP_ISL_STAT.STATE 49) = 0
    ∧ on.flag R.SUP_TIME_STAT.TIMEBASE_LOST = false ∧ (on.fset R.SUP_TIME_STAT.TIMEBASE_LOST 1).flag R.SUP_TIME_STAT.TIMEBASE_LOST = true := by decide
/-- After the power-on reset, with PWR_STAT.STATE. -/
def powered (n : Nat) : State := { State.reset.fset R.PWR_STAT.STATE n with pwr := { por := false } }
def allRails (n : Nat) : State := (List.range 56).foldl (fun s i => s.fset (R.PWR_RAIL_STAT.STATE i) 2) (powered n)
theorem witness_PowerComesUpInOrder :
    let r := fun (k : Nat) => (powered 1).fset (R.PWR_RAIL_STAT.STATE k) 1
    let off : State := { r 8 with pwr := { (r 8).pwr with off := some ([.rails [8], .drained], .shutdown) } }
    let w := fun (n : Nat) => (r 55).fset R.PWR_STAT.WAVE n
    let u := (powered 2).fset R.PWR_STAT.WAVE 1
    let g := (List.range 48).foldl (fun s i => s.fset (R.PWR_RAIL_CFG.VALID (8 + i)) 1) u
    let f := (powered 2).fset R.PWR_STAT.GROUPS_FENCED 0x800000
    let q := fun (n : Nat) => ((powered 1).fset R.PWR_STAT.SEQ_MODE 1).fset R.PWR_STAT.SEQ_STATE n
    (powered 0).pwr.por = false ∧ State.reset.pwr.por = true ∧ (r 7).railState 7 = 1 ∧ (r 8).railState 8 = 1 ∧ (r 8).railState 9 ≠ 1
    ∧ off.pwr.off = some ([.rails [8], .drained], .shutdown) ∧ (r 55).pwr.off = none
    ∧ groupWave 23 ≤ (w 24).fget R.PWR_STAT.WAVE ∧ ((w 24).fget R.PWR_STAT.GROUPS_FENCED).testBit 23 = false ∧ ¬ groupWave 23 ≤ (w 0).fget R.PWR_STAT.WAVE
    ∧ u.pwr.goGiven = false ∧ u.fget R.PWR_STAT.STATE = 2 ∧ u.fget R.PWR_STAT.WAVE ≠ 0 ∧ (powered 2).fget R.PWR_STAT.WAVE = 0
    ∧ (∀ i ∈ List.range 48, g.flag (R.PWR_RAIL_CFG.VALID (8 + i)) = true) ∧ (powered 6).fget R.PWR_STAT.STATE = 6
    ∧ ((powered 5).fset R.PWR_LATCH.LATCHED 1).flag R.PWR_LATCH.LATCHED = true
    ∧ (f.fget R.PWR_STAT.GROUPS_FENCED).testBit 23 = true ∧ f.pwr.restores.contains 23 = false ∧ (railsOn f 54).railState 55 = 2
    ∧ (q 15).fget R.PWR_STAT.SEQ_STATE = 15 ∧ (q 7).fget R.PWR_STAT.SEQ_STATE ≤ 7 ∧ (q 7).flag R.PWR_STAT.SEQ_MODE = true ∧ (q 7).pwr.seqHeld = false := by
  decide +kernel
/-- Wave 1 is ready with the rails of the core up, and not before. -/
theorem witness_Waves_become_ready : ((List.range 8).foldl (fun s i => s.fset (R.PWR_RAIL_STAT.STATE i) 2) (powered 2)).waveReady 1 = true
    ∧ (powered 1).waveReady 1 = false := by decide
theorem witness_SupervisionActsOnFailures :
    let c := (allRails 3).fset R.PWR_STAT.COMMITTED 1
    let off : State := { allRails 4 with pwr := { por := false, off := some ([.rails [8]], .shutdown) } }
    let a := (powered 3).fset (R.TWB_CFG.ATTN_EN 0) 1
    let v := (powered 3).fset (R.PWR_RAIL_CFG.VALID 55) 1
    (allRails 3).railState 55 = 2 ∧ (powered 3).railState 55 ≠ 2 ∧ (allRails 3).pwr.off = none ∧ (allRails 3).flag R.PWR_STAT.COMMITTED = false
    ∧ (allRails 1).fget R.PWR_STAT.STATE = 1 ∧ (allRails 3).fget R.PWR_STAT.STATE ≠ 1 ∧ off.railState 6 = 2
    ∧ c.flag R.PWR_STAT.COMMITTED = true ∧ (powered 5).fget R.PWR_STAT.STATE = 5 ∧ (powered 0).fget R.PWR_STAT.STATE = 0
    ∧ (19 : BitVec 5).toNat < 20 ∧ 20 ≤ (20 : BitVec 5).toNat ∧ a.flag (R.TWB_CFG.ATTN_EN 0) = true ∧ a.pwr.por = false
    ∧ v.flag (R.PWR_RAIL_CFG.VALID 55) = true ∧ v.pwr.stepHeld = none := by decide +kernel

/-! ## Witnesses: resets, flash, buses, status, JTAG, the whole block -/

theorem witness_Attention_without_rails :
    (List.range 56).all (fun r => !((List.range 56).foldl (fun s i => s.fset (R.PWR_RAIL_CFG.VALID i) 0) (powered 3)).flag (R.PWR_RAIL_CFG.VALID r)) = true := by
  decide +kernel
theorem witness_ResetsAndTheBootRom :
    let h : State := { powered 3 with sup := { sysRst := true, resetTaken := true }, jtag := { ir := .extest } }
    let d := fun (w : Bool) (f : Fls) => ({ powered 3 with sup := { bootDue := true, bootWarm := w }, fls := f } : State)
    let r := (powered 3).fset R.SUP_BOOT_STAT.STATE 2
    (powered 3).sup.sysRst = false ∧ h.sup.sysRst = true ∧ h.jtag.ir.drives = true ∧ (powered 3).jtag.ir.drives = false
    ∧ (powered 3).fget R.PWR_STAT.STATE = 3 ∧ (powered 4).fget R.PWR_STAT.STATE = 4 ∧ (powered 3).pwr.off = none ∧ (powered 3).jnlState ≠ 2
    ∧ ((powered 3).fset R.JNL_STAT.STATE 2).jnlState = 2 ∧ ((d true {}).sup.bootDue = true ∧ (d true {}).sup.bootWarm = true)
    ∧ ¬ ((d false {}).sup.bootDue = true ∧ (d false {}).sup.bootWarm = true) ∧ (powered 3).flag R.PWR_STAT.COMMITTED = false
    ∧ r.imageRuns = true ∧ (powered 3).imageRuns = false ∧ r.flag R.SUP_WDOG_CTL.ENABLE = true ∧ ((r.setCtx 4096 (ctxOf [])).ctx 4096).task.isSome = true
    ∧ (d true { job0 := some .write }).fls.job0.isSome = true ∧ (d true {}).fls.job0 = none ∧ (d true {}).commitRec = none
    ∧ (d true {}).imageOk 0 false = false ∧ (d true {}).imageOk 0 true = true ∧ (d true {}).sup.resetAfterBoot = false := by decide
theorem witness_FlashCommandsNeedTheirKeys :
    let s := fun (x : FlsSeq) (f : Fls) => ({ State.reset with fls := { f with seq := x } } : State)
    let p : Fls := { regions := [(2047, 1, true, true, 5)] }
    (0x6F1A : Word).toNat % 65536 = 0x6F1A ∧ (0xFFFFFFFFFFFF90E5 : Word).toNat % 65536 = 0x90E5 ∧ (s .key1 {}).fls.seq = .key1
    ∧ (s .key2 { fenced := true }).fls.fenced = true ∧ (s .key2 { job0 := some .write }).flsRefusal 1 40960 1 = some .busy
    ∧ (s .key2 {}).flsRefusal 1 40961 2047 = none ∧ (s .key2 {}).flsRefusal 1 40961 2048 = some .range ∧ (s .key2 {}).flsRefusal 1 40960 1 = some .prot
    ∧ (s .key2 {}).flsRefusal 2 40960 1 = none ∧ (s .key2 {}).flsRefusal 2 40960 2 = some .range
    ∧ (s .key2 {}).flsRefusal 3 40960 2048 = none ∧ (s .key2 p).flsRefusal 3 (2047 * 2048) 1 = some .prot
    ∧ (s .key2 {}).recordBank = 1 ∧ (s .key2 { recq := [.start 0] }).fls.recq ≠ [] ∧ ((s .key2 { job1 := some .write }).flsJob 1).isSome = true
    ∧ ((s .key2 p).fset R.FLS_PROT_STAT.LOCKED_OUT 1).flsLocked 2047 = true ∧ (s .key2 p).regionsAt 2046 = [] ∧ (s .key2 {}).flsJob 1 = none
    ∧ (s .idle { job0 := some (.program 40961 2047 true) }).flsJob 0 = some (.program 40961 2047 true)
    ∧ (s .idle { job0 := some (.erase 20 1 true) }).flsJob 0 = some (.erase 20 1 true) ∧ (1 : Nat) < 2
    ∧ ((s .idle { job0 := some .write }).fset R.FLS_CMD.OP 5).fget R.FLS_CMD.OP = 5 ∧ (s .idle {}).fget R.FLS_CMD.OP ≠ 5
    ∧ (s .idle {}).config = none ∧ (s .idle { autoCfg := true }).fls.autoCfg = true := by decide
/-- MGMTBUS with the endpoint's number set, and its sessions and packets to send. -/
def bus (t : Twb) : State := { ((powered 3).fset (R.SUP_ISL_STAT.STATE 48) 1).fset R.TWB_MCTP_STAT.EID 9 with twb := t }
theorem witness_ManagementBusAnswers :
    let a := (bus {}).fget (R.TWB_CFG.TARGET_ADDR 1)
    let p : MctpPacket := ⟨1, BitVec.ofNat 7 a, true, false, 0, 0, true, true⟩
    let m : BitVec 7 × Bytes × Nat := (0x7F, [1], 0)
    (bus {}).busUp = true ∧ State.reset.busUp = false ∧ p.addr.toNat = a ∧ ({ p with addr := 0x20 } : MctpPacket).addr.toNat ≠ a
    ∧ (bus { txq := [m] }).twb.txq = m :: [] ∧ ({ p with addr := 0x20 } : MctpPacket).addr.toNat < m.1.toNat ∧ p.addr.toNat < m.1.toNat
    ∧ (({ p with addr := 0x7F, losesLater := true } : MctpPacket).addr = m.1) ∧ ¬ ((0x7F : BitVec 7).toNat < m.1.toNat)
    ∧ (0x3000FF8 : BitVec 32).toNat % 8 = 0 ∧ (0x3000FF8 : BitVec 32).toNat < 0x3001000 ∧ (0x2FFFF8 : BitVec 32).toNat < 0x300000
    ∧ 0x3001000 ≤ (0x3FFFFF8 : BitVec 32).toNat ∧ (0x3FFFFF8 : BitVec 32).toNat < 0x4000000 ∧ 0x4000000 ≤ (0x4000000 : BitVec 32).toNat
    ∧ (0x5B : Byte) ≠ 0x5A ∧ (0xFE : Byte) ≠ 0xFF ∧ (0x07 : Byte) ∉ ([0xFF, 0x00, 0x05, 0x06] : List Byte)
    ∧ (bus {}).fget R.TWB_MCTP_STAT.EID ≠ 0 ∧ ((bus {}).fset R.TWB_MCTP_STAT.EID 0).fget R.TWB_MCTP_STAT.EID = 0
    ∧ (bus { s0 := some ⟨true, true, false⟩ }).session 0 = some ⟨true, true, false⟩ ∧ (bus {}).sessionOk ⟨true, true, false⟩ = true
    ∧ (bus {}).sessionOk ⟨true, false, false⟩ = false ∧ (bus {}).session 1 = none ∧ (bus {}).ksk.mgmt.length < 64
    ∧ ((bus {}).fset (R.TWB_CFG.RECOVER_EN 1) 1).flag (R.TWB_CFG.RECOVER_EN 1) = true
    ∧ ((bus {}).fset (R.TWB_CFG.RECOVER_EN 1) 0).flag (R.TWB_CFG.RECOVER_EN 1) = false := by decide
theorem witness_StatusReachesItsReaders :
    let t := (State.reset.fset (R.STA_TGT0.VALID 0) 1).fset (R.STA_TGT0.STATE 0) 1
    let c := fun (s : State) (n : Nat) => (s.setCq 65535 { waiting := [[1]] }).fset (R.STA_CQ0.STATE 65535) n
    let m := fun (s : State) => (s.fset (R.STA_TPAGE0.VALID 2047) 1).fset (R.STA_TPAGE0.MIRROR_EN 2047) 1
    ((c t 1).cq 65535).waiting ≠ [] ∧ (c t 1).fget (R.STA_CQ0.STATE 65535) ≠ 3 ∧ (c t 1).targetReady ((c t 1).fget (R.STA_CQ0.TARGET 65535)) = true
    ∧ (c State.reset 1).targetReady 0 = false ∧ (c t 2).fget (R.STA_CQ0.STATE 65535) = 2 ∧ (c t 3).fget (R.STA_CQ0.STATE 65535) = 3
    ∧ (0x7FFFFFFFFFFFFFFF : Word).toNat < 2 ^ 63 ∧ t.targetOk 0x8000000000000000 = false ∧ t.targetOk 0 = true
    ∧ (m t).flag (R.STA_TPAGE0.VALID 2047) = true ∧ (m t).flag (R.STA_TPAGE0.MIRROR_EN 2047) = true
    ∧ (m t).targetReady ((m t).fget (R.STA_TPAGE0.MIRROR_TARGET 2047)) = true ∧ (m State.reset).targetReady 0 = false := by decide
theorem witness_JtagObeysItsConditions :
    let h : State := { powered 3 with sup := { sysRst := true, resetTaken := true } }
    let b := (powered 3).fset R.SUP_BOOT_STAT.STATE 3
    let k := fun (a : BitVec 28) => a.toNat / 65536 % 2048
    (h.sup.sysRst = true ∧ h.sup.resetTaken = true) ∧ ¬ ((powered 3).sup.sysRst = true ∧ (powered 3).sup.resetTaken = true)
    ∧ (powered 3).fget R.SUP_BOOT_STAT.STATE ≠ 3 ∧ b.fget R.SUP_BOOT_STAT.STATE = 3 ∧ k 0x400000 = 64 ∧ k 0x23FFFE0 = 575 ∧ k 0x3FFFE0 = 63
    ∧ k 0x2400000 = 576 ∧ ([0] : Bytes) ≠ [] := by decide
/-- Stores while an image runs and while none does; the DBG region's ends; a queue's front; an empty memory. -/
theorem witness_The_whole_block :
    let r := State.reset.fset R.SUP_BOOT_STAT.STATE 2
    r.imageRuns = true ∧ State.reset.imageRuns = false ∧ (4 : BitVec 32).toNat % 8 ≠ 0 ∧ r.storesOk [(0x01000020, 0x6400003234)] = true
    ∧ r.storesOk [(0x01000020, 0xFFFFFFFFFFFFFFFF)] = false ∧ r.storesOk [(0x01800010, 0x50A0407D0)] = true ∧ r.storesOk [(0x02400408, 1)] = true
    ∧ r.storesOk [(0, 0)] = true ∧ r.storesOk [(0x01000000, 0)] = true
    ∧ isDbg 0x03F00000 = true ∧ isDbg 0x03FFFFF8 = true ∧ State.reset.pending = [] ∧ State.reset.cxl.rxq = [] ∧ State.reset.twb.txq = []
    ∧ ({ State.reset with pending := [.kick] } : State).pending = [.kick] := by decide
theorem witness_An_empty_memory : Memory.wf ([] : AMap Byte) := by decide

end Sys2Proof.Tests
end

section
/-! The scope of the device: SUP_IDENT at reset and after every step (R3), the registers at reset (R20), and a store to a register by its
access codes (R16, R33). -/

namespace Sys2Proof

/-- A filter that lets every entry at `k` through does not change what `k` holds. -/
theorem AMap.find?_filter_of_key {α : Type} {q : Nat × α → Bool} {k : Nat} (m : AMap α) (h : ∀ v, q (k, v) = true) :
    AMap.find? (List.filter q m) k = AMap.find? m k := by
  induction m with
  | nil => rfl
  | cons p r ih =>
    obtain ⟨j, v⟩ := p
    by_cases e : k = j
    · subst e; simp [h, AMap.find?]
    · by_cases c : q (j, v) = true <;> simp [c, e, AMap.find?, ih]

end Sys2Proof

namespace Sys2Proof.Machine

/-! ## SUP_IDENT is kept (R3) -/

theorem Keeps.fget {s t : State} {f : Fld} (h : Keeps s t) (hf : f.key < 64) : t.fget f = s.fget f := by
  have sees (m : AMap Nat) : AMap.find? (List.filter identKey m) f.key = AMap.find? m f.key :=
    AMap.find?_filter_of_key m fun v => by simp [identKey, hf]
  unfold State.fget AMap.get
  rw [← sees t.ctl, h.2, sees s.ctl]

/-- What has the hard-wired fields of `s` has its identity: each field of SUP_IDENT lies in the register at offset 0. -/
theorem Keeps.ident {s t : State} (h : Keeps s t) (hs : s.Ident) : t.Ident := by
  obtain ⟨family, part, major, minor⟩ := hs
  exact ⟨(h.fget (by decide)).trans family, (h.fget (by decide)).trans part, (h.fget (by decide)).trans major,
    (h.fget (by simp [Fld.key, R.SUP_IDENT.STEP_MINOR])).trans minor⟩

/-- No command touches the commands that wait or the hard-wired register. -/
theorem exec_keeps {i : Instr} {s t : State} (h : exec i s = .next t) : Keeps s t := by
  cases i with
  | aluOp => exact execAluOp_keeps h
  | addi => exact execAddi_keeps h
  | andiOriXori => exact execAndiOriXori_keeps h
  | shi => exact execShi_keeps h
  | li => exact execLi_keeps h
  | lis => exact execLis_keeps h
  | cmp => exact execCmp_keeps h
  | cmpi => exact execCmpi_keeps h
  | predicateOp => exact execPredicateOp_keeps h
  | spr => exact execSpr_keeps h
  | br => exact execBr_keeps h
  | brn => exact execBrn_keeps h
  | call => exact execCall_keeps h
  | jr => exact execJr_keeps h
  | ld => exact execLd_keeps h
  | st => exact execSt_keeps h
  | vld => exact execVld_keeps h
  | vst => exact execVst_keeps h
  | valu => exact execValu_keeps h
  | vectorMove => exact execVectorMove_keeps h
  | fieldOp => exact execFieldOp_keeps h
  | crcOp => exact execCrcOp_keeps h
  | keccak => exact execKeccak_keeps h
  | tmap => exact execTmap_keeps h
  | tmapr => exact execTmapr_keeps h
  | tmaps => exact execTmaps_keeps h
  | tunmap => exact execTunmap_keeps h
  | walk c gp d a b => exact execWalk_keeps (b := b) h
  | wcancel => exact execWcancel_keeps h
  | jstg => exact execJstg_keeps h
  | jdrop => exact execJdrop_keeps h
  | jfence => exact execJfence_keeps h
  | commit => exact execCommit_keeps h
  | cas64 => exact execCas64_keeps h
  | cas128 => exact execCas128_keeps h
  | fadd64 => exact execFadd64_keeps h
  | fadd128 => exact execFadd128_keeps h
  | gcmEnc => exact execGcmEnc_keeps h
  | gcmDec => exact execGcmDec_keeps h
  | xtsEnc => exact execXtsEnc_keeps h
  | xtsDec => exact execXtsDec_keeps h
  | cmac => exact execCmac_keeps h
  | gwait => exact execGwait_keeps h
  | gpoll => exact execGpoll_keeps h
  | gadd => exact execGadd_keeps h
  | grecv => exact execGrecv_keeps h
  | gpost => exact execGpost_keeps h
  | spawn => exact execSpawn_keeps h
  | abort c gp d a b => exact execAbort_keeps (_d := d) (_b := b) h
  | taskWaitEnd => exact execTaskWaitEnd_keeps h
  | insnBudget => exact execInsnBudget_keeps h
  | timeBudget => exact execTimeBudget_keeps h
  | taskStart => exact execTaskStart_keeps h
  | childMsgDeliver => exact execChildMsgDeliver_keeps h
  | loadDescriptor => exact execLoadDescriptor_keeps h
  | loadComplete => exact execLoadComplete_keeps h
  | loadOldImageFreed => exact execLoadOldImageFreed_keeps h
  | cancelDescriptor => exact execCancelDescriptor_keeps h
  | programClear => exact execProgramClear_keeps h
  | kioskFence => exact execKioskFence_keeps h
  | kioskRestore => exact execKioskRestore_keeps h
  | queueDisable => exact execQueueDisable_keeps h
  | mgmtTaskStart => exact execMgmtTaskStart_keeps h
  | recordSubmit => exact execRecordSubmit_keeps h
  | recordSpaceGranted => exact execRecordSpaceGranted_keeps h
  | recordSequencerStep => exact execRecordSequencerStep_keeps h
  | lagAgeBound => exact execLagAgeBound_keeps h
  | releaseFinish => exact execReleaseFinish_keeps h
  | fenceComplete => exact execFenceComplete_keeps h
  | retirementStart => exact execRetirementStart_keeps h
  | retirementComplete => exact execRetirementComplete_keeps h
  | attrPersistDone => exact execAttrPersistDone_keeps h
  | rootRecordProgram => exact execRootRecordProgram_keeps h
  | drainComplete => exact execDrainComplete_keeps h
  | drainAbandon => exact execDrainAbandon_keeps h
  | journalRecovery => exact execJournalRecovery_keeps h
  | genRootCheck => exact execGenRootCheck_keeps h
  | mediaFillComplete => exact execMediaFillComplete_keeps h
  | hedgeTimer => exact execHedgeTimer_keeps h
  | repairTimeout => exact execRepairTimeout_keeps h
  | repairRetry => exact execRepairRetry_keeps h
  | repairDeferredAccept => exact execRepairDeferredAccept_keeps h
  | copyOutEnd => exact execCopyOutEnd_keeps h
  | prmRecord => exact execPrmRecord_keeps h
  | rack => exact execRack_keeps h
  | forward => exact execForward_keeps h
  | fwdResp => exact execFwdResp_keeps h
  | heartbeat => exact execHeartbeat_keeps h
  | repairReq => exact execRepairReq_keeps h
  | repairData => exact execRepairData_keeps h
  | resyncMap => exact execResyncMap_keeps h
  | resyncData => exact execResyncData_keeps h
  | resyncTileInstall => exact execResyncTileInstall_keeps h
  | resyncTileSend => exact execResyncTileSend_keeps h
  | nack => exact execNack_keeps h
  | rekey => exact execRekey_keeps h
  | pairing => exact execPairing_keeps h
  | home => exact execHome_keeps h
  | idle => exact execIdle_keeps h
  | prmRtoExpire => exact execPrmRtoExpire_keeps h
  | prmHeartbeatSend => exact execPrmHeartbeatSend_keeps h
  | prmHeartbeatMiss => exact execPrmHeartbeatMiss_keeps h
  | prmGroupTrained => exact execPrmGroupTrained_keeps h
  | twinAliveToggle => exact execTwinAliveToggle_keeps h
  | twinAliveEdge => exact execTwinAliveEdge_keeps h
  | twinAliveQuiet => exact execTwinAliveQuiet_keeps h
  | establish => exact execEstablish_keeps h
  | startSolo => exact execStartSolo_keeps h
  | forceSolo => exact execForceSolo_keeps h
  | admitReplacement => exact execAdmitReplacement_keeps h
  | reanchorTile => exact execReanchorTile_keeps h
  | pairResume => exact execPairResume_keeps h
  | medDataFlit => exact execMedDataFlit_keeps h
  | medRespFlit => exact execMedRespFlit_keeps h
  | medReplayReq => exact execMedReplayReq_keeps h
  | medIdleFlit => exact execMedIdleFlit_keeps h
  | medAlignFlit lane => exact execMedAlignFlit_keeps (_lane := lane) h
  | medCmdTimeout => exact execMedCmdTimeout_keeps h
  | laneTrainStageDone => exact execLaneTrainStageDone_keeps h
  | laneTrainTimeout => exact execLaneTrainTimeout_keeps h
  | laneFence => exact execLaneFence_keeps h
  | laneReplace => exact execLaneReplace_keeps h
  | laneRetrain => exact execLaneRetrain_keeps h
  | rebuildStripe => exact execRebuildStripe_keeps h
  | sweepTile => exact execSweepTile_keeps h
  | moduleTableLoad => exact execModuleTableLoad_keeps h
  | lineLock => exact execLineLock_keeps h
  | lineUnlock => exact execLineUnlock_keeps h
  | rangeInvalidation => exact execRangeInvalidation_keeps h
  | rangeInvalidationDone => exact execRangeInvalidationDone_keeps h
  | sliceFence => exact execSliceFence_keeps h
  | sliceRestore => exact execSliceRestore_keeps h
  | waymodeWrite => exact execWaymodeWrite_keeps h
  | scratchOwnerAssign => exact execScratchOwnerAssign_keeps h
  | scratchZeroDone => exact execScratchZeroDone_keeps h
  | loggiaTtlExpire => exact execLoggiaTtlExpire_keeps h
  | planIdleExpire => exact execPlanIdleExpire_keeps h
  | pinLoadTile => exact execPinLoadTile_keeps h
  | terraceTrainDone => exact execTerraceTrainDone_keeps h
  | opTimeout => exact execOpTimeout_keeps h
  | drainBound => exact execDrainBound_keeps h
  | clearHigh => exact execClearHigh_keeps h
  | roceFrame => exact execRoceFrame_keeps h
  | arpRequest => exact execArpRequest_keeps h
  | neighborSolicitation => exact execNeighborSolicitation_keeps h
  | pfcFrame => exact execPfcFrame_keeps h
  | pauseFrame => exact execPauseFrame_keeps h
  | pfcRefresh => exact execPfcRefresh_keeps h
  | pfcWatchdog => exact execPfcWatchdog_keeps h
  | pfcWatchdogClear => exact execPfcWatchdogClear_keeps h
  | netLinkUp => exact execNetLinkUp_keeps h
  | netTrainTimeout => exact execNetTrainTimeout_keeps h
  | netRetrainTimer => exact execNetRetrainTimer_keeps h
  | netLinkDown => exact execNetLinkDown_keeps h
  | netPortFence => exact execNetPortFence_keeps h
  | netPortRestore => exact execNetPortRestore_keeps h
  | netPortRetrain => exact execNetPortRetrain_keeps h
  | ccRoundEnd => exact execCcRoundEnd_keeps h
  | srttReset => exact execSrttReset_keeps h
  | cnp => exact execCnp_keeps h
  | cmReq => exact execCmReq_keeps h
  | cmRtu => exact execCmRtu_keeps h
  | cmDreq => exact execCmDreq_keeps h
  | cmDrep => exact execCmDrep_keeps h
  | contextFetchDone => exact execContextFetchDone_keeps h
  | rdmaWrite => exact execRdmaWrite_keeps h
  | rdmaRead => exact execRdmaRead_keeps h
  | compareAndSwap => exact execCompareAndSwap_keeps h
  | fetchAndAdd => exact execFetchAndAdd_keeps h
  | atomicWrite => exact execAtomicWrite_keeps h
  | flush => exact execFlush_keeps h
  | roceAcknowledge => exact execRoceAcknowledge_keeps h
  | rdmaReadResponse => exact execRdmaReadResponse_keeps h
  | rnrNak conn psn timer => exact execRnrNak_keeps (timer := timer) h
  | roceUnsupported => exact execRoceUnsupported_keeps h
  | sendTaskDescriptors => exact execSendTaskDescriptors_keeps h
  | sendWalkPlan => exact execSendWalkPlan_keeps h
  | sendPlanCancel => exact execSendPlanCancel_keeps h
  | register => exact execRegister_keeps h
  | revoke => exact execRevoke_keeps h
  | workRequestPost => exact execWorkRequestPost_keeps h
  | wrIssue => exact execWrIssue_keeps h
  | reqAckTimeout => exact execReqAckTimeout_keeps h
  | errorHoldExpire => exact execErrorHoldExpire_keeps h
  | memRd => exact execMemRd_keeps h
  | memWr => exact execMemWr_keeps h
  | memSpecRd ld dpa => exact execMemSpecRd_keeps (_l := ld) (_a := dpa) h
  | cxlBadReq => exact execCxlBadReq_keeps h
  | combineWindowExpire => exact execCombineWindowExpire_keeps h
  | globalPersistentFlush => exact execGlobalPersistentFlush_keeps h
  | identifyMemoryDevice => exact execIdentifyMemoryDevice_keeps h
  | getHealthInfo => exact execGetHealthInfo_keeps h
  | getEventRecords => exact execGetEventRecords_keeps h
  | clearEventRecords => exact execClearEventRecords_keeps h
  | getPoisonList => exact execGetPoisonList_keeps h
  | getDcConfiguration => exact execGetDcConfiguration_keeps h
  | getDcExtentList => exact execGetDcExtentList_keeps h
  | addDcResponse => exact execAddDcResponse_keeps h
  | releaseDc => exact execReleaseDc_keeps h
  | mailboxUnsupported ld opcode => exact execMailboxUnsupported_keeps (_op := opcode) h
  | getLdInfo => exact execGetLdInfo_keeps h
  | getLdAllocations => exact execGetLdAllocations_keeps h
  | fmApiRefused port opcode => exact execFmApiRefused_keeps (_op := opcode) h
  | spdmMessage => exact execSpdmMessage_keeps h
  | ideKm => exact execIdeKm_keeps h
  | cdatRead => exact execCdatRead_keeps h
  | ideStateChange => exact execIdeStateChange_keeps h
  | cxlLinkTrained => exact execCxlLinkTrained_keeps h
  | cxlPortReset => exact execCxlPortReset_keeps h
  | functionLevelReset => exact execFunctionLevelReset_keeps h
  | cxlPortFence => exact execCxlPortFence_keeps h
  | cxlPortRestore => exact execCxlPortRestore_keeps h
  | cxlPortRetrain => exact execCxlPortRetrain_keeps h
  | offer => exact execOffer_keeps h
  | withdraw => exact execWithdraw_keeps h
  | offerLapse => exact execOfferLapse_keeps h
  | forcedRelease => exact execForcedRelease_keeps h
  | ringBase => exact execRingBase_keeps h
  | ciAddr => exact execCiAddr_keeps h
  | doorbell => exact execDoorbell_keeps h
  | ringFetchDone => exact execRingFetchDone_keeps h
  | planStatAddr => exact execPlanStatAddr_keeps h
  | planSubmit => exact execPlanSubmit_keeps h
  | planReadDone => exact execPlanReadDone_keeps h
  | cxlDeniedAccess => exact execCxlDeniedAccess_keeps h
  | create => exact execCreate_keeps h
  | destroy => exact execDestroy_keeps h
  | process => exact execProcess_keeps h
  | enrolResponse => exact execEnrolResponse_keeps h
  | cipherCoreFence => exact execCipherCoreFence_keeps h
  | cipherCoreRestore => exact execCipherCoreRestore_keeps h
  | katTimer => exact execKatTimer_keeps h
  | paceWindow => exact execPaceWindow_keeps h
  | clearMinmax => exact execClearMinmax_keeps h
  | vcoreStep => exact execVcoreStep_keeps h
  | islandClockStopped => exact execIslandClockStopped_keeps h
  | islandHeartbeatReturn => exact execIslandHeartbeatReturn_keeps h
  | timebaseLost => exact execTimebaseLost_keeps h
  | timebaseReturn => exact execTimebaseReturn_keeps h
  | powerOnResetEnd => exact execPowerOnResetEnd_keeps h
  | railPowerGood => exact execRailPowerGood_keeps h
  | railPgTimeout => exact execRailPgTimeout_keeps h
  | groupRailFail => exact execGroupRailFail_keeps h
  | criticalRailFail => exact execCriticalRailFail_keeps h
  | vflFail => exact execVflFail_keeps h
  | vcoreLow => exact execVcoreLow_keeps h
  | thermalTrip => exact execThermalTrip_keeps h
  | pwrWarnCommit => exact execPwrWarnCommit_keeps h
  | warnGlitch => exact execWarnGlitch_keeps h
  | inputStable => exact execInputStable_keeps h
  | railOffStage => exact execRailOffStage_keeps h
  | waveRelease => exact execWaveRelease_keeps h
  | go => exact execGo_keeps h
  | restoreGroup => exact execRestoreGroup_keeps h
  | clearLatch => exact execClearLatch_keeps h
  | seqSyncStep => exact execSeqSyncStep_keeps h
  | seqSyncAbort => exact execSeqSyncAbort_keeps h
  | pwrbusAttention => exact execPwrbusAttention_keeps h
  | telemetry rail tries vout iout temp => exact execTelemetry_keeps (_vout := vout) (_temp := temp) h
  | clearPeak => exact execClearPeak_keeps h
  | sysRstAssert => exact execSysRstAssert_keeps h
  | sysRstDeassert => exact execSysRstDeassert_keeps h
  | deviceReset => exact execDeviceReset_keeps h
  | belvedereRestart => exact execBelvedereRestart_keeps h
  | belvedereFault => exact execBelvedereFault_keeps h
  | watchdogExpire => exact execWatchdogExpire_keeps h
  | kick => exact execKick_keeps h
  | bootRomRun => exact execBootRomRun_keeps h
  | flsKey => exact execFlsKey_keeps h
  | program => exact execProgram_keeps h
  | erase => exact execErase_keeps h
  | read => exact execRead_keeps h
  | unlock => exact execUnlock_keeps h
  | writeConfig => exact execWriteConfig_keeps h
  | writeCommit => exact execWriteCommit_keeps h
  | flashCommandDone => exact execFlashCommandDone_keeps h
  | flashRecordAppend => exact execFlashRecordAppend_keeps h
  | flashScan => exact execFlashScan_keeps h
  | configAutoWrite => exact execConfigAutoWrite_keeps h
  | mctpPacket => exact execMctpPacket_keeps h
  | mgmtRegisterRead => exact execMgmtRegisterRead_keeps h
  | mgmtClearLatch => exact execMgmtClearLatch_keeps h
  | setEndpointId => exact execSetEndpointId_keeps h
  | getEndpointId => exact execGetEndpointId_keeps h
  | getMctpVersionSupport => exact execGetMctpVersionSupport_keeps h
  | getMessageTypeSupport => exact execGetMessageTypeSupport_keeps h
  | mctpSpdm => exact execMctpSpdm_keeps h
  | mctpSecuredMessage => exact execMctpSecuredMessage_keeps h
  | mctpSendTimeout => exact execMctpSendTimeout_keeps h
  | clockLowTimeout => exact execClockLowTimeout_keeps h
  | busRecovery => exact execBusRecovery_keeps h
  | cqCiPoll => exact execCqCiPoll_keeps h
  | cqFullTimeout => exact execCqFullTimeout_keeps h
  | cqBaseWrite => exact execCqBaseWrite_keeps h
  | targetWrite => exact execTargetWrite_keeps h
  | pageRefresh => exact execPageRefresh_keeps h
  | pageMirror => exact execPageMirror_keeps h
  | idcode => exact execIdcode_keeps h
  | bypass => exact execBypass_keeps h
  | samplePreload => exact execSamplePreload_keeps h
  | extest => exact execExtest_keeps h
  | clamp => exact execClamp_keeps h
  | highz => exact execHighz_keeps h
  | extestPulse => exact execExtestPulse_keeps h
  | extestTrain => exact execExtestTrain_keeps h
  | flsRecover => exact execFlsRecover_keeps h
  | dbgUnlock => exact execDbgUnlock_keeps h
  | trst => exact execTrst_keeps h
  | registerWrite => exact execRegisterWrite_keeps h
  | vaonLeavesWindow => exact execVaonLeavesWindow_keeps h
  | cxlRetrainTimer => exact execCxlRetrainTimer_keeps h
  | cxlPerstDeassert => exact execCxlPerstDeassert_keeps h
  | rnrRetryTimer => exact execRnrRetryTimer_keeps h
  | pfcQuantaExpire => exact execPfcQuantaExpire_keeps h
  | vfuseVoltage => exact execVfuseVoltage_keeps h

theorem step_of_nil {s : State} (h : s.pending = []) : step s = .next s.idle := by
  simp only [step, h]

theorem step_of_cons {s : State} {c : Instr} {rest : List Instr} (h : s.pending = c :: rest) :
    step s = exec c { s with pending := rest } := by
  simp only [step, h]

/-- A step takes the front of the queue, if there is one, and leaves the hard-wired register. -/
theorem step_keeps {s t : State} (h : step s = .next t) : Keeps { s with pending := s.pending.tail } t := by
  cases hp : s.pending with
  | nil =>
    rw [step_of_nil hp] at h
    obtain ⟨pending, ident⟩ := State.idle_keeps s
    injection h with e
    subst e
    exact ⟨pending.trans hp, ident⟩
  | cons c rest =>
    rw [step_of_cons hp] at h
    exact exec_keeps h

/-- Settles O6: every step keeps the fields of the register at offset 0. -/
theorem identStays : Obligations.IdentStays := by
  intro s t hs h
  exact (step_keeps h).ident hs

/-! ## Reset (R3, R20) -/

theorem State.reset_ident : State.reset.Ident := ⟨rfl, rfl, rfl, rfl⟩

/-- The register at offset 0 is SUP_IDENT. -/
theorem fieldsAt_SUP_IDENT : fieldsAt 0 =
    [(.ro, R.SUP_IDENT.FAMILY), (.ro, R.SUP_IDENT.PART), (.ro, R.SUP_IDENT.STEP_MAJOR), (.ro, R.SUP_IDENT.STEP_MINOR)] := rfl

/-- No field of SUP_IDENT is live: a read sees what is held. -/
theorem State.fieldNow_of_off_zero (s : State) {f : Fld} (h : f.off = 0) : s.fieldNow f = s.fget f := by
  have apart {g : Fld} (hg : 8 ≤ g.off) : f ≠ g := fun e => by rw [← e, h] at hg; exact absurd hg (by decide)
  simp [State.fieldNow, apart, h]

/-- Settles O5: the fields at reset hold their Reset column, and a read puts them at their bits. -/
theorem identAtReset : Obligations.IdentAtReset := by
  refine ⟨State.reset_ident, ?_⟩
  obtain ⟨family, part, major, minor⟩ := State.reset_ident
  have shown : State.reset.noPort 0 = false := by decide
  have live (f : Fld) (h : f.off = 0) := State.fieldNow_of_off_zero State.reset h
  simp only [State.regRead, shown, fieldsAt_SUP_IDENT, List.foldl, live R.SUP_IDENT.FAMILY rfl, live R.SUP_IDENT.PART rfl,
    live R.SUP_IDENT.STEP_MAJOR rfl, live R.SUP_IDENT.STEP_MINOR rfl, family, part, major, minor]
  simp [isDbg, R.SUP_IDENT.FAMILY, R.SUP_IDENT.PART, R.SUP_IDENT.STEP_MAJOR, R.SUP_IDENT.STEP_MINOR]

/-- Settles O7: nothing is listed at reset, so every field reads its Reset column. -/
theorem resetValues : Obligations.ResetValues := by
  refine ⟨State.reset_fget, ?_, rfl, rfl⟩
  intro r hr
  rw [State.reset_fget]
  revert r
  decide

/-! ## What a store sets by the access codes (R16) -/

/-- What a store of `v` does to one field, by its access code. -/
def State.putFld (v : Word) (s : State) (p : Acc × Fld) : State :=
  match p.1 with
  | .rw => s.fset p.2 (v.toNat / 2 ^ p.2.lo)
  | .w1c => if v.getLsbD p.2.lo then s.fset p.2 0 else s
  | _ => s

/-- A store does to a register what it does to each of its fields. -/
theorem State.putReg_eq (s : State) (off : Nat) (v : Word) : s.putReg off v = (fieldsAt off).foldl (State.putFld v) s := rfl

theorem State.putFld_same (s : State) (v : Word) (p : Acc × Fld) : s.putFld v p = { s with ctl := (s.putFld v p).ctl } := by
  obtain ⟨a, f⟩ := p
  cases a with
  | w1c => simp only [State.putFld]; split <;> rfl
  | _ => rfl

theorem State.putFld_fget_ne (s : State) (v : Word) {p : Acc × Fld} {f : Fld} (h : p.2.key ≠ f.key) :
    (s.putFld v p).fget f = s.fget f := by
  obtain ⟨a, g⟩ := p
  cases a with
  | rw => exact State.fset_fget_ne s g f _ h
  | w1c =>
    simp only [State.putFld]
    split
    · exact State.fset_fget_ne s g f _ h
    · rfl
  | _ => rfl

theorem State.foldl_putFld_same (l : List (Acc × Fld)) (s : State) (v : Word) :
    l.foldl (State.putFld v) s = { s with ctl := (l.foldl (State.putFld v) s).ctl } := by
  induction l generalizing s with
  | nil => rfl
  | cons p r ih =>
    rw [List.foldl_cons, ih, State.putFld_same s v p]

theorem State.foldl_putFld_fget_ne {l : List (Acc × Fld)} {f : Fld} (s : State) (v : Word) (h : ∀ p ∈ l, p.2.key ≠ f.key) :
    (l.foldl (State.putFld v) s).fget f = s.fget f := by
  induction l generalizing s with
  | nil => rfl
  | cons p r ih =>
    obtain ⟨hp, hr⟩ := List.forall_mem_cons.mp h
    rw [List.foldl_cons, ih _ hr, State.putFld_fget_ne s v hp]

/-- Fields at different places: an RW field takes the bits stored, whatever fields stand beside it. -/
theorem State.foldl_putFld_fget_rw {l : List (Acc × Fld)} {f : Fld} (s : State) (v : Word) (hf : (.rw, f) ∈ l)
    (apart : (l.map (·.2.key)).Nodup) : (l.foldl (State.putFld v) s).fget f = v.toNat / 2 ^ f.lo % 2 ^ f.wid := by
  induction l generalizing s with
  | nil => cases hf
  | cons p r ih =>
    rw [List.map_cons, List.nodup_cons] at apart
    obtain ⟨fresh, rest⟩ := apart
    rw [List.foldl_cons]
    rcases List.mem_cons.mp hf with rfl | hr
    · rw [State.foldl_putFld_fget_ne _ v fun q hq e => fresh (e ▸ List.mem_map_of_mem hq)]
      exact State.fset_fget_same s f _
    · exact ih _ hr rest

/-- The fields at `off` lie in its 64 bits, no two of them at one place. -/
abbrev Laid (off : Nat) : Prop :=
  (∀ p ∈ fieldsAt off, p.2.off = off ∧ p.2.lo < 64) ∧ ((fieldsAt off).map (·.2.key)).Nodup

theorem State.putReg_same (s : State) (off : Nat) (v : Word) : s.putReg off v = { s with ctl := (s.putReg off v).ctl } :=
  State.foldl_putFld_same (fieldsAt off) s v

theorem State.putReg_fget_rw {off : Nat} {f : Fld} (s : State) (v : Word) (h : Laid off) (hf : (.rw, f) ∈ fieldsAt off) :
    (s.putReg off v).fget f = v.toNat / 2 ^ f.lo % 2 ^ f.wid :=
  State.foldl_putFld_fget_rw s v hf h.2

/-- A store to one register changes no field of another. -/
theorem State.putReg_fget_other {off : Nat} {f : Fld} (s : State) (v : Word) (h : Laid off) (lo : f.lo < 64) (other : f.off ≠ off) :
    (s.putReg off v).fget f = s.fget f := by
  refine State.foldl_putFld_fget_ne s v fun p hp => ?_
  obtain ⟨same, low⟩ := h.1 p hp
  unfold Fld.key
  omega

/-- RO and RO-V fields ignore a store. -/
theorem State.putReg_readOnly {off : Nat} (s : State) (v : Word) (h : ∀ p ∈ fieldsAt off, p.1 = .ro ∨ p.1 = .rov) :
    s.putReg off v = s := by
  have ignores (s : State) (p : Acc × Fld) (hp : p.1 = .ro ∨ p.1 = .rov) : s.putFld v p = s := by
    rcases hp with e | e <;> simp only [State.putFld, e]
  rw [State.putReg_eq]
  generalize fieldsAt off = l at h
  induction l with
  | nil => rfl
  | cons p r ih =>
    obtain ⟨hp, hr⟩ := List.forall_mem_cons.mp h
    rw [List.foldl_cons, ignores s p hp, ih hr]

/-! ## Registers without an effect of their own -/

theorem fieldsAt_JNL_STAT : fieldsAt 0x01000000 =
    [(.rov, R.JNL_STAT.STATE), (.rov, R.JNL_STAT.THROTTLED), (.rov, R.JNL_STAT.FULL), (.rov, R.JNL_STAT.INDEX_FULL),
      (.rov, R.JNL_STAT.OCC_KIB)] := rfl

theorem fieldsAt_JNL_LIMIT_CTL : fieldsAt 0x01000020 =
    [(.rw, R.JNL_LIMIT_CTL.HOLD_US), (.rw, R.JNL_LIMIT_CTL.HIGH_WATER), (.rw, R.JNL_LIMIT_CTL.DRAIN_LIMIT)] := rfl

theorem fieldsAt_PRM_LINK_CTL : fieldsAt 0x01800010 =
    [(.rw, R.PRM_LINK_CTL.HB_MISS), (.rw, R.PRM_LINK_CTL.HB_US), (.rw, R.PRM_LINK_CTL.RETRIES), (.rw, R.PRM_LINK_CTL.RTO_NS)] := rfl

theorem fieldsAt_NET_STAT : fieldsAt 0x02400408 = [(.w1c, R.NET_STAT.CMD_REFUSED)] := rfl

theorem laid_JNL_LIMIT_CTL : Laid 0x01000020 := by
  rw [Laid, fieldsAt_JNL_LIMIT_CTL]
  decide

theorem laid_PRM_LINK_CTL : Laid 0x01800010 := by
  rw [Laid, fieldsAt_PRM_LINK_CTL]
  decide

theorem State.putReg_NET_STAT (s : State) (v : Word) :
    s.putReg 0x02400408 v = if v.getLsbD 63 then s.fset R.NET_STAT.CMD_REFUSED 0 else s := by
  rw [State.putReg_eq, fieldsAt_NET_STAT]
  rfl

/-- The four registers above and SUP_IDENT. -/
def plainRegs : List Nat := [0, 0x01000000, 0x01000020, 0x01800010, 0x02400408]

/-- None of them has an effect of its own: a store sets their fields, and that is all. -/
theorem State.regStore_of_plain (s : State) (who : Nat) (v : Word) {off : Nat} (h : off ∈ plainRegs) :
    s.regStore who off v = (s.putReg off v, .ok) := by
  simp only [plainRegs, List.mem_cons, List.not_mem_nil, or_false] at h
  rcases h with rfl | rfl | rfl | rfl | rfl <;>
    simp [State.regStore, isDbg, R.KSK_PACE_CMD.CLEAR_MINMAX, State.arrayWrite, arrayStore, nthAt]

/-! ## REGISTER_WRITE (R16, R33, R49) -/

/-- A store that runs in no image, is misaligned or is refused leaves no trace (R49; log entry 96). -/
theorem exec_registerWrite_refused {s : State} {off : BitVec 32} {v : Word}
    (h : s.imageRuns = false ∨ off.toNat % 8 ≠ 0 ∨ s.storesOk [(off.toNat, v)] = false) :
    exec (.registerWrite off v) s = .next s := by
  have refused : ¬ (s.imageRuns = true ∧ off.toNat % 8 = 0 ∧ s.storesOk [(off.toNat, v)] = true) := by
    rintro ⟨runs, aligned, ok⟩
    rcases h with h | h | h
    · exact Bool.false_ne_true (h.symm.trans runs)
    · exact h aligned
    · exact Bool.false_ne_true (h.symm.trans ok)
  exact congrArg Host.Outcome.next (if_neg refused)

/-- A store that its checks let through does what the write engine does. -/
theorem exec_registerWrite_of_ok {s : State} {off : BitVec 32} {v : Word} (runs : s.imageRuns = true) (aligned : off.toNat % 8 = 0)
    (ok : s.storesOk [(off.toNat, v)] = true) : exec (.registerWrite off v) s = .next (s.regStore 0 off.toNat v).1 :=
  congrArg Host.Outcome.next (if_pos ⟨runs, aligned, ok⟩)

theorem exec_registerWrite_plain {s : State} {off : BitVec 32} {n : Nat} {v : Word} (hn : off.toNat = n) (plain : n ∈ plainRegs)
    (runs : s.imageRuns = true) (ok : s.storesOk [(n, v)] = true) : exec (.registerWrite off v) s = .next (s.putReg n v) := by
  subst hn
  have aligned : ∀ r ∈ plainRegs, r % 8 = 0 := by decide
  rw [exec_registerWrite_of_ok runs (aligned _ plain) ok, State.regStore_of_plain s 0 v plain]

/-- Settles O8: a store that is refused leaves no trace (log entry 96), and one that is let through sets the fields of its register by
their access codes. -/
theorem storesWriteFields : Obligations.StoresWriteFields := by
  intro v s
  refine ⟨fun off => exec_registerWrite_refused, fun runs ok => ?_, fun runs ok => ?_, fun runs ok => ?_, fun runs ok => ?_,
    fun runs ok => ?_⟩
  · have field {f : Fld} (hf : (.rw, f) ∈ fieldsAt 0x01000020) := State.putReg_fget_rw s v laid_JNL_LIMIT_CTL hf
    rw [fieldsAt_JNL_LIMIT_CTL] at field
    exact ⟨_, exec_registerWrite_plain (n := 0x01000020) rfl (by decide) runs ok, State.putReg_same .., field (by decide), field (by decide),
      (field (by decide)).trans (by simp [R.JNL_LIMIT_CTL.DRAIN_LIMIT]),
      fun f => State.putReg_fget_other s v laid_JNL_LIMIT_CTL⟩
  · have field {f : Fld} (hf : (.rw, f) ∈ fieldsAt 0x01800010) := State.putReg_fget_rw s v laid_PRM_LINK_CTL hf
    rw [fieldsAt_PRM_LINK_CTL] at field
    exact ⟨_, exec_registerWrite_plain (n := 0x01800010) rfl (by decide) runs ok, State.putReg_same .., field (by decide), field (by decide),
      field (by decide), (field (by decide)).trans (by simp [R.PRM_LINK_CTL.RTO_NS]),
      fun f => State.putReg_fget_other s v laid_PRM_LINK_CTL⟩
  · rw [exec_registerWrite_plain (n := 0x02400408) rfl (by decide) runs ok, State.putReg_NET_STAT]
  · rw [exec_registerWrite_plain (n := 0) rfl (by decide) runs ok, State.putReg_readOnly s v (by simp [fieldsAt_SUP_IDENT])]
  · rw [exec_registerWrite_plain (n := 0x01000000) rfl (by decide) runs ok, State.putReg_readOnly s v (by simp [fieldsAt_JNL_STAT])]

end Sys2Proof.Machine
end

section
/-! COMMIT (R47, R254, R268, R269, R317, R649): what it does with the staged bytes of a Kiosk's task and with the staged stores of a program
of the Belvedere. -/

namespace Sys2Proof.Machine

/-! ## COMMIT of a context that issues -/

theorem exec_commit_of_runs {s : State} {c : Ctx} {gp : BitVec 3} {a : BitVec 5} {t : Task} (runs : s.Runs c)
    (guard : (s.ctx c.val).rp gp.toNat = true) (task : (s.ctx c.val).task = some t) : exec (.commit c gp 0 a 0) s =
      .next (if c.val = 4096 then s.commitStores t else s.commitTask c (s.counted c) t ((s.counted c).ra a)) := by
  refine congrArg Host.Outcome.next ((State.issue_runs runs guard rfl).trans ?_)
  simp only [State.counted_task, task]

/-! ## Staged bytes (R47, R254, R268, R269) -/

section Kiosk
variable (s : State) (c : Ctx) {x : CtxSt} (t : Task) (result : Word)

theorem State.commitTask_of_nothing (empty : x.staged = []) : s.commitTask c x t result =
    if s.readSetOk x.readSet then s.endTask c.val .ok 0 result.toNat else s.endTask c.val .conflict 0 0 := if_pos empty

theorem State.commitTask_of_tooLarge (staged : x.staged ≠ []) (large : commitTooLarge x = true) :
    s.commitTask c x t result = s.endTask c.val .limit 0 0 := by
  rw [State.commitTask, if_neg staged, if_pos large]

theorem State.commitTask_of_twin {g : Seg} (staged : x.staged ≠ []) (fits : commitTooLarge x = false) (mem : g ∈ stagedSegs x.staged)
    (twin : s.homeHere (extOf g.tile) = false) : s.commitTask c x t result = s.endTask c.val .conflict 0 0 := by
  have away : ((stagedSegs x.staged).any fun g => !s.homeHere (extOf g.tile)) = true := List.any_eq_true.mpr ⟨g, mem, by rw [twin]; rfl⟩
  rw [State.commitTask, if_neg staged, if_neg (by simp [fits]), if_pos away]

/-- The record that the staged bytes become, before it has its name. -/
def CtxSt.commitRec (x : CtxSt) (t : Task) : Rec :=
  { id := 0, body := .data (stagedSegs x.staged), mirror := true, tenant := t.tenant, origin := 3, owner := .ops [x.tag], readSet := x.readSet }

/-- Else the context waits for the record that is formed; the task's entry takes its result, and no other part of the state changes. -/
theorem State.commitTask_of_home (staged : x.staged ≠ []) (fits : commitTooLarge x = false)
    (home : ∀ g ∈ stagedSegs x.staged, s.homeHere (extOf g.tile) = true) : ∃ held : Tst, s.commitTask c x t result =
      ((({ s with tst := held } : State).formRec (x.commitRec t)).2).setCtx c.val { x with wait := .commit s.jnl.nextId } := by
  have here : ¬ ((stagedSegs x.staged).any fun g => !s.homeHere (extOf g.tile)) = true := by simpa using home
  rw [State.commitTask, if_neg staged, if_neg (by simp [fits]), if_neg here]
  cases AMap.find? s.tst.ops x.tag with
  | none => exact ⟨s.tst, rfl⟩
  | some o => exact ⟨_, rfl⟩

end Kiosk

/-! ## Staged stores (R317, R649) -/

theorem State.commitStores_of_refused (s : State) (t : Task) (refused : (s.storesOk s.ksk.stores && s.mapsOk s.ksk.stores) = false) :
    s.commitStores t = s.belvEnd .malformed := by
  simp only [State.commitStores, refused]
  rfl

/-- The state in which a setup program's stores are applied: the program is over, and its context is free. -/
def State.setupOver (s : State) : State :=
  let v := (s.endPlan (.ctx 4096)).setCtx 4096 {}
  { v with ksk := { v.ksk with stores := [], mgmtSrc := none } }

theorem State.commitStores_of_setup (s : State) (t : Task) (ok : (s.storesOk s.ksk.stores && s.mapsOk s.ksk.stores) = true)
    (setup : s.ksk.mgmtSrc = none) :
    let u := (s.setupOver.applyStores t.num s.ksk.stores).1
    s.commitStores t = if u.fget R.SUP_BOOT_STAT.STATE = 1 then u.fset R.SUP_BOOT_STAT.STATE 2 else u := by
  simp only [State.commitStores, ok, setup]
  rfl

/-- Settles O29, by what holds the commit up: a set that is empty, too large or another device's, and stores that a check refuses (CONFLICT
with nothing staged and cause 0: log entry 100; the Belvedere's end before its stores: log entry 97). -/
theorem commitFormsOneRecord : Obligations.CommitFormsOneRecord := by
  refine ⟨fun c gp a s t runs guard kiosk task => ?_, fun c gp a s t runs guard belvedere task => ?_⟩
  · rw [exec_commit_of_runs runs guard task, if_neg kiosk]
    refine ⟨fun empty held => ?_, fun empty broken => ?_, fun staged large => ?_, fun staged fits away => ?_, fun staged fits home => ?_⟩
    · rw [State.commitTask_of_nothing s c t _ empty, if_pos held]
    · rw [State.commitTask_of_nothing s c t _ empty, if_neg (by simp [broken])]
    · rw [State.commitTask_of_tooLarge s c t _ staged large]
    · obtain ⟨g, mem, twin⟩ := away
      rw [State.commitTask_of_twin s c t _ staged fits mem twin]
    · obtain ⟨held, formed⟩ := State.commitTask_of_home s c t ((s.counted c).ra a) staged fits home
      refine ⟨_, congrArg Host.Outcome.next formed, rfl, State.setCtx_ctx_same .., fun e other => ?_, rfl, rfl, rfl, rfl, rfl⟩
      exact State.setCtx_ctx_ne _ _ _ _ (Ne.symm other)
  · rw [exec_commit_of_runs runs guard task, if_pos belvedere]
    exact ⟨fun refused => congrArg Host.Outcome.next (State.commitStores_of_refused s t refused),
      fun ok setup => congrArg Host.Outcome.next (State.commitStores_of_setup s t ok setup)⟩

end Sys2Proof.Machine
end

section
/-! Rings and plans of a logical device (R34 to R36, R229, R439 to R443). -/

namespace Sys2Proof.Machine

/-! ## Ring registers (R440, R441; log entry 105) -/

section Ring
variable {s : State} {l : Fin 32} {r : Fin 8} {v : Word}

theorem State.ringBase_of_denied (bad : s.ringUsable l r = false ∨ v.toNat / 16 % 256 ≠ 0 ∨ 8 < v.toNat % 16
      ∨ (s.fget (R.CXL_RING_CFG.STATE (ringIx l r)) = 1 ∧ (s.ring (ringIx l r)).cons ≠ (s.ring (ringIx l r)).prod)) :
    s.ringBase l r v = s.denied := if_pos (bad.imp_left fun h => by simp [h])

/-- A base that is let through unbinds the ring where it is 0, and else binds it. -/
theorem State.ringBase_of_ok (usable : s.ringUsable l r = true) (reserved : v.toNat / 16 % 256 = 0) (size : v.toNat % 16 ≤ 8)
    (empty : s.fget (R.CXL_RING_CFG.STATE (ringIx l r)) ≠ 1 ∨ (s.ring (ringIx l r)).cons = (s.ring (ringIx l r)).prod) :
    s.ringBase l r v = if v.toNat / 4096 = 0 then s.ringUnbind (ringIx l r)
      else (s.fset (R.CXL_RING_CFG.STATE (ringIx l r)) 1).setRing (ringIx l r)
        { ci := (s.ring (ringIx l r)).ci, base := v.toNat / 4096 * 4096, size := 16 * 2 ^ (v.toNat % 16) } := by
  refine if_neg ?_
  rintro (h | h | h | ⟨active, unread⟩)
  · simp [usable] at h
  · exact h reserved
  · omega
  · exact empty.elim (fun h => h active) unread

theorem State.doorbell_of_active (active : s.fget (R.CXL_RING_CFG.STATE (ringIx l r)) = 1) (small : v.toNat < 2 ^ 32) :
    let k := s.ring (ringIx l r)
    s.doorbell l r v = if k.size < (v.toNat + 2 ^ 32 - k.cons) % 2 ^ 32 ∨ 2 ^ 31 ≤ (v.toNat + 2 ^ 32 - k.prod) % 2 ^ 32 then s.ringError l r
      else (s.setRing (ringIx l r) { k with prod := v.toNat }).ringPump l r := by
  refine (if_neg (by omega)).trans ?_
  simp only [Nat.mod_eq_of_lt small]

/-! ## The registers of a host that is up -/

section Up
variable (up : s.ldUp l.val = true)
include up

theorem exec_ringBase (r : Fin 8) (v : Word) : exec (.ringBase l r v) s = .next (s.ringBase l r v) := congrArg Host.Outcome.next (if_pos up)
theorem exec_ciAddr (r : Fin 8) (v : Word) : exec (.ciAddr l r v) s = .next (s.ciAddr l r v) := congrArg Host.Outcome.next (if_pos up)
theorem exec_doorbell (r : Fin 8) (v : Word) : exec (.doorbell l r v) s = .next (s.doorbell l r v) := congrArg Host.Outcome.next (if_pos up)
theorem exec_planStatAddr (v : Word) : exec (.planStatAddr l v) s = .next (s.planStatAddr l v) := congrArg Host.Outcome.next (if_pos up)
theorem exec_planSubmit (v : Word) : exec (.planSubmit l v) s = .next (s.planSubmit l v) := congrArg Host.Outcome.next (if_pos up)

/-! ## Accesses to control space (R34 to R36, R439) -/

theorem exec_cxlDeniedAccess_of_unfit (write : Bool) {a : HostAccess} (unfit : a.len ≠ 8 ∨ a.off.toNat % 8 ≠ 0) :
    exec (.cxlDeniedAccess l write a) s = .next (s.emit (.pciUr l.val)) := by
  refine congrArg Host.Outcome.next ?_
  rw [if_neg (by simp [up]), if_pos unfit]

theorem exec_cxlDeniedAccess_write {off : BitVec 26} (v : Word) (aligned : off.toNat % 8 = 0) :
    exec (.cxlDeniedAccess l true ⟨off, 8, v⟩) s = .next
      (if off.toNat / 65536 = 0x2E0 + l.val then s.doorStore l (off.toNat % 65536) v else s.denied) := by
  refine congrArg Host.Outcome.next ?_
  rw [if_neg (by simp [up]), if_neg (by simp [aligned]), if_pos rfl]

theorem exec_cxlDeniedAccess_read {off : BitVec 26} (v : Word) (aligned : off.toNat % 8 = 0) :
    exec (.cxlDeniedAccess l false ⟨off, 8, v⟩) s = .next
      (if s.hostMayRead l.val off.toNat then s.emit (.ioData l.val (s.regRead off.toNat)) else s.denied.emit (.ioData l.val 0)) := by
  refine congrArg Host.Outcome.next ?_
  rw [if_neg (by simp [up]), if_neg (by simp [aligned]), if_neg (by simp)]

/-- A write to the host's own doorbell page acts on the word it names. -/
theorem exec_cxlDeniedAccess_door {off : BitVec 26} {w : Nat} (v : Word) (aligned : off.toNat % 8 = 0)
    (named : off.toNat = 0x2E00000 + 65536 * l.val + w) (inPage : w < 65536) :
    exec (.cxlDeniedAccess l true ⟨off, 8, v⟩) s = .next (s.doorStore l w v) := by
  have page : off.toNat / 65536 = 0x2E0 + l.val := by omega
  have word : off.toNat % 65536 = w := by omega
  rw [exec_cxlDeniedAccess_write up v aligned, if_pos page, word]

end Up

theorem State.hostMayRead_of_shared {n off : Nat} (shared : off = 0 ∨ off / 4096 = 0x3000 ∨ off / 4096 = 0x3001 + n) :
    s.hostMayRead n off = true := by
  rcases shared with h | h | h <;> simp [State.hostMayRead, h]

theorem ofNat_ringWord {k : Nat} (small : k < 32) : Fin.ofNat 8 ((32 * r.val + k) / 32) = r :=
  Fin.ext (by rw [Fin.val_ofNat]; omega)

theorem State.doorStore_base : s.doorStore l (32 * r.val) v = s.ringBase l r v := by
  have word : 32 * r.val % 32 = 0 := by omega
  have ring := ofNat_ringWord (r := r) (k := 0) (by decide)
  rw [State.doorStore, if_pos (by omega), word]
  exact congrArg (s.ringBase l · v) ring

theorem State.doorStore_ci : s.doorStore l (32 * r.val + 8) v = s.ciAddr l r v := by
  have word : (32 * r.val + 8) % 32 = 8 := by omega
  rw [State.doorStore, if_pos (by omega), word]
  exact congrArg (s.ciAddr l · v) (ofNat_ringWord (by decide))

theorem State.doorStore_doorbell : s.doorStore l (32 * r.val + 16) v = s.doorbell l r v := by
  have word : (32 * r.val + 16) % 32 = 16 := by omega
  rw [State.doorStore, if_pos (by omega), word]
  exact congrArg (s.doorbell l · v) (ofNat_ringWord (by decide))

/-! ## Batches of descriptors (R441, R442) -/

theorem exec_ringFetchDone_of_unasked (ok : Bool) (ds : List Bytes)
    (unasked : s.fget (R.CXL_RING_CFG.STATE (ringIx l r)) ≠ 1 ∨ (s.ring (ringIx l r)).asked = 0) :
    exec (.ringFetchDone l r ok ds) s = .next s := congrArg Host.Outcome.next (if_pos unasked)

section Asked
variable (active : s.fget (R.CXL_RING_CFG.STATE (ringIx l r)) = 1) (asked : (s.ring (ringIx l r)).asked ≠ 0)
include active asked

theorem exec_ringFetchDone_of_failed (ds : List Bytes) : exec (.ringFetchDone l r false ds) s = .next (s.ringError l r) :=
  congrArg Host.Outcome.next (if_neg (by simp [active, asked]))

/-- A batch as long as asked for enters a queue with room: the consumer index is written and the ring runs on. -/
theorem exec_ringFetchDone_of_batch {ds : List Bytes} (whole : ds.length = (s.ring (ringIx l r)).asked) :
    let q := s.fget (R.CXL_RING_CFG.QUEUE (ringIx l r))
    let u := s.setRing (ringIx l r) { s.ring (ringIx l r) with asked := 0 }
    let cons := ((s.ring (ringIx l r)).cons + ds.length) % 2 ^ 32
    let w := ds.foldl (fun (s : State) d => s.acceptDesc q d) u
    u.queueRoom q ds.length = true → exec (.ringFetchDone l r true ds) s =
      .next (((w.setRing (ringIx l r) { w.ring (ringIx l r) with cons := cons }).emit
        (.ldWrite l.val (s.ring (ringIx l r)).ci (natLe 8 cons))).ringPump l r) := by
  intro q u cons w room
  refine congrArg Host.Outcome.next ?_
  rw [if_neg (by simp [active, asked]), if_neg (by simp), if_neg (not_not.mpr whole)]
  exact if_neg (by rw [room]; decide)

end Asked
end Ring

/-! ## Plans (R229, R443) -/

section Plan
variable {s : State} {l : Fin 32} {v : Word}

theorem State.planSubmit_of_misaligned (bad : v.toNat % 32 ≠ 0) : s.planSubmit l v = s.denied := by
  have named : v ≠ 0 := by rintro rfl; exact bad rfl
  rw [State.planSubmit, if_neg named, if_pos bad]

theorem State.planSubmit_of_address (named : v ≠ 0) (aligned : v.toNat % 32 = 0) : s.planSubmit l v =
    (s.setLd l.val { s.ld l.val with planAddrs := (s.ld l.val).planAddrs ++ [v.toNat] }).emit (.hostRead l.val v.toNat 32) := by
  rw [State.planSubmit, if_neg named, if_neg (not_not.mpr aligned)]

/-- The status of a submitted plan, with the number it carries, is written for its host. -/
def State.sayPlan (s : State) (l : Fin 32) (b : Bytes) (st : Status) : State :=
  s.emit (.ldWrite l.val (s.ld l.val).planStat (slice b 8 8 ++ natLe 1 st.code ++ natLe 7 0))

theorem exec_planReadDone_of_none (b : Bytes) (idle : (s.ld l.val).planAddrs = []) : exec (.planReadDone l b) s = .next s := by
  refine congrArg Host.Outcome.next ?_
  rw [idle]

section Submitted
variable {x : Nat} {rest : List Nat} {b : Bytes} (submitted : (s.ld l.val).planAddrs = x :: rest)
include submitted

theorem exec_planReadDone_of_malformed {u : State} (taken : u = s.setLd l.val { s.ld l.val with planAddrs := rest })
    (bad : parsePlan b (u.ldTenant l.val) u.timeNs = none) : exec (.planReadDone l b) s = .next (u.sayPlan l b .malformed) := by
  subst taken
  refine congrArg Host.Outcome.next ?_
  simp only [submitted, bad]
  rfl

/-- A plan that reads well is taken, unless it is a new one beyond the 4,096 of all hosts. -/
theorem exec_planReadDone_of_plan {u : State} {pl : Plan} (taken : u = s.setLd l.val { s.ld l.val with planAddrs := rest })
    (good : parsePlan b (u.ldTenant l.val) u.timeNs = some pl) : exec (.planReadDone l b) s = .next
      (if (u.planOf (.ld l)).isNone = true ∧ 4096 ≤ u.hostPlans then u.sayPlan l b .nospace
       else (u.declarePlan (.ld l) pl).sayPlan l b .ok) := by
  refine congrArg Host.Outcome.next ?_
  by_cases full : (u.planOf (.ld l)).isNone = true ∧ 4096 ≤ u.hostPlans
  · subst taken
    simp only [submitted, good, if_pos full]
    rfl
  · subst taken
    simp only [submitted, good, if_neg full]
    rfl

end Submitted
end Plan

/-- Settles O51: the registers of a host that is up, its accesses to control space, and the two reads it answers. -/
theorem ringsAndPlansAreServed : Obligations.RingsAndPlansAreServed := by
  intro l r v s
  refine ⟨fun up => ⟨fun bad => ?_, fun usable reserved size empty => ?_, fun bad => ?_, fun aligned => ?_, fun inactive => ?_,
      fun active small => ?_, fun cancel => ?_, fun bad => ?_, fun named aligned => ?_,
      fun off write len unfit => exec_cxlDeniedAccess_of_unfit up write unfit, fun off aligned => ?_⟩,
    exec_ringFetchDone_of_unasked, fun ds active asked => exec_ringFetchDone_of_failed active asked ds,
    fun ds active asked whole => exec_ringFetchDone_of_batch active asked whole,
    fun b => ⟨exec_planReadDone_of_none b, fun x rest submitted => ⟨exec_planReadDone_of_malformed submitted rfl, fun pl good => ?_⟩⟩⟩
  · rw [exec_ringBase up, State.ringBase_of_denied bad]
    rfl
  · rw [exec_ringBase up, State.ringBase_of_ok usable reserved size empty]
    refine ⟨fun unbind => ?_, fun bind => ?_⟩
    · rw [if_pos unbind]
      exact ⟨_, rfl, (State.fset_fget_same s _ 0).trans (Nat.zero_mod _), State.setRing_ring_same ..⟩
    · rw [if_neg bind]
      exact ⟨_, rfl, State.fset_fget_same s _ 1, State.setRing_ring_same ..⟩
  · rw [exec_ciAddr up, exec_planStatAddr up, State.ciAddr, State.planStatAddr, if_pos bad, if_pos bad]
    exact ⟨rfl, rfl⟩
  · rw [exec_ciAddr up, exec_planStatAddr up, State.ciAddr, State.planStatAddr, if_neg (not_not.mpr aligned), if_neg (not_not.mpr aligned)]
    exact ⟨rfl, rfl⟩
  · rw [exec_doorbell up]
    exact congrArg Host.Outcome.next (if_pos inactive)
  · rw [exec_doorbell up, State.doorbell_of_active active small]
    refine ⟨fun impossible => ?_, fun room ahead => ?_⟩
    · rw [if_pos impossible]
      rfl
    · rw [if_neg (by omega)]
  · rw [exec_planSubmit up, State.planSubmit, if_pos cancel]
  · rw [exec_planSubmit up, State.planSubmit_of_misaligned bad]
    rfl
  · rw [exec_planSubmit up, State.planSubmit_of_address named aligned]
  · refine ⟨fun elsewhere => ?_, fun h => ?_, fun h => ?_, fun h => ?_, fun h => ?_, fun h => ?_, fun shared => ?_, fun hidden => ?_⟩
    · rw [exec_cxlDeniedAccess_write up v aligned, if_neg elsewhere]
      rfl
    · rw [exec_cxlDeniedAccess_door up v aligned h (by omega), State.doorStore_base, exec_ringBase up]
    · rw [exec_cxlDeniedAccess_door up v aligned (w := 32 * r.val + 8) (by omega) (by omega), State.doorStore_ci, exec_ciAddr up]
    · rw [exec_cxlDeniedAccess_door up v aligned (w := 32 * r.val + 16) (by omega) (by omega), State.doorStore_doorbell, exec_doorbell up]
    · rw [exec_cxlDeniedAccess_door up v aligned h (by omega), exec_planStatAddr up]
      rfl
    · rw [exec_cxlDeniedAccess_door up v aligned h (by omega), exec_planSubmit up]
      rfl
    · have shared : off.toNat = 0 ∨ off.toNat / 4096 = 0x3000 ∨ off.toNat / 4096 = 0x3001 + l.val := shared.imp_left fun h => by rw [h]; rfl
      rw [exec_cxlDeniedAccess_read up v aligned, if_pos (State.hostMayRead_of_shared shared)]
    · rw [exec_cxlDeniedAccess_read up v aligned, if_neg (by simp [hidden])]
      rfl
  · rw [exec_planReadDone_of_plan submitted rfl good]
    refine ⟨fun new full => ?_, fun room => ?_⟩
    · rw [if_pos ⟨new, full⟩]
      rfl
    · rw [if_neg (fun ⟨new, full⟩ => room.elim (fun h => by simp [new] at h) (by omega))]
      rfl

end Sys2Proof.Machine
end

section
/-! Tenants, enrolment and the cipher cores (R27, R452, R454, R455, R464, R467). -/

namespace Sys2Proof.Machine

/-! ## Tenants (R452) -/

theorem State.createTenant_of_ok {s : State} {t : BitVec 24} (who : Nat) (named : t ≠ 0)
    (ok : s.attrCheck (.tenantCreate t s.stagedHash (BitVec.ofNat 32 (s.fget R.GTH_TEN_STAT.NEXT_EPOCH))) = none) :
    s.createTenant t who = s.formAttr (.tenantCreate t s.stagedHash (BitVec.ofNat 32 (s.fget R.GTH_TEN_STAT.NEXT_EPOCH))) (.mgmt who) :=
  if_neg (not_or.mpr ⟨named, by simp [ok]⟩)

theorem State.destroyTenant_of_ok {s : State} {t : BitVec 24} (who : Nat) (named : t ≠ 0) (ok : s.attrCheck (.tenantDestroy t) = none) :
    s.destroyTenant t who = s.formAttr (.tenantDestroy t) (.mgmt who) :=
  if_neg (not_or.mpr ⟨named, by simp [ok]⟩)

/-! ## Enrolment (R454, R455; log entry 73) -/

theorem exec_process_of_refused {n : BitVec 16} (x y : Bool) {s : State}
    (h : n = 0 ∨ 32768 < n.toNat ∨ s.flag R.GTH_ENROL_STAT.BUSY = true) :
    exec (.process n x y) s = .next (s.fset R.GTH_STAT.CMD_REFUSED 1) := by
  refine congrArg Host.Outcome.next ?_
  by_cases length : n = 0 ∨ 32768 < n.toNat
  · exact if_pos length
  · have busy : s.flag R.GTH_ENROL_STAT.BUSY = true := by tauto
    rw [if_neg length, State.enrol, if_pos busy]

theorem exec_process_of_length {n : BitVec 16} (x y : Bool) {s : State} (some_bytes : n ≠ 0) (fits : n.toNat ≤ 32768) :
    exec (.process n x y) s = .next (s.enrol n.toNat (x && y)) :=
  congrArg Host.Outcome.next (if_neg (not_or.mpr ⟨some_bytes, not_lt.mpr fits⟩))

theorem State.enrol_of_refusal {s : State} {n : Nat} {sigs : Bool} {st : Status} (idle : s.flag R.GTH_ENROL_STAT.BUSY = false)
    (refused : s.enrolRefusal (s.reqBytes n) sigs = some st) : s.enrol n sigs = s.refuseEnrol (fieldAt (s.reqBytes n) 4 3) st.code := by
  rw [State.enrol, if_neg (by simp [idle])]
  simp only [refused]

/-- What a request that passes asks for: its tenant enrolled, at the next epoch where it rotates. -/
def State.enrolAttr (s : State) (r : Bytes) : Attr :=
  .tenantEnrol (BitVec.ofNat 24 (fieldAt r 4 3))
    (if fieldAt r 3 1 % 2 = 1 then some (BitVec.ofNat 32 (s.fget R.GTH_TEN_STAT.NEXT_EPOCH)) else none) (fieldAt r 3 1 / 2 % 2 = 1)
    (BitVec.ofNat 384 (leNat (sha3_384 (slice r 4297 97))))

theorem State.enrol_of_ok {s : State} {n : Nat} {sigs : Bool} (idle : s.flag R.GTH_ENROL_STAT.BUSY = false)
    (ok : s.enrolRefusal (s.reqBytes n) sigs = none) : s.enrol n sigs =
      (({ s with gth := { s.gth with req := s.reqBytes n } }).fset R.GTH_ENROL_STAT.BUSY 1).formAttr (s.enrolAttr (s.reqBytes n)) .enrol := by
  rw [State.enrol, if_neg (by simp [idle])]
  simp only [ok]
  rfl

theorem State.enrolRefusal_of_malformed {s : State} {r : Bytes} (sigs : Bool)
    (bad : r.length ≠ 9117 ∨ fieldAt r 0 2 ≠ 0x3E77 ∨ fieldAt r 2 1 ≠ 1 ∨ 4 ≤ fieldAt r 3 1 ∨ fieldAt r 7 1 ≠ 0) :
    s.enrolRefusal r sigs = some .malformed := if_pos bad

/-- The response that follows an enrolment's record: a refusal where the tenant is gone or the record failed, else the tenant's key. -/
def State.enrolAnswer (s : State) (k : Bytes) (m : BitVec 256) (pub ex : Bytes) : State :=
  let st := s.fget R.GTH_ENROL_STAT.STATUS
  let t := fieldAt s.gth.req 4 3
  match s.tenant (BitVec.ofNat 24 t) with
  | some e => if 1 < st then s.refuseEnrol t st
      else (s.putResponse (s.enrolBody (s.say .ok).code e k m pub ex)).fset R.GTH_ENROL_STAT.STATUS (s.say .ok).code
  | none => s.refuseEnrol t (if 1 < st then st else Status.access.code)

/-- The engine forgets the request and is idle. -/
def State.enrolClosed (s : State) : State := ({ s with gth := { s.gth with req := [] } }).fset R.GTH_ENROL_STAT.BUSY 0

theorem exec_enrolResponse_of_open {s : State} (k : Bytes) (m : BitVec 256) (pub ex : Bytes)
    (early : s.flag R.GTH_ENROL_STAT.BUSY = false ∨ s.enrolOpen = true) : exec (.enrolResponse k m pub ex) s = .next s :=
  congrArg Host.Outcome.next (if_pos (by simpa using early))

theorem exec_enrolResponse_of_done {s : State} (k : Bytes) (m : BitVec 256) (pub ex : Bytes) (busy : s.flag R.GTH_ENROL_STAT.BUSY = true)
    (done : s.enrolOpen = false) : exec (.enrolResponse k m pub ex) s = .next (s.enrolAnswer k m pub ex).enrolClosed := by
  refine congrArg Host.Outcome.next ((if_neg (by simp [busy, done])).trans ?_)
  rfl

/-! ## Cipher cores (R464, R467; log entry 74) -/

theorem State.coreUp_iff {s : State} {i : Nat} :
    s.coreUp i = true ↔ s.fget (R.GTH_CORE_STAT.STATE i) = 0 ∧ coreWave i ≤ s.fget R.PWR_STAT.WAVE := by
  simp [State.coreUp, and_comm]

theorem State.coreUp_false_iff {s : State} {i : Nat} :
    s.coreUp i = false ↔ s.fget (R.GTH_CORE_STAT.STATE i) ≠ 0 ∨ s.fget R.PWR_STAT.WAVE < coreWave i := by
  rw [← Bool.not_eq_true, State.coreUp_iff, not_and_or, not_le]

theorem exec_katTimer (i : Fin 96) (ok : Bool) (s : State) : exec (.katTimer i ok) s =
    .next (if ok = true ∨ s.coreUp i.val = false then s else (s.sat R.GTH_CNT1.KAT_FAIL).fenceCore i.val 2) := by
  refine congrArg Host.Outcome.next ?_
  simp only [Bool.not_eq_true']

theorem State.coreRestore_of_fenced {s : State} {i : Nat} (kat : Bool) (fenced : s.fget (R.GTH_CORE_STAT.STATE i) = 2)
    (wave : coreWave i ≤ s.fget R.PWR_STAT.WAVE) : s.coreRestore i kat =
      if kat then ((s.fset (R.GTH_CORE_STAT.STATE i) 0).fset (R.GTH_CORE_STAT.CAUSE i) 0).noteCores
      else (s.sat R.GTH_CNT1.KAT_FAIL).fenceCore i 2 := by
  rw [State.coreRestore, if_neg (by omega)]

/-- Settles O52: each command by what refuses it and what it then does. -/
theorem tenantsEnrolAndCoresTest : Obligations.TenantsEnrolAndCoresTest := by
  refine ⟨fun t s => ⟨fun refused => ?_, fun named ok => ?_, fun refused => ?_, fun named ok => ?_⟩,
    fun n x y s => ⟨exec_process_of_refused x y, fun some_bytes fits idle => ?_, State.enrolRefusal_of_malformed _⟩,
    fun k m pub ex s => ⟨exec_enrolResponse_of_open k m pub ex, fun busy done => ?_⟩, fun i s => ?_⟩
  · exact congrArg Host.Outcome.next (if_pos refused)
  · exact congrArg Host.Outcome.next (State.createTenant_of_ok 0 named ok)
  · exact congrArg Host.Outcome.next (if_pos refused)
  · exact congrArg Host.Outcome.next (State.destroyTenant_of_ok 0 named ok)
  · rw [exec_process_of_length x y some_bytes fits]
    exact ⟨fun st refused => congrArg Host.Outcome.next (State.enrol_of_refusal idle refused),
      fun ok => congrArg Host.Outcome.next (State.enrol_of_ok idle ok)⟩
  · rw [exec_enrolResponse_of_done k m pub ex busy done]
    refine ⟨fun gone => ?_, fun e held => ⟨fun failed => ?_, fun durable => ?_⟩⟩
    · simp only [State.enrolAnswer, gone]
      rfl
    · simp only [State.enrolAnswer, held, if_pos failed]
      rfl
    · simp only [State.enrolAnswer, held, if_neg (Nat.not_lt.mpr durable)]
      rfl
  · refine ⟨fun run wave => ?_, fun down => ?_, ?_, fun fenced wave => ?_, fun unfit ok => congrArg Host.Outcome.next (if_pos unfit)⟩
    · have up : s.coreUp i.val = true := State.coreUp_iff.mpr ⟨run, wave⟩
      rw [exec_katTimer, if_neg (by simp [up])]
      exact ⟨congrArg Host.Outcome.next (if_pos up), rfl⟩
    · have off : s.coreUp i.val = false := State.coreUp_false_iff.mpr down
      rw [exec_katTimer, if_pos (Or.inr off)]
      exact ⟨congrArg Host.Outcome.next (if_neg (by simp [off])), rfl⟩
    · rw [exec_katTimer, if_pos (Or.inl rfl)]
    · exact ⟨congrArg Host.Outcome.next ((State.coreRestore_of_fenced true fenced wave).trans (if_pos rfl)),
        congrArg Host.Outcome.next ((State.coreRestore_of_fenced false fenced wave).trans (if_neg Bool.false_ne_true))⟩

end Sys2Proof.Machine
end

section
/-! MGMTBUS as target, the MCTP endpoint and the recovery of the buses (R34, R590, R591, R593 to R599, R602 to R604). -/

namespace Sys2Proof.Machine

section Bus
variable {s : State} (up : s.busUp = true)
include up

/-! ## Packets and arbitration (R590, R591, R593) -/

/-- Where the device begins no packet at the same instant, the packet is heard. -/
theorem exec_mctpPacket_alone {p : MctpPacket} (alone : p.atOnce = false ∨ s.twb.txq = []) :
    exec (.mctpPacket p) s = .next (s.hearMctp p) := by
  have none_begun : (if p.atOnce then s.twb.txq.head? else none) = none := by
    rcases alone with h | h <;> simp [h]
  refine congrArg Host.Outcome.next ?_
  rw [if_neg (by simp [up]), none_begun]

/-- Where it begins one, the bus is arbitrated. -/
theorem exec_mctpPacket_atOnce {p : MctpPacket} {m : BitVec 7 × Bytes × Nat} {q : List (BitVec 7 × Bytes × Nat)} (once : p.atOnce = true)
    (begun : s.twb.txq = m :: q) : exec (.mctpPacket p) s = .next (if arbWon p m.1 then s.arbLost p else s.flushMctp) := by
  have head : (if p.atOnce then s.twb.txq.head? else none) = some m := by simp [once, begun]
  refine congrArg Host.Outcome.next ?_
  rw [if_neg (by simp [up]), head]

omit up

theorem State.hearMctp_of_other {p : MctpPacket} (other : p.addr.toNat ≠ s.fget (R.TWB_CFG.TARGET_ADDR 1)) : s.hearMctp p = s :=
  if_pos other

/-- At the target's address, a bad form or a failing PEC is not acknowledged (R593). -/
theorem State.hearMctp_of_target {p : MctpPacket} (here : p.addr.toNat = s.fget (R.TWB_CFG.TARGET_ADDR 1)) :
    s.hearMctp p = if p.formOk = false then s.busNack false else if p.pecOk = false then s.busNack true else s := by
  rw [State.hearMctp, if_neg (not_not.mpr here)]
  simp only [Bool.not_eq_true']

theorem arbWon_iff {p : MctpPacket} {dst : BitVec 7} :
    arbWon p dst = true ↔ p.addr.toNat < dst.toNat ∨ (p.addr = dst ∧ p.losesLater = true) := by
  simp [arbWon]

theorem State.arbLost_of_other {p : MctpPacket} (other : p.addr.toNat ≠ s.fget (R.TWB_CFG.TARGET_ADDR 1)) :
    s.arbLost p = (s.sat (R.TWB_CNT0.ARB_LOST 1)).flushMctp := by
  have same : (s.sat (R.TWB_CNT0.ARB_LOST 1)).fget (R.TWB_CFG.TARGET_ADDR 1) = s.fget (R.TWB_CFG.TARGET_ADDR 1) :=
    State.fset_fget_ne _ _ _ _ (by decide)
  simp only [State.arbLost, same, if_neg other]

theorem State.arbLost_of_target {p : MctpPacket} (here : p.addr.toNat = s.fget (R.TWB_CFG.TARGET_ADDR 1)) :
    s.arbLost p = (((s.sat (R.TWB_CNT0.ARB_LOST 1)).sat (R.TWB_CNT1.ROLE_SWITCHES 1)).hearMctp p).flushMctp := by
  have same : (s.sat (R.TWB_CNT0.ARB_LOST 1)).fget (R.TWB_CFG.TARGET_ADDR 1) = s.fget (R.TWB_CFG.TARGET_ADDR 1) :=
    State.fset_fget_ne _ _ _ _ (by decide)
  simp only [State.arbLost, same, if_pos here]

/-! ## Reads and the latch (R34, R594, R595) -/

include up

theorem exec_mgmtRegisterRead_badPec (off : BitVec 32) : exec (.mgmtRegisterRead off false) s = .next (s.busNack true) :=
  congrArg Host.Outcome.next (if_neg (by simp [up]))

theorem exec_mgmtRegisterRead (off : BitVec 32) : exec (.mgmtRegisterRead off true) s = .next
    (if off.toNat % 8 ≠ 0 ∨ 0x04000000 ≤ off.toNat then s.emit (.mgmtRead 0x0E 0)
     else if off.toNat < 0x300000 ∨ (0x3000000 ≤ off.toNat ∧ off.toNat < 0x3001000) then s.emit (.mgmtRead 0 (s.regRead off.toNat))
     else s.emit (.mgmtRead 0x04 0)) := by
  refine congrArg Host.Outcome.next ?_
  rw [if_neg (by simp [up]), if_neg (by simp)]
  simp only [mgmtReadable, decide_eq_true_eq]

theorem exec_mgmtClearLatch (d : Byte) (ok : Bool) : exec (.mgmtClearLatch d ok) s =
    .next (if d ≠ 0x5A then s.busNack false else if !ok then s.busNack true else s.clearLatch) :=
  congrArg Host.Outcome.next (if_neg (by simp [up]))

/-! ## The MCTP endpoint (R597; log entry 76) -/

theorem exec_setEndpointId (src : BitVec 7) (e : Byte) : exec (.setEndpointId src e) s = .next
    (if e = 0 ∨ e = 0xFF then s.mctpAnswer src 0x01 [0x02]
     else (s.fset R.TWB_MCTP_STAT.EID e.toNat).mctpAnswer src 0x01 [0x00, 0x00, e, 0x00]) :=
  congrArg Host.Outcome.next (if_neg (by simp [up]))

theorem exec_getEndpointId (src : BitVec 7) : exec (.getEndpointId src) s =
    .next (s.mctpAnswer src 0x02 [0x00, BitVec.ofNat 8 (s.fget R.TWB_MCTP_STAT.EID), 0x00, 0x00]) :=
  congrArg Host.Outcome.next (if_neg (by simp [up]))

theorem exec_getMctpVersionSupport (src : BitVec 7) (typ : Byte) : exec (.getMctpVersionSupport src typ) s = .next
    (if typ ∈ ([0xFF, 0x00, 0x05, 0x06] : List Byte) then (s.drawBytes 4).2.mctpAnswer src 0x04 ([0x00, 0x01] ++ (s.drawBytes 4).1)
     else s.mctpAnswer src 0x04 [0x80]) := by
  refine congrArg Host.Outcome.next ((if_neg (by simp [up])).trans ?_)
  simp only [List.contains_iff_mem]

theorem exec_getMessageTypeSupport (src : BitVec 7) :
    exec (.getMessageTypeSupport src) s = .next (s.mctpAnswer src 0x05 [0x00, 0x02, 0x05, 0x06]) :=
  congrArg Host.Outcome.next (if_neg (by simp [up]))

/-! ## Sessions (R598; log entry 93) -/

omit up

/-- Without an endpoint ID the endpoint takes no session traffic. -/
theorem exec_mctpSpdm_of_noEid (src : BitVec 7) (m : SpdmStep) (eid : s.fget R.TWB_MCTP_STAT.EID = 0) : exec (.mctpSpdm src m) s = .next s :=
  congrArg Host.Outcome.next (if_pos (Or.inr eid))

theorem exec_mctpSecuredMessage_of_noEid (src : BitVec 7) (n : Fin 2) (d : Bytes) (eid : s.fget R.TWB_MCTP_STAT.EID = 0) :
    exec (.mctpSecuredMessage src n d) s = .next s := congrArg Host.Outcome.next (if_pos (Or.inr eid))

/-- What an SPDM message does to the sessions. -/
def State.spdmSession (s : State) : SpdmStep → State
  | .request _ => s
  | .opened both h => s.openSession both h
  | .closed n => s.setSession n.val none

section Eid
variable (eid : s.fget R.TWB_MCTP_STAT.EID ≠ 0)
include up eid

theorem exec_mctpSpdm (src : BitVec 7) (m : SpdmStep) : exec (.mctpSpdm src m) s = .next ((s.spdmSession m).sendMctp src [0x05]) := by
  refine congrArg Host.Outcome.next ((if_neg (by simp [up, eid])).trans ?_)
  cases m <;> rfl

theorem exec_mctpSecuredMessage_of_none (src : BitVec 7) (n : Fin 2) (d : Bytes) (none : s.session n.val = none) :
    exec (.mctpSecuredMessage src n d) s = .next s := by
  refine congrArg Host.Outcome.next ((if_neg (by simp [up, eid])).trans ?_)
  simp only [none]

theorem exec_mctpSecuredMessage_of_ended (src : BitVec 7) (n : Fin 2) (d : Bytes) {x : Session} (held : s.session n.val = some x)
    (ended : s.sessionOk x = false) : exec (.mctpSecuredMessage src n d) s = .next (s.setSession n.val none) := by
  refine congrArg Host.Outcome.next ((if_neg (by simp [up, eid])).trans ?_)
  simp only [held, ended]
  exact if_pos (Or.inl rfl)

theorem exec_mctpSecuredMessage_of_qualifies (src : BitVec 7) (n : Fin 2) (d : Bytes) {x : Session} (held : s.session n.val = some x)
    (ok : s.sessionOk x = true) (qualifies : x.qualifies = true) (room : s.ksk.mgmt.length < 64) :
    exec (.mctpSecuredMessage src n d) s = .next (s.acceptMgmt d (.mctp n.val src)) := by
  refine congrArg Host.Outcome.next ((if_neg (by simp [up, eid])).trans ?_)
  simp only [held]
  rw [if_neg (by simp [ok, qualifies]), if_neg (by omega)]

end Eid

omit up

theorem State.openSession_first {both : Bool} {h : BitVec 384} (free : s.twb.s0 = none) :
    ∃ x : Session, x.bothAuth = both ∧ (s.openSession both h).twb.s0 = some x := by
  simp only [State.openSession, free]
  exact ⟨_, rfl, rfl⟩

end Bus

/-! ## Timeouts and recovery (R599, R602 to R604) -/

theorem exec_mctpSendTimeout_of_none {s : State} (none : s.twb.txq = []) : exec .mctpSendTimeout s = .next s := by
  refine congrArg Host.Outcome.next ?_
  rw [none]

theorem exec_mctpSendTimeout_of_begun {s : State} {m : BitVec 7 × Bytes × Nat} {q : List (BitVec 7 × Bytes × Nat)}
    (begun : s.twb.txq = m :: q) :
    exec .mctpSendTimeout s = .next (({ s with twb := { s.twb with txq := q } }).sat (R.TWB_CNT1.MCTP_DROP 1)) := by
  refine congrArg Host.Outcome.next ?_
  rw [begun]

/-- A bus is recovered: `n` clocks and a STOP; it is stuck where SDA stays low. -/
def State.busRecovered (s : State) (b : Fin 2) (n : Nat) (stuck : Bool) : State :=
  (((s.sat (R.TWB_CNT1.RECOVERIES b.val)).emit (.busClocks b.val n)).emit (.busStop b.val)).fput (R.TWB_STAT.BUS_STUCK b.val) stuck

theorem exec_busRecovery_of_off {s : State} {b : Fin 2} (n : Fin 10) (off : s.pwr.por = true ∨ s.flag (R.TWB_CFG.RECOVER_EN b.val) = false) :
    exec (.busRecovery b n) s = .next s :=
  congrArg Host.Outcome.next (if_pos (off.imp id fun h => by simp [h]))

theorem exec_busRecovery {s : State} {b : Fin 2} (n : Fin 10) (por : s.pwr.por = false) (on : s.flag (R.TWB_CFG.RECOVER_EN b.val) = true) :
    exec (.busRecovery b n) s = .next (if b = 1 ∧ n ≠ 0 then (s.busRecovered b (if n = 0 then 9 else n.val) (n == 0)).flushMctp
      else s.busRecovered b (if n = 0 then 9 else n.val) (n == 0)) :=
  congrArg Host.Outcome.next (if_neg (by simp [por, on]))

theorem exec_clockLowTimeout (s : State) (b : Fin 2) : exec (.clockLowTimeout b) s = .next (if s.pwr.por then s
    else (((s.sat (R.TWB_CNT0.TIMEOUTS b.val)).fset (R.TWB_STAT.STRETCH_TMO b.val) 1).fset (R.TWB_STAT.ROLE b.val) 0).emit (.busStop b.val)) := rfl

/-- Settles O58, command by command (log entries 76, 93, 141): a bus whose controller answers, one whose controller does not, and what needs
no controller. -/
theorem managementBusAnswers : Obligations.ManagementBusAnswers := by
  refine ⟨fun s up => ⟨fun p => ⟨fun alone => ?_, fun m q once begun => ?_⟩, fun off => ?_, fun d ok wrong => ?_, ?_, ?_, fun src => ?_,
    fun both h free => State.openSession_first free⟩, fun s down => ?_,
    fun s => ⟨exec_mctpSendTimeout_of_none, fun m q => exec_mctpSendTimeout_of_begun, fun b => ?_⟩⟩
  · rw [exec_mctpPacket_alone up alone]
    refine ⟨fun other => by rw [State.hearMctp_of_other other], fun here => ?_⟩
    rw [State.hearMctp_of_target here]
    exact ⟨fun bad => by rw [if_pos bad]; rfl, fun form bad => by rw [if_neg (by simp [form]), if_pos bad]; rfl,
      fun form pec => by rw [if_neg (by simp [form]), if_neg (by simp [pec])]⟩
  · rw [exec_mctpPacket_atOnce up once begun]
    refine ⟨fun wins => ?_, fun loses other => ?_, fun loses here => ?_⟩
    · rw [if_neg (mt arbWon_iff.mp wins)]
    · rw [if_pos (arbWon_iff.mpr loses), State.arbLost_of_other other]
    · rw [if_pos (arbWon_iff.mpr loses), State.arbLost_of_target here]
  · rw [exec_mgmtRegisterRead up]
    refine ⟨exec_mgmtRegisterRead_badPec up off, fun bad => ?_, fun aligned shown => ?_, fun aligned inside low hidden => ?_⟩
    · rw [if_pos bad]
    · rw [if_neg (by omega), if_pos shown]
    · rw [if_neg (by omega), if_neg (by omega)]
  · rw [exec_mgmtClearLatch up, if_pos wrong]
    rfl
  · exact exec_mgmtClearLatch up 0x5A false
  · exact exec_mgmtClearLatch up 0x5A true
  · refine ⟨fun e => ⟨fun reserved => ?_, fun unicast given => ?_⟩, exec_getEndpointId up src, fun typ unknown => ?_, fun typ known => ?_,
      exec_getMessageTypeSupport up src, fun eid m n d => ⟨exec_mctpSpdm_of_noEid src m eid, exec_mctpSecuredMessage_of_noEid src n d eid⟩,
      fun eid => ⟨fun c => exec_mctpSpdm up eid src _, fun both h => exec_mctpSpdm up eid src _, fun n => exec_mctpSpdm up eid src _,
        exec_mctpSecuredMessage_of_none up eid src, fun n d x held => ⟨exec_mctpSecuredMessage_of_ended up eid src n d held,
          exec_mctpSecuredMessage_of_qualifies up eid src n d held⟩⟩⟩
    · rw [exec_setEndpointId up, if_pos reserved]
      rfl
    · rw [exec_setEndpointId up, if_neg (not_or.mpr ⟨unicast, given⟩)]
      rfl
    · rw [exec_getMctpVersionSupport up, if_neg unknown]
      rfl
    · refine ⟨(s.drawBytes 4).1, by simp [State.drawBytes], ?_⟩
      rw [exec_getMctpVersionSupport up, if_pos known]
      rfl
  · have quiet : (!s.busUp) = true := by rw [down]; rfl
    simp only [List.forall_mem_cons, List.not_mem_nil, false_implies, implies_true, and_true]
    have silent {u : State} : (if (!s.busUp) = true then s else u) = s := if_pos quiet
    have silentOr {p : Prop} [Decidable p] {u : State} : (if (!s.busUp) = true ∨ p then s else u) = s := if_pos (Or.inl quiet)
    exact ⟨congrArg _ silent, congrArg _ silent, congrArg _ silent, congrArg _ silent, congrArg _ silent, congrArg _ silent,
      congrArg _ silentOr, congrArg _ silentOr⟩
  · refine ⟨fun por => ⟨?_, fun n => exec_busRecovery_of_off n (Or.inl por)⟩, fun run => ?_, fun run on => ⟨?_, fun n moved => ?_⟩,
      fun off n => exec_busRecovery_of_off n (Or.inr off)⟩
    · rw [exec_clockLowTimeout, if_pos por]
    · rw [exec_clockLowTimeout, if_neg (by simp [run])]
    · rw [exec_busRecovery 0 run on, if_neg (by simp)]
      rfl
    · have rest : (n == 0) = false := by simp [moved]
      rw [exec_busRecovery n run on, if_neg moved, rest]
      exact ⟨fun main => by rw [if_neg (by simp [main])]; rfl, fun mgmt => by rw [if_pos ⟨mgmt, moved⟩]; rfl⟩

end Sys2Proof.Machine
end

section
/-! Submission, space and the sequencer step of a record (R47, R73, R94, R96, R100, R104, R105, R109, R120). -/

namespace Sys2Proof.Machine

/-! ## RECORD_SUBMIT (R100 steps 1 and 2) -/

theorem exec_recordSubmit_formed {s : State} {id : Nat} {r : Rec} (formed : s.jnl.formed.find? (fun q => q.id == id) = some r) :
    exec (.recordSubmit (.formed id)) s = .next (s.submitRec r) := by
  simp only [exec, execRecordSubmit, formed]

section Submit
variable {s : State} {r : Rec}

/-- After commitment every record is refused (R120, log entry 120). -/
theorem State.submitRec_of_closed (closed : s.jnl.closed = true) : s.submitRec r = (s.dropRec r.id).refuseRec r .aborted := if_pos closed

variable (opened : s.jnl.closed = false) (run : s.jnlState = 2) (home : s.awayFrom r = false)
include opened run home

theorem State.submitRec_of_passed (check : s.recCheck r = none) : s.submitRec r = (s.dropRec r.id).reserveRec r := by
  simp only [State.submitRec, opened, run, home, check, Bool.false_eq_true, ne_eq, not_true_eq_false, if_false]

/-- A check that needs a leaf is left to the sequencer step (R73). -/
theorem State.submitRec_of_failed {st : Status} (check : s.recCheck r = some st) : s.submitRec r =
    if (s.leafNeeded r).isSome then (s.dropRec r.id).reserveRec r
    else if r.twin then s.sequence r else (s.dropRec r.id).refuseRec r st := by
  simp only [State.submitRec, opened, run, home, check, Bool.false_eq_true, ne_eq, not_true_eq_false, if_false]

end Submit

/-- A management program's change comes in as a record of its own (log entry 68). -/
theorem State.submitChange_of_task {s : State} {t : Task} {src : MgmtSrc} (c : ExtChange) (task : (s.ctx 4096).task = some t)
    (mgmt : s.ksk.mgmtSrc = some src) : s.submitChange c =
      let e := (s.endPlan (.ctx 4096)).setCtx 4096 {}
      let v : State := { e with ksk := { e.ksk with stores := [], mgmtSrc := none, mgmtWait := some (t, src) } }
      let q : Rec := { id := 0, body := changeBody c, mirror := true, tenant := 0, origin := 4, owner := .mgmt t.num }
      (v.formRec q).2.submitRec { q with id := (v.formRec q).1 } := by
  simp only [State.submitChange, task, mgmt]
  rfl

theorem State.submitChange_of_idle {s : State} (c : ExtChange) (idle : (s.ctx 4096).task = none) : s.submitChange c = s := by
  simp only [State.submitChange, idle]

/-! ## Room for a record that waited (R94 to R96) -/

theorem State.dropRec_drainLimit (s : State) (id : Nat) : (s.dropRec id).drainLimit = s.drainLimit :=
  congrArg (1048576 * ·) ((State.fset_fget_ne _ _ _ _ (by decide)).trans ((State.fset_fget_ne _ _ _ _ (by decide)).trans
    (State.fset_fget_ne _ _ _ _ (by decide))))

/-- A sum over fewer entries, from a smaller start, is no larger. -/
theorem foldl_add_le_of_sublist {α : Type} (f : α → Nat) {l m : List α} (sub : l.Sublist m) {a b : Nat} (le : a ≤ b) :
    l.foldl (fun n x => n + f x) a ≤ m.foldl (fun n x => n + f x) b := by
  induction sub generalizing a b with
  | slnil => exact le
  | cons x _ ih => exact ih (Nat.le_add_right_of_le le)
  | cons_cons x _ ih => exact ih (Nat.add_le_add_right le _)

section Room
variable (s : State) (id : Nat)

theorem State.dropRec_held_sublist :
    ((s.dropRec id).jnl.reserved ++ (s.dropRec id).jnl.recs).Sublist (s.jnl.reserved ++ s.jnl.recs) :=
  List.filter_sublist.append_right _

theorem State.dropRec_padUsed_le : (s.dropRec id).padUsed ≤ s.padUsed := by
  unfold State.padUsed
  by_cases past : ((s.dropRec id).jnl.reserved ++ (s.dropRec id).jnl.recs).any fun r => decide (s.jnl.head ≤ r.pos)
  · obtain ⟨r, mem, h⟩ := List.any_eq_true.mp past
    exact le_of_eq ((if_pos past).trans (if_pos (List.any_eq_true.mpr ⟨r, (s.dropRec_held_sublist id).subset mem, h⟩)).symm)
  · exact (if_neg past).trans_le (Nat.zero_le _)

theorem State.dropRec_granulesUsed_le : (s.dropRec id).granulesUsed ≤ s.granulesUsed :=
  foldl_add_le_of_sublist (fun r : Rec => r.body.granules) (s.dropRec_held_sublist id) (s.dropRec_padUsed_le id)

theorem State.dropRec_indexUsed_le : (s.dropRec id).indexUsed ≤ s.indexUsed :=
  foldl_add_le_of_sublist (fun r : Rec => (r.body.segs.filter fun g : Seg => !r.doneTiles.contains g.tile).length)
    (s.dropRec_held_sublist id) (le_refl 0)

theorem State.placeFree_dropRec {pos n : Nat} (free : s.placeFree pos n = true) : (s.dropRec id).placeFree pos n = true := by
  unfold State.placeFree at free ⊢
  rcases Bool.or_eq_true_iff.mp free with none | apart
  · rw [none]; rfl
  · refine Bool.or_eq_true_iff.mpr (Or.inr (List.all_eq_true.mpr fun r mem => ?_))
    exact List.all_eq_true.mp apart r ((s.dropRec_held_sublist id).subset mem)

theorem State.spaceFor_dropRec {b : Body} (space : s.spaceFor b = true) : (s.dropRec id).spaceFor b = true := by
  have limit := s.dropRec_drainLimit id
  have used := s.dropRec_granulesUsed_le id
  have pad : (s.dropRec id).padFor b.granules = s.padFor b.granules := rfl
  simp only [State.spaceFor, Bool.and_eq_true, decide_eq_true_eq] at space ⊢
  obtain ⟨⟨fits, before⟩, place⟩ := space
  refine ⟨⟨?_, s.placeFree_dropRec id before⟩, s.placeFree_dropRec id place⟩
  rw [limit, pad]
  omega

theorem State.indexFor_dropRec {b : Body} (index : s.indexFor b = true) : (s.dropRec id).indexFor b = true :=
  decide_eq_true ((Nat.add_le_add_right (s.dropRec_indexUsed_le id) _).trans (of_decide_eq_true index))

/-- A record that has room has it also once another, or itself, has left the lists before admission. -/
theorem State.recRoom_dropRec {r : Rec} (room : s.recRoom r = true) : (s.dropRec id).recRoom r = true := by
  simp only [State.recRoom, Bool.and_eq_true] at room ⊢
  obtain ⟨⟨space, index⟩, lag⟩ := room
  exact ⟨⟨s.spaceFor_dropRec id space, s.indexFor_dropRec id index⟩, lag⟩

end Room

/-- With room the record takes its place after the newest one and stands last among those with a reservation. -/
theorem State.reserveRec_of_room {s : State} {r : Rec} (room : s.recRoom r = true) :
    (s.reserveRec r).jnl = { s.jnl with
      head := s.placeFor r.body.granules + r.body.granules
      pad := if ringGranules < s.jnl.head + r.body.granules then s.padFor r.body.granules else s.jnl.pad
      reserved := s.jnl.reserved ++ [{ r with pos := s.placeFor r.body.granules }] } :=
  congrArg State.jnl (if_pos room)

theorem exec_recordSpaceGranted {s : State} {id : Nat} {r : Rec} (waits : s.jnl.waiting.find? (fun q => q.id == id) = some r) :
    exec (.recordSpaceGranted id) s = .next (if s.recRoom r then (s.dropRec id).reserveRec r else s) := by
  simp only [exec, execRecordSpaceGranted, waits]

/-! ## RECORD_SEQUENCER_STEP (R100 step 4) -/

section Sequence
variable {s : State} {r : Rec}

/-- The twin's records go in the order of PAIR_SEQ (R105). -/
theorem exec_recordSequencerStep {id : Nat} (reserved : s.jnl.reserved.find? (fun q => q.id == id) = some r) (run : s.jnlState = 2)
    (opened : s.jnl.closed = false) : exec (.recordSequencerStep id) s = .next (if s.lagHolds r then s
      else if r.twin ∧ (s.jnl.formed ++ s.jnl.waiting ++ s.jnl.reserved).any fun q => q.twin && q.pairSeq < r.pairSeq then s
      else if s.awayFrom r then s.routeAway r
      else s.sequence r) := by
  simp only [exec, execRecordSequencerStep, reserved, run, opened, ne_eq, not_true_eq_false, Bool.false_eq_true, false_or]

theorem State.sequence_of_leafNeeded {t : Nat} (leaf : s.leafNeeded r = some t) : s.sequence r = s.askLeaf t (.recLeaf r.id) := by
  rw [State.sequence, leaf]

variable (leaf : s.leafNeeded r = none)
include leaf

theorem State.sequence_of_refused {st : Status} (check : s.recCheck r = some st) : s.sequence r =
    if r.twin then ((s.dropRec r.id).refuseRec r st).rackTwin r.pairSeq else (s.dropRec r.id).refuseRec r st := by
  rw [State.sequence, leaf, check]

theorem State.sequence_of_conflict (check : s.recCheck r = none) (stale : s.readSetOk r.readSet = false) :
    s.sequence r = (s.dropRec r.id).refuseRec r .conflict := by
  simp only [State.sequence, leaf, check, stale, Bool.not_false, if_true]

theorem State.sequence_of_data {segs : List Seg} (check : s.recCheck r = none) (fresh : s.readSetOk r.readSet = true)
    (data : r.body = .data segs) (noOld : s.oldWanted r = none) : s.sequence r = ((s.dropRec r.id).enter r).outcome r 0 0 := by
  have same : { r with body := .data segs } = r := by rw [← data]
  simp only [State.sequence, leaf, check, fresh, data, noOld, State.take, same, Bool.not_true, Bool.false_eq_true, if_false]

theorem State.sequence_of_rmw {t off w : Nat} {op : Rmw} {b : Bytes} (check : s.recCheck r = none) (fresh : s.readSetOk r.readSet = true)
    (rmw : r.body = .rmw t off w op) (found : s.atomBytes r t = .data b) : s.sequence r =
      ((s.dropRec r.id).enter { r with body := .data [⟨t, off, natLe w (rmwResult op w (fieldAt b off w))⟩] }).outcome r
        (fieldAt b off w) w := by
  simp only [State.sequence, leaf, check, fresh, rmw, found, State.take, Bool.not_true, Bool.false_eq_true, if_false]

end Sequence

/-- For a record of this device's own, what follows its admission is its owner's side alone. -/
theorem State.outcome_of_own {r : Rec} (own : r.twin = false) (s : State) (old w : Nat) : s.outcome r old w = s.ownerAdmitted r old w :=
  if_neg (by simp [own])

/-- Settles O32, by the list the record stands in: the submission's early checks, the room of a record that waited (which leaving the lists
does not take away), a management program's change (log entry 68), and at the sequencer step what holds the record or decides it. -/
theorem recordsAreAdmittedInOrder : Obligations.RecordsAreAdmittedInOrder := by
  refine ⟨fun id s r => ⟨fun formed => ?_, fun waits full => ?_, fun waits room => ?_, fun c idle => ?_, fun c t src task mgmt => ?_⟩,
    fun id s r reserved run opened => ?_⟩
  · rw [exec_recordSubmit_formed formed]
    refine ⟨fun closed => congrArg _ (State.submitRec_of_closed closed), fun opened run home => ?_⟩
    refine ⟨fun check => congrArg _ (State.submitRec_of_passed opened run home check), fun st check => ?_⟩
    rw [State.submitRec_of_failed opened run home check]
    refine ⟨fun leaf => congrArg _ (if_pos (Option.isSome_iff_ne_none.mpr leaf)), fun leaf own => ?_, fun leaf twin => ?_⟩
    · simp [leaf, own]
    · simp [leaf, twin, State.sequence_of_refused leaf check]
  · rw [exec_recordSpaceGranted waits, if_neg (by simp [full])]
  · rw [exec_recordSpaceGranted waits, if_pos room, State.reserveRec_of_room (s.recRoom_dropRec id room)]
    exact ⟨rfl, rfl, rfl, rfl, rfl⟩
  · exact congrArg Host.Outcome.next (State.submitChange_of_idle c idle)
  · exact congrArg Host.Outcome.next (State.submitChange_of_task c task mgmt)
  · rw [exec_recordSequencerStep reserved run opened]
    refine ⟨fun held => congrArg _ (if_pos held), fun twin ⟨q, mem, older⟩ => ?_, fun own free home => ?_⟩
    · have waits : ((s.jnl.formed ++ s.jnl.waiting ++ s.jnl.reserved).any fun q => q.twin && decide (q.pairSeq < r.pairSeq)) = true :=
        List.any_eq_true.mpr ⟨q, mem, by simpa using older⟩
      rw [if_pos (And.intro twin waits), ite_self]
    · rw [if_neg (by simp [free]), if_neg (by simp [own]), if_neg (by simp [home])]
      refine ⟨fun t leaf => congrArg _ (State.sequence_of_leafNeeded leaf), fun leaf => ⟨fun st check => ?_, fun check stale => ?_,
        fun segs check fresh data noOld => ?_, fun t off w op b check fresh rmw found => ?_⟩⟩
      · rw [State.sequence_of_refused leaf check, if_neg (by simp [own])]
      · rw [State.sequence_of_conflict leaf check stale]
      · rw [State.sequence_of_data leaf check fresh data noOld, State.outcome_of_own own]
      · rw [State.sequence_of_rmw leaf check fresh rmw found, State.outcome_of_own own]

end Sys2Proof.Machine
end

section
/-! Mirror lag, the end of a release, fences, retirement, persistence and the root record (R31, R67, R76, R82, R94, R107, R109, R114, R117 to
R119, R148). -/

namespace Sys2Proof.Machine

/-! ## Mirror lag (R107, R109, R148) -/

theorem State.lagPause_lagPaused (s : State) (p : Bool) : (s.lagPause p).jnl.lagPaused = p := by
  unfold State.lagPause
  by_cases same : p = s.jnl.lagPaused
  · rw [if_pos same, same]
  · rw [if_neg same]
    cases p <;> rfl

/-! ## What sending to the twin and ending a retirement leave of the journal -/

theorem foldl_jnl {α : Type} (f : State → α → State) (h : ∀ s x, (f s x).jnl = s.jnl) (l : List α) (s : State) :
    (l.foldl f s).jnl = s.jnl := by
  induction l generalizing s with
  | nil => rfl
  | cons x r ih => exact (ih (f s x)).trans (h s x)

@[simp] theorem State.putFrame0_jnl (s : State) (g typ fsn : Nat) (last : Bool) (payload : Bytes) :
    (s.putFrame0 g typ fsn last payload).jnl = s.jnl := by
  unfold State.putFrame0
  rw [State.emit_jnl, State.setGrp_jnl]

@[simp] theorem State.rekeyIfDue_jnl (s : State) (g : Nat) : (s.rekeyIfDue g).jnl = s.jnl := by
  unfold State.rekeyIfDue
  dsimp only
  split <;> simp

@[simp] theorem State.sendOn_jnl (s : State) (g typ : Nat) (last : Bool) (payload : Bytes) : (s.sendOn g typ last payload).jnl = s.jnl := by
  unfold State.sendOn
  dsimp only
  split
  · simp
  · split <;> simp

@[simp] theorem State.sendTwin_jnl (s : State) (typ : Nat) (payload : Bytes) (last : Bool) : (s.sendTwin typ payload last).jnl = s.jnl := by
  unfold State.sendTwin
  split <;> simp

@[simp] theorem State.sendImage_jnl (s : State) (typ key : Nat) (img : Bytes) : (s.sendImage typ key img).jnl = s.jnl :=
  foldl_jnl _ (fun s _ => s.sendTwin_jnl _ _ _) _ s

@[simp] theorem State.freeEntry_jnl (s : State) (tag : Nat) : (s.freeEntry tag).jnl = s.jnl := by
  unfold State.freeEntry
  cases AMap.find? s.tst.ops tag with
  | none => rfl
  | some o =>
    dsimp only
    split
    · rfl
    · split <;> rfl

@[simp] theorem State.holdBack_jnl (s : State) (tag : Nat) : (s.holdBack tag).jnl = s.jnl := by
  unfold State.holdBack
  cases AMap.find? s.tst.ops tag with
  | none => rfl
  | some o =>
    dsimp only
    split
    · exact s.freeEntry_jnl tag
    · rfl

@[simp] theorem State.settleEntry_jnl (s : State) (tag : Nat) : (s.settleEntry tag).jnl = s.jnl := by
  unfold State.settleEntry
  cases AMap.find? s.tst.ops tag with
  | none => rfl
  | some o =>
    dsimp only
    split
    · rfl
    · split
      · exact s.freeEntry_jnl tag
      · split <;> rfl

theorem State.dropRetires_jnl (s : State) (p : Retire → Bool) :
    (s.dropRetires p).jnl = { s.jnl with retiring := s.jnl.retiring.filter fun r => !p r } :=
  foldl_jnl _ (fun s r => by simp) _ _

/-! ## Records that wait or hold a reservation -/

/-- The records among which RELEASE_FINISH looks for one that frees its extent already. -/
def State.unadmitted (s : State) : List Rec := s.jnl.waiting ++ s.jnl.reserved

theorem State.freeing_congr {s t : State} (same : t.unadmitted = s.unadmitted) (e : Nat) : t.freeing e = s.freeing e :=
  congrArg (fun l : List Rec => l.any fun r => r.body == .attr (.freed e)) same

theorem State.unadmitted_of_jnl {s t : State} (same : t.jnl = s.jnl) : t.unadmitted = s.unadmitted :=
  congrArg (fun j : Jnl => j.waiting ++ j.reserved) same

@[simp] theorem ite_unadmitted (c : Prop) [Decidable c] (a b : State) :
    (if c then a else b).unadmitted = if c then a.unadmitted else b.unadmitted := apply_ite State.unadmitted c a b

@[simp] theorem State.fset_unadmitted (s : State) (f : Fld) (v : Nat) : (s.fset f v).unadmitted = s.unadmitted := rfl
@[simp] theorem State.noteOcc_unadmitted (s : State) : s.noteOcc.unadmitted = s.unadmitted := rfl
@[simp] theorem State.noteLag_unadmitted (s : State) : s.noteLag.unadmitted = s.unadmitted := rfl
@[simp] theorem State.stopMark_unadmitted (s : State) (j : Nat) : (s.stopMark j).unadmitted = s.unadmitted := rfl
@[simp] theorem State.sendImage_unadmitted (s : State) (typ key : Nat) (img : Bytes) : (s.sendImage typ key img).unadmitted = s.unadmitted :=
  State.unadmitted_of_jnl (s.sendImage_jnl typ key img)

@[simp] theorem State.lagPause_unadmitted (s : State) (p : Bool) : (s.lagPause p).unadmitted = s.unadmitted := by
  unfold State.lagPause
  dsimp only
  split
  · rfl
  · split <;> rfl

theorem State.discardExtent_unadmitted (s : State) (e : Nat) : (s.discardExtent e).unadmitted = s.unadmitted := by
  have kept := s.dropRetires_jnl fun r => !isSys r.tile && extOf r.tile == e
  have waiting := congrArg Jnl.waiting kept
  have reserved := congrArg Jnl.reserved kept
  exact congrArg₂ (· ++ ·) waiting reserved

@[simp] theorem State.applyAttr_freed_unadmitted (s : State) (e : Nat) : (s.applyAttr (.freed e)).unadmitted = s.unadmitted :=
  s.discardExtent_unadmitted e

theorem State.enter_freed_unadmitted (s : State) {r : Rec} {e : Nat} (freed : r.body = .attr (.freed e)) :
    (s.enter r).unadmitted = s.unadmitted := by
  have noTiles : r.body.tiles = [] := by rw [freed]; rfl
  unfold State.enter
  extract_lets jsn send sync ps q u marked counted dropped journal pair listed applied warned sent noted
  have listed_eq : listed.unadmitted = s.unadmitted := by
    have dropped_eq : dropped = counted := by simp only [dropped, q, noTiles]; rfl
    calc listed.unadmitted = dropped.unadmitted := rfl
      _ = marked.unadmitted := by rw [dropped_eq]; rfl
      _ = s.unadmitted := by simp [marked]
  have applied_eq : applied.unadmitted = s.unadmitted := by
    simp only [applied, q, freed, State.applyAttr_freed_unadmitted, listed_eq]
  have warned_eq : warned = applied := by simp [warned, q, noTiles, State.markDirty]
  have noted_eq : noted.unadmitted = s.unadmitted := by simp [noted, sent, warned_eq, applied_eq]
  simp [noted_eq]

/-! ## The end of a release (R31, R67) -/

/-- A record of the journal engine's own. -/
def State.ownRec (s : State) (b : Body) (mirror : Bool) : Rec :=
  { id := s.jnl.nextId, body := b, mirror := mirror, tenant := 0, origin := 6, owner := .engine }

/-- The journal once such a record has its name. -/
def State.named (s : State) : State := { s with jnl := { s.jnl with nextId := s.jnl.nextId + 1 } }

theorem State.admitOwn_of_room {s : State} {b : Body} {mirror : Bool} (room : s.recRoom (s.ownRec b mirror) = true) :
    s.admitOwn b mirror = (s.named.takePlace b.granules).enter { s.ownRec b mirror with pos := s.placeFor b.granules } := if_pos room

theorem State.admitOwn_of_full {s : State} {b : Body} {mirror : Bool} (full : s.recRoom (s.ownRec b mirror) = false) :
    s.admitOwn b mirror = s.named.letWait (s.ownRec b mirror) := if_neg (Bool.eq_false_iff.mp full)

theorem State.letWait_waiting (s : State) (r : Rec) : (s.letWait r).jnl.waiting = s.jnl.waiting ++ [r] := by
  unfold State.letWait
  dsimp only
  split <;> split <;> rfl

theorem State.letWait_freeing (s : State) {r : Rec} {e : Nat} (freed : r.body = .attr (.freed e)) : (s.letWait r).freeing e = true :=
  List.any_eq_true.mpr ⟨r, List.mem_append_left _ (by simp [State.letWait_waiting]), by simp [freed]⟩

section Release
variable {s : State} {e : Fin 524288}

theorem exec_releaseFinish_of_held (held : s.jnlOpen = false ∨ (s.extent e.val).state ≠ .reclaiming ∨ s.extentBusy e.val = true) :
    exec (.releaseFinish e) s = .next s := by
  refine congrArg Host.Outcome.next (if_neg fun ⟨opened, _, _, state, idle, _⟩ => ?_)
  rcases held with closed | other | busy
  · simp [closed] at opened
  · exact other state
  · simp [busy] at idle

theorem exec_releaseFinish_of_free (opened : s.jnlOpen = true) (home : s.homeHere e.val = true) (writes : s.prmState ≠ 4)
    (state : (s.extent e.val).state = .reclaiming) (idle : s.extentBusy e.val = false) (first : s.freeing e.val = false) :
    exec (.releaseFinish e) s = .next (
      let t := s.admitOwn (.attr (.freed e.val)) true
      if t.freeing e.val then t else t.zeroLeaves (.freed e.val)) :=
  congrArg Host.Outcome.next (if_pos ⟨opened, home, writes, state, by simp [idle], by simp [first]⟩)

/-- The record that frees the extent, admitted at once, is none that waits, so that of the emptied table tile follows it. -/
theorem State.admitOwn_freed_freeing (room : s.recRoom (s.ownRec (.attr (.freed e.val)) true) = true) :
    (s.admitOwn (.attr (.freed e.val)) true).freeing e.val = s.freeing e.val :=
  State.freeing_congr (by rw [State.admitOwn_of_room room]; exact State.enter_freed_unadmitted _ rfl) e.val

end Release

/-! ## Fences (R114) -/

theorem exec_fenceComplete {s : State} {id : Nat} {f : Fence} (stands : s.jnl.fences.find? (fun q => q.id == id) = some f) :
    exec (.fenceComplete id) s = .next (if s.fenceReached f then s.fenceEnd f .ok else s) := by
  simp only [exec, execFenceComplete, stands]

section Fence
variable (s : State) (f : Fence)

/-- The journal without a fence that ends. -/
def State.withoutFence : State := { s with jnl := { s.jnl with fences := s.jnl.fences.filter (fun q => q.id ≠ f.id) } }

variable {f}

theorem State.fenceEnd_gpf {p : Nat} (st : Status) (owner : f.owner = .gpf p) :
    s.fenceEnd f st = (s.withoutFence f).emit (.gpfDone p (s.say st)) := by
  rw [State.fenceEnd, owner]
  rfl

theorem State.fenceEnd_flush {tag : Nat} (st : Status) (owner : f.owner = .flush tag) :
    s.fenceEnd f st = (s.withoutFence f).resolve tag st := by
  rw [State.fenceEnd, owner]
  rfl

theorem State.fenceEnd_task {c d : Nat} (st : Status) (owner : f.owner = .task c d) (waits : (s.ctx c).wait = .fence f.id) :
    let x := s.ctx c
    s.fenceEnd f st = (s.withoutFence f).setCtx c
      { x with a := if d = 0 then x.a else AMap.set 0 x.a d (BitVec.ofNat 64 (s.say st).code), pc := x.pc + 4, wait := .none
               charged := false, fills := [] } := by
  rw [State.fenceEnd, owner]
  exact if_pos waits

end Fence

/-! ## Retirement (R82, R94, R117, R118) -/

section Retirement
variable {s : State} {t : Nat}

theorem exec_retirementStart_of_due (opened : s.jnlOpen = true) (serving : s.flag R.SUP_START_STAT.SERVING = true)
    (turn : s.retireTurn t = true) (due : s.retireDue t = true) (near : s.remote t = false) (still : s.isMoving t = false)
    (noFetch : s.fetchOf t = none) (noRead : s.readsLeft t = false) (room : s.HasRoom .maint) :
    exec (.retirementStart t) s = .next ((s.entered .maint { kind := .maint t }).beginRetire t (s.newTag .maint)) := by
  simp [exec, execRetirementStart, opened, serving, turn, due, near, still, noFetch, noRead, State.takeEntry_room _ room]

theorem exec_retirementStart_of_early (early : s.retireTurn t = false ∨ s.retireDue t = false) : exec (.retirementStart t) s = .next s := by
  refine congrArg Host.Outcome.next (if_pos ?_)
  rcases early with turn | due
  · simp [turn]
  · simp [due]

theorem exec_retirementComplete {r : Retire} (under : s.retireOf t = some r) : exec (.retirementComplete t) s =
    .next (if r.reading ∨ r.lanes ≠ [] ∨ !s.entryFits t then s else (s.finishRetire r).tryDrain) := by
  simp only [exec, execRetirementComplete, under]

end Retirement

/-! ## Persistence and the root (R76, R119) -/

/-- The oldest ATTR record is the first in the list of records. -/
theorem exec_attrPersistDone {s : State} {l m : List Rec} {r : Rec} {a : Attr} (recs : s.jnl.recs = l ++ r :: m) (attr : r.body = .attr a)
    (oldest : ∀ q ∈ l, ∀ b, q.body ≠ .attr b) : exec .attrPersistDone s =
      .next ({ s with
        persist := s.persist.take a
        jnl := { s.jnl with recs := s.jnl.recs.filter (·.id ≠ r.id) } } : State).noteOcc.noteWaiting := by
  refine congrArg Host.Outcome.next ?_
  rw [(List.find?_eq_some_iff_append (b := r)).mpr ⟨?_, l, m, recs, fun q mem => ?_⟩]
  · simp only [attr]
  · rw [attr]
  · cases body : q.body with
    | attr b => exact absurd body (oldest q mem b)
    | _ => rfl

theorem exec_rootRecordProgram {s : State} {q a b : Nat} (root : s.jnl.root = some (q, a, b)) : exec .rootRecordProgram s =
    .next (if s.jnl.rootDue ∧ !s.fls.fenced then
      (({ s with jnl := { s.jnl with rootNs := s.timeNs } } : State).logAppend (.root q a b)).noteOcc else s) := by
  simp only [exec, execRootRecordProgram, root]

/-- Settles O33: the lag's bound; the release's record and that of its emptied table tile, which follows the first only where that one did not
have to wait; each owner of a fence (log entry 69); each step of retirement (log entry 43), persistence and the root record. -/
theorem lagFencesAndRetirement : Obligations.LagFencesAndRetirement := by
  refine ⟨fun s => ⟨fun due mirrors => ⟨congrArg _ (if_pos ⟨due, mirrors⟩), State.lagPause_lagPaused ..⟩,
      fun none => congrArg _ (if_neg fun h => h.1 none),
      fun e => ⟨exec_releaseFinish_of_held, fun opened home writes state idle first => ⟨fun room => ?_, fun full => ?_⟩⟩,
      fun id f stands => ?_⟩,
    fun s => ⟨fun t => exec_retirementStart_of_due, fun t => exec_retirementStart_of_early, fun t r under => ?_, fun l m r a recs attr oldest => ?_,
      fun q a b root => ?_⟩⟩
  · rw [exec_releaseFinish_of_free opened home writes state idle first]
    dsimp only
    rw [State.admitOwn_freed_freeing room, if_neg (by simp [first]), State.admitOwn_of_room room]
    rfl
  · rw [exec_releaseFinish_of_free opened home writes state idle first]
    dsimp only
    rw [State.admitOwn_of_full full, if_pos (State.letWait_freeing _ rfl)]
    rfl
  · rw [exec_fenceComplete stands]
    refine ⟨fun early => congrArg _ (if_neg (by simp [early])), fun p reached owner => ?_,
      fun c d reached owner waits => ?_, fun tag reached owner => ?_⟩
    · rw [if_pos reached, State.fenceEnd_gpf s .ok owner]
      rfl
    · rw [if_pos reached, State.fenceEnd_task s .ok owner waits]
      rfl
    · rw [if_pos reached, State.fenceEnd_flush s .ok owner]
      rfl
  · rw [exec_retirementComplete under]
    refine ⟨fun held => congrArg _ (if_pos (by simpa using held)), fun read acked fits => congrArg _ (if_neg (by simp [read, acked, fits]))⟩
  · exact ⟨_, exec_attrPersistDone recs attr oldest, rfl, rfl, rfl, rfl, rfl⟩
  · rw [exec_rootRecordProgram root]
    exact ⟨fun due works => congrArg _ (if_pos (by simp [due, works])), fun done => congrArg _ (if_neg (by simp [done]))⟩

end Sys2Proof.Machine
end

section
/-! CXL loads, stores, bad requests and Global Persistent Flush (R103, R114, R115, R120, R325, R418, R427, R433 to R435, R438). -/

namespace Sys2Proof.Machine

/-! ## The port's receive buffer (R325; log entry 66) -/

theorem AMap.find?_mem {α : Type} {m : AMap α} {k : Nat} {v : α} (found : AMap.find? m k = some v) : (k, v) ∈ m := by
  induction m with
  | nil => simp at found
  | cons p r ih =>
    obtain ⟨j, w⟩ := p
    by_cases same : k = j
    · obtain rfl : w = v := by simpa [AMap.find?, same] using found
      exact same ▸ List.mem_cons_self
    · exact List.mem_cons_of_mem _ (ih (by simpa [AMap.find?, same] using found))

section Arrival
variable {s : State} (empty : s.cxl.rxq = []) (free : ∀ q ∈ s.tst.ops, q.2.after = [])

theorem State.unholdRead_of_free (tag : Nat) {o : Op} (free : o.after = []) : s.unholdRead tag o = s := by
  unfold State.unholdRead
  split
  · exact if_pos (Or.inr (Or.inl free))
  · rfl

include free in
/-- Where no MemRd is held for a write, none goes on. -/
theorem State.unholdReads_of_free : s.unholdReads = s := by
  unfold State.unholdReads
  generalize s.tst.ops = l
  induction l with
  | nil => rfl
  | cons p r ih =>
    rw [List.foldl_cons]
    cases found : AMap.find? s.tst.ops p.1 with
    | none => exact ih
    | some o =>
      dsimp only
      rw [State.unholdRead_of_free p.1 (free _ (AMap.find?_mem found))]
      exact ih

include empty free

/-- A request that arrives alone takes effect, or stays in the receive buffer. -/
theorem State.cxlArrive_alone {p : Nat} {i : Instr} (port : reqPort i = p) : s.cxlArrive p i =
    (s.cxlTry i).getD { s with cxl := { s.cxl with rxq := [i] } } := by
  have back : ({ s with cxl := { s.cxl with rxq := [] } } : State) = s := by rw [← empty]
  have held : ({ s with cxl := { s.cxl with rxq := [i] } } : State).unholdReads = { s with cxl := { s.cxl with rxq := [i] } } :=
    State.unholdReads_of_free free
  have erased : [i].erase i = [] := List.erase_cons_head ..
  rw [State.cxlArrive, State.cxlPump, empty, List.nil_append, held, List.foldl_cons, List.foldl_nil,
    if_neg (by simp [port])]
  dsimp only
  rw [erased, back]
  cases s.cxlTry i <;> rfl

end Arrival

/-! ## Loads (R427, R434, R435) -/

section Load
variable {s : State} {l tag a : Nat}

theorem State.loadLine_of_closed (closed : s.jnl.closed = true) : s.loadLine l tag a = s.resolve tag .aborted := if_pos closed

theorem State.loadLine_of_denied (opened : s.jnl.closed = false) (denied : s.ldMay l a = false) : s.loadLine l tag a = s.resolve tag .access := by
  rw [State.loadLine, if_neg (by simp [opened]), if_pos (by simp [denied])]

/-- What a load answers with its line: the bytes, their poison, or a fetch for them. -/
def State.answerLoad (tag : Nat) (a : Nat) (q : Look × State) : State :=
  match q with
  | (.data b, w) => w.resolve tag .ok b
  | (.poison, w) => w.resolve tag .poisoned
  | (.miss, w) => w.missOp (a / 4096) (a % 4096) 64 (.cxl tag (w.fget R.JNL_JSN.JSN)) (w.clsOf (a / 4096)) tag

theorem State.loadLine_of_served {l : Fin 32} (opened : s.jnl.closed = false) (may : s.ldMay l.val a = true) : s.loadLine l.val tag a =
    let v := s.planRead (.ld l) (a / 4096)
    State.answerLoad tag a (v.readSpan (a / 4096) (a % 4096) 64 (v.clsOf (a / 4096))) := by
  rw [State.loadLine, if_neg (by simp [opened]), if_neg (by simp [may])]
  dsimp only
  rw [dif_pos l.isLt]
  rfl

end Load

/-! ## Stores and their combining windows (R103, R433) -/

section Store
variable {s : State} {l tag a : Nat} {d : Vec} {be : BitVec 64} {poison : Bool}

theorem State.storeLine_of_closed (closed : s.jnl.closed = true) : s.storeLine l tag a d be poison = s.resolve tag .aborted := if_pos closed

variable (opened : s.jnl.closed = false)
include opened

theorem State.storeLine_of_poison : s.storeLine l tag a d be true = s.resolve tag .malformed := by
  rw [State.storeLine, if_neg (by simp [opened]), if_pos rfl]

theorem State.storeLine_of_denied (denied : s.ldMay l a = false) : s.storeLine l tag a d be false = s.resolve tag .access := by
  rw [State.storeLine, if_neg (by simp [opened]), if_neg Bool.false_ne_true, if_pos (by simp [denied])]

variable (may : s.ldMay l a = true)
include may

theorem State.storeLine_of_noBytes : s.storeLine l tag a d 0 false = s.resolve tag .ok := by
  rw [State.storeLine, if_neg (by simp [opened]), if_neg Bool.false_ne_true, if_neg (by simp [may]), if_pos rfl]

theorem State.storeLine_of_noWindow (bytes : be ≠ 0) (others : ∀ w ∈ s.cxl.comb, ¬ (w.ld = l ∧ w.tile = a / 4096)) :
    s.storeLine l tag a d be false = { s with cxl := { s.cxl with
      comb := s.cxl.comb ++ [{ ld := l, tile := a / 4096, tags := [tag]
                               segs := stagedSegs ((lineBytes a d be).foldl (fun m p => AMap.put m p.1 p.2) []) }] } } := by
  have noWindow : (s.cxl.comb.find? fun w => w.ld = l ∧ w.tile = a / 4096) = none :=
    List.find?_eq_none.mpr fun w mem => by simpa using others w mem
  rw [State.storeLine, if_neg (by simp [opened]), if_neg Bool.false_ne_true, if_neg (by simp [may]), if_neg bytes, noWindow]

end Store

section Window
variable {s : State} {l t : Nat}

theorem State.closeComb_of_none (noWindow : s.cxl.comb.find? (fun w => w.ld = l ∧ w.tile = t) = none) : s.closeComb l t = s := by
  rw [State.closeComb, noWindow]

theorem State.closeComb_of_window {w : Combine} (window : s.cxl.comb.find? (fun w => w.ld = l ∧ w.tile = t) = some w) : s.closeComb l t =
    (({ s with cxl := { s.cxl with comb := s.cxl.comb.filter (fun w => !(w.ld == l && w.tile == t)) } } : State).formRec
      { id := 0, body := .data w.segs, mirror := true, tenant := s.ldTenant l, origin := portOf l, owner := .ops w.tags }).2 := by
  rw [State.closeComb, window]
  rfl

end Window

/-! ## A request of a host whose logical device has credits -/

section Request
variable {s : State}

theorem State.takeEntry_full {src : Src} (o : Op) (full : ¬ s.HasRoom src) : s.takeEntry src o = none := if_neg full

variable {l : Fin 32} {a : BitVec 49} {tag : BitVec 16}

theorem State.cxlTry_memRd_of_full (full : ¬ s.HasRoom (.cxl (portOf l.val))) : s.cxlTry (.memRd l a tag) = none :=
  congrArg (Option.map _) (State.takeEntry_full _ full)

theorem State.cxlTry_memWr_of_full {d : Vec} {be : BitVec 64} {poison : Bool} (full : ¬ s.HasRoom (.cxl (portOf l.val))) :
    s.cxlTry (.memWr l a tag d be poison) = none :=
  congrArg (Option.map _) (State.takeEntry_full _ full)

variable (room : s.HasRoom (.cxl (portOf l.val)))
include room

theorem State.cxlTry_memRd_of_writes (writes : s.lineWrites l.val (a.toNat / 64 * 64) ≠ []) : s.cxlTry (.memRd l a tag) =
    some (s.entered (.cxl (portOf l.val))
      { kind := .cxlRd l.val tag.toNat (a.toNat / 64 * 64), after := s.lineWrites l.val (a.toNat / 64 * 64) }) := by
  rw [State.cxlTry, State.takeEntry_room _ room, Option.map_some, if_neg writes]

theorem State.cxlTry_memRd_of_noWrites (noWrites : s.lineWrites l.val (a.toNat / 64 * 64) = []) : s.cxlTry (.memRd l a tag) =
    some ((s.entered (.cxl (portOf l.val)) { kind := .cxlRd l.val tag.toNat (a.toNat / 64 * 64) }).loadLine l.val
      (s.newTag (.cxl (portOf l.val))) (a.toNat / 64 * 64)) := by
  rw [State.cxlTry, noWrites, State.takeEntry_room _ room, Option.map_some, if_pos rfl]

theorem State.cxlTry_memWr_of_room (d : Vec) (be : BitVec 64) (poison : Bool) : s.cxlTry (.memWr l a tag d be poison) =
    some ((s.entered (.cxl (portOf l.val)) { kind := .cxlWr l.val tag.toNat (a.toNat / 64 * 64) }).storeLine l.val
      (s.newTag (.cxl (portOf l.val))) (a.toNat / 64 * 64) d be poison) := by
  rw [State.cxlTry, State.takeEntry_room _ room, Option.map_some]

end Request

section Credits
variable {s : State} {l : Fin 32} {a : BitVec 49} {tag : BitVec 16}

theorem exec_memRd_of_noCredits (noCredits : s.ldCredits l.val = false) : exec (.memRd l a tag) s = .next s :=
  congrArg Host.Outcome.next (if_neg (by simp [noCredits]))

theorem exec_memWr_of_noCredits {d : Vec} {be : BitVec 64} {poison : Bool} (noCredits : s.ldCredits l.val = false) :
    exec (.memWr l a tag d be poison) s = .next s :=
  congrArg Host.Outcome.next (if_neg (by simp [noCredits]))

variable (credits : s.ldCredits l.val = true) (empty : s.cxl.rxq = []) (free : ∀ q ∈ s.tst.ops, q.2.after = [])
include credits empty free

theorem exec_memRd_of_credits : exec (.memRd l a tag) s =
    .next ((s.cxlTry (.memRd l a tag)).getD { s with cxl := { s.cxl with rxq := [.memRd l a tag] } }) :=
  congrArg Host.Outcome.next ((if_pos credits).trans (State.cxlArrive_alone empty free rfl))

theorem exec_memWr_of_credits (d : Vec) (be : BitVec 64) (poison : Bool) : exec (.memWr l a tag d be poison) s =
    .next ((s.cxlTry (.memWr l a tag d be poison)).getD { s with cxl := { s.cxl with rxq := [.memWr l a tag d be poison] } }) :=
  congrArg Host.Outcome.next ((if_pos credits).trans (State.cxlArrive_alone empty free rfl))

end Credits

/-! ## Bad requests and Global Persistent Flush (R114, R115, R120, R418, R438) -/

section Port
variable {s : State} {p : Fin 2}

section Down
variable (down : s.fget (R.CXL_PORT_STAT.STATE p.val) ≠ 2)
include down

theorem exec_cxlBadReq_of_down (rd : Bool) (tag : BitVec 16) : exec (.cxlBadReq p rd tag) s = .next s := congrArg Host.Outcome.next (if_pos down)

theorem exec_globalPersistentFlush_of_down : exec (.globalPersistentFlush p) s = .next s := congrArg Host.Outcome.next (if_pos down)

end Down

variable (up : s.fget (R.CXL_PORT_STAT.STATE p.val) = 2)
include up

theorem exec_cxlBadReq_of_up (rd : Bool) (tag : BitVec 16) : exec (.cxlBadReq p rd tag) s =
    .next ((s.sat (R.CXL_PORT_CNT.BAD_REQ p.val)).emit (if rd then .cxlData (16 * p.val) tag.toNat none else .cxlCmp (16 * p.val) tag.toNat)) :=
  congrArg Host.Outcome.next (if_neg (not_not_intro up))

theorem exec_globalPersistentFlush_of_closed (closed : s.jnl.closed = true) :
    exec (.globalPersistentFlush p) s = .next (s.emit (.gpfDone p.val .aborted)) :=
  congrArg Host.Outcome.next ((if_neg (not_not_intro up)).trans (if_pos closed))

theorem exec_globalPersistentFlush_of_open (opened : s.jnl.closed = false) (empty : s.cxl.rxq = []) (free : ∀ q ∈ s.tst.ops, q.2.after = []) :
    exec (.globalPersistentFlush p) s =
      .next ((s.cxlTry (.globalPersistentFlush p)).getD { s with cxl := { s.cxl with rxq := [.globalPersistentFlush p] } }) :=
  congrArg Host.Outcome.next ((if_neg (not_not_intro up)).trans ((if_neg (by simp [opened])).trans (State.cxlArrive_alone empty free rfl)))

end Port

/-- Settles O48: a load and a store each by credits, room for its entry (R325), commitment (R120, log entry 120), its extent's rights and its
line; a window by whether it stands; the flush by its port, commitment and the stores before it (R115, R438). -/
theorem cxlRequestsTakeEffect : Obligations.CxlRequestsTakeEffect := by
  intro l a tag s empty free
  refine ⟨fun noCredits d be po => ⟨exec_memRd_of_noCredits noCredits, exec_memWr_of_noCredits noCredits⟩,
    fun credits full => ⟨?_, fun d be po => ?_⟩, fun credits writes room => ?_, fun credits noWrites room => ?_, fun d be credits room => ?_, rfl,
    fun w window => congrArg _ (State.closeComb_of_window window),
    fun noWindow => congrArg _ (State.closeComb_of_none noWindow), fun p => ⟨fun up rd => exec_cxlBadReq_of_up up rd tag,
      fun down rd => ⟨exec_cxlBadReq_of_down down rd tag, exec_globalPersistentFlush_of_down down⟩,
      exec_globalPersistentFlush_of_closed, fun up opened writes => ?_, fun up opened noWrites => ?_⟩⟩
  · rw [exec_memRd_of_credits credits empty free, State.cxlTry_memRd_of_full full]
    rfl
  · rw [exec_memWr_of_credits credits empty free, State.cxlTry_memWr_of_full full]
    rfl
  · rw [exec_memRd_of_credits credits empty free, State.cxlTry_memRd_of_writes room writes]
    rfl
  · rw [exec_memRd_of_credits credits empty free, State.cxlTry_memRd_of_noWrites room noWrites, Option.getD_some]
    refine ⟨fun closed => congrArg _ (State.loadLine_of_closed closed), fun opened denied => congrArg _ (State.loadLine_of_denied opened denied),
      fun opened may => ?_⟩
    rw [State.loadLine_of_served opened may]
    refine ⟨fun b w read => ?_, fun w read => ?_, fun w read => ?_⟩
    all_goals exact congrArg (fun q => Host.Outcome.next (State.answerLoad _ _ q)) read
  · simp only [exec_memWr_of_credits credits empty free, State.cxlTry_memWr_of_room room, Option.getD_some]
    refine ⟨fun po closed => congrArg _ (State.storeLine_of_closed closed), fun opened => congrArg _ (State.storeLine_of_poison opened),
      fun opened denied => congrArg _ (State.storeLine_of_denied opened denied), fun opened may noBytes => ?_,
      fun opened may bytes noWindow => congrArg _ (State.storeLine_of_noWindow opened may bytes noWindow)⟩
    rw [noBytes, State.storeLine_of_noBytes opened may]
  · rw [exec_globalPersistentFlush_of_open up opened empty free, State.cxlTry, if_pos writes]
    rfl
  · rw [exec_globalPersistentFlush_of_open up opened empty free, State.cxlTry, if_neg (by simp [noWrites])]
    rfl

end Sys2Proof.Machine
end

section
/-! Promenade frames by TYPE (R137, R140 to R142, R145 to R147, R165, R168). -/

namespace Sys2Proof.Machine

/-! ## Receiving a frame (R137 to R143) -/

section Receive
variable {s u : State} {f : PrmFrame} {typ : Nat} {p : Bytes} (act : State → Bytes → State)

/-- A frame that is taken in does what its TYPE asks, on the state its header leaves. -/
theorem State.prmRx_of_takes (taken : s.Takes f typ p u) : s.prmRx f typ act = act u p := by
  obtain ⟨up, k, opened, heeded⟩ := taken
  simp only [State.prmRx, up, opened, Bool.not_true, Bool.false_eq_true, if_false]
  split at heeded
  · next free => rw [if_pos free, heeded]
  · next numbered => rw [if_neg numbered, if_pos heeded.1, heeded.2]

theorem State.prmRx_of_down (down : s.grpUp f.grp.val = false) : s.prmRx f typ act = s := if_pos (by simp [down])

variable (up : s.grpUp f.grp.val = true)
include up

/-- A frame that does not open is answered with NACK (R140). -/
theorem State.prmRx_of_unopened (unopened : s.openFrame f typ = none) : s.prmRx f typ act =
    (s.giveCredit f.grp.val (credits typ f.body.length)).sendNack f.grp.val (s.grp f.grp.val).rxNext false := by
  simp only [State.prmRx, up, unopened, Bool.not_true, Bool.false_eq_true, if_false]

/-- A numbered frame out of order gives its credit back and does no more (R142). -/
theorem State.prmRx_of_outOfOrder {k : Grp} (opened : s.openFrame f typ = some (p, k)) (numbered : unnumbered typ = false)
    (early : f.fsn.toNat ≠ (((s.setGrp f.grp.val k).takeAck f.grp.val f.ackFsn.toNat f.credit.toNat).grp f.grp.val).rxNext) :
    s.prmRx f typ act =
      ((s.setGrp f.grp.val k).takeAck f.grp.val f.ackFsn.toNat f.credit.toNat).giveCredit f.grp.val (credits typ f.body.length) := by
  simp only [State.prmRx, up, opened, numbered, Bool.not_true, Bool.false_eq_true, if_false, if_neg early]

end Receive

/-- The commands that bring an encrypted frame, by its TYPE. -/
def frameCommands (f : PrmFrame) : List (Nat × Instr) :=
  [(0x01, .prmRecord f), (0x02, .rack f), (0x03, .forward f), (0x04, .fwdResp f), (0x05, .heartbeat f), (0x06, .repairReq f),
   (0x07, .repairData f), (0x08, .resyncMap f), (0x09, .resyncData f), (0x0A, .nack f), (0x0B, .rekey f), (0x0D, .home f), (0x0E, .idle f)]

/-- Each of them receives its frame as R137 to R143 say, whatever its TYPE then does. -/
theorem exec_frameCommand (f : PrmFrame) : ∀ q ∈ frameCommands f, ∃ act, ∀ s, exec q.2 s = .next (s.prmRx f q.1 act) := by
  simp only [frameCommands, List.forall_mem_cons, List.not_mem_nil, false_implies, implies_true, and_true]
  refine ⟨?_, ?_, ?_, ?_, ?_, ?_, ?_, ?_, ?_, ?_, ?_, ?_, ?_⟩
  all_goals exact ⟨_, fun _ => rfl⟩

/-! ## The map of a resync (R165 step 1, R166; log entry 47) -/

/-- What a RESYNC_MAP payload adds to the maps: a part of the extent map, or the sub-map of an extent. -/
def Resync.heed (r : Resync) (p : Bytes) : Resync :=
  if fieldAt p 0 4 = 0 then
    { r with parts := insertRising (fieldAt p 4 4) r.parts
             mapDue := r.mapDue ++ ((List.range 32768).filter (bitAt (p.drop 8))).map (fieldAt p 4 4 * 32768 + ·) }
  else
    { r with mapDue := r.mapDue.filter (· ≠ fieldAt p 4 4)
             granules := (sortBy (· ≤ ·) (r.granules
               ++ ((List.range 16384).filter (bitAt (p.drop 8))).map (fieldAt p 4 4 * 16384 + ·))).eraseDups }

/-- With the last part and the last sub-map the maps are in, and the target's own granules join the scope. -/
def Resync.closeMaps (r : Resync) : Resync :=
  if r.parts.length = 16 ∧ r.mapDue = [] ∧ !r.mapsIn then
    { r with mapsIn := true, granules := (sortBy (· ≤ ·) (r.granules ++ r.own)).eraseDups }
  else r

theorem Resync.closeMaps_of_due {r : Resync} (due : r.parts.length ≠ 16 ∨ r.mapDue ≠ [] ∨ r.mapsIn = true) : r.closeMaps = r :=
  if_neg (by simp; tauto)

theorem Resync.closeMaps_of_whole {r : Resync} (parts : r.parts.length = 16) (none_due : r.mapDue = []) (first : r.mapsIn = false) :
    r.closeMaps = { r with mapDue := [], mapsIn := true, granules := (sortBy (· ≤ ·) (r.granules ++ r.own)).eraseDups } :=
  (if_pos ⟨parts, none_due, by simp [first]⟩).trans (by rw [none_due])

/-- With all 16 parts, whether the maps are in depends on the sub-maps alone. -/
theorem Resync.closeMaps_of_parts {r : Resync} (parts : r.parts.length = 16) :
    let all : Bool := r.mapDue == [] && !r.mapsIn
    r.closeMaps = { r with mapsIn := r.mapsIn || all
                           granules := if all then (sortBy (· ≤ ·) (r.granules ++ r.own)).eraseDups else r.granules } := by
  intro all
  cases closes : all with
  | true =>
    have whole : r.mapDue = [] ∧ r.mapsIn = false := by simpa [all] using closes
    rw [Resync.closeMaps_of_whole parts whole.1 whole.2, whole.1]
    simp
  | false =>
    have due : r.mapDue ≠ [] ∨ r.mapsIn = true := by
      by_contra whole
      simp_all [all]
    rw [Resync.closeMaps_of_due (Or.inr due)]
    simp

/-- The state with the resync as it goes on. -/
def State.withResync (u : State) (r : Resync) : State := { u with prm := { u.prm with resync := some r } }

/-! ## What a frame that is taken in does -/

section Taken
variable {s u : State} {f : PrmFrame} {p : Bytes}

theorem exec_fwdResp_of_found (taken : s.Takes f 0x04 p u) {k : Nat} {r : Rec}
    (found : u.prm.fwd.find? (fun q => q.1 == fieldAt p 0 8) = some (k, r)) :
    exec (.fwdResp f) s = .next ((u.dropForward k).tellOwner r.owner (statusOf (fieldAt p 8 1))) := by
  refine congrArg Host.Outcome.next ((State.prmRx_of_takes _ taken).trans ?_)
  simp only [found]

theorem exec_fwdResp_of_none (taken : s.Takes f 0x04 p u) (none_waits : u.prm.fwd.find? (fun q => q.1 == fieldAt p 0 8) = none) :
    exec (.fwdResp f) s = .next u := by
  refine congrArg Host.Outcome.next ((State.prmRx_of_takes _ taken).trans ?_)
  simp only [none_waits]

theorem exec_repairData_of_none (taken : s.Takes f 0x07 p u)
    (none_waits : u.prm.repairs.find? (fun r => r.tile == fieldAt p 0 8 && (r.step == .asked || r.step == .askedAgain)) = none) :
    exec (.repairData f) s = .next (u.sat R.PRM_CNT1.LATE) := by
  refine congrArg Host.Outcome.next ((State.prmRx_of_takes _ taken).trans ?_)
  simp only [none_waits]

/-- A copy that was asked for is judged if its status, length, tag and seal are right (R168). -/
theorem exec_repairData_of_asked (taken : s.Takes f 0x07 p u) {r : Repair}
    (asked : u.prm.repairs.find? (fun r => r.tile == fieldAt p 0 8 && (r.step == .asked || r.step == .askedAgain)) = some r) :
    let v := verOfWord (fieldAt p 16 8)
    let q := BitVec.ofNat 64 (fieldAt p 4120 8)
    let b := slice p 24 4096
    exec (.repairData f) s = .next
      (if fieldAt p 8 1 ≠ 0 ∨ p.length ≠ 4184 ∨ slice p 4120 64 ≠ u.tileTag (fieldAt p 0 8) v q
          ∨ u.tileSeal (fieldAt p 0 8) v b ≠ q then
        u.repairFail (fieldAt p 0 8) else u.judgeCopy r b v) := by
  refine congrArg Host.Outcome.next ((State.prmRx_of_takes _ taken).trans ?_)
  simp only [asked]

theorem exec_resyncMap_of_other (taken : s.Takes f 0x08 p u) (other : u.prmState ≠ 6) : exec (.resyncMap f) s = .next u := by
  refine congrArg Host.Outcome.next ((State.prmRx_of_takes _ taken).trans ?_)
  split
  · exact absurd ‹_› other
  · rfl

/-- A target heeds the map, and closes the maps with the last of it. -/
theorem exec_resyncMap_of_target (taken : s.Takes f 0x08 p u) (target : u.prmState = 6) {r : Resync} (runs : u.prm.resync = some r) :
    exec (.resyncMap f) s = .next (u.withResync (r.heed p).closeMaps).noteResync.homeTarget := by
  refine congrArg Host.Outcome.next ((State.prmRx_of_takes _ taken).trans ?_)
  simp only [target, runs]
  rfl

end Taken

/-- Settles O36: receiving decides once for every TYPE what becomes of a frame (R137 to R143); then each TYPE by its payload, with the form
of RESYNC_MAP (log entry 47), the acknowledgement by HEARTBEAT (log entry 49) and the credit of a refused frame (log entry 132). -/
theorem framesActOnTheirPayload : Obligations.FramesActOnTheirPayload := by
  intro f s u p
  have taken_in {typ : Nat} {act : State → Bytes → State} (taken : s.Takes f typ p u) :
      (Host.Outcome.next (s.prmRx f typ act) : Host.Outcome State Fault Refusal) = .next (act u p) :=
    congrArg _ (State.prmRx_of_takes act taken)
  refine ⟨taken_in, taken_in, taken_in, fun taken k r found => ⟨exec_fwdResp_of_found taken found, fun tags owner => ?_, fun owner => ?_⟩,
    exec_fwdResp_of_none, taken_in, fun taken => ⟨fun linked => (taken_in taken).trans (congrArg _ (if_pos linked)),
      fun alone => (taken_in taken).trans (congrArg _ (if_neg (by simp [alone])))⟩,
    exec_repairData_of_none, fun taken r asked => ?_, exec_resyncMap_of_other, fun taken r target runs extents part => ?_,
    fun taken r target runs extents part => ?_, fun taken r target runs granules => ?_,
    fun taken => ⟨fun target => (taken_in taken).trans (congrArg _ (if_pos target)),
      fun other => (taken_in taken).trans (congrArg _ (if_neg other))⟩,
    taken_in, taken_in, fun taken m => ⟨fun plain => (taken_in taken).trans (congrArg _ (if_pos plain)),
      fun tagged => (taken_in taken).trans (congrArg _ (if_neg tagged))⟩,
    fun taken => ⟨fun target => (taken_in taken).trans (congrArg _ (if_pos target)),
      fun other => (taken_in taken).trans (congrArg _ (if_neg other))⟩,
    taken_in, fun down => ?_, fun up q mem => ?_⟩
  · rw [exec_fwdResp_of_found taken found, owner]
    rfl
  · rw [exec_fwdResp_of_found taken found, owner]
    rfl
  · rw [exec_repairData_of_asked taken asked]
    refine ⟨fun bad => congrArg _ (if_pos bad), fun ok whole tag sealed => congrArg _ (if_neg ?_)⟩
    simp only [ok, whole, tag, sealed, ne_eq, not_true_eq_false, or_self, not_false_eq_true]
  · rw [exec_resyncMap_of_target taken target runs, Resync.heed, if_pos extents, Resync.closeMaps_of_due (Or.inl part)]
    rfl
  · intro due all
    rw [exec_resyncMap_of_target taken target runs, Resync.heed, if_pos extents, Resync.closeMaps_of_parts part]
    rfl
  · intro due got
    rw [exec_resyncMap_of_target taken target runs, Resync.heed, if_neg granules]
    refine ⟨fun wanting => ?_, fun parts none_due first => ?_⟩
    · rw [Resync.closeMaps_of_due wanting]
      rfl
    · rw [Resync.closeMaps_of_whole]
      exacts [rfl, parts, none_due, first]
  · have silent : ∀ q ∈ frameCommands f, exec q.2 s = .next s := fun q mem => by
      obtain ⟨act, received⟩ := exec_frameCommand f q mem
      rw [received, State.prmRx_of_down act down]
    intro i mem
    rcases List.mem_append.mp (show i ∈ (frameCommands f).map Prod.snd ++ [.pairing f (.attested true)] from mem) with frame | pairing
    · obtain ⟨q, listed, rfl⟩ := List.mem_map.mp frame
      exact silent q listed
    · rw [List.mem_singleton.mp pairing]
      exact congrArg Host.Outcome.next (State.prmRx_of_down _ down)
  · obtain ⟨act, received⟩ := exec_frameCommand f q mem
    rw [received]
    exact ⟨fun unopened => congrArg _ (State.prmRx_of_unopened act up unopened),
      fun b k opened numbered early => congrArg _ (State.prmRx_of_outOfOrder act up opened numbered early)⟩

end Sys2Proof.Machine
end

section
/-! Promenade groups, TWIN_ALIVE and the two sides of a resync (R136, R141, R158, R165). -/

namespace Sys2Proof.Machine

/-! ## Timers and training of a group (R136, R141, R158) -/

section Group
variable {s : State} {g : Fin 2}

/-- The oldest frame not acknowledged decides what the expiry of its timer does (R141). -/
theorem exec_prmRtoExpire_of_held {f : TxFrame} {r : List TxFrame} (up : s.grpUp g.val = true) (held : (s.grp g.val).rtx = f :: r) :
    exec (.prmRtoExpire g) s =
      .next (if s.fget R.PRM_LINK_CTL.RETRIES ≤ f.sends then s.downGroup g.val 1 else s.resendFrom g.val f.fsn) := by
  refine congrArg Host.Outcome.next ?_
  simp only [up, held]

theorem exec_prmRtoExpire_of_idle (idle : (s.grp g.val).rtx = [] ∨ s.grpUp g.val = false) : exec (.prmRtoExpire g) s = .next s := by
  refine congrArg Host.Outcome.next ?_
  rcases idle with empty | down
  · rw [empty]
    cases s.grpUp g.val <;> rfl
  · rw [down]

/-- The flight time of a group. -/
def flightFld (g : Nat) : Fld := if g = 0 then R.PRM_GRP_STAT.A_FLIGHT_NS else R.PRM_GRP_STAT.B_FLIGHT_NS

/-- A group up at a width, with its flight time. -/
def State.groupAt (s : State) (g width flight : Nat) : State :=
  ((s.fput (upFld g) true).fset (widthFld g) width).fset (flightFld g) flight

theorem exec_prmGroupTrained_of_unfit {w : Fin 4} {ns : BitVec 11}
    (unfit : s.grpUp g.val = true ∨ w = 0 ∨ 2000 < ns.toNat ∨ s.groupOn (4 + g.val) = false) : exec (.prmGroupTrained g w ns) s = .next s :=
  congrArg Host.Outcome.next (if_pos (by simpa using unfit))

theorem exec_prmGroupTrained_of_fit {w : Fin 4} {ns : BitVec 11} (down : s.grpUp g.val = false) (width : w ≠ 0) (near : ns.toNat ≤ 2000)
    (powered : s.groupOn (4 + g.val) = true) : exec (.prmGroupTrained g w ns) s = .next (s.groupAt g.val w.val ns.toNat) :=
  congrArg Host.Outcome.next (if_neg (by simp [down, width, near, powered]))

/-- The three fields of a group are apart. -/
theorem groupFlds_key_ne (g : Fin 2) : (flightFld g.val).key ≠ (upFld g.val).key ∧ (flightFld g.val).key ≠ (widthFld g.val).key
    ∧ (widthFld g.val).key ≠ (upFld g.val).key := by
  fin_cases g <;> decide

theorem State.groupAt_grpUp (w n : Nat) : (s.groupAt g.val w n).grpUp g.val = true := by
  obtain ⟨flight_up, -, width_up⟩ := groupFlds_key_ne g
  have one_bit : (upFld g.val).wid = 1 := by fin_cases g <;> rfl
  change (((s.fput (upFld g.val) true).fset _ _).fset _ _).flag (upFld g.val) = true
  rw [State.flag, State.fset_fget_ne _ _ _ _ flight_up, State.fset_fget_ne _ _ _ _ width_up, State.fput, State.fset_fget_same, one_bit]
  rfl

theorem State.groupAt_width (w : Fin 4) (n : Nat) : (s.groupAt g.val w.val n).fget (widthFld g.val) = w.val := by
  have two_bits : (widthFld g.val).wid = 2 := by fin_cases g <;> rfl
  rw [State.groupAt, State.fset_fget_ne _ _ _ _ (groupFlds_key_ne g).2.1, State.fset_fget_same, two_bits]
  exact Nat.mod_eq_of_lt w.isLt

theorem State.groupAt_flight (w : Nat) (ns : BitVec 11) : (s.groupAt g.val w ns.toNat).fget (flightFld g.val) = ns.toNat := by
  have eleven_bits : (flightFld g.val).wid = 11 := by fin_cases g <;> rfl
  rw [State.groupAt, State.fset_fget_same, eleven_bits]
  exact Nat.mod_eq_of_lt ns.isLt

end Group

/-! ## TWIN_ALIVE (R158) -/

/-- TWIN_ALIVE toggles while the journal lives, and is low otherwise. -/
theorem exec_twinAliveToggle (s : State) : exec .twinAliveToggle s = .next { s with pins := { s.pins with
    twinAliveOut := (s.jnlState == 1 || s.jnlState == 2 || s.jnlState == 3) && !s.pins.twinAliveOut } } := rfl

/-! ## Resync (R165) -/

section Resync
variable {s : State} {r : Resync}

theorem exec_resyncTileInstall_of_got {t : Nat} {x : ResyncTile} (target : s.prmState = 6) (runs : s.prm.resync = some r)
    (got : r.got.find? (fun y => y.tile == t) = some x) : exec (.resyncTileInstall t) s =
      .next (if s.prm.seqHigh < x.readSeq ∨ (s.retireOf t).isSome then s else s.installResync r x) := by
  refine congrArg Host.Outcome.next ?_
  simp only [target, runs, got]

/-- A tile's place in the scope has been used. -/
def Resync.passed (r : Resync) (rest : List Nat) : Resync :=
  if r.next = 15 then { r with granules := rest, next := 0 } else { r with next := r.next + 1 }

/-- RESYNC_DATA of a tile goes to the twin, and its entry resolves. -/
def State.sayTile (s : State) (t tag : Nat) (v : Option (Bytes × Ver)) (zero : Bool) : State :=
  (s.sendTwin 0x09 (s.tileFrame t v zero (some s.prm.pairGiven))).resolve tag .ok

/-- What a look at a tile sends of it: its contents, that it is POISONED, or nothing before a fetch has brought it. -/
def State.sayLook (s : State) (t tag : Nat) : Look → State
  | .data b => (s.copyOut t).sayTile t tag (some (b, s.liveVer t)) false
  | .poison => s.sayTile t tag none false
  | .miss => s.fetchOp t (.resync tag) (s.clsOf t) tag

/-- A source sends a ZERO tile without contents, and of any other what it sees of it now. -/
def State.sendResyncTile (s : State) (t tag : Nat) : State :=
  if (s.genEntry t).zero ∧ s.pendingFor t = [] then s.sayTile t tag none true else s.sayLook t tag (s.tileNow t)

theorem State.sendResyncTile_of_empty {t : Nat} (tag : Nat) (empty : ((s.genEntry t).zero && s.pendingFor t == []) = true) :
    s.sendResyncTile t tag = s.sayTile t tag none true := if_pos (by simpa using empty)

theorem State.sendResyncTile_of_full {t : Nat} (tag : Nat) (full : ((s.genEntry t).zero && s.pendingFor t == []) = false) {l : Look}
    (now : s.tileNow t = l) : s.sendResyncTile t tag = s.sayLook t tag l := by
  rw [State.sendResyncTile, if_neg (by simpa using full), now]

theorem exec_resyncTileSend_of_other (other : s.prmState ≠ 5) : exec .resyncTileSend s = .next s := by
  refine congrArg Host.Outcome.next ?_
  split
  · exact absurd ‹_› other
  · rfl

variable (source : s.prmState = 5) (runs : s.prm.resync = some r)
include source runs

/-- After the last tile, HOME is due. -/
theorem exec_resyncTileSend_of_done (done : r.granules = []) : exec .resyncTileSend s = .next s.homeSource := by
  refine congrArg Host.Outcome.next ?_
  simp only [source, runs, done]

variable {a : Nat} {l : List Nat} (scope : r.granules = a :: l)
include scope

theorem exec_resyncTileSend_of_paused (paused : s.flag R.PRM_RESYNC_CTL.PAUSE = true) : exec .resyncTileSend s = .next s := by
  refine congrArg Host.Outcome.next ?_
  simp only [source, runs, scope, paused, if_true]

variable (goes : s.flag R.PRM_RESYNC_CTL.PAUSE = false)
include goes

theorem exec_resyncTileSend_of_noRoom (full : ¬ s.HasRoom .prm) : exec .resyncTileSend s = .next s := by
  refine congrArg Host.Outcome.next ?_
  simp only [source, runs, scope, goes, State.takeEntry_full _ full, Bool.false_eq_true, if_false]

/-- The next tile of the scope goes, with an entry of its own. -/
theorem exec_resyncTileSend_of_room (room : s.HasRoom .prm) : exec .resyncTileSend s = .next
    (((s.entered .prm { kind := .prm (a * 16 + r.next) }).withResync (r.passed l)).noteResync.sendResyncTile (a * 16 + r.next) (s.newTag .prm)) := by
  refine congrArg Host.Outcome.next ?_
  simp only [source, runs, scope, goes, State.takeEntry_room _ room, Bool.false_eq_true, if_false]
  rw [← scope]
  rfl

end Resync

end Sys2Proof.Machine
end

section
/-! Pairing, forced service and the resumption of a pair (R150, R151, R153 to R157, R162). -/

namespace Sys2Proof.Machine

/-! ## Pair commands (R150, R154 to R156) -/

section Commands
variable {s : State}

/-! A pair command leaves the state its check answers, and changes nothing where that answers none. -/

theorem exec_establish_of {o : Option State} (checked : s.establish? = o) : exec .establish s = .next (o.getD s) := checked ▸ rfl

theorem exec_startSolo_of {o : Option State} (checked : s.startSolo? = o) : exec .startSolo s = .next (o.getD s) := checked ▸ rfl

theorem exec_forceSolo_of {l3 : List StoredCopy} {o : Option State} (checked : s.forceSolo? l3 = o) :
    exec (.forceSolo l3) s = .next (o.getD s) := checked ▸ rfl

theorem State.establish?_of_refused (refused : s.dbgOpen = true ∨ s.assignedExts ≠ [] ∨ s.prm.secret.isSome = true ∨ s.prmState ≠ 0) :
    s.establish? = none := if_pos refused

theorem State.establish?_of_ok (locked : s.dbgOpen = false) (empty : s.assignedExts = []) (unpaired : s.prm.secret = none) (rest : s.prmState = 0) :
    s.establish? = some (({ s with prm := { s.prm with establishing := true, attested := false } } : State).fset R.PRM_STAT.STATE 1).askAttest :=
  if_neg (by simp [locked, empty, unpaired, rest])

/-- A device that lost its tiles, or whose tiles are stale, or that has no pair does not go solo by itself. -/
theorem State.startSolo?_of_unfit (unfit : s.prm.lost = true ∨ s.prm.stale = true ∨ s.prm.secret = none) : s.startSolo? = none :=
  if_pos (by rw [Option.isNone_iff_eq_none]; tauto)

theorem State.startSolo?_of_fit (secret : s.prm.secret.isSome = true) (held : s.prm.lost = false) (fresh : s.prm.stale = false) : s.startSolo? =
    if s.prmState ≤ 1 ∧ s.fget R.SUP_START_STAT.PHASE = 6 ∨ s.prmState = 4 then some (s.goSolo true) else none :=
  if_neg (by simp [Option.isSome_iff_ne_none.mp secret, held, fresh])

theorem State.forceSolo?_of_ok (l3 : List StoredCopy) (secret : s.prm.secret.isSome = true) (needed : s.prm.lost = true ∨ s.prm.stale = true)
    (alone : s.sendGrp = none ∨ s.prm.peerLost = true) (recovered : 6 ≤ s.fget R.SUP_START_STAT.PHASE) :
    s.forceSolo? l3 = some (s.forceSolo l3) := by
  refine if_neg ?_
  rintro (unpaired | unneeded | ⟨linked, peer⟩ | early)
  · simp [Option.isNone_iff_eq_none.mp unpaired] at secret
  · have whole : s.prm.lost = false ∧ s.prm.stale = false := by simpa using unneeded
    simp [whole] at needed
  · rcases alone with down | lost
    · simp [down] at linked
    · simp [lost] at peer
  · omega

theorem State.forceSolo?_of_refused (l3 : List StoredCopy) (refused : s.prm.secret = none ∨ (s.prm.lost = false ∧ s.prm.stale = false)
    ∨ (s.sendGrp.isSome = true ∧ s.prm.peerLost = false) ∨ s.fget R.SUP_START_STAT.PHASE < 6) : s.forceSolo? l3 = none :=
  if_pos (by simpa using refused)

theorem State.admitReplacement?_of_ok (secret : s.prm.secret.isSome = true) (solo : s.prmState = 3) (idle : s.prm.replacing = false)
    (more : s.prm.pairInc ≠ 0xFFFF) : s.admitReplacement? =
      .ok ({ s with prm := { s.prm with pairInc := s.prm.pairInc + 1, replacing := true, attested := false } } : State).askAttest :=
  (if_neg (by simp [Option.isSome_iff_ne_none.mp secret, solo, idle])).trans (if_neg more)

theorem State.admitReplacement?_of_refused
    (refused : s.prmState ≠ 3 ∨ s.prm.pairInc = 0xFFFF ∨ s.prm.secret = none ∨ s.prm.replacing = true) :
    ∃ st, s.admitReplacement? = .error st := by
  unfold State.admitReplacement?
  by_cases fault : s.prm.secret.isNone = true ∨ s.prmState ≠ 3 ∨ s.prm.replacing = true
  · exact ⟨_, if_pos fault⟩
  · have exhausted : s.prm.pairInc = 0xFFFF := by rw [Option.isNone_iff_eq_none] at fault; tauto
    exact ⟨_, (if_neg fault).trans (if_pos exhausted)⟩

end Commands

/-! ## Re-anchoring (R155 steps 2 and 3; log entry 134) -/

section Reanchor
variable {s : State} {t : Nat} {c : StoredCopy}

theorem exec_reanchorTile_of_anchored (done : s.unanchored t = false) : exec (.reanchorTile t c) s = .next s :=
  congrArg Host.Outcome.next (if_pos (Or.inl (by simp [done])))

theorem exec_reanchorTile_of_room (due : s.unanchored t = true) (data : isSys t = false) (room : s.HasRoom .maint) : exec (.reanchorTile t c) s =
    .next (((s.entered .maint { kind := .maint t }).reanchor t c).resolve (s.newTag .maint) .ok) := by
  refine congrArg Host.Outcome.next ((if_neg (by simp [due, data])).trans ?_)
  rw [State.takeEntry_room _ room]

/-- A tile counts as anchored. -/
def State.anchor (s : State) (t : Nat) : State := { s with prm := { s.prm with anchored := s.prm.anchored ++ [t] } }

theorem State.reanchor_of_verified (verified : ((s.anchor t).checkCopy t (tagVer c.tag) c.tag c.cipher).isSome = true) : s.reanchor t c =
    (s.anchor t).changeEntry t { (s.anchor t).genEntry t with zero := false, reloc := (tagVer c.tag).reloc, gen := (tagVer c.tag).gen } :=
  if_pos verified

/-- A copy that does not verify is quarantined, unless the tile is ZERO and has none. -/
theorem State.reanchor_of_unverified (data : isSys t = false) (unverified : (s.anchor t).checkCopy t (tagVer c.tag) c.tag c.cipher = none) :
    s.reanchor t c = if ((s.anchor t).genEntry t).zero then s.anchor t else (s.anchor t).quarantine t := by
  have refused : ¬ ((s.anchor t).checkCopy t (tagVer c.tag) c.tag c.cipher).isSome = true := by simp [unverified]
  refine (if_neg refused).trans ?_
  rw [if_neg (c := isSys t = true) (by simp [data])]
  rfl

end Reanchor

/-! ## Resuming a pair (R151, R153, R162) -/

section Resume
variable {s : State} {p : PeerState}

theorem exec_pairResume_of_unready (unready : s.linked = true ∨ s.prm.secret = none ∨ s.jnlState ≠ 2 ∨ s.sendGrp = none) :
    exec (.pairResume p) s = .next s :=
  congrArg Host.Outcome.next (if_pos (by simp only [Option.isNone_iff_eq_none]; tauto))

variable (secret : s.prm.secret.isSome = true) (running : s.jnlState = 2) (up : s.sendGrp.isSome = true) (apart : s.linked = false)
include secret running up apart

theorem exec_pairResume_of_noNonce (first : s.prm.nonce = none) : exec (.pairResume p) s = .next s.askResume := by
  refine congrArg Host.Outcome.next ((if_neg (by simp_all [Option.isSome_iff_ne_none])).trans ?_)
  rw [first]

/-- The second command proves the pair secret and judges the twin: its strap, its proof, then the decision of R162. -/
theorem exec_pairResume_of_nonce {n : Bytes} (asked : s.prm.nonce = some n) : exec (.pairResume p) s =
    let u := (s.sendResume n (natLe 32 p.nonce.toNat)).endNonce
    .next (if p.senior = u.isSenior then u.roleClash else if !u.confirms n p then u.pairFails
      else ({ u with prm := { u.prm with peerLost := p.lost, a := nextKeys u.prm.a, b := nextKeys u.prm.b } } : State).settlePair p) := by
  refine congrArg Host.Outcome.next ((if_neg (by simp_all [Option.isSome_iff_ne_none])).trans ?_)
  rw [asked]

omit secret running up apart

theorem State.confirms_iff {n : Bytes} : s.confirms n p = true ↔
    p.attestOk = true ∧ natBe 16 p.mac.toNat = s.confirmMac p.senior (natLe 32 p.nonce.toNat) n ∧ p.pairId = s.pairId := by
  simp [State.confirms, and_assoc]

end Resume

/-- Settles O37: timers, groups (R136; log entry 132) and TWIN_ALIVE by the state they find, a resync by its side and what its next tile
holds; then each pair command by its conditions, a re-anchored tile by its copy (log entry 134), and the resumption by its nonce (log
entry 7). -/
theorem linksResyncAndPairing : Obligations.LinksResyncAndPairing := by
  refine ⟨fun g s => ⟨fun f r up held => ?_, exec_prmRtoExpire_of_idle, rfl,
      fun quiet => congrArg Host.Outcome.next (if_pos (by simpa using quiet)), fun secret serves stays => ?_,
      fun w ns => ⟨exec_prmGroupTrained_of_unfit, fun down width near powered => ?_⟩, rfl, rfl, fun lives => ?_, fun dead => ?_,
      fun t r x target runs got => ?_, fun r source runs => ⟨exec_resyncTileSend_of_done source runs, fun scope paused => ?_, ?_,
        fun scope goes full => ?_⟩, exec_resyncTileSend_of_other⟩,
    fun s => ⟨fun locked empty unpaired rest => exec_establish_of (State.establish?_of_ok locked empty unpaired rest),
      fun refused => exec_establish_of (State.establish?_of_refused refused), fun secret held fresh => ?_,
      fun unfit => exec_startSolo_of (State.startSolo?_of_unfit unfit),
      fun l3 secret needed alone recovered => ?_,
      fun l3 refused => exec_forceSolo_of (State.forceSolo?_of_refused l3 refused), fun secret solo idle more => ?_, fun refused => ?_,
      fun t c => ⟨exec_reanchorTile_of_anchored, fun due data room => ?_⟩,
      fun p secret running up apart => ⟨exec_pairResume_of_noNonce secret running up apart, fun n asked => ?_⟩,
      fun p => exec_pairResume_of_unready⟩⟩
  · rw [exec_prmRtoExpire_of_held up held]
    exact ⟨fun more => congrArg _ (if_neg (by omega)), fun used => congrArg _ (if_pos used)⟩
  · refine congrArg Host.Outcome.next (if_neg ?_)
    simp [Option.isSome_iff_ne_none.mp secret, serves, imp_iff_not_or, stays]
  · exact ⟨_, exec_prmGroupTrained_of_fit down width near powered, State.groupAt_grpUp _ _, State.groupAt_width _ _,
      State.groupAt_flight _ _, rfl⟩
  · rw [exec_twinAliveToggle]
    rcases lives with h | h | h <;> simp [h]
  · rw [exec_twinAliveToggle]
    rcases dead with h | h <;> simp [h]
  · rw [exec_resyncTileInstall_of_got target runs got]
    exact ⟨fun early => congrArg _ (if_pos (Or.inl early)), fun admitted free => congrArg _ (if_neg (by simp [admitted, free]))⟩
  · obtain ⟨a, l, tiles⟩ := List.exists_cons_of_ne_nil scope
    exact exec_resyncTileSend_of_paused source runs tiles paused
  · intro a l scope goes room t tag v w say empty
    rw [exec_resyncTileSend_of_room source runs scope goes room]
    refine ⟨fun none_stored => congrArg _ (State.sendResyncTile_of_empty tag none_stored), fun stored b now => ?_, fun stored now => ?_,
      fun stored now => ?_⟩
    all_goals exact congrArg _ (State.sendResyncTile_of_full tag stored now)
  · obtain ⟨a, l, tiles⟩ := List.exists_cons_of_ne_nil scope
    exact exec_resyncTileSend_of_noRoom source runs tiles goes full
  · rw [exec_startSolo_of (State.startSolo?_of_fit secret held fresh)]
    exact ⟨fun waits => by rw [if_pos waits]; rfl, fun other => by rw [if_neg other]; rfl⟩
  · rw [exec_forceSolo_of (State.forceSolo?_of_ok l3 secret needed alone recovered), Option.getD_some]
  · refine congrArg Host.Outcome.next ?_
    rw [State.admitReplacement?_of_ok secret solo idle more]
  · obtain ⟨st, error⟩ := State.admitReplacement?_of_refused refused
    refine congrArg Host.Outcome.next ?_
    rw [error]
  · intro w u v
    rw [exec_reanchorTile_of_room due data room]
    have anchored : w.anchor t = u := rfl
    refine ⟨fun unverified stored => ?_, fun unverified zero => ?_, fun verified => ?_⟩
    · rw [State.reanchor_of_unverified data unverified, anchored, if_neg (by simp [stored])]
    · rw [State.reanchor_of_unverified data unverified, anchored, if_pos zero]
    · rw [State.reanchor_of_verified verified]
      rfl
  · intro u
    rw [exec_pairResume_of_nonce secret running up apart asked]
    refine ⟨fun same => congrArg _ (if_pos same), fun differ fails => ?_, fun differ attested mac pair => ?_⟩
    · have unproved : (!u.confirms n p) = true := by
        rw [Bool.not_eq_true', ← Bool.not_eq_true, State.confirms_iff]
        rintro ⟨attested, mac, pair⟩
        simp [attested, mac, pair] at fails
      exact congrArg _ ((if_neg differ).trans (if_pos unproved))
    · have proved : (!u.confirms n p) = false := congrArg not (State.confirms_iff.mpr ⟨attested, mac, pair⟩)
      exact congrArg _ ((if_neg differ).trans (if_neg (ne_true_of_eq_false proved)))

end Sys2Proof.Machine
end

section
/-! Flits from the modules (R173, R177, R178, R180 to R182; log entries 23, 56, 136). -/

namespace Sys2Proof.Machine

/-! ## What a line brings (R177, R182) -/

/-- The commands that bring a flit: each hears the whole line, whatever its name says of the flit (log entry 136). -/
def flitCommands (lane : Fin 128) (head cw pad crc : Bytes) : List Instr :=
  [.medDataFlit lane head cw pad crc, .medRespFlit lane head (cw ++ pad) crc, .medReplayReq lane (head ++ cw ++ pad ++ crc),
   .medIdleFlit lane (head ++ cw ++ pad ++ crc)]

theorem exec_flitCommand (lane : Fin 128) (head cw pad crc : Bytes) (s : State) :
    ∀ i ∈ flitCommands lane head cw pad crc, exec i s = .next (s.hearFlit lane.val (head ++ cw ++ pad ++ crc)) := by
  have resp : exec (.medRespFlit lane head (cw ++ pad) crc) s = .next (s.hearFlit lane.val (head ++ cw ++ pad ++ crc)) := by
    rw [List.append_assoc head cw pad]
    rfl
  simp only [flitCommands, List.forall_mem_cons, List.not_mem_nil, false_implies, implies_true, and_true]
  exact ⟨rfl, resp, rfl, rfl⟩

/-- The lane with the descrambler run over the line (R177). -/
def State.descrambled (s : State) (l : Nat) (line : Bytes) : State :=
  s.setLink l { s.link l with rx := (descramble (s.link l).rx line).2 }

@[simp] theorem State.descrambled_lastGood (s : State) (l : Nat) (line : Bytes) :
    ((s.descrambled l line).link l).lastGood = (s.link l).lastGood := by
  simp [State.descrambled]

section Hear
variable {s : State} {l : Nat} {line : Bytes}

theorem State.hearFlit_of_deaf (deaf : s.laneHears l = false) : s.hearFlit l line = s := if_pos (by simp [deaf])

theorem State.hearFlit_of_hears (hears : s.laneHears l = true) :
    s.hearFlit l line = if flitIntact (descramble (s.link l).rx line).1 then
        (s.descrambled l line).takeFlit l (readFlit (descramble (s.link l).rx line).1)
      else (s.descrambled l line).askReplay l :=
  if_neg (by simp [hears])

end Hear

/-! ## What an intact flit does, by its FTYPE (R178, R180 to R182) -/

/-- The lane with a flit in order counted as received and its ACK_SEQ heeded (R182). -/
def State.received (s : State) (l : Nat) (f : RxFlit) : State := (s.setLink l { s.link l with lastGood := f.fseq }).flitAck l f.ack

section Take
variable {s : State} {l : Nat} {f : RxFlit}

/-- Reserved bits, CMD and the types above REPLAY_REQ (R181). -/
theorem State.takeFlit_of_fault (fault : f.rsvd = true ∨ f.ftype = 1 ∨ 4 < f.ftype) :
    s.takeFlit l f = s.protocolFault l (if f.ftype = 2 ∨ f.ftype = 3 then some f.tag else none) := by
  simp only [State.takeFlit, if_pos fault, Bool.or_eq_true, beq_iff_eq]

section Plain
variable (plain : f.rsvd = false)
include plain

theorem State.takeFlit_of_idle (idle : f.ftype = 0) : s.takeFlit l f = s.flitAck l f.ack := by
  simp [State.takeFlit, plain, idle]

theorem State.takeFlit_of_replayReq (asked : f.ftype = 4) : s.takeFlit l f = (s.flitAck l f.ack).replayAsked l := by
  simp [State.takeFlit, plain, asked]

/-- DATA and RESP out of FSEQ order are discarded (log entry 23). -/
theorem State.takeFlit_of_outOfOrder (numbered : f.ftype = 2 ∨ f.ftype = 3) (early : f.fseq ≠ (s.link l).lastGood + 1) :
    s.takeFlit l f = s := by
  have faultless : ¬(f.rsvd = true ∨ f.ftype = 1 ∨ 4 < f.ftype) := by
    simp only [plain, Bool.false_eq_true, false_or]
    omega
  have counted : (!(f.ftype == 2 || f.ftype == 3)) = false := by
    rcases numbered with type | type <;> simp [type]
  simp only [State.takeFlit, if_neg faultless, counted, Bool.false_eq_true, if_false, if_pos early]

theorem State.takeFlit_of_data (data : f.ftype = 2) (next : f.fseq = (s.link l).lastGood + 1) :
    s.takeFlit l f = (s.received l f).takeData l f.tag f.index f.cw := by
  simp [State.takeFlit, State.received, plain, data, next]

theorem State.takeFlit_of_resp (resp : f.ftype = 3) (next : f.fseq = (s.link l).lastGood + 1) :
    s.takeFlit l f = (s.received l f).takeResp l f.tag f.status := by
  simp [State.takeFlit, State.received, plain, resp, next]

end Plain
end Take

/-! ## DATA (R180, R181) -/

section Data
variable {s : State} {l tag index : Nat} {cw : Bytes}

theorem State.takeData_of_none (idle : AMap.find? s.med.cmds (l * 128 + tag) = none) :
    s.takeData l tag index cw = s.protocolFault l none := by
  simp only [State.takeData, idle]

variable {c : Cmd} (runs : AMap.find? s.med.cmds (l * 128 + tag) = some c)
include runs

/-- The next codeword of a READ is kept with it. -/
theorem State.takeData_of_next (read : c.opcode = 1) (next : index = c.data) (more : c.data < c.count) :
    s.takeData l tag index cw = { s with med := { s.med with
      cmds := AMap.put s.med.cmds (l * 128 + tag) { c with data := c.data + 1, cws := c.cws ++ [cw] } } } := by
  have fits : c.opcode = 1 ∧ index = c.data ∧ c.data < c.count := ⟨read, next, more⟩
  simp only [State.takeData, runs, if_pos fits]

theorem State.takeData_of_other (other : c.opcode ≠ 1 ∨ index ≠ c.data ∨ c.count ≤ c.data) :
    s.takeData l tag index cw = s.protocolFault l (some tag) := by
  have unfit : ¬(c.opcode = 1 ∧ index = c.data ∧ c.data < c.count) := by omega
  simp only [State.takeData, runs, if_neg unfit]

end Data

/-! ## RESP (R173, R179, R181; log entry 56) -/

section Resp
variable {s : State} {l tag : Nat} {status : Byte}

theorem State.takeResp_of_none (idle : AMap.find? s.med.cmds (l * 128 + tag) = none) :
    s.takeResp l tag status = s.protocolFault l none := by
  simp only [State.takeResp, idle]

section Runs
variable {c : Cmd} (runs : AMap.find? s.med.cmds (l * 128 + tag) = some c)
include runs

/-- A READ whose DATA is not all there. -/
theorem State.takeResp_of_early (read : c.opcode = 1) (short : c.data ≠ c.count) :
    s.takeResp l tag status = s.protocolFault l (some tag) := by
  simp only [State.takeResp, runs, if_pos (And.intro read short)]

section Whole
variable (whole : c.opcode ≠ 1 ∨ c.data = c.count)
include whole

/-- A RESP in its place is judged by its status alone, MEDIA_ERROR being a READ's. -/
theorem State.takeResp_of_whole : s.takeResp l tag status =
    if status = 0 then (s.endCmd l tag true).fenceDone l
    else if status = 2 ∧ c.opcode = 1 then ((s.sat (R.MED_LANE_CNT.MEDIA_ERRORS l)).endCmd l tag true).fenceDone l
    else if status = 3 then s.faultCmd l tag 5
    else s.faultCmd l tag 7 := by
  have notEarly : ¬(c.opcode = 1 ∧ c.data ≠ c.count) := by omega
  simp only [State.takeResp, runs, if_neg notEarly]

theorem State.takeResp_of_ok (ok : status = 0) : s.takeResp l tag status = (s.endCmd l tag true).fenceDone l := by
  rw [State.takeResp_of_whole runs whole, if_pos ok]

theorem State.takeResp_of_mediaError (error : status = 2) (read : c.opcode = 1) :
    s.takeResp l tag status = ((s.sat (R.MED_LANE_CNT.MEDIA_ERRORS l)).endCmd l tag true).fenceDone l := by
  simp [State.takeResp_of_whole runs whole, error, read]

theorem State.takeResp_of_writeFail (fail : status = 3) : s.takeResp l tag status = s.faultCmd l tag 5 := by
  simp [State.takeResp_of_whole runs whole, fail]

/-- A status that is not listed, or MEDIA_ERROR for a command that reads nothing (log entry 56). -/
theorem State.takeResp_of_unlisted (unlisted : status = 2 ∧ c.opcode ≠ 1 ∨ status ≠ 0 ∧ status ≠ 2 ∧ status ≠ 3) :
    s.takeResp l tag status = s.faultCmd l tag 7 := by
  rw [State.takeResp_of_whole runs whole]
  rcases unlisted with ⟨error, other⟩ | ⟨notOk, notError, notFail⟩
  · simp [error, other]
  · rw [if_neg notOk, if_neg (fun error => notError error.1), if_neg notFail]

end Whole
end Runs
end Resp

/-! ## REPLAY_REQ (R182) -/

section Replay
variable {s : State} {l : Nat}

theorem State.replayAsked_of_empty (empty : (s.link l).sent = []) : s.replayAsked l = s := if_pos empty

variable (held : (s.link l).sent ≠ [])
include held

theorem State.replayAsked_of_fewer (fewer : (s.link l).replays < s.fget R.MED_LINK_CTL.REPLAYS) :
    s.replayAsked l = (s.setLink l { s.link l with replays := (s.link l).replays + 1 }).resend l :=
  (if_neg held).trans (if_pos fewer)

variable (used : s.fget R.MED_LINK_CTL.REPLAYS ≤ (s.link l).replays)
include used

theorem State.replayAsked_of_used (first : (s.link l).retrained = false) :
    s.replayAsked l = (s.setLink l { s.link l with retrained := true }).quickRetrain l :=
  (if_neg held).trans ((if_neg (not_lt.mpr used)).trans (if_pos (by simp [first])))

theorem State.replayAsked_of_retrained (retrained : (s.link l).retrained = true) : s.replayAsked l = (s.fenceLane l 3).fenceDone l :=
  (if_neg held).trans ((if_neg (not_lt.mpr used)).trans (if_neg (by simp [retrained])))

end Replay

/-- Settles O38: every command hears its line alike (log entry 136); what it hears is judged by the lane and the CRC-64, an intact flit by
its FTYPE, with DATA and RESP out of FSEQ order discarded (log entry 23), and a RESP by its status (log entry 56). -/
theorem flitsAreTakenInOrder : Obligations.FlitsAreTakenInOrder := by
  intro lane head cw pad crc s line l b s1 f i mem
  have hears : exec i s = .next (s.hearFlit l line) := exec_flitCommand lane head cw pad crc s i mem
  refine ⟨fun deaf => hears.trans (congrArg _ (State.hearFlit_of_deaf deaf)), fun up corrupt => ?_, fun up intact => ?_, rfl⟩
  · exact hears.trans (congrArg _ ((State.hearFlit_of_hears up).trans (if_neg (ne_true_of_eq_false corrupt))))
  have taken {t : State} (takes : s1.takeFlit l f = t) : exec i s = .next t :=
    hears.trans (congrArg _ (((State.hearFlit_of_hears up).trans (if_pos intact)).trans takes))
  have lastGood : (s1.link l).lastGood = (s.link l).lastGood := State.descrambled_lastGood s l line
  have cw_read : f.cw = slice b 8 300 := rfl
  -- What follows holds of any flit on any state of the lane, not of what was read off this line alone.
  clear_value s1 f
  refine ⟨fun fault => taken (State.takeFlit_of_fault fault), fun plain idle => taken (State.takeFlit_of_idle plain idle),
    fun plain asked => ?_, fun plain numbered early => taken (State.takeFlit_of_outOfOrder plain numbered (lastGood ▸ early)),
    fun plain numbered next => ?_⟩
  · have replays {t : State} (leads : (s1.flitAck l f.ack).replayAsked l = t) : exec i s = .next t :=
      taken ((State.takeFlit_of_replayReq plain asked).trans leads)
    exact ⟨fun empty => replays (State.replayAsked_of_empty empty), fun held fewer => replays (State.replayAsked_of_fewer held fewer),
      fun held used first => replays (State.replayAsked_of_used held used first),
      fun held used retrained => replays (State.replayAsked_of_retrained held used retrained)⟩
  rw [← lastGood] at next
  have data (type : f.ftype = 2) {t : State} (does : (s1.received l f).takeData l f.tag f.index f.cw = t) : exec i s = .next t :=
    taken ((State.takeFlit_of_data plain type next).trans does)
  have resp (type : f.ftype = 3) {t : State} (does : (s1.received l f).takeResp l f.tag f.status = t) : exec i s = .next t :=
    taken ((State.takeFlit_of_resp plain type next).trans does)
  refine ⟨fun none_runs => ?_, fun c runs => ⟨fun type read index more => ?_,
    fun type other => data type (State.takeData_of_other runs other), fun type read short => resp type (State.takeResp_of_early runs read short),
    fun type whole => ⟨fun ok => resp type (State.takeResp_of_ok runs whole ok),
      fun error read => resp type (State.takeResp_of_mediaError runs whole error read),
      fun fail => resp type (State.takeResp_of_writeFail runs whole fail),
      fun unlisted => resp type (State.takeResp_of_unlisted runs whole unlisted)⟩⟩⟩
  · rcases numbered with type | type
    · exact data type (State.takeData_of_none none_runs)
    · exact resp type (State.takeResp_of_none none_runs)
  · rw [← cw_read]
    exact data type (State.takeData_of_next runs read index more)

end Sys2Proof.Machine
end

section
/-! WALK and WCANCEL (R229, R265, R266): the plan that a context declares from its local store, and its end. -/

namespace Sys2Proof.Machine

/-! ## Reads of the counted context -/

theorem State.counted_tenant {s : State} {c : Ctx} {t : Task} (task : (s.ctx c.val).task = some t) : (s.counted c).tenant = t.tenant := by
  simp only [CtxSt.tenant, State.counted_task, task]

/-- A read of bytes inside the partition of a Kiosk's context that issues. -/
theorem State.readAt_counted_ls {s : State} {c : Ctx} {addr : Word} {off n : Nat} (kiosk : c.val ≠ 4096) (at_off : addr.toNat = off)
    (inside : off + n ≤ (s.ctx c.val).lsSize) (small : (s.ctx c.val).lsSize ≤ 65536) :
    s.readAt c (s.counted c) addr n 1 = (some (s.counted c, loadBytes (s.ctx c.val).ls off n), s) := by
  rw [State.readAt_ls at_off kiosk (Nat.mod_one off) (by rwa [State.counted_lsSize]) (by omega), State.counted_ls]

/-! ## WALK in the local store (R228, R229, R266) -/

/-- What WALK does with what its bytes hold: it declares the plan, or declares none and answers MALFORMED. -/
def State.walkEnds (s : State) (c : Ctx) (d : BitVec 5) : Option Plan → State
  | some p => (s.declarePlan (.ctx c) p).setCtx c.val ((s.counted c).wa d 0).after
  | none => s.setCtx c.val ((s.counted c).wa d (BitVec.ofNat 64 Status.malformed.code)).after

section Walk
variable {s : State} {c : Ctx} {gp : BitVec 3} {d a : BitVec 5} (b : BitVec 5) {off : Nat} (runs : s.Runs c)
  (guard : (s.ctx c.val).rp gp.toNat = true) (kiosk : c.val ≠ 4096) (at_off : ((s.ctx c.val).ra a).toNat = off)
  (small : (s.ctx c.val).lsSize ≤ 65536)
include runs guard kiosk at_off small

/-- A header whose count no plan has ends the matter: no entry is read. -/
theorem exec_walk_of_badCount (header : off + 32 ≤ (s.ctx c.val).lsSize)
    (bad : ¬(1 ≤ fieldAt (loadBytes (s.ctx c.val).ls off 32) 4 2 ∧ fieldAt (loadBytes (s.ctx c.val).ls off 32) 4 2 ≤ 4096)) :
    exec (.walk c gp d a b) s = .next (s.walkEnds c d none) := by
  refine congrArg Host.Outcome.next ((State.issue_runs runs guard rfl).trans ?_)
  simp only [State.counted_ra, State.readAt_counted_ls kiosk at_off header small, if_neg bad]
  rfl

/-- A header whose count a plan may have: its entries are read too, and header and entries together decide. -/
theorem exec_walk_of_goodCount {t : Task} (task : (s.ctx c.val).task = some t) {n : Nat}
    (count : fieldAt (loadBytes (s.ctx c.val).ls off 32) 4 2 = n) (good : 1 ≤ n ∧ n ≤ 4096)
    (entries : off + 32 + 16 * n ≤ (s.ctx c.val).lsSize) :
    exec (.walk c gp d a b) s = .next (s.walkEnds c d
      (parsePlan (loadBytes (s.ctx c.val).ls off 32 ++ loadBytes (s.ctx c.val).ls (off + 32) (16 * n)) t.tenant s.timeNs)) := by
  have next : ((s.ctx c.val).ra a + 32).toNat = off + 32 := by bv_omega
  refine congrArg Host.Outcome.next ((State.issue_runs runs guard rfl).trans ?_)
  simp only [State.counted_ra, State.readAt_counted_ls kiosk at_off (show off + 32 ≤ _ by omega) small, count, if_pos good,
    State.readAt_counted_ls kiosk next entries small, State.counted_tenant task]
  cases parsePlan _ t.tenant s.timeNs <;> rfl

end Walk

/-- Settles O22: the header's count decides whether the entries are read, and the bytes read whether a plan is declared; field B of
WALK is free (log entry 123). -/
theorem walkPlansBeginAndEnd : Obligations.WalkPlansBeginAndEnd := by
  intro c gp d a b s t off runs guard kiosk task at_off small header h n e
  refine ⟨fun p pos le inside holds => ?_, ?_, congrArg Host.Outcome.next (State.issue_runs runs guard rfl)⟩
  · rw [exec_walk_of_goodCount b runs guard kiosk at_off small task rfl ⟨pos, le⟩ inside, holds]
    rfl
  · intro malformed
    by_cases good : 1 ≤ n ∧ n ≤ 4096
    · obtain ⟨inside, holdsNone⟩ := (malformed.resolve_left (by omega)).resolve_left (by omega)
      rw [exec_walk_of_goodCount b runs guard kiosk at_off small task rfl good inside, holdsNone]
      rfl
    · exact exec_walk_of_badCount b runs guard kiosk at_off small header good

end Sys2Proof.Machine
end

section
/-! The words of Aelo programs (R255 to R257): the fields of a word of each format, and the word that its fields make up. -/

namespace Sys2Proof

/-! ## The fields of a word are what it was made of (R255) -/

section Word
variable {maj fn : Nat} (gp : BitVec 3) (d a b : BitVec 5) (imm : BitVec 13) (l : BitVec 18) (off : BitVec 23)

theorem rWord_lt (hm : maj < 64) (hf : fn < 256) : rWord maj gp d a b fn < 2 ^ 32 := by unfold rWord; omega
theorem iWord_lt (hm : maj < 64) : iWord maj gp d a imm < 2 ^ 32 := by unfold iWord; omega
theorem lWord_lt (hm : maj < 64) : lWord maj gp d l < 2 ^ 32 := by unfold lWord; omega
theorem jWord_lt (hm : maj < 64) : jWord maj gp off < 2 ^ 32 := by unfold jWord; omega

@[simp] theorem wMaj_rWord (hm : maj < 64) (hf : fn < 256) : wMaj (rWord maj gp d a b fn) = maj := by unfold wMaj rWord; omega
@[simp] theorem wMaj_iWord (hm : maj < 64) : wMaj (iWord maj gp d a imm) = maj := by unfold wMaj iWord; omega
@[simp] theorem wMaj_lWord (hm : maj < 64) : wMaj (lWord maj gp d l) = maj := by unfold wMaj lWord; omega
@[simp] theorem wMaj_jWord (hm : maj < 64) : wMaj (jWord maj gp off) = maj := by unfold wMaj jWord; omega

@[simp] theorem wGp_rWord : wGp (rWord maj gp d a b fn) = gp := by unfold wGp rWord; bv_omega
@[simp] theorem wGp_iWord : wGp (iWord maj gp d a imm) = gp := by unfold wGp iWord; bv_omega
@[simp] theorem wGp_lWord : wGp (lWord maj gp d l) = gp := by unfold wGp lWord; bv_omega
@[simp] theorem wGp_jWord : wGp (jWord maj gp off) = gp := by unfold wGp jWord; bv_omega

@[simp] theorem wD_rWord (hf : fn < 256) : wD (rWord maj gp d a b fn) = d := by unfold wD rWord; bv_omega
@[simp] theorem wD_iWord : wD (iWord maj gp d a imm) = d := by unfold wD iWord; bv_omega
@[simp] theorem wD_lWord : wD (lWord maj gp d l) = d := by unfold wD lWord; bv_omega

@[simp] theorem wA_rWord (hf : fn < 256) : wA (rWord maj gp d a b fn) = a := by unfold wA rWord; bv_omega
@[simp] theorem wA_iWord : wA (iWord maj gp d a imm) = a := by unfold wA iWord; bv_omega

@[simp] theorem wB_rWord (hf : fn < 256) : wB (rWord maj gp d a b fn) = b := by unfold wB rWord; bv_omega
@[simp] theorem wFn_rWord : wFn (rWord maj gp d a b fn) = BitVec.ofNat 8 fn := by unfold wFn rWord; bv_omega
@[simp] theorem wImm13_iWord : wImm13 (iWord maj gp d a imm) = imm := by unfold wImm13 iWord; bv_omega
@[simp] theorem wImm18_lWord : wImm18 (lWord maj gp d l) = l := by unfold wImm18 lWord; bv_omega
@[simp] theorem wOff23_jWord : wOff23 (jWord maj gp off) = off := by unfold wOff23 jWord; bv_omega

end Word

/-! ## A word is what its fields make up (R255) -/

section Fields
variable {w : Nat} (h : w < 2 ^ 32)
include h

theorem rWord_fields : rWord (wMaj w) (wGp w) (wD w) (wA w) (wB w) (wFn w).toNat = w := by
  simp only [rWord, wMaj, wGp, wD, wA, wB, wFn, BitVec.toNat_ofNat]; omega
theorem iWord_fields : iWord (wMaj w) (wGp w) (wD w) (wA w) (wImm13 w) = w := by
  simp only [iWord, wMaj, wGp, wD, wA, wImm13, BitVec.toNat_ofNat]; omega
theorem lWord_fields : lWord (wMaj w) (wGp w) (wD w) (wImm18 w) = w := by
  simp only [lWord, wMaj, wGp, wD, wImm18, BitVec.toNat_ofNat]; omega
theorem jWord_fields : jWord (wMaj w) (wGp w) (wOff23 w) = w := by
  simp only [jWord, wMaj, wGp, wOff23, BitVec.toNat_ofNat]; omega

end Fields

/-! ## The two halves of an FN of MAJ 0x2C (R273) -/

theorem cipherFn_low (hi : BitVec 4) {k : Nat} (hk : k < 16) : (BitVec.ofNat 8 (hi.toNat * 16 + k)).toNat % 16 = k := by
  rw [BitVec.toNat_ofNat]; omega

theorem cipherFn_high (hi : BitVec 4) {k : Nat} (hk : k < 16) : BitVec.ofNat 4 ((BitVec.ofNat 8 (hi.toNat * 16 + k)).toNat / 16) = hi := by
  rw [BitVec.toNat_ofNat]; bv_omega

theorem cipherFn_low_zero (hi : BitVec 4) : (BitVec.ofNat 8 (hi.toNat * 16)).toNat % 16 = 0 := cipherFn_low hi (k := 0) (by decide)
theorem cipherFn_high_zero (hi : BitVec 4) : BitVec.ofNat 4 ((BitVec.ofNat 8 (hi.toNat * 16)).toNat / 16) = hi :=
  cipherFn_high hi (k := 0) (by decide)

theorem cipherFn_halves (fn : BitVec 8) : (BitVec.ofNat 4 (fn.toNat / 16)).toNat * 16 + fn.toNat % 16 = fn.toNat := by
  rw [BitVec.toNat_ofNat]; omega

/-! ## From an instruction to its word and back (R256, R257) -/

theorem LogicOp.maj_lt (op : LogicOp) : op.maj < 64 := by cases op <;> decide
theorem Size.num_lt (sz : Size) : sz.num < 4 := by cases sz <;> decide

/-- MAJ and FN of an instruction fit their fields, so its word has 32 bits. -/
theorem encodeAelo_lt {i : Instr} {c : Ctx} {w : Nat} (h : encodeAelo i = some (c, w)) : w < 2 ^ 32 := by
  unfold encodeAelo at h
  split at h
  case h_21 op _ _ _ _ => cases h; exact iWord_lt _ _ _ _ op.maj_lt
  case h_22 sz _ _ _ _ => cases h; exact iWord_lt _ _ _ _ (have := sz.num_lt; by omega)
  case h_23 sz _ _ _ _ => cases h; exact iWord_lt _ _ _ _ (have := sz.num_lt; by omega)
  case h_50 => cases h
  all_goals
    cases h
    simp (disch := omega) only [rWord_lt, iWord_lt, lWord_lt, jWord_lt]

/-- The word of an instruction decodes to it: MAJ names its format, whose fields are then its operands. -/
theorem decode_of_encode {i : Instr} {c : Ctx} {w : Nat} (h : encodeAelo i = some (c, w)) : decodeAelo c w = some i := by
  unfold encodeAelo at h
  split at h
  case h_21 op _ _ _ _ => cases h; cases op <;> simp [decodeAelo, LogicOp.maj]
  case h_22 sz _ _ _ _ => cases h; cases sz <;> simp [decodeAelo, Size.num]
  case h_23 sz _ _ _ _ => cases h; cases sz <;> simp [decodeAelo, Size.num]
  case h_50 => cases h
  all_goals
    cases h
    simp (disch := omega) [decodeAelo, decodeByFn, cipherFn_low, cipherFn_high, cipherFn_low_zero, cipherFn_high_zero, -BitVec.toNat_ofNat]

/-- An instruction that FN names has the word of format R with that FN. -/
theorem encode_of_decodeByFn {i : Instr} {c : Ctx} {maj : Nat} {gp : BitVec 3} {d a b : BitVec 5} {fn : BitVec 8}
    (h : decodeByFn c maj gp d a b fn = some i) : encodeAelo i = some (c, rWord maj gp d a b fn.toNat) := by
  unfold decodeByFn at h
  split at h
  case h_6 =>
    have halves := cipherFn_halves fn
    simp only at h
    split at h <;> cases h <;> rename_i low <;> rw [low] at halves <;> exact congrArg (fun n => some (c, rWord _ gp d a b n)) halves
  case h_7 => cases h
  all_goals split at h <;> cases h <;> rename_i named <;> exact congrArg (fun n => some (c, rWord _ gp d a b n)) named.symm

/-- A word is that of the instruction it decodes to: MAJ names the format, and the word is what its fields make up. -/
theorem encode_of_decode {i : Instr} {c : Ctx} {w : Nat} (small : w < 2 ^ 32) (h : decodeAelo c w = some i) : encodeAelo i = some (c, w) := by
  have r := rWord_fields small
  have im := iWord_fields small
  have l := lWord_fields small
  have j := jWord_fields small
  unfold decodeAelo at h
  split at h
  case h_32 => rw [encode_of_decodeByFn h, r]
  all_goals
    rename_i maj
    rw [maj] at r im l j
    cases h
    simp only [encodeAelo, LogicOp.maj, Size.num, r, im, l, j]

/-- Of the MAJ values that name no instruction alone, six have instructions by FN. -/
theorem decodeByFn_of_unassigned (c : Ctx) {maj : Nat} (gp : BitVec 3) (d a b : BitVec 5) (fn : BitVec 8)
    (h : maj < 0x28 ∨ maj = 0x29 ∨ 0x2F ≤ maj) : decodeByFn c maj gp d a b fn = none := by
  unfold decodeByFn
  split
  case h_7 => rfl
  all_goals omega

/-- Settles O15: an instruction's word by its format, a word's instruction by its MAJ and, where MAJ leaves it open, by FN. -/
theorem aeloWordsReadBack : Obligations.AeloWordsReadBack := by
  refine ⟨fun i c w h => ⟨encodeAelo_lt h, decode_of_encode h⟩, fun i c w => encode_of_decode, fun c w unassigned => ?_⟩
  rw [← wMaj] at unassigned
  have noFn : wMaj w < 0x28 ∨ wMaj w = 0x29 ∨ 0x2F ≤ wMaj w := by omega
  unfold decodeAelo
  split
  case h_32 => exact decodeByFn_of_unassigned c _ _ _ _ _ noFn
  all_goals omega

end Sys2Proof
end

section
/-! A byte memory under stores (R245, R246): what is stored reads back, and all else reads as before. -/

namespace Sys2Proof.Machine

theorem loadBytes_storeBytes_same (m : AMap Byte) (i : Nat) (b : Bytes) : loadBytes (storeBytes m i b) i b.length = b :=
  List.ext_getElem (loadBytes_length ..) fun k _ inside => by
    simp only [loadBytes, List.getElem_map, List.getElem_range, storeBytes_inside b m i k inside]

theorem loadBytes_storeBytes_apart (m : AMap Byte) {i : Nat} {b : Bytes} {a n : Nat} (apart : a + n ≤ i ∨ i + b.length ≤ a) :
    loadBytes (storeBytes m i b) a n = loadBytes m a n := by
  refine List.map_congr_left fun k inside => storeBytes_outside b m i (a + k) ?_
  have := List.mem_range.mp inside
  omega

/-- Settles O10: the form byte by byte, then what a load of several bytes finds. -/
theorem storesKeepTheirForm : Obligations.StoresKeepTheirForm :=
  fun m i b canonical => ⟨storeBytes_wf b m i canonical, loadBytes_storeBytes_same m i b, fun _ _ => loadBytes_storeBytes_apart m⟩

end Sys2Proof.Machine
end

section
/-! Integers, compares and predicates, special registers and branches (R243, R244, R256, R257, R259): what each row of the program does, and
what a guard or a bad word makes of it. -/

namespace Sys2Proof.Machine

/-! ## The counted context -/

@[simp] theorem State.counted_rp (s : State) (c : Ctx) (n : Nat) : (s.counted c).rp n = (s.ctx c.val).rp n := by
  unfold State.counted; dsimp only; split <;> rfl
@[simp] theorem State.counted_pc (s : State) (c : Ctx) : (s.counted c).pc = (s.ctx c.val).pc := by
  unfold State.counted; dsimp only; split <;> rfl

/-! ## MAJ 0x01 (R259) -/

/-- The table of R259 row by row. -/
theorem aluResult_of_row : ∀ r ∈ aluRows, ∀ a b : Word, aluResult r.1 a b = some (r.2 a b) := by
  simp [aluRows, aluResult, BitVec.ult, BitVec.slt]

theorem aluUnary_iff {fn : BitVec 8} : aluUnary fn = true ↔ 0x10 ≤ fn.toNat ∧ fn.toNat ≤ 0x15 := by simp [aluUnary]

theorem does_aluOp {fn : BitVec 8} {f : Word → Word → Word} (row : ∀ a b, aluResult fn a b = some (f a b)) {c : Ctx} {gp : BitVec 3}
    {d a b : BitVec 5} (unary : 0x10 ≤ fn.toNat → fn.toNat ≤ 0x15 → b = 0) :
    Does (.aluOp c gp d a b fn) c gp fun _ x => x.wa d (f (x.ra a) (x.ra b)) := by
  have good : ((aluResult fn 0 0).isNone || (aluUnary fn && b != 0)) = false := by
    rw [row, Option.isNone_some, Bool.false_or, Bool.and_eq_false_imp, aluUnary_iff]
    rintro ⟨low, high⟩
    simp [unary low high]
  exact does_of good fun s _ => by simp only [exec, execAluOp, row, Option.getD_some]

/-! ## Compares and predicates (R257, R259) -/

theorem does_cmp {fn : BitVec 8} {f : Word → Word → Bool} (row : ∀ a b, cmpResult fn a b = some (f a b)) {c : Ctx} {gp : BitVec 3}
    {d a b : BitVec 5} (hd : d.toNat < 8) : Does (.cmp c gp d a b fn) c gp fun _ x => x.wp d.toNat (f (x.ra a) (x.ra b)) := by
  have good : ((cmpResult fn 0 0).isNone || !pOk d) = false := by simp [row, pOk, hd]
  exact does_of good fun s _ => by simp only [exec, execCmp, row, Option.getD_some, Nat.mod_eq_of_lt hd]

theorem does_cmpi {cond : Nat} {f : Word → Word → Bool} (small : cond < 4) (row : ∀ a b, cmpiResult cond a b = f a b) (c : Ctx)
    (gp : BitVec 3) (p : Fin 8) (a : BitVec 5) (imm : BitVec 13) :
    Does (.cmpi c gp (BitVec.ofNat 5 (8 * cond + p.val)) a imm) c gp fun _ x => x.wp p.val (f (x.ra a) (imm.signExtend 64)) := by
  have field : (BitVec.ofNat 5 (8 * cond + p.val)).toNat = 8 * cond + p.val := by simp; omega
  have which : (8 * cond + p.val) / 8 = cond := by omega
  have reg : (8 * cond + p.val) % 8 = p.val := by omega
  exact does_of rfl fun s _ => by simp only [exec, execCmpi, field, which, reg, row]

theorem does_predicateOp {fn : BitVec 8} {f : Bool → Bool → Bool} (logic : fn.toNat < 4) (row : ∀ p q, predResult fn.toNat p q = f p q)
    {c : Ctx} {gp : BitVec 3} {d a b : BitVec 5} (hd : d.toNat < 8) (ha : a.toNat < 8) (hb : b.toNat < 8) :
    Does (.predicateOp c gp d a b fn) c gp fun _ x => x.wp d.toNat (f (x.rp a.toNat) (x.rp b.toNat)) := by
  have good : predBad d a b fn = false := by simp [predBad, logic, pOk, hd, ha, hb]
  refine does_of good fun s _ => ?_
  have h4 : fn.toNat ≠ 4 := by omega
  have h5 : fn.toNat ≠ 5 := by omega
  simp only [exec, execPredicateOp, if_neg h4, if_neg h5, Nat.mod_eq_of_lt hd, Nat.mod_eq_of_lt ha, Nat.mod_eq_of_lt hb, row]

theorem not_slt_eq_decide (a b : Word) : (!a.slt b) = decide (b.toInt ≤ a.toInt) := by
  rw [BitVec.slt, ← decide_not, decide_eq_decide, Int.not_lt]

theorem not_ult_eq_decide (a b : Word) : (!a.ult b) = decide (b.toNat ≤ a.toNat) := by
  rw [BitVec.ult, ← decide_not, decide_eq_decide, Nat.not_lt]

theorem bne_eq_decide {n : Nat} (a b : BitVec n) : (a != b) = decide (a ≠ b) := by rw [bne, beq_eq_decide, decide_not]

theorem does_ptoa {c : Ctx} {gp : BitVec 3} {d a : BitVec 5} (ha : a.toNat < 8) :
    Does (.predicateOp c gp d a 0 4) c gp fun _ x => x.wa d (if x.rp a.toNat then 1 else 0) := by
  have bit (p : Bool) : BitVec.ofNat 64 p.toNat = if p then 1 else 0 := by cases p <;> rfl
  exact does_of (bad := predBad d a 0 4) (by simp [predBad, pOk, ha]) fun s _ => by
    simp only [exec, execPredicateOp, Nat.mod_eq_of_lt ha, bit]
    rfl

theorem does_atop {c : Ctx} {gp : BitVec 3} {d a : BitVec 5} (hd : d.toNat < 8) :
    Does (.predicateOp c gp d a 0 5) c gp fun _ x => x.wp d.toNat (decide (x.ra a ≠ 0)) :=
  does_of (bad := predBad d a 0 5) (by simp [predBad, pOk, hd]) fun s _ => by
    simp only [exec, execPredicateOp, Nat.mod_eq_of_lt hd, bne_eq_decide]
    rfl

/-- Settles O11: each row of a table has its result, and its fields are those the row wants. -/
theorem aluAndPredicatesWriteTheirRow : Obligations.AluAndPredicatesWriteTheirRow := by
  refine ⟨fun r mem c gp d a b => does_aluOp (aluResult_of_row r mem), fun r mem c gp d a b hd => ?_, fun r mem => ?_,
    fun r mem c gp d a b => ?_, fun c gp d a => does_ptoa, fun c gp d a => does_atop⟩
  · simp only [List.mem_cons, List.not_mem_nil, or_false] at mem
    rcases mem with rfl | rfl | rfl | rfl | rfl | rfl
    · exact does_cmp (fun _ _ => rfl) hd
    · exact does_cmp (fun p q => by exact congrArg some (bne_eq_decide p q)) hd
    · exact does_cmp (fun _ _ => rfl) hd
    · exact does_cmp (fun p q => by exact congrArg some (not_slt_eq_decide p q)) hd
    · exact does_cmp (fun _ _ => rfl) hd
    · exact does_cmp (fun p q => by exact congrArg some (not_ult_eq_decide p q)) hd
  · simp only [List.mem_cons, List.not_mem_nil, or_false] at mem
    rcases mem with rfl | rfl | rfl | rfl
    · exact does_cmpi (by decide) fun _ _ => rfl
    · exact does_cmpi (by decide) bne_eq_decide
    · exact does_cmpi (by decide) fun _ _ => rfl
    · exact does_cmpi (by decide) fun _ _ => rfl
  · simp only [List.mem_cons, List.not_mem_nil, or_false] at mem
    rcases mem with rfl | rfl | rfl | rfl <;> exact does_predicateOp (by decide) fun _ _ => rfl

/-! ## Immediates and constants (R257) -/

/-- The word of SHI that names kind `k` and amount `n`. -/
def shiImm (k n : Nat) : BitVec 13 := BitVec.ofNat 13 (2048 * k + n)

/-- What the four kinds of SHI make of a word. -/
def shiResult (k : Nat) (v : Word) (n : Nat) : Word :=
  match k with
  | 0 => v <<< n
  | 1 => v >>> n
  | 2 => v.sshiftRight n
  | _ => v.rotateRight n

section Shi
variable {k n : Nat} (hk : k < 4) (hn : n < 64)
include hk hn

theorem shiImm_toNat : (shiImm k n).toNat = 2048 * k + n := by rw [shiImm, BitVec.toNat_ofNat]; omega

theorem shiImm_kind : ((shiImm k n).extractLsb' 11 2).toNat = k := by
  rw [BitVec.extractLsb'_toNat, shiImm_toNat hk hn, Nat.shiftRight_eq_div_pow]; omega

theorem shiImm_amount : ((shiImm k n).extractLsb' 0 6).toNat = n := by
  rw [BitVec.extractLsb'_toNat, shiImm_toNat hk hn, Nat.shiftRight_zero]; omega

theorem shiImm_zeros : (shiImm k n).extractLsb' 6 5 = 0 := by
  rw [← BitVec.toNat_inj, BitVec.extractLsb'_toNat, shiImm_toNat hk hn, Nat.shiftRight_eq_div_pow]
  show _ = 0
  omega

/-- SHI does what its kind says, by its amount. -/
theorem does_shi (c : Ctx) (gp : BitVec 3) (d a : BitVec 5) :
    Does (.shi c gp d a (shiImm k n)) c gp fun _ x => x.wa d (shiResult k (x.ra a) n) := by
  refine does_of (bad := (shiImm k n).extractLsb' 6 5 != 0) (by simp [shiImm_zeros hk hn]) fun s _ => ?_
  simp only [exec, execShi, shiImm_kind hk hn, shiImm_amount hk hn]
  rfl

end Shi

/-- The two bits of LIS that are 0. -/
theorem lisHigh_iff {imm : BitVec 18} : imm.extractLsb' 16 2 = 0 ↔ imm.toNat < 65536 := by
  rw [← BitVec.toNat_inj, BitVec.extractLsb'_toNat, Nat.shiftRight_eq_div_pow]
  show _ = 0 ↔ _
  omega

theorem does_lis {c : Ctx} {gp : BitVec 3} {d : BitVec 5} {imm : BitVec 18} (h : imm.toNat < 65536) :
    Does (.lis c gp d imm) c gp fun _ x => x.wa d ((x.ra d <<< 16) ||| BitVec.ofNat 64 imm.toNat) := by
  have low : (imm.extractLsb' 0 16).setWidth 64 = BitVec.ofNat 64 imm.toNat := by
    apply BitVec.eq_of_toNat_eq
    rw [BitVec.toNat_setWidth, BitVec.extractLsb'_toNat, Nat.shiftRight_zero, BitVec.toNat_ofNat]; omega
  refine does_of (bad := imm.extractLsb' 16 2 != 0) (by simp [lisHigh_iff.mpr h]) fun s _ => ?_
  simp only [exec, execLis, low]

/-- Settles O12: SHI by its kind and amount, LIS by the two bits that must be 0; the others by their rows alone. -/
theorem integerImmediatesWriteD : Obligations.IntegerImmediatesWriteD := by
  refine ⟨fun c gp d a imm => does_of rfl fun _ _ => rfl,
    fun c gp d a imm => ⟨does_of rfl fun _ _ => rfl, does_of rfl fun _ _ => rfl, does_of rfl fun _ _ => rfl⟩, fun c gp d a n hn => ?_,
    fun c gp d imm => does_of rfl fun _ _ => rfl, fun c gp d imm => does_lis⟩
  have left := does_shi (k := 0) (by decide) hn c gp d a
  rw [shiImm, Nat.mul_zero, Nat.zero_add] at left
  exact ⟨left, does_shi (k := 1) (by decide) hn c gp d a, does_shi (k := 2) (by decide) hn c gp d a,
    does_shi (k := 3) (by decide) hn c gp d a⟩

/-! ## SPR (R244) -/

theorem kioskOnly_iff {n : Nat} : kioskOnly n = true ↔ n = 2 ∨ n = 3 ∨ n = 5 ∨ n = 6 ∨ n = 7 ∨ n = 8 ∨ n = 12 := by simp [kioskOnly]

section Spr
variable {c : Ctx} {gp : BitVec 3} {d : BitVec 5} {imm : BitVec 13} {s : State} {t : Task} (runs : s.Runs c)
  (guard : (s.ctx c.val).rp gp.toNat = true) (task : (s.ctx c.val).task = some t)
include runs guard task

/-- A number that this context has a value for. -/
theorem exec_spr_of_value (valued : c.val = 4096 → kioskOnly imm.toNat = false) : exec (.spr c gp d 0 imm) s =
    .next (s.setCtx c.val ((s.counted c).wa d (BitVec.ofNat 64 (s.sprRead c (s.counted c) t imm.toNat))).after) := by
  refine congrArg Host.Outcome.next ((State.issue_runs runs guard rfl).trans ?_)
  simp only [State.counted_task, task]
  rw [if_neg (fun ⟨belvedere, only⟩ => by simp [valued belvedere] at only), State.advance_eq]

/-- A number that tells of a Kiosk's task, read on the Belvedere (log entry 35). -/
theorem exec_spr_of_free (belvedere : c.val = 4096) (only : kioskOnly imm.toNat = true) : exec (.spr c gp d 0 imm) s =
    .next (s.drawWord.2.setCtx c.val ((s.counted c).wa d s.drawWord.1).after) := by
  refine congrArg Host.Outcome.next ((State.issue_runs runs guard rfl).trans ?_)
  simp only [State.counted_task, task]
  rw [if_pos ⟨belvedere, only⟩, State.advance_eq]

end Spr

theorem State.sprRead_of_unassigned {s : State} {c : Ctx} {x : CtxSt} {t : Task} {n : Nat} (h : 0x00D < n) : s.sprRead c x t n = 0 := by
  unfold State.sprRead
  split
  case h_15 => rfl
  all_goals omega

/-- The four states in which the device is alone are those from 3 to 6. -/
theorem State.sprRead_solo (s : State) (c : Ctx) (x : CtxSt) (t : Task) : s.sprRead c x t 0x00D =
    if s.fget R.PRM_STAT.STATE = 3 ∨ s.fget R.PRM_STAT.STATE = 4 ∨ s.fget R.PRM_STAT.STATE = 5 ∨ s.fget R.PRM_STAT.STATE = 6 then 1 else 0 :=
  if_congr (by unfold State.prmState; omega) rfl rfl

/-- Settles O13: a number with a value reads it, and a number that tells of a Kiosk alone is drawn on the Belvedere. -/
theorem sprReadsItsTable : Obligations.SprReadsItsTable := by
  intro c gp d imm s t runs guard task
  refine ⟨fun r mem => ?_, fun r mem => ⟨fun kiosk => ?_, fun belvedere => ?_⟩, fun unassigned => ?_⟩
  · have common : kioskOnly r.1.toNat = false ∧ s.sprRead c (s.counted c) t r.1.toNat = r.2 := by
      simp only [List.mem_cons, List.not_mem_nil, or_false] at mem
      rcases mem with rfl | rfl | rfl | rfl | rfl | rfl | rfl
      exacts [⟨rfl, rfl⟩, ⟨rfl, rfl⟩, ⟨rfl, rfl⟩, ⟨rfl, rfl⟩, ⟨rfl, rfl⟩, ⟨rfl, rfl⟩, ⟨rfl, State.sprRead_solo ..⟩]
    rw [exec_spr_of_value runs guard task fun _ => common.1, common.2]
  · have value : s.sprRead c (s.counted c) t r.1.toNat = r.2 := by
      simp only [List.mem_cons, List.not_mem_nil, or_false] at mem
      rcases mem with rfl | rfl | rfl | rfl | rfl | rfl | rfl <;> rfl
    rw [exec_spr_of_value runs guard task (absurd · kiosk), value]
  · have only : kioskOnly r.1.toNat = true := by
      simp only [List.mem_cons, List.not_mem_nil, or_false] at mem
      rcases mem with rfl | rfl | rfl | rfl | rfl | rfl | rfl <;> rfl
    exact exec_spr_of_free runs guard task belvedere only
  · have other : kioskOnly imm.toNat = false := by rw [← Bool.not_eq_true, kioskOnly_iff]; omega
    rw [exec_spr_of_value runs guard task fun _ => other, State.sprRead_of_unassigned unassigned]
    rfl

/-! ## Branches (R257) -/

/-- Settles O14: BR and BRN issue whatever their guard reads, and CALL and JR under it. -/
theorem branchesMoveThePc : Obligations.BranchesMoveThePc := by
  refine ⟨fun c gp off s runs => ?_, fun c gp off s runs => ?_, fun c gp off s runs guard => ?_, fun c gp d a s runs guard => ?_⟩
  · refine congrArg Host.Outcome.next ((State.issueAny_runs runs).trans ?_)
    simp only [State.counted_rp, branchTo, State.counted_pc, State.advance_eq, State.jump_eq]
    exact (apply_ite (s.setCtx c.val) _ _ _).symm
  · refine congrArg Host.Outcome.next ((State.issueAny_runs runs).trans ?_)
    simp only [State.counted_rp, branchTo, State.counted_pc, State.advance_eq, State.jump_eq]
    exact (apply_ite (s.setCtx c.val) _ _ _).symm
  · refine congrArg Host.Outcome.next ((State.issue_runs runs guard rfl).trans ?_)
    simp only [branchTo, State.counted_pc, State.jump_eq]
  · refine congrArg Host.Outcome.next ((State.issue_runs runs guard rfl).trans ?_)
    simp only [State.counted_ra, State.counted_pc, State.jump_eq, ite_not]

/-! ## Guards that read 0 and illegal words (R243, R256, R280) -/

theorem aluResult_eq_none {fn : BitVec 8} (h : fn.toNat = 0x0E ∨ fn.toNat = 0x0F ∨ (0x16 ≤ fn.toNat ∧ fn.toNat < 0x20) ∨ 0x26 < fn.toNat)
    (a b : Word) : aluResult fn a b = none := by
  unfold aluResult
  split
  case h_28 => rfl
  all_goals omega

theorem cmpResult_eq_none {fn : BitVec 8} (h : 6 ≤ fn.toNat) (a b : Word) : cmpResult fn a b = none := by
  unfold cmpResult
  split
  case h_7 => rfl
  all_goals omega

/-- Settles O16: a guard that reads 0 stops a good word from acting, and a bad word does not ask its guard. -/
theorem guardsAndIllegalWords : Obligations.GuardsAndIllegalWords := by
  refine ⟨fun c gp d a b imm l off s runs guard => ?_, fun c gp d a b fn imm l s runs => ?_⟩
  · have skips {body : CtxSt → State} :
        Host.Outcome.next (φ := Fault) (ρ := Refusal) (s.issue c gp false body) = .next (s.setCtx c.val (s.counted c).after) :=
      congrArg Host.Outcome.next (State.issue_skips runs guard rfl)
    simp only [List.forall_mem_cons, List.not_mem_nil, false_imp_iff, implies_true, and_true]
    exact ⟨skips, skips, skips, skips, skips, skips, skips, skips, skips, skips, skips, skips, skips, skips, skips, skips, skips⟩
  · have ends {bad : Bool} {body : CtxSt → State} (h : bad = true) :
        Host.Outcome.next (φ := Fault) (ρ := Refusal) (s.issue c gp bad body) = .next (s.raise c .illegal) :=
      congrArg Host.Outcome.next (State.issue_bad runs h)
    refine ⟨fun h => ends (by rw [aluResult_eq_none h]; rfl), fun h => ends ?_, fun h => ends ?_, fun h => ends (by simpa using h),
      fun h => ends (by simpa using h), fun h => ?_, fun h => ends (by simpa [pOk] using h), fun h => ?_, fun h => ends (by simpa using h)⟩
    · rcases h with unassigned | noRegister
      · rw [cmpResult_eq_none unassigned]; rfl
      · simp [pOk, Nat.not_lt.mpr noRegister]
    · rw [bne_iff_ne, Ne, lisHigh_iff]; omega
    · have noVector : (!vOk d) = true := by simpa [vOk] using h
      exact ⟨ends noVector, ends noVector⟩
    · have noGate : decide (4 ≤ b.toNat) = true := decide_eq_true h
      exact ⟨ends noGate, ends (by rw [noGate]; rfl)⟩

end Sys2Proof.Machine
end

section
/-! The vector instructions (R260 to R264): element-by-element operations, moves, field operations, CRC steps and the Keccak round. -/

namespace Sys2Proof.Machine

/-! ## VALU (R260) -/

/-- FN of VALU: element width in [7:6], operation in [5:0]. -/
theorem valuFn {k op : Nat} (hk : k < 4) (hop : op < 64) :
    elemWidth (BitVec.ofNat 8 (64 * k + op)) = 8 * 2 ^ k ∧ (BitVec.ofNat 8 (64 * k + op)).toNat % 64 = op := by
  have toNat : (BitVec.ofNat 8 (64 * k + op)).toNat = 64 * k + op := by rw [BitVec.toNat_ofNat]; omega
  have width : (64 * k + op) / 64 = k := by omega
  exact ⟨by rw [elemWidth, toNat, width], by omega⟩

theorem does_valu {w op : Nat} {fn : BitVec 8} (fields : elemWidth fn = w ∧ fn.toNat % 64 = op) (assigned : op < 0x0B)
    {f : BitVec w → BitVec w → BitVec w} (row : ∀ p q, valuElem w op p q = some (f p q)) {c : Ctx} {gp : BitVec 3} {d a b : BitVec 5}
    (hd : d.toNat < 16) (ha : a.toNat < 16) (hb : b.toNat < 16) :
    Does (.valu c gp d a b fn) c gp fun _ x => x.wv d (mapLanes w f (x.rv a) (x.rv b)) := by
  obtain ⟨rfl, rfl⟩ := fields
  refine does_of (bad := !vOk d || !vOk a || !vOk b || 0x0B ≤ fn.toNat % 64) (by simp [vOk, hd, ha, hb, assigned]) fun s _ => ?_
  simp only [exec, execValu, row, Option.getD_some]

/-- Settles O17: the operation by the row, at every width. -/
theorem valuWorksByElement : Obligations.ValuWorksByElement := by
  intro k r mem c gp d a b hd ha hb
  have row : r.1 < 0x0B ∧ ∀ p q, valuElem (8 * 2 ^ k.val) r.1 p q = some (r.2 p q) := by
    simp only [List.mem_cons, List.not_mem_nil, or_false] at mem
    rcases mem with rfl | rfl | rfl | rfl | rfl | rfl | rfl | rfl | rfl | rfl | rfl <;>
      exact ⟨by norm_num, fun p q => by simp [valuElem, BitVec.ult]⟩
  exact does_valu (valuFn k.isLt (by omega)) row.1 row.2 hd ha hb

/-! ## Moves, field operations, CRC steps (R261 to R263) -/

theorem does_crcOp {c : Ctx} {gp : BitVec 3} {d a b : BitVec 5} {fn : BitVec 8} (assigned : fn.toNat < 6) (vector : fn.toNat < 2 → a.toNat < 16) :
    Does (.crcOp c gp d a b fn) c gp fun _ x => x.wa d (crcResult fn.toNat (if fn.toNat < 2 then vecBytes (x.rv a)
      else if fn.toNat < 4 then natLe 8 (x.ra a).toNat else natLe 1 (x.ra a).toNat) (x.ra b)) :=
  does_of (bad := 6 ≤ fn.toNat || (fn.toNat < 2 && !vOk a)) (by simpa [assigned, vOk] using vector) fun _ _ => rfl

/-! ## The Keccak round (R264) -/

theorem does_keccak {c : Ctx} {gp : BitVec 3} {d : BitVec 5} (r : Fin 24) (four : d.toNat = 0 ∨ d.toNat = 4 ∨ d.toNat = 8 ∨ d.toNat = 12) :
    Does (.keccak c gp d 0 0 (BitVec.ofNat 8 r.val)) c gp fun _ x =>
      let all := ((List.range 4).map fun i => lanes 64 (x.rv (d + BitVec.ofNat 5 i))).flatten
      let new := keccakRound r.val (all.take 25) ++ all.drop 25
      (List.range 4).foldl (fun x i => x.wv (d + BitVec.ofNat 5 i) (ofLanes ((new.drop (8 * i)).take 8))) x := by
  have round : (BitVec.ofNat 8 r.val).toNat = r.val := by rw [BitVec.toNat_ofNat]; omega
  have good : (!vOk d || d.toNat % 4 != 0 || (0 : BitVec 5) != 0 || (0 : BitVec 5) != 0 || decide (24 ≤ r.val)) = false := by
    have vector : d.toNat < 16 := by omega
    have aligned : d.toNat % 4 = 0 := by omega
    simp [vOk, vector, aligned]
  refine does_of good fun s _ => ?_
  simp only [exec, execKeccak, round]

/-- Settles O18: one clause a row; the fields of the row's word are good, and its FN picks its result. -/
theorem vectorMovesFieldsAndHashes : Obligations.VectorMovesFieldsAndHashes := by
  intro c gp d a b
  refine ⟨fun hd hb => ?_, fun ha hb => ?_, fun hd => ⟨?_, ?_⟩, fun hd ha => ?_, fun hd ha hb => ?_, fun hd ha => ?_, fun ha => ?_, ?_, ?_, ?_, ?_,
    fun r four => does_keccak r four⟩
  · refine does_of (bad := moveBad d a b 0) (by simp [moveBad, vOk, hd, hb]) fun s _ => ?_
    simp only [exec, execVectorMove, Nat.mod_eq_of_lt hb]
    rfl
  · refine does_of (bad := moveBad d a b 1) (by simp [moveBad, vOk, ha, hb]) fun s _ => ?_
    simp only [exec, execVectorMove, Nat.mod_eq_of_lt hb]
    rfl
  · exact does_of (bad := moveBad d a 0 2) (by simp [moveBad, vOk, hd]) fun _ _ => rfl
  · exact does_of (bad := moveBad d a 0 3) (by simp [moveBad, vOk, hd]) fun _ _ => rfl
  · refine does_of (bad := moveBad d a 0 4) (by simp [moveBad, vOk, pOk, ha, hd]) fun s _ => ?_
    simp only [exec, execVectorMove, Nat.mod_eq_of_lt hd, bne_eq_decide]
    rfl
  · have good {fn : BitVec 8} (h : fn.toNat < 5) : fieldBad d a b fn = false := by simp [fieldBad, vOk, hd, ha, hb, h]
    exact ⟨does_of (good (fn := 0) (by decide)) fun _ _ => rfl, does_of (good (fn := 1) (by decide)) fun _ _ => rfl,
      does_of (good (fn := 3) (by decide)) fun _ _ => rfl, does_of (good (fn := 4) (by decide)) fun _ _ => rfl⟩
  · exact does_of (bad := fieldBad d a b 2) (by simp [fieldBad, vOk, hd, ha]) fun _ _ => rfl
  · exact ⟨does_crcOp (fn := 0) (by decide) fun _ => ha, does_crcOp (fn := 1) (by decide) fun _ => ha⟩
  · exact does_crcOp (fn := 2) (by decide) (absurd · (by decide))
  · exact does_crcOp (fn := 3) (by decide) (absurd · (by decide))
  · exact does_crcOp (fn := 4) (by decide) (absurd · (by decide))
  · exact does_crcOp (fn := 5) (by decide) (absurd · (by decide))

end Sys2Proof.Machine
end

section
/-! Loads and stores (R245 to R248, R252, R257, R258, R648): accesses of the local store, and the causes by which an access is refused. -/

namespace Sys2Proof.Machine

@[simp] theorem memAddr_one (x : CtxSt) (a : BitVec 5) (imm : BitVec 13) : memAddr x a 1 imm = x.ra a + imm.signExtend 64 :=
  congrArg (x.ra a + ·) (BitVec.one_mul _)

@[simp] theorem memAddr_line (x : CtxSt) (a : BitVec 5) (imm : BitVec 13) : memAddr x a 64 imm = x.ra a + 64 * imm.signExtend 64 := rfl

@[simp] theorem vecBytes_length (v : Vec) : (vecBytes v).length = 64 := natLe_length ..

theorem bytes_pos (sz : Size) : 0 < sz.bytes := by cases sz <;> decide

/-! ## Accesses of the local store (R245, R246, R257, R258) -/

section Local
variable {s : State} {c : Ctx} {gp : BitVec 3} {d a : BitVec 5} {imm : BitVec 13} {off : Nat} (runs : s.Runs c)
  (guard : (s.ctx c.val).rp gp.toNat = true) (kiosk : c.val ≠ 4096)
include runs guard kiosk

theorem exec_ld_of_local {sz : Size} (at_off : ((s.ctx c.val).ra a + imm.signExtend 64).toNat = off) (aligned : off % sz.bytes = 0)
    (inside : off + sz.bytes ≤ (s.ctx c.val).lsSize) (small : off < 2 ^ 32) : exec (.ld c sz gp d a imm) s = .next (s.setCtx c.val
      ((s.counted c).wa d (BitVec.ofNat 64 (leNat (loadBytes (s.ctx c.val).ls off sz.bytes)))).after) := by
  refine congrArg Host.Outcome.next ((State.issue_runs runs guard rfl).trans ?_)
  simp only [memAddr_one, State.counted_ra, State.readAt_ls at_off kiosk aligned (x := s.counted c) (by rwa [State.counted_lsSize]) small,
    State.counted_ls, State.advance_eq]

theorem exec_st_of_local {sz : Size} (at_off : ((s.ctx c.val).ra a + imm.signExtend 64).toNat = off) (aligned : off % sz.bytes = 0)
    (inside : off + sz.bytes ≤ (s.ctx c.val).lsSize) (small : off < 2 ^ 32) : exec (.st c sz gp d a imm) s = .next (s.setCtx c.val
      ({ s.counted c with ls := storeBytes (s.ctx c.val).ls off (natLe sz.bytes ((s.ctx c.val).ra d).toNat) } : CtxSt).after) := by
  have wrote := State.writeAt_ls (s := s) (x := s.counted c) (b := natLe sz.bytes ((s.ctx c.val).ra d).toNat) at_off kiosk aligned
    (by rwa [State.counted_lsSize, natLe_length]) small
  refine congrArg Host.Outcome.next ((State.issue_runs runs guard rfl).trans ?_)
  simp only [memAddr_one, State.counted_ra, wrote, State.counted_ls, State.advance_eq]

theorem exec_vld_of_local (at_off : ((s.ctx c.val).ra a + 64 * imm.signExtend 64).toNat = off) (aligned : off % 64 = 0)
    (inside : off + 64 ≤ (s.ctx c.val).lsSize) (small : off < 2 ^ 32) (hd : d.toNat < 16) : exec (.vld c gp d a imm) s = .next (s.setCtx c.val
      ((s.counted c).wv d (bytesVec (loadBytes (s.ctx c.val).ls off 64))).after) := by
  refine congrArg Host.Outcome.next ((State.issue_runs runs guard (by simp [vOk, hd])).trans ?_)
  simp only [memAddr_line, State.counted_ra, State.readAt_ls at_off kiosk aligned (x := s.counted c) (by rwa [State.counted_lsSize]) small,
    State.counted_ls, State.advance_eq]

theorem exec_vst_of_local (at_off : ((s.ctx c.val).ra a + 64 * imm.signExtend 64).toNat = off) (aligned : off % 64 = 0)
    (inside : off + 64 ≤ (s.ctx c.val).lsSize) (small : off < 2 ^ 32) (hd : d.toNat < 16) : exec (.vst c gp d a imm) s = .next (s.setCtx c.val
      ({ s.counted c with ls := storeBytes (s.ctx c.val).ls off (vecBytes ((s.counted c).rv d)) } : CtxSt).after) := by
  have wrote := State.writeAt_ls (s := s) (x := s.counted c) (b := vecBytes ((s.counted c).rv d)) at_off kiosk aligned
    (by rwa [State.counted_lsSize, vecBytes_length]) small
  refine congrArg Host.Outcome.next ((State.issue_runs runs guard (by simp [vOk, hd])).trans ?_)
  simp only [memAddr_line, State.counted_ra, wrote, State.counted_ls, State.advance_eq]

end Local

/-- Settles O19: each of the four accesses leads into the local store, whose bytes are all it reads or changes. -/
theorem localStoreAccesses : Obligations.LocalStoreAccesses := by
  intro c gp d a imm s runs guard kiosk
  refine ⟨fun sz off at_off aligned inside small => ?_, fun off at_off aligned inside small hd => ?_⟩
  · have below : off < 2 ^ 32 := by have := bytes_pos sz; omega
    exact ⟨exec_ld_of_local runs guard kiosk at_off aligned inside below, exec_st_of_local runs guard kiosk at_off aligned inside below⟩
  · have below : off < 2 ^ 32 := by omega
    exact ⟨exec_vld_of_local runs guard kiosk at_off aligned inside below hd, exec_vst_of_local runs guard kiosk at_off aligned inside below hd⟩

/-! ## The order of the causes (R648) -/

section Order
variable {s : State} {c : Ctx} {x : CtxSt} {addr : Word} {n al sp off : Nat} {wr : Bool} (space : addr.toNat / 2 ^ 32 % 16 = sp)
include space

theorem State.locate_of_noSpace (kiosk : c.val ≠ 4096) (outside : 2 ^ 36 ≤ addr.toNat ∨ 9 ≤ sp) :
    s.locate c x addr n al wr = .error .range := by
  unfold State.locate
  simp only [space, kiosk, and_false, if_false]
  by_cases big : addr.toNat / 2 ^ 36 = 0
  · rw [if_neg (not_not.mpr big), if_neg (by omega), if_neg (by omega)]
  · rw [if_pos big]

variable (at_off : addr.toNat % 2 ^ 32 = off) (small : addr.toNat < 2 ^ 36)
include at_off small

/-- Space 0 asks for alignment first, then for the partition. -/
theorem State.locate_of_local (kiosk : c.val ≠ 4096) (here : sp = 0) : s.locate c x addr n al wr =
    if off % al ≠ 0 then .error .align else if x.lsSize < off + n then .error .range else .ok (.ls off) := by
  have low : addr.toNat / 2 ^ 36 = 0 := by omega
  unfold State.locate
  simp only [space, at_off, low, here, kiosk, ne_eq, not_true, if_false, if_true, decide_eq_true_eq]

/-- A window space asks for a mapping, alignment, the window's length and its right, in that order. -/
theorem State.locate_of_window (first : 1 ≤ sp) (last : sp ≤ 8) : s.locate c x addr n al wr =
    match AMap.find? x.wins (sp - 1) with
    | none => .error .unmapped
    | some w => if off % al ≠ 0 then .error .align else if w.len < off + n then .error .range
        else if wr && w.ro then .error .readOnly else .ok (w.at off) := by
  have low : addr.toNat / 2 ^ 36 = 0 := by omega
  unfold State.locate
  cases mapped : AMap.find? x.wins (sp - 1) <;>
    simp only [space, at_off, low, show sp ≠ 0 by omega, last, mapped, ne_eq, not_true, if_false, if_true, decide_eq_true_eq]

end Order

/-! ## Refused accesses end the task (R247, R248, R252, R258) -/

section Refused
variable {s : State} {c : Ctx} {x : CtxSt} {addr : Word} {n al : Nat} {k : Cause}

theorem State.readAt_of_refused (h : s.locate c x addr n al false = .error k) : s.readAt c x addr n al = (none, s.raise c k) := by
  unfold State.readAt
  rw [h]

theorem State.writeAt_of_refused {b : Bytes} (h : s.locate c x addr b.length al true = .error k) :
    s.writeAt c x addr al b = (none, s.raise c k) := by
  unfold State.writeAt
  rw [h]

end Refused

/-- Settles O20: the order by the space of the address, and what each instruction makes of a refusal. -/
theorem accessesAreRefusedInOrder : Obligations.AccessesAreRefusedInOrder := by
  refine ⟨?_, fun c gp d a imm s k runs guard => ⟨fun sz refused => ?_, fun sz refused => ?_, fun hd refused => ?_, fun hd refused => ?_⟩⟩
  · intro s c x addr n al wr kiosk _ sp off
    refine ⟨State.locate_of_noSpace rfl kiosk, fun small here => ?_, fun small first last => ?_⟩
    · rw [State.locate_of_local (sp := sp) (off := off) rfl rfl small kiosk here]
      refine ⟨fun skew => if_pos skew, fun aligned long => ?_, fun aligned inside => ?_⟩
      · rw [if_neg (not_not.mpr aligned), if_pos long]
      · rw [if_neg (not_not.mpr aligned), if_neg (not_lt.mpr inside)]
    · rw [State.locate_of_window (sp := sp) (off := off) rfl rfl small first last]
      refine ⟨fun unmapped => ?_, fun w mapped => ?_⟩
      · simp only [unmapped]
      · simp only [mapped]
        refine ⟨fun skew => if_pos skew, fun aligned long => ?_, fun aligned inside write ro => ?_, fun aligned inside may => ?_⟩
        · rw [if_neg (not_not.mpr aligned), if_pos long]
        · rw [if_neg (not_not.mpr aligned), if_neg (not_lt.mpr inside), if_pos (by simp [write, ro])]
        · rw [if_neg (not_not.mpr aligned), if_neg (not_lt.mpr inside), if_neg (by rcases may with h | h <;> simp [h])]
  · refine congrArg Host.Outcome.next ((State.issue_runs runs guard rfl).trans ?_)
    simp only [memAddr_one, State.counted_ra, State.readAt_of_refused refused]
  · have wrote := State.writeAt_of_refused (b := natLe sz.bytes ((s.ctx c.val).ra d).toNat) (by rwa [natLe_length])
    refine congrArg Host.Outcome.next ((State.issue_runs runs guard rfl).trans ?_)
    simp only [memAddr_one, State.counted_ra, wrote]
  · refine congrArg Host.Outcome.next ((State.issue_runs runs guard (by simp [vOk, hd])).trans ?_)
    simp only [memAddr_line, State.counted_ra, State.readAt_of_refused refused]
  · have wrote := State.writeAt_of_refused (b := vecBytes ((s.counted c).rv d)) (by rwa [vecBytes_length])
    refine congrArg Host.Outcome.next ((State.issue_runs runs guard (by simp [vOk, hd])).trans ?_)
    simp only [memAddr_line, State.counted_ra, wrote]

end Sys2Proof.Machine
end

section
/-! Windows (R247, R248, R265) and the journal instructions but COMMIT (R114, R267). -/

namespace Sys2Proof.Machine

/-! ## Windows onto device memory (R247, R265) -/

section Map
variable {s : State} {c : Ctx} {x : CtxSt} {w dpa count : Nat} {ro : Bool}

theorem State.mapTiles_of_skew (skew : dpa % 4096 ≠ 0) : s.mapTiles c x w dpa count ro = s.raise c .align := if_pos skew

variable (aligned : dpa % 4096 = 0)
include aligned

theorem State.mapTiles_of_range (bad : count = 0 ∨ 262144 < count ∨ 2 ^ 49 ≤ dpa ∨ 2 ^ 30 < dpa % 2 ^ 30 + count * 4096) :
    s.mapTiles c x w dpa count ro = s.raise c .range := by
  rw [State.mapTiles, if_neg (not_not.mpr aligned), if_pos bad]

/-- A mapping of good form asks for the extent's owner. -/
theorem State.mapTiles_of_form {t : Task} (task : x.task = some t) (some_tiles : 0 < count) (fits : count ≤ 262144) (inDevice : dpa < 2 ^ 49)
    (inExtent : dpa % 2 ^ 30 + count * 4096 ≤ 2 ^ 30) : s.mapTiles c x w dpa count ro =
      if (s.extent (dpa / 2 ^ 30)).state ≠ .assigned ∨ t.tenant ≠ (s.extent (dpa / 2 ^ 30)).owner then s.raise c .access
      else s.setCtx c.val ({ x with wins := AMap.put x.wins w (.dpa dpa count ro) } : CtxSt).after := by
  rw [State.mapTiles, if_neg (not_not.mpr aligned), if_neg (by omega), task, State.advance_eq]
  simp only [Option.any_some, bne_iff_ne]

end Map

section Runs
variable {s : State} {c : Ctx} {gp : BitVec 3} {d a b : BitVec 5} (runs : s.Runs c) (guard : (s.ctx c.val).rp gp.toNat = true) (hd : d.toNat < 8)
include runs guard hd

theorem exec_tmap_of_runs : exec (.tmap c gp d a b) s =
    .next (s.mapTiles c (s.counted c) d.toNat ((s.ctx c.val).ra a).toNat ((s.ctx c.val).ra b).toNat false) := by
  refine congrArg Host.Outcome.next ((State.issue_runs runs guard (by simp [pOk, hd])).trans ?_)
  simp only [State.counted_ra]

theorem exec_tmapr_of_runs : exec (.tmapr c gp d a b) s =
    .next (s.mapTiles c (s.counted c) d.toNat ((s.ctx c.val).ra a).toNat ((s.ctx c.val).ra b).toNat true) := by
  refine congrArg Host.Outcome.next ((State.issue_runs runs guard (by simp [pOk, hd])).trans ?_)
  simp only [State.counted_ra]

/-! ## Windows onto the scratchpad (R248) -/

/-- An aligned base asks for a size and blocks that the scratchpad has, and then for their owner. -/
theorem exec_tmaps_of_aligned {base n : Nat} (at_base : ((s.ctx c.val).ra a).toNat = base) (count : ((s.ctx c.val).ra b).toNat = n)
    (aligned : base % 2 ^ 20 = 0) : exec (.tmaps c gp d a b) s = .next (
      if n = 0 ∨ 192 < n ∨ s.fget R.ORG_WAYMODE.SCRATCH_WAYS * 16 < base / 2 ^ 20 + n then s.raise c .range
      else if (List.range n).any fun i => !s.ownsBlock (s.counted c) (base / 2 ^ 20 + i) then s.raise c .access
      else s.setCtx c.val ({ s.counted c with wins := AMap.put (s.counted c).wins d.toNat (.scratch base n) } : CtxSt).after) := by
  refine congrArg Host.Outcome.next ((State.issue_runs runs guard (by simp [pOk, hd])).trans ?_)
  simp only [State.counted_ra, at_base, count]
  exact if_neg (not_not.mpr aligned)

end Runs

theorem State.ownsBlock_iff {s : State} {x : CtxSt} {b : Nat} :
    s.ownsBlock x b = true ↔ x.tenant ≠ 0 ∧ s.fget (R.ORG_SCR_OWNER.TENANT b) = x.tenant.toNat := by
  simp only [State.ownsBlock, Bool.and_eq_true, bne_iff_ne, beq_iff_eq]

/-- Of a non-empty run of blocks one is not owned: the task's tenant is 0, or another tenant's number stands at a block. -/
theorem State.notOwned_iff {s : State} {x : CtxSt} {first n : Nat} (pos : 0 < n) :
    ((List.range n).any fun i => !s.ownsBlock x (first + i)) = true ↔
      x.tenant = 0 ∨ ∃ i, i < n ∧ s.fget (R.ORG_SCR_OWNER.TENANT (first + i)) ≠ x.tenant.toNat := by
  simp only [List.any_eq_true, List.mem_range, Bool.not_eq_true', ← Bool.not_eq_true, State.ownsBlock_iff]
  constructor
  · rintro ⟨i, inside, lost⟩
    by_cases custodian : x.tenant = 0
    · exact .inl custodian
    · exact .inr ⟨i, inside, fun owned => lost ⟨custodian, owned⟩⟩
  · rintro (custodian | ⟨i, inside, lost⟩)
    · exact ⟨0, pos, fun owned => owned.1 custodian⟩
    · exact ⟨i, inside, fun owned => lost owned.2⟩

/-- Settles O21: by the first check that the mapping fails; TUNMAP has none. -/
theorem windowsMapAfterTheirChecks : Obligations.WindowsMapAfterTheirChecks := by
  intro c gp d a b s t runs guard task hd x base n
  have counted : x.task = some t := (State.counted_task s c).trans task
  rw [exec_tmap_of_runs runs guard hd, exec_tmapr_of_runs runs guard hd]
  refine ⟨fun skew => ?_, fun aligned bad => ?_, fun aligned some_tiles fits inDevice inExtent => ⟨fun refused => ?_, fun assigned owned => ?_⟩,
    fun aligned => ⟨fun bad => ?_, fun some_blocks fits inScratch => ⟨fun lost => ?_, fun tenant owned => ?_⟩⟩, ?_⟩
  · exact ⟨congrArg _ (State.mapTiles_of_skew skew), congrArg _ (State.mapTiles_of_skew skew)⟩
  · exact ⟨congrArg _ (State.mapTiles_of_range aligned bad), congrArg _ (State.mapTiles_of_range aligned bad)⟩
  · have ends (ro : Bool) := (State.mapTiles_of_form (s := s) (c := c) (w := d.toNat) (ro := ro) aligned counted some_tiles fits inDevice
      inExtent).trans (if_pos refused)
    exact ⟨congrArg _ (ends false), congrArg _ (ends true)⟩
  · have maps (ro : Bool) := (State.mapTiles_of_form (s := s) (c := c) (w := d.toNat) (ro := ro) aligned counted some_tiles fits inDevice
      inExtent).trans (if_neg (not_or.mpr ⟨not_not.mpr assigned, not_not.mpr owned⟩))
    exact ⟨congrArg _ (maps false), congrArg _ (maps true)⟩
  · rw [exec_tmaps_of_aligned runs guard hd rfl rfl aligned, if_pos bad]
  · rw [← State.counted_tenant task] at lost
    rw [exec_tmaps_of_aligned runs guard hd rfl rfl aligned, if_neg (by omega), if_pos ((State.notOwned_iff some_blocks).mpr lost)]
  · rw [← State.counted_tenant task] at tenant owned
    have all : ¬ ((List.range n).any fun i => !s.ownsBlock x (base / 2 ^ 20 + i)) = true := by
      rw [State.notOwned_iff some_blocks]
      rintro (custodian | ⟨i, inside, lost⟩)
      · exact tenant custodian
      · exact lost (owned i inside)
    rw [exec_tmaps_of_aligned runs guard hd rfl rfl aligned, if_neg (by omega), if_neg all]
  · exact congrArg Host.Outcome.next (State.issue_runs runs guard (by simp [pOk, hd]))

/-! ## JSTG in the local store (R267; log entry 38) -/

section Jstg
variable {s : State} {c : Ctx} {x : CtxSt} {n src dst : Nat} {a b : Word} (kiosk : c.val ≠ 4096) (at_src : a.toNat = src) (at_dst : b.toNat = dst)
  (srcSpace : src < 2 ^ 32) (dstSpace : dst < 2 ^ 32)
include kiosk at_src at_dst srcSpace dstSpace

theorem State.jstgCheck_local : s.jstgCheck c x n a b =
    if n = 0 ∨ 65536 < n ∨ x.lsSize < src + n ∨ x.lsSize < dst + n then some .range else none := by
  have find {v : Word} {off : Nat} (wr : Bool) (at_off : v.toNat = off) (small : off < 2 ^ 32) :
      s.locate c x v n 1 wr = if x.lsSize < off + n then .error .range else .ok (.ls off) := by
    rw [State.locate_of_local (off := off) rfl (by omega) (by omega) kiosk (by omega), if_neg (not_not.mpr (Nat.mod_one off))]
  unfold State.jstgCheck
  rw [find false at_src srcSpace, find true at_dst dstSpace]
  by_cases srcLong : x.lsSize < src + n
  · simp only [srcLong, if_true, true_or, or_true]
  · by_cases dstLong : x.lsSize < dst + n
    · simp only [srcLong, dstLong, if_false, if_true, or_true]
    · simp only [srcLong, dstLong, if_false, or_false]

end Jstg

section Runs
variable {s : State} {c : Ctx} {gp : BitVec 3} {d a b : BitVec 5} (runs : s.Runs c) (guard : (s.ctx c.val).rp gp.toNat = true)
  (kiosk : c.val ≠ 4096) {n src dst : Nat} (at_src : ((s.ctx c.val).ra a).toNat = src) (at_dst : ((s.ctx c.val).ra d).toNat = dst)
  (count : ((s.ctx c.val).ra b).toNat = n)
include runs guard kiosk at_src at_dst count

theorem exec_jstg_of_range (srcSpace : src < 2 ^ 32) (dstSpace : dst < 2 ^ 32)
    (bad : n = 0 ∨ 65536 < n ∨ (s.counted c).lsSize < src + n ∨ (s.counted c).lsSize < dst + n) :
    exec (.jstg c gp d a b) s = .next (s.raise c .range) := by
  have check := (State.jstgCheck_local (s := s) kiosk at_src at_dst srcSpace dstSpace).trans (if_pos bad)
  refine congrArg Host.Outcome.next ((State.issue_runs runs guard rfl).trans ?_)
  simp only [State.counted_ra, count, check]

theorem exec_jstg_of_copy (some_bytes : 0 < n) (fits : n ≤ 65536) (srcInside : src + n ≤ (s.counted c).lsSize)
    (dstInside : dst + n ≤ (s.counted c).lsSize) (size : (s.counted c).lsSize ≤ 2 ^ 32) : exec (.jstg c gp d a b) s = .next (s.setCtx c.val
      ({ s.counted c with ls := storeBytes (s.counted c).ls dst (loadBytes (s.counted c).ls src n) } : CtxSt).after) := by
  have check := (State.jstgCheck_local (s := s) (x := s.counted c) (n := n) kiosk at_src at_dst (by omega) (by omega)).trans (if_neg (by omega))
  have got := State.readAt_ls (s := s) at_src kiosk (Nat.mod_one src) srcInside (by omega)
  have wrote := State.writeAt_ls (s := s) (x := s.counted c) (b := loadBytes (s.counted c).ls src n) at_dst kiosk (Nat.mod_one dst)
    (by rwa [loadBytes_length]) (by omega)
  refine congrArg Host.Outcome.next ((State.issue_runs runs guard rfl).trans ?_)
  simp only [State.counted_ra, count, check, got, wrote, State.advance_eq]

end Runs

/-- Settles O23: JSTG by its checks (its count: log entry 38), JDROP and JFENCE by what they do. -/
theorem journalInstructionsStageDropAndFence : Obligations.JournalInstructionsStageDropAndFence := by
  intro c gp d a b s runs guard kiosk x n
  refine ⟨fun src dst at_src at_dst => exec_jstg_of_range runs guard kiosk at_src at_dst rfl,
    fun src dst at_src at_dst => exec_jstg_of_copy runs guard kiosk at_src at_dst rfl, ?_,
    congrArg Host.Outcome.next (State.issue_runs runs guard rfl)⟩
  refine congrArg Host.Outcome.next ((State.issue_runs runs guard rfl).trans ?_)
  simp only [if_neg kiosk, State.advance_eq]
  rfl

end Sys2Proof.Machine
end

section
/-! Atomics (R246, R248, R270 to R272): on the scratchpad at once, on device memory as one DATA record, and in the local store not at all. -/

namespace Sys2Proof.Machine

/-! ## Pairs of registers -/

@[simp] theorem CtxSt.raWide_one (x : CtxSt) (n : BitVec 5) : x.raWide n 8 = (x.ra n).toNat := rfl
@[simp] theorem CtxSt.raWide_two (x : CtxSt) (n : BitVec 5) : x.raWide n 16 = (x.ra n).toNat + (x.ra (n + 1)).toNat * 2 ^ 64 := rfl
@[simp] theorem CtxSt.waWide_one (x : CtxSt) (d : BitVec 5) (old : Nat) : x.waWide d 8 old = x.wa d (BitVec.ofNat 64 old) := rfl
@[simp] theorem CtxSt.waWide_two (x : CtxSt) (d : BitVec 5) (old : Nat) :
    x.waWide d 16 old = (x.wa d (BitVec.ofNat 64 old)).wa (d + 1) (BitVec.ofNat 64 (old / 2 ^ 64)) := rfl

/-! ## Where an atomic leads -/

theorem CtxSt.touch_task {x y : CtxSt} {t : Nat} (h : x.touch t = some y) : y.task = x.task := by
  unfold CtxSt.touch at h
  split at h
  · cases h; rfl
  · split at h
    · cases h
    · cases h; rfl

section Op
variable {s : State} {c : Ctx} {x : CtxSt} {d : BitVec 5} {addr : Word} {w m : Nat} {op : Rmw}

/-- The scratchpad after an atomic of `w` bytes at `m`. -/
def State.exchange (s : State) (w m : Nat) (op : Rmw) : State :=
  { s with tier := { s.tier with
      scratch := storeBytes s.tier.scratch m (natLe w (rmwResult op w (leNat (loadBytes s.tier.scratch m w)))) } }

theorem State.atomicOp_of_scratch (leads : s.locate c x addr w w true = .ok (.scr m)) (free : s.scratchCheck x m w = none) :
    s.atomicOp c x d addr w op =
      (s.exchange w m op).setCtx c.val (x.waWide d w (leNat (loadBytes s.tier.scratch m w))).after := by
  simp only [State.atomicOp, leads, free]
  rfl

theorem State.atomicOp_of_local (leads : s.locate c x addr w w true = .ok (.ls m)) : s.atomicOp c x d addr w op = s.raise c .range := by
  simp only [State.atomicOp, leads]

section Device
variable (leads : s.locate c x addr w w true = .ok (.dpa m)) (mine : s.extentCheck x (m / 4096) true = none)
include leads mine

theorem State.atomicOp_of_staged (staged : ∃ i, i < w ∧ (AMap.find? x.staged (m + i)).isSome = true) :
    s.atomicOp c x d addr w op = s.raise c .atomicStaged := by
  have some_byte : ((List.range w).any fun i => (AMap.find? x.staged (m + i)).isSome) = true := by simpa using staged
  simp only [State.atomicOp, leads, mine, some_byte, if_true]

/-- The record that an atomic on device memory becomes, before it has its name. -/
def CtxSt.atomicRec (x : CtxSt) (c : Ctx) (d : BitVec 5) (m w : Nat) (op : Rmw) : Rec :=
  { id := 0, body := .rmw (m / 4096) (m % 4096) w op, mirror := true, tenant := x.tenant, origin := 3, owner := .atomic c.val d.toNat }

theorem State.atomicOp_of_device {y : CtxSt} (clean : ∀ i, i < w → AMap.find? x.staged (m + i) = none) (touched : x.touch (m / 4096) = some y) :
    s.atomicOp c x d addr w op = (s.formRec (y.atomicRec c d m w op)).2.setCtx c.val { y with wait := .record s.jnl.nextId } := by
  have no_byte : ((List.range w).any fun i => (AMap.find? x.staged (m + i)).isSome) = false := by
    simp only [List.any_eq_false, List.mem_range]
    exact fun i inside => by simp [clean i inside]
  simp only [State.atomicOp, leads, mine, no_byte, touched, Bool.false_eq_true, if_false]
  rfl

end Device
end Op

/-! ## The four instructions -/

section Runs
variable {s : State} {c : Ctx} {gp : BitVec 3} {d a b : BitVec 5} (runs : s.Runs c) (guard : (s.ctx c.val).rp gp.toNat = true)
include runs guard

theorem exec_cas64_of_runs : exec (.cas64 c gp d a b) s = .next (s.atomicOp c (s.counted c) d ((s.counted c).ra a) 8
    (.cas ((s.counted c).ra d).toNat ((s.counted c).ra b).toNat)) := congrArg Host.Outcome.next (State.issue_runs runs guard rfl)

theorem exec_fadd64_of_runs : exec (.fadd64 c gp d a b) s = .next (s.atomicOp c (s.counted c) d ((s.counted c).ra a) 8
    (.add ((s.counted c).ra b).toNat)) := congrArg Host.Outcome.next (State.issue_runs runs guard rfl)

variable (dEven : d.toNat % 2 = 0) (bEven : b.toNat % 2 = 0)
include dEven bEven

theorem exec_cas128_of_runs : exec (.cas128 c gp d a b) s = .next (s.atomicOp c (s.counted c) d ((s.counted c).ra a) 16
    (.cas ((s.counted c).raWide d 16) ((s.counted c).raWide b 16))) :=
  congrArg Host.Outcome.next (State.issue_runs runs guard (by simp [dEven, bEven]))

theorem exec_fadd128_of_runs : exec (.fadd128 c gp d a b) s = .next (s.atomicOp c (s.counted c) d ((s.counted c).ra a) 16
    (.add ((s.counted c).raWide b 16))) :=
  congrArg Host.Outcome.next (State.issue_runs runs guard (by simp [dEven, bEven]))

end Runs

/-- Settles O24: by where the address leads; on device memory by what the task has staged. -/
theorem atomicsExchangeOnce : Obligations.AtomicsExchangeOnce := by
  refine ⟨fun c gp d a b s m runs guard => ⟨fun leads free => ?_, fun leads free dEven bEven => ?_, rfl, rfl, rfl, rfl⟩,
    fun c gp d a b s t m runs guard task => ⟨fun leads => ?_, fun leads mine => ⟨fun staged => ?_, fun y clean touched => ?_⟩⟩⟩
  · exact ⟨(exec_cas64_of_runs runs guard).trans (congrArg _ (State.atomicOp_of_scratch leads free)),
      (exec_fadd64_of_runs runs guard).trans (congrArg _ (State.atomicOp_of_scratch leads free))⟩
  · exact ⟨(exec_cas128_of_runs runs guard dEven bEven).trans (congrArg _ (State.atomicOp_of_scratch leads free)),
      (exec_fadd128_of_runs runs guard dEven bEven).trans (congrArg _ (State.atomicOp_of_scratch leads free))⟩
  · exact ⟨(exec_cas64_of_runs runs guard).trans (congrArg _ (State.atomicOp_of_local leads)),
      (exec_fadd64_of_runs runs guard).trans (congrArg _ (State.atomicOp_of_local leads))⟩
  · exact (exec_cas64_of_runs runs guard).trans (congrArg _ (State.atomicOp_of_staged leads mine staged))
  · have tenant : y.tenant = t.tenant := by
      simp only [CtxSt.tenant, CtxSt.touch_task touched, State.counted_task, task]
    have forms (op : Rmw) := State.atomicOp_of_device (d := d) (op := op) leads mine clean touched
    simp only [CtxSt.atomicRec, tenant] at forms
    exact ⟨(exec_cas64_of_runs runs guard).trans (congrArg _ (forms _)), (exec_fadd64_of_runs runs guard).trans (congrArg _ (forms _))⟩

end Sys2Proof.Machine
end

section
/-! Cipher calls (R273, R274; log entry 112) whose block and buffers lie in the local store: what is checked of the block, what is read, and
what is written. -/

namespace Sys2Proof.Machine

/-! ## Buffers in the local store -/

section Buffer
variable {s : State} {c : Ctx} {x : CtxSt} {p n : Nat} (kiosk : c.val ≠ 4096) (small : x.lsSize ≤ 65536) (inside : p + n ≤ x.lsSize)
include kiosk small inside

theorem State.locate_field (wr : Bool) : s.locate c x (BitVec.ofNat 64 p) n 1 wr = .ok (.ls p) :=
  State.locate_ls wr (by rw [BitVec.toNat_ofNat]; omega) kiosk (Nat.mod_one p) inside (by omega)

theorem State.readAt_field : s.readAt c x (BitVec.ofNat 64 p) n 1 = (some (x, loadBytes x.ls p n), s) := by
  rw [State.readAt, State.locate_field kiosk small inside]
  rfl

end Buffer

theorem State.writeAt_field {s : State} {c : Ctx} {x : CtxSt} {p : Nat} {b : Bytes} (kiosk : c.val ≠ 4096) (small : x.lsSize ≤ 65536)
    (inside : p + b.length ≤ x.lsSize) : s.writeAt c x (BitVec.ofNat 64 p) 1 b = (some { x with ls := storeBytes x.ls p b }, s) := by
  rw [State.writeAt, State.locate_field kiosk small inside]
  rfl

theorem spans_zero (a : Nat) : spans a 0 = [] := by
  rw [spans, List.filterMap_eq_nil_iff]
  intro i _
  exact if_neg (by omega)

/-- Buffers in the local store, and buffers of no bytes, touch no tile. -/
theorem State.touchNamed_local {s : State} {c : Ctx} {x : CtxSt} (kiosk : c.val ≠ 4096) (small : x.lsSize ≤ 65536) {l : List (Nat × Nat)}
    (inside : ∀ p ∈ l, p.2 = 0 ∨ p.1 + p.2 ≤ x.lsSize) : s.touchNamed c x l = some x := by
  induction l with
  | nil => rfl
  | cons p r ih =>
    have rest := ih fun q mem => inside q (List.mem_cons_of_mem p mem)
    refine Eq.trans ?_ rest
    refine congrArg (fun o => List.foldl _ o r) ?_
    rcases inside p (List.mem_cons_self ..) with empty | within
    · dsimp only
      split
      · rw [empty, spans_zero, List.foldl_nil]
      · rfl
    · simp only [State.locate_field kiosk small within]

/-! ## Bytes of the block (R273) -/

theorem slice_take {l : Bytes} {i n m : Nat} (inside : i + n ≤ l.length) (fewer : m ≤ n) : (slice l i n).take m = slice l i m := by
  have whole {k : Nat} (h : i + k ≤ l.length) : slice l i k = (l.drop i).take k := by
    have full : ((l.drop i).take k).length = k := by rw [List.length_take, List.length_drop]; omega
    rw [slice, full, Nat.sub_self, List.replicate_zero, List.append_nil]
  rw [whole inside, whole (by omega), List.take_take, Nat.min_eq_left fewer]

/-- The length of what a call reads at SRC: with GCM_DEC the tag too. -/
def CiphFn.inLen (f : CiphFn) (b : Bytes) : Nat := if f = .gcmDec then fieldAt b 12 4 + 16 else fieldAt b 12 4

/-- What a call reads at SRC. -/
def CiphFn.inp (f : CiphFn) (x : CtxSt) (b : Bytes) : Bytes := loadBytes x.ls (fieldAt b 16 8) (f.inLen b)

theorem CiphFn.inp_length (f : CiphFn) (x : CtxSt) (b : Bytes) : (f.inp x b).length = f.inLen b := loadBytes_length ..

/-- The associated data of a call, which GCM alone has. -/
def CiphFn.aad (f : CiphFn) (x : CtxSt) (b : Bytes) : Bytes := if f.gcm then loadBytes x.ls (fieldAt b 32 8) (fieldAt b 40 4) else []

theorem ciphBad_false {f : CiphFn} {b : Bytes} (good : ciphBad f b = false) : fieldAt b 12 4 ≤ 65536 ∧ fieldAt b 40 4 ≤ 4096 := by
  simp only [ciphBad, Bool.or_eq_false_iff, decide_eq_false_iff_not, not_lt] at good
  tauto

/-! ## A call that passes its checks -/

/-- What a call reads lies in the local store: SRC and, where it has any, the associated data. -/
structure CiphFn.ReadsLocal (f : CiphFn) (x : CtxSt) (b : Bytes) : Prop where
  src : fieldAt b 16 8 + f.inLen b ≤ x.lsSize
  aad : f.gcm = true → fieldAt b 40 4 = 0 ∨ fieldAt b 32 8 + fieldAt b 40 4 ≤ x.lsSize

section Run
variable {s : State} {c : Ctx} {x : CtxSt} {f : CiphFn} {d : BitVec 5} {off : Nat} {b key : Bytes} {k : SlotKey} (kiosk : c.val ≠ 4096)
  (small : x.lsSize ≤ 65536) (reads : f.ReadsLocal x b)
include kiosk small reads

theorem State.readInp : s.readAt c x (BitVec.ofNat 64 (fieldAt b 16 8)) (if f = .gcmDec then fieldAt b 12 4 + 16 else fieldAt b 12 4) 1 =
    (some (x, f.inp x b), s) := State.readAt_field kiosk small reads.src

theorem State.readAad : (if f.gcm = true ∧ 0 < fieldAt b 40 4 then s.readAt c x (BitVec.ofNat 64 (fieldAt b 32 8)) (fieldAt b 40 4) 1
    else (some (x, []), s)) = (some (x, f.aad x b), s) := by
  by_cases gcm : f.gcm = true
  · by_cases empty : fieldAt b 40 4 = 0
    · simp [CiphFn.aad, gcm, empty, loadBytes]
    · rw [if_pos ⟨gcm, by omega⟩, State.readAt_field kiosk small ((reads.aad gcm).resolve_left empty), CiphFn.aad, if_pos gcm]
  · rw [if_neg (fun h => gcm h.1), CiphFn.aad, if_neg gcm]

/-- Every function but GCM_ENC takes its nonce or tweak from the block, and writes its output where it has one. -/
theorem State.cipherRun_of_output {out : Bytes} (other : f ≠ .gcmEnc)
    (run : ciphRun f key (slice b 48 16) (f.aad x b) (f.inp x b) (fieldAt b 12 4) = some out) (dst : fieldAt b 24 8 + out.length ≤ x.lsSize) :
    s.cipherRun c x f d (.ls off) b key k =
      (s.keySlot k).2.setCtx c.val ((({ x with ls := storeBytes x.ls (fieldAt b 24 8) out } : CtxSt).wa d 0).after) := by
  simp only [State.cipherRun, other, false_and, if_false, State.readInp kiosk small reads, State.readAad kiosk small reads, run,
    State.writeAt_field kiosk small dst, State.advance_eq]

/-- A tag that does not hold is answered in a[D]. -/
theorem State.cipherRun_of_falseTag (other : f ≠ .gcmEnc)
    (run : ciphRun f key (slice b 48 16) (f.aad x b) (f.inp x b) (fieldAt b 12 4) = none) :
    s.cipherRun c x f d (.ls off) b key k = (s.keySlot k).2.answerCall c x f b d 0x100 := by
  simp only [State.cipherRun, other, false_and, if_false, State.readInp kiosk small reads, State.readAad kiosk small reads, run]

end Run

/-- GCM_ENC takes the next nonce of its key slot, counts it and writes it into the block. -/
theorem State.cipherRun_of_gcmEnc {s : State} {c : Ctx} {x : CtxSt} {d : BitVec 5} {off : Nat} {b key out : Bytes} {k : SlotKey}
    (kiosk : c.val ≠ 4096) (small : x.lsSize ≤ 65536) (reads : CiphFn.gcmEnc.ReadsLocal x b)
    (left : AMap.get 0 s.gth.counters (s.keySlot k).1 ≠ nonceEnd)
    (run : ciphRun .gcmEnc key (s.taskNonce (s.keySlot k).1) (CiphFn.gcmEnc.aad x b) (CiphFn.gcmEnc.inp x b) (fieldAt b 12 4) = some out)
    (dst : fieldAt b 24 8 + out.length ≤ x.lsSize) : s.cipherRun c x .gcmEnc d (.ls off) b key k =
      (({ (s.keySlot k).2 with gth := { (s.keySlot k).2.gth with
          counters := AMap.set 0 (s.keySlot k).2.gth.counters (s.keySlot k).1 (AMap.get 0 (s.keySlot k).2.gth.counters (s.keySlot k).1 + 1) } }
          : State).setCtx c.val
        ((({ x with ls := storeBytes (storeBytes x.ls (fieldAt b 24 8) out) (off + 48) (s.taskNonce (s.keySlot k).1) } : CtxSt).wa d 0).after)) := by
  simp only [State.cipherRun, left, and_false, if_false, if_true, State.readInp kiosk small reads, State.readAad kiosk small reads, run,
    State.writeAt_field kiosk small dst]
  rfl

/-! ## A call whose block lies in the local store -/

section Call
variable {s : State} {c : Ctx} {x : CtxSt} {f : CiphFn} {d : BitVec 5} {blk : Word} {off : Nat} {b : Bytes}
  (leads : s.locate c x blk 64 64 false = .ok (.ls off)) (holds : loadBytes x.ls off 64 = b)
include leads holds

theorem State.cipherCall_of_purpose (refused : f.purposes.contains (fieldAt b 0 1) = false ∨ s.dbgOpen = true) :
    s.cipherCall c x f d blk = (s.sat R.GTH_CNT1.PURPOSE_REFUSED).raise c .cipherPurpose := by
  have bad : (!f.purposes.contains (fieldAt b 0 1)) = true ∨ s.dbgOpen = true := refused.imp_left fun h => by rw [h]; rfl
  simp only [State.cipherCall, leads, State.readLoc, holds, if_pos bad]
  rfl

variable (purpose : f.purposes.contains (fieldAt b 0 1) = true) (locked : s.dbgOpen = false)
include purpose locked

theorem State.cipherCall_of_malformed (bad : ciphBad f b = true) :
    s.cipherCall c x f d blk = s.answerCall c x f b d Status.malformed.code := by
  simp only [State.cipherCall, leads, State.readLoc, holds, purpose, locked, bad]
  rfl

theorem State.cipherCall_of_good (good : ciphBad f b = false) : s.cipherCall c x f d blk =
    let lbl := keyLabel (fieldAt b 0 1) x.tenant.toNat (fieldAt b 1 5) (fieldAt b 8 4) 0
    let root := s.taskRoot x.tenant (fieldAt b 0 1)
    s.cipherRun c x f d (.ls off) b (kdf root.1 lbl f.keyBits) (.label (BitVec.ofNat 256 (beNat lbl)) root.2) := by
  simp only [State.cipherCall, leads, State.readLoc, holds, purpose, locked, good]
  rfl

end Call

theorem State.answerCall_of_touched {s : State} {c : Ctx} {x y : CtxSt} {f : CiphFn} {b : Bytes} {d : BitVec 5} {v : Nat}
    (touched : s.touchNamed c x (f.buffers b) = some y) :
    s.answerCall c x f b d v = s.setCtx c.val (y.wa d (BitVec.ofNat 64 v)).after := by
  simp only [State.answerCall, touched, State.advance_eq]

theorem State.answerCall_of_many {s : State} {c : Ctx} {x : CtxSt} {f : CiphFn} {b : Bytes} {d : BitVec 5} {v : Nat}
    (many : s.touchNamed c x (f.buffers b) = none) : s.answerCall c x f b d v = s.raise c .tileBudget := by
  simp only [State.answerCall, many]

/-- The buffers of a GCM_DEC that reads and writes the local store alone touch no tile. -/
theorem State.touchNamed_gcmDec {s : State} {c : Ctx} {x : CtxSt} {b : Bytes} (kiosk : c.val ≠ 4096) (small : x.lsSize ≤ 65536)
    (reads : CiphFn.gcmDec.ReadsLocal x b) (good : ciphBad .gcmDec b = false) (dst : fieldAt b 24 8 + fieldAt b 12 4 ≤ x.lsSize) :
    s.touchNamed c x (CiphFn.gcmDec.buffers b) = some x := by
  obtain ⟨len, aadLen⟩ := ciphBad_false good
  have named : CiphFn.gcmDec.buffers b =
      [(fieldAt b 16 8, fieldAt b 12 4 + 16), (fieldAt b 24 8, fieldAt b 12 4), (fieldAt b 32 8, fieldAt b 40 4)] := by
    simp [CiphFn.buffers, CiphFn.gcm, Nat.min_eq_left len, Nat.min_eq_left aadLen]
  rw [named]
  refine State.touchNamed_local kiosk small ?_
  simp only [List.forall_mem_cons, List.not_mem_nil, false_imp_iff, implies_true, and_true]
  exact ⟨.inr reads.src, .inr dst, reads.aad rfl⟩

/-! ## The five instructions -/

/-- The instruction of a function. -/
def CiphFn.instr (f : CiphFn) (c : Ctx) (gp : BitVec 3) (d a : BitVec 5) : Instr :=
  match f with
  | .gcmEnc => .gcmEnc c gp d a 0 0
  | .gcmDec => .gcmDec c gp d a 0 0
  | .xtsEnc => .xtsEnc c gp d a 0 0
  | .xtsDec => .xtsDec c gp d a 0 0
  | .cmac => .cmac c gp d a 0 0

theorem exec_cipher_of_runs {s : State} {c : Ctx} {gp : BitVec 3} {d a : BitVec 5} (f : CiphFn) (runs : s.Runs c)
    (guard : (s.ctx c.val).rp gp.toNat = true) :
    exec (f.instr c gp d a) s = .next (s.cipherCall c (s.counted c) f d ((s.counted c).ra a)) := by
  cases f <;> exact congrArg Host.Outcome.next (State.issue_runs runs guard rfl)

/-- Settles O25: a call that fails a check by that check (their order: log entry 112), a good one by what it reads and what its function gives,
GCM_ENC by its nonce besides. -/
theorem cipherCallsWriteTheirResult : Obligations.CipherCallsWriteTheirResult := by
  intro c gp d a s t off runs guard kiosk task at_off aligned inside small x b len src dst aadLen aad lbl root slot out
  have size : x.lsSize ≤ 65536 := by rwa [State.counted_lsSize]
  have leads : s.locate c x (x.ra a) 64 64 false = .ok (.ls off) :=
    State.locate_ls false (by rwa [State.counted_ra]) kiosk aligned (by rwa [State.counted_lsSize]) (by omega)
  have tenant : x.tenant = t.tenant := State.counted_tenant task
  have exec_call (f : CiphFn) := exec_cipher_of_runs (d := d) (a := a) f runs guard
  have runs_good (f : CiphFn) (purpose : f.purposes.contains (fieldAt b 0 1) = true) (locked : s.dbgOpen = false) (good : ciphBad f b = false) :
      exec (f.instr c gp d a) s =
        .next (s.cipherRun c x f d (.ls off) b (kdf root.1 lbl f.keyBits) (.label (BitVec.ofNat 256 (beNat lbl)) root.2)) := by
    rw [exec_call, State.cipherCall_of_good leads rfl purpose locked good, tenant]
  refine ⟨fun f g mem => ?_, fun purpose locked good srcIn dstIn => ⟨?_, ?_⟩, fun purpose locked good srcIn dstIn => ?_,
    fun purpose locked good srcIn dstIn aadIn => ⟨fun p opens => ?_, fun fails => ?_⟩,
    fun purpose locked good srcIn dstIn aadIn left => ?_⟩
  · have same : g = f.instr c gp d a := by
      simp only [List.mem_cons, List.not_mem_nil, or_false, Prod.mk.injEq] at mem
      rcases mem with ⟨rfl, rfl⟩ | ⟨rfl, rfl⟩ | ⟨rfl, rfl⟩ | ⟨rfl, rfl⟩ | ⟨rfl, rfl⟩ <;> rfl
    rw [same, exec_call]
    refine ⟨fun refused => ?_, fun purpose locked bad => ?_⟩
    · rw [State.cipherCall_of_purpose leads rfl refused]
    · rw [State.cipherCall_of_malformed leads rfl purpose locked bad]
      exact ⟨fun y touched => congrArg _ (State.answerCall_of_touched touched), fun many => congrArg _ (State.answerCall_of_many many)⟩
  · have reads : CiphFn.xtsEnc.ReadsLocal x b := ⟨srcIn, fun gcm => absurd gcm (by decide)⟩
    have short := (xtsEnc_length_le (kdf root.1 lbl 512) (slice b 48 16) (CiphFn.xtsEnc.inp x b)).trans_eq (CiphFn.inp_length ..)
    exact (runs_good .xtsEnc purpose locked good).trans (congrArg _
      (State.cipherRun_of_output kiosk size reads nofun rfl ((Nat.add_le_add_left short _).trans dstIn)))
  · have reads : CiphFn.xtsDec.ReadsLocal x b := ⟨srcIn, fun gcm => absurd gcm (by decide)⟩
    have short := (xtsDec_length_le (kdf root.1 lbl 512) (slice b 48 16) (CiphFn.xtsDec.inp x b)).trans_eq (CiphFn.inp_length ..)
    exact (runs_good .xtsDec purpose locked good).trans (congrArg _
      (State.cipherRun_of_output kiosk size reads nofun rfl ((Nat.add_le_add_left short _).trans dstIn)))
  · have reads : CiphFn.cmac.ReadsLocal x b := ⟨srcIn, fun gcm => absurd gcm (by decide)⟩
    have short := cmac_length_le (kdf root.1 lbl 256) (CiphFn.cmac.inp x b)
    exact (runs_good .cmac purpose locked good).trans (congrArg _
      (State.cipherRun_of_output kiosk size reads nofun rfl ((Nat.add_le_add_left short _).trans dstIn)))
  · have reads : CiphFn.gcmDec.ReadsLocal x b := ⟨(Nat.add_assoc src len 16).symm.trans_le srcIn, fun _ => aadIn⟩
    have nonce : (slice b 48 16).take 12 = slice b 48 12 := slice_take (by rw [loadBytes_length]) (by decide)
    rw [← nonce] at opens
    have short := (gcmOpen_length_le opens).trans (List.length_take_le ..)
    exact (runs_good .gcmDec purpose locked good).trans (congrArg _
      (State.cipherRun_of_output kiosk size reads nofun opens ((Nat.add_le_add_left short _).trans dstIn)))
  · have reads : CiphFn.gcmDec.ReadsLocal x b := ⟨(Nat.add_assoc src len 16).symm.trans_le srcIn, fun _ => aadIn⟩
    have nonce : (slice b 48 16).take 12 = slice b 48 12 := slice_take (by rw [loadBytes_length]) (by decide)
    rw [← nonce] at fails
    exact (runs_good .gcmDec purpose locked good).trans (congrArg _
      ((State.cipherRun_of_falseTag kiosk size reads nofun fails).trans
        (State.answerCall_of_touched (State.touchNamed_gcmDec kiosk size reads good dstIn))))
  · have reads : CiphFn.gcmEnc.ReadsLocal x b := ⟨srcIn, fun _ => aadIn⟩
    have short := (gcmSeal_length_le (kdf root.1 lbl 256) (s.taskNonce slot.1) aad (CiphFn.gcmEnc.inp x b)).trans_eq
      (congrArg (· + 16) (CiphFn.inp_length ..))
    have room := (Nat.add_le_add_left short dst).trans ((Nat.add_assoc dst len 16).symm.trans_le dstIn)
    exact (runs_good .gcmEnc purpose locked good).trans (congrArg _ (State.cipherRun_of_gcmEnc kiosk size reads left rfl room))

end Sys2Proof.Machine
end

section
/-! Gates, messages and children (R275 to R278, R296): what each instruction and each end of a wait does. -/

namespace Sys2Proof.Machine

/-! ## Gates (R275) -/

theorem gateField_toNat (g : Fin 4) : (BitVec.ofNat 5 g.val).toNat = g.val := by rw [BitVec.toNat_ofNat]; omega

theorem gateField_ok (g : Fin 4) : decide (4 ≤ (BitVec.ofNat 5 g.val).toNat) = false := by
  rw [gateField_toNat]
  exact decide_eq_false (by omega)

section Gate
variable {s : State} {c : Ctx} {gp : BitVec 3} {d a : BitVec 5} {g : Fin 4}

theorem exec_gwait_of_runs (runs : s.Runs c) (guard : (s.ctx c.val).rp gp.toNat = true) :
    exec (.gwait c gp d a (BitVec.ofNat 5 g.val)) s = .next (
      if ((s.counted c).ra a).toNat ≤ ((s.counted c).rg g.val).toNat then s.setCtx c.val ((s.counted c).wa d ((s.counted c).rg g.val)).after
      else s.setCtx c.val { s.counted c with wait := .gate g.val ((s.counted c).ra a) d.toNat }) := by
  refine congrArg Host.Outcome.next ((State.issue_runs runs guard (gateField_ok g)).trans ?_)
  simp only [gateField_toNat, State.advance_eq]

theorem exec_taskWaitEnd_of_gate {v : Word} (waits : (s.ctx c.val).wait = .gate g.val v d.toNat) : exec (.taskWaitEnd c) s = .next (
    if v.toNat ≤ ((s.ctx c.val).rg g.val).toNat then
      s.setCtx c.val ((({ s.ctx c.val with wait := .none } : CtxSt).wa d ((s.ctx c.val).rg g.val)).after)
    else s) := by
  refine congrArg Host.Outcome.next ?_
  simp only [waits, BitVec.ofNat_toNat, BitVec.setWidth_eq, State.advance_eq]

end Gate

/-- Settles O26: a gate that has been reached is read, at once or when the wait for it ends. -/
theorem gatesCountAndWait : Obligations.GatesCountAndWait := by
  refine fun c gp d a g s => ⟨fun runs guard => ⟨?_, ?_, fun reached => ?_, fun before => ?_⟩,
    fun v waits => ⟨fun reached => ?_, fun before => ?_⟩⟩
  · refine congrArg Host.Outcome.next ((State.issue_runs runs guard (by rw [gateField_ok]; rfl)).trans ?_)
    rw [gateField_toNat, State.advance_eq]
  · refine congrArg Host.Outcome.next ((State.issue_runs runs guard (by rw [gateField_ok]; rfl)).trans ?_)
    rw [gateField_toNat, State.advance_eq]
  · rw [exec_gwait_of_runs runs guard, if_pos reached]
  · rw [exec_gwait_of_runs runs guard, if_neg (not_le.mpr before)]
  · rw [exec_taskWaitEnd_of_gate waits, if_pos reached]
  · rw [exec_taskWaitEnd_of_gate waits, if_neg (not_le.mpr before)]

/-! ## Messages (R275, R276) -/

/-- The oldest message with the tag leaves the inbox; those before it, which have another, stay. -/
theorem takeMsg_of_first {l r : List Word} {m : Word} {tag : Nat} (has : tag = 0 ∨ m.toNat / 2 ^ 32 = tag)
    (before : ∀ k ∈ l, tag ≠ 0 ∧ k.toNat / 2 ^ 32 ≠ tag) : takeMsg (l ++ m :: r) tag = some (m, l ++ r) := by
  have others : ∀ k ∈ l, ¬ (tag == 0 || k.toNat / 2 ^ 32 == tag) = true := fun k mem => by simpa using before k mem
  have fits : (tag == 0 || m.toNat / 2 ^ 32 == tag) = true := by simpa using has
  have found : (l ++ m :: r).find? (fun m => tag == 0 || m.toNat / 2 ^ 32 == tag) = some m := by
    simp only [List.find?_append, List.find?_eq_none.mpr others, Option.none_or, List.find?_cons, fits]
  have new : m ∉ l := fun mem => others m mem fits
  simp only [takeMsg, found, List.erase_append_right _ new, List.erase_cons_head]

theorem takeMsg_of_none {inbox : List Word} {tag : Nat} (other : ∀ k ∈ inbox, tag ≠ 0 ∧ k.toNat / 2 ^ 32 ≠ tag) :
    takeMsg inbox tag = none := by
  have unfound : inbox.find? (fun m => tag == 0 || m.toNat / 2 ^ 32 == tag) = none :=
    List.find?_eq_none.mpr fun k mem => by simpa using other k mem
  simp only [takeMsg, unfound]

section Message
variable {s : State} {c : Ctx} {gp : BitVec 3} {d a b : BitVec 5} (runs : s.Runs c) (guard : (s.ctx c.val).rp gp.toNat = true)
include runs guard

theorem exec_grecv_of_message {m : Word} {rest : List Word}
    (has : takeMsg (s.counted c).inbox (((s.counted c).ra a).toNat % 2 ^ 32) = some (m, rest)) :
    exec (.grecv c gp d a 0) s = .next (s.setCtx c.val (({ s.counted c with inbox := rest } : CtxSt).wa d m).after) := by
  refine congrArg Host.Outcome.next ((State.issue_runs runs guard rfl).trans ?_)
  simp only [has, State.advance_eq]

theorem exec_grecv_of_none (none_has : takeMsg (s.counted c).inbox (((s.counted c).ra a).toNat % 2 ^ 32) = none) : exec (.grecv c gp d a 0) s =
    .next (s.setCtx c.val { s.counted c with wait := .msg (((s.counted c).ra a).toNat % 2 ^ 32) d.toNat }) := by
  refine congrArg Host.Outcome.next ((State.issue_runs runs guard rfl).trans ?_)
  simp only [none_has]

theorem exec_gpost_of_nobody (nobody : s.ctxOfTask ((s.counted c).ra a).toNat = none) : exec (.gpost c gp d a b) s =
    .next (s.setCtx c.val ((s.counted c).wa d (BitVec.ofNat 64 Status.access.code)).after) := by
  refine congrArg Host.Outcome.next ((State.issue_runs runs guard rfl).trans ?_)
  simp only [nobody, Option.filter_none, State.advance_eq]

theorem exec_gpost_of_task {e : Nat} (found : s.ctxOfTask ((s.counted c).ra a).toNat = some e) (other : e ≠ c.val)
    (tenant : (s.ctx e).task.map (·.tenant) = (s.counted c).task.map (·.tenant)) : exec (.gpost c gp d a b) s = .next (
      if inboxSize ≤ (s.ctx e).inbox.length then s.setCtx c.val ((s.counted c).wa d (BitVec.ofNat 64 Status.nospace.code)).after
      else (s.setCtx e { s.ctx e with inbox := (s.ctx e).inbox ++ [(s.counted c).ra b] }).setCtx c.val ((s.counted c).wa d 0).after) := by
  refine congrArg Host.Outcome.next ((State.issue_runs runs guard rfl).trans ?_)
  simp only [found, tenant, Option.filter, beq_self_eq_true, if_true, if_neg other, State.advance_eq]

end Message

/-! ## Children (R277, R278, R296) -/

/-- The state in which a child of task `t` has been queued with the gate `g`. -/
def State.spawned (s : State) (t : Task) (g : Nat) (desc : Bytes) : State :=
  let v := (s.nextTask t.queue).2.poolUp t.queue
  { v with ksk := { v.ksk with pool := v.ksk.pool ++ [(descOf desc).task (s.nextTask t.queue).1 t.queue t.tenant (some (t.num, g))] } }

section Spawn
variable {s : State} {c : Ctx} {gp : BitVec 3} {d a : BitVec 5} {g : Fin 4} {t : Task} {off : Nat} (runs : s.Runs c)
  (guard : (s.ctx c.val).rp gp.toNat = true) (task : (s.ctx c.val).task = some t) (kiosk : c.val ≠ 4096)
  (at_off : ((s.ctx c.val).ra a).toNat = off) (inside : off + 128 ≤ (s.ctx c.val).lsSize) (small : (s.ctx c.val).lsSize ≤ 65536)
include runs guard task kiosk at_off inside small

theorem exec_spawn_of_runs {desc : Bytes} (holds : loadBytes (s.counted c).ls off 128 = desc) :
    exec (.spawn c gp d a (BitVec.ofNat 5 g.val)) s = .next (
      if 16 ≤ (s.counted c).children ∨ (descOf desc).kind ≠ 0 ∨ s.descOk t.queue desc = false ∨ s.queueRoom t.queue 1 = false then
        s.setCtx c.val ((s.counted c).wa d 0).after
      else (s.spawned t g.val desc).setCtx c.val
        (({ s.counted c with children := (s.counted c).children + 1 } : CtxSt).wa d (BitVec.ofNat 64 (s.nextTask t.queue).1)).after) := by
  refine congrArg Host.Outcome.next ((State.issue_runs runs guard (gateField_ok g)).trans ?_)
  simp only [State.counted_task, task, State.counted_ra, State.readAt_counted_ls kiosk at_off inside small, kiosk, false_or, Bool.not_eq_true',
    gateField_toNat, State.advance_eq, ← State.counted_ls, holds]
  rfl

end Spawn

theorem State.spawned_poolUsed (s : State) (t : Task) (g : Nat) (desc : Bytes) :
    (s.spawned t g desc).fget R.KSK_STAT.POOL_USED = (s.fget R.KSK_STAT.POOL_USED + 1) % 2 ^ 16 := by
  have apart : (R.KSK_QSTAT.QUEUED t.queue).key ≠ R.KSK_STAT.POOL_USED.key := by
    simp only [Fld.key, R.KSK_STAT.POOL_USED, R.KSK_QSTAT.QUEUED]; omega
  exact (State.fset_fget_ne _ _ _ _ apart).trans (State.fset_fget_same ..)

theorem exec_childMsgDeliver_of_held {s : State} {c : Ctx} {m : Word} {r : List Word} (held : (s.ctx c.val).held = m :: r) :
    exec (.childMsgDeliver c) s = .next (if (s.ctx c.val).inbox.length < inboxSize then
        s.setCtx c.val { s.ctx c.val with inbox := (s.ctx c.val).inbox ++ [m], held := r } else s) := by
  refine congrArg Host.Outcome.next ?_
  simp only [held]

/-- Settles O27: a message by who takes it or has room for it, a child by what refuses it. -/
theorem messagesAndChildren : Obligations.MessagesAndChildren := by
  refine ⟨fun c gp d a b s runs guard => ?_, fun c gp d a g s t off runs guard task kiosk at_off inside small => ?_, fun c s m r held => ?_⟩
  · refine ⟨fun l m r inbox has before => ?_, fun other => exec_grecv_of_none runs guard (takeMsg_of_none other),
      fun e found other tenant => ⟨fun room => ?_, fun full => ?_⟩, fun nobody => exec_gpost_of_nobody runs guard nobody⟩
    · exact exec_grecv_of_message runs guard (by rw [inbox]; exact takeMsg_of_first has before)
    · rw [exec_gpost_of_task runs guard found other tenant, if_neg (not_le.mpr room)]
    · rw [exec_gpost_of_task runs guard found other tenant, if_pos full]
  · dsimp only
    generalize holds : loadBytes (s.counted c).ls off 128 = desc
    have spawns := exec_spawn_of_runs (d := d) (g := g) runs guard task kiosk at_off inside small holds
    refine ⟨fun refused => spawns.trans (congrArg _ (if_pos refused)), fun few kind ok room => ?_⟩
    have taken : ¬ (16 ≤ (s.counted c).children ∨ (descOf desc).kind ≠ 0 ∨ s.descOk t.queue desc = false
        ∨ s.queueRoom t.queue 1 = false) := by
      simp only [kind, ok, room, not_le.mpr few, ne_eq, not_true, Bool.true_eq_false, or_false, not_false_eq_true]
    refine ⟨_, spawns.trans (congrArg _ (if_neg taken)), rfl, State.setCtx_ctx_same .., State.spawned_poolUsed s t g.val desc,
      AMap.get_set_same .., fun e other => ?_, rfl, rfl, rfl, rfl⟩
    exact State.setCtx_ctx_ne _ _ _ _ (Ne.symm other)
  · rw [exec_childMsgDeliver_of_held held]
    exact ⟨fun room => congrArg _ (if_pos room), fun full => congrArg _ (if_neg (not_lt.mpr full))⟩

end Sys2Proof.Machine
end

section
/-! The end of a task (R279 to R281, R300, R301): what settles a task leaves every context alone but the one that is freed. -/

namespace Sys2Proof.Machine

/-! ## Settling leaves the contexts alone -/

@[simp] theorem State.freeEntry_ksk (s : State) (tag : Nat) : (s.freeEntry tag).ksk = s.ksk := by
  unfold State.freeEntry
  cases AMap.find? s.tst.ops tag with
  | none => rfl
  | some o =>
    dsimp only
    split
    · rfl
    · split <;> rfl

@[simp] theorem State.settleEntry_ksk (s : State) (tag : Nat) : (s.settleEntry tag).ksk = s.ksk := by
  unfold State.settleEntry
  cases AMap.find? s.tst.ops tag with
  | none => rfl
  | some o =>
    dsimp only
    split
    · rfl
    · split
      · exact s.freeEntry_ksk tag
      · split <;> rfl

@[simp] theorem State.endPlan_ksk (s : State) (r : PlanReader) : (s.endPlan r).ksk = s.ksk := by
  unfold State.endPlan
  cases s.planOf r with
  | none => rfl
  | some p =>
    dsimp only
    split
    · rfl
    · exact (State.postT_reports ..).ksk

@[simp] theorem State.ctxBusy_ksk (s : State) (c : Nat) (b : Bool) : (s.ctxBusy c b).ksk = s.ksk := by
  cases b <;> rfl

@[simp] theorem State.kioskSettle_ksk (s : State) (k : Nat) : (s.kioskSettle k).ksk = s.ksk := by
  unfold State.kioskSettle
  split <;> rfl

@[simp] theorem State.queueSettle_ksk (s : State) (q : Nat) : (s.queueSettle q).ksk = s.ksk := by
  unfold State.queueSettle
  split <;> rfl

/-- The completion of a host's task is a record and its counts: no context hears of it. -/
theorem State.taskDone_ksk_of_host {t : Task} (host : t.parent = none) (s : State) (tag : Option Nat) (st : Status) (result pc cause : Nat) :
    (s.taskDone t tag st result pc cause).ksk = s.ksk := by
  simp only [State.taskDone, host]
  refine (State.produce_reports ..).ksk.trans ?_
  cases s.say st <;> rfl

theorem State.ctx_congr {s u : State} (same : u.ksk = s.ksk) (e : Nat) : u.ctx e = s.ctx e :=
  congrArg (fun k : Ksk => AMap.get ({} : CtxSt) k.ctx e) same

theorem State.setCtx_ksk_congr {s u : State} (same : u.ksk = s.ksk) (c : Nat) (x : CtxSt) : (u.setCtx c x).ksk = (s.setCtx c x).ksk := by
  simp only [State.setCtx, same]

/-! ## The end of a task -/

theorem State.ctxFree_ksk {s : State} {c : Nat} {t : Task} (task : (s.ctx c).task = some t) : (s.ctxFree c).ksk = (s.setCtx c {}).ksk := by
  simp only [State.ctxFree, task, State.queueSettle_ksk, State.kioskSettle_ksk, State.dec, State.fset_ksk, State.ctxBusy_ksk]
  refine State.setCtx_ksk_congr ?_ c {}
  rw [State.fset_ksk]
  change (if h : c < 4097 then s.endPlan (.ctx ⟨c, h⟩) else s).ksk = s.ksk
  split
  · exact s.endPlan_ksk _
  · rfl

theorem State.endTask_ksk_of_host {s : State} {c : Nat} {t : Task} (task : (s.ctx c).task = some t) (host : t.parent = none) (st : Status)
    (cause result : Nat) : (s.endTask c st cause result).ksk = (s.setCtx c {}).ksk := by
  simp only [State.endTask, task, State.settleEntry_ksk]
  have done := State.taskDone_ksk_of_host host s (some (s.ctx c).tag) st result (if cause = 0 then 0 else (s.ctx c).pc.toNat) cause
  rw [State.ctxFree_ksk (t := t) (by rw [State.ctx_congr done, task])]
  exact State.setCtx_ksk_congr done c {}

section End
variable {s : State} {c : Ctx}

theorem State.endProgram_of_kiosk (kiosk : c.val ≠ 4096) (st : Status) (cause result : Nat) :
    s.endProgram c st cause result = s.endTask c.val st cause result := if_neg kiosk

theorem State.raise_of_kiosk (kiosk : c.val ≠ 4096) (k : Cause) : s.raise c k = s.endTask c.val k.status k.code 0 := if_neg kiosk

theorem exec_abort_of_runs {gp : BitVec 3} {d a b : BitVec 5} (runs : s.Runs c) (guard : (s.ctx c.val).rp gp.toNat = true) :
    exec (.abort c gp d a b) s = .next (s.endProgram c .aborted 0 ((s.ctx c.val).ra a).toNat) := by
  refine congrArg Host.Outcome.next ((State.issue_runs runs guard rfl).trans ?_)
  rw [State.counted_ra]

theorem exec_insnBudget_of_none_left (kiosk : c.val ≠ 4096) (task : (s.ctx c.val).task.isSome = true) (ready : (s.ctx c.val).wait = .none)
    (uncharged : (s.ctx c.val).charged = false) (none_left : (s.ctx c.val).insnLeft = 0) :
    exec (.insnBudget c) s = .next (s.raise c .insnBudget) :=
  congrArg Host.Outcome.next (if_pos ⟨kiosk, task, ready, by rw [uncharged]; rfl, none_left⟩)

end End

/-- Settles O28: the completion and the entry touch no context, so a task's end empties its own and leaves the others whole. -/
theorem tasksEndAndFreeTheirContext : Obligations.TasksEndAndFreeTheirContext := by
  refine ⟨⟨fun c gp d a b s runs guard kiosk => ?_, fun c s kiosk task ready uncharged none_left => ?_, fun c s kiosk => ?_⟩,
    fun s c st cause result t task host => ?_⟩
  · rw [exec_abort_of_runs runs guard, State.endProgram_of_kiosk kiosk]
  · rw [exec_insnBudget_of_none_left kiosk task ready uncharged none_left, State.raise_of_kiosk kiosk]
    rfl
  · exact congrArg Host.Outcome.next (if_neg kiosk)
  · have ended := State.endTask_ksk_of_host task host st cause result
    refine ⟨(State.ctx_congr ended c).trans (s.setCtx_ctx_same c {}), fun e other => ?_⟩
    rw [State.ctx_congr ended e, State.setCtx_ctx_ne _ _ _ _ other.symm]
    exact ⟨rfl, rfl, rfl, rfl, rfl, rfl⟩

end Sys2Proof.Machine
end

section
/-! The start of a task on a Kiosk and on the Belvedere (R242, R298, R299, R314, R315). -/

namespace Sys2Proof.Machine

/-! ## A task leaves the pool for its turn (R298, R299) -/

/-- The state in which task `t` of queue `q` has its entry and is out of the pool. -/
def State.dequeued (s : State) (sq : Fin 16) (q turn : Nat) (t : Task) : State :=
  let v := s.entered .tasks { kind := .task t 0 }
  let w : State := { v with ksk := { v.ksk with
    rr := AMap.set (0, 0) v.ksk.rr sq.val (q, turn), pool := v.ksk.pool.filter fun u => u.num ≠ t.num } }
  w.poolDown t.queue

/-- The state in which the dequeued task `t` runs on context `c`. -/
def State.started (s : State) (t : Task) (tag c base : Nat) : State :=
  (((s.setCtx c (s.startCtx t tag base)).inc (R.KSK_PROG1.RUN_CUR t.prog)).inc (R.KSK_QSTAT.RUNNING t.queue)).ctxBusy c true

section Turn
variable {s : State} {sq : Fin 16} {q turn c base : Nat} {t : Task} (room : s.HasRoom .tasks)

section
include room

/-- What leaving the pool changes: the Turnstile and its registers, the pool, its counts and the dispatcher's turn. -/
theorem State.dequeued_same : ∃ ctl tst, s.dequeued sq q turn t = { s with ctl := ctl, tst := tst, ksk := { s.ksk with
    rr := AMap.set (0, 0) s.ksk.rr sq.val (q, turn), pool := s.ksk.pool.filter fun u => u.num ≠ t.num } } := by
  obtain ⟨⟨same, -⟩, -⟩ := s.entered_counts { kind := .task t 0 } room
  unfold State.dequeued
  generalize s.entered .tasks { kind := .task t 0 } = v at same ⊢
  generalize v.ctl = ctl, v.tst = tst at same
  subst same
  exact ⟨_, tst, rfl⟩

/-- A register outside the Turnstile that is no count of the pool stays. -/
theorem State.dequeued_fget {f : Fld} (above : 64 * 0x00400300 ≤ f.key) (used : R.KSK_STAT.POOL_USED.key ≠ f.key)
    (queued : (R.KSK_QSTAT.QUEUED t.queue).key ≠ f.key) : (s.dequeued sq q turn t).fget f = s.fget f := by
  obtain ⟨counts, -⟩ := s.entered_counts { kind := .task t 0 } room
  exact ((State.fset_fget_ne _ _ _ _ queued).trans (State.fset_fget_ne _ _ _ _ used)).trans (counts.regs f (.inr above))

theorem State.dequeued_progState : (s.dequeued sq q turn t).fget (R.KSK_PROG0.STATE t.prog) = s.fget (R.KSK_PROG0.STATE t.prog) := by
  apply State.dequeued_fget room <;> simp only [Fld.key, R.KSK_STAT.POOL_USED, R.KSK_QSTAT.QUEUED, R.KSK_PROG0.STATE] <;> omega

theorem State.dequeued_progOwner : (s.dequeued sq q turn t).fget (R.KSK_PROG0.OWNER t.prog) = s.fget (R.KSK_PROG0.OWNER t.prog) := by
  apply State.dequeued_fget room <;> simp only [Fld.key, R.KSK_STAT.POOL_USED, R.KSK_QSTAT.QUEUED, R.KSK_PROG0.OWNER] <;> omega

theorem State.dequeued_progSlot : (s.dequeued sq q turn t).fget (R.KSK_PROG0.SLOT t.prog) = s.fget (R.KSK_PROG0.SLOT t.prog) := by
  apply State.dequeued_fget room <;> simp only [Fld.key, R.KSK_STAT.POOL_USED, R.KSK_QSTAT.QUEUED, R.KSK_PROG0.SLOT] <;> omega

section
variable (queue : t.queue < 1024)
include queue

theorem State.dequeued_running : (s.dequeued sq q turn t).fget (R.KSK_QSTAT.RUNNING t.queue) = s.fget (R.KSK_QSTAT.RUNNING t.queue) := by
  apply State.dequeued_fget room <;> simp only [Fld.key, R.KSK_STAT.POOL_USED, R.KSK_QSTAT.QUEUED, R.KSK_QSTAT.RUNNING] <;> omega

/-- The configuration of a queue lies below its status. -/
theorem State.dequeued_queueConfig {f : Fld} (above : 0x01C00000 ≤ f.off) (below : f.off < 0x01C08000) (bits : f.lo < 64) :
    (s.dequeued sq q turn t).fget f = s.fget f := by
  apply State.dequeued_fget room <;> simp only [Fld.key, R.KSK_STAT.POOL_USED, R.KSK_QSTAT.QUEUED] <;> omega

theorem State.dequeued_startCtx (tag : Nat) : (s.dequeued sq q turn t).startCtx t tag base = s.startCtx t tag base := by
  have time : (s.dequeued sq q turn t).timeNs = s.timeNs := by
    obtain ⟨ctl, tst, same⟩ := State.dequeued_same (sq := sq) (q := q) (turn := turn) (t := t) room
    rw [same]
  have size := State.dequeued_queueConfig (sq := sq) (q := q) (turn := turn) room queue (f := R.KSK_QCFG0.LS_SIZE t.queue)
    (by simp only [R.KSK_QCFG0.LS_SIZE]; omega) (by simp only [R.KSK_QCFG0.LS_SIZE]; omega) (by simp only [R.KSK_QCFG0.LS_SIZE]; omega)
  have defaults (lo wid rst : Nat) (bits : lo < 64) := State.dequeued_queueConfig (sq := sq) (q := q) (turn := turn) room queue
    (f := ⟨0x01C00008 + 32 * t.queue, lo, wid, rst⟩) (by simp only; omega) (by simp only; omega) bits
  simp only [State.startCtx, time, size, State.dequeued_progSlot room, R.KSK_QCFG1.INSN_DEF, R.KSK_QCFG1.TILES_DEF,
    R.KSK_QCFG1.TIME_DEF_US, defaults _ _ _ (by decide : 32 < 64), defaults _ _ _ (by decide : 16 < 64), defaults _ _ _ (by decide : 0 < 64)]

end

/-- TASK_START by whether the program is loaded and its tenant's. -/
theorem exec_taskStart_of_turn (picked : s.pickQueue sq.val = some (q, turn)) (startable : s.startable sq.val q = some (t, c, base)) :
    exec (.taskStart sq) s = .next (
      if (s.fget (R.KSK_PROG0.STATE t.prog) = 2 ∨ s.fget (R.KSK_PROG0.STATE t.prog) = 3)
        ∧ s.fget (R.KSK_PROG0.OWNER t.prog) = t.tenant.toNat then (s.dequeued sq q turn t).started t (s.newTag .tasks) c base
      else ((s.dequeued sq q turn t).taskDone t (some (s.newTag .tasks)) .access 0 0 Cause.access.code).settleEntry (s.newTag .tasks)) := by
  refine congrArg Host.Outcome.next ?_
  simp only [picked, startable, s.takeEntry_room { kind := .task t 0 } room]
  rw [← State.dequeued_progState (sq := sq) (q := q) (turn := turn) room,
    ← State.dequeued_progOwner (sq := sq) (q := q) (turn := turn) room]
  rfl

end

theorem exec_taskStart_of_noTurn (picked : s.pickQueue sq.val = none) : exec (.taskStart sq) s = .next s := by
  refine congrArg Host.Outcome.next ?_
  simp only [picked]

theorem exec_taskStart_of_full (full : ¬ s.HasRoom .tasks) : exec (.taskStart sq) s = .next s := by
  refine congrArg Host.Outcome.next ?_
  rcases s.pickQueue sq.val with _ | ⟨q, turn⟩
  · rfl
  · dsimp only
    rcases s.startable sq.val q with _ | ⟨t, c, base⟩
    · rfl
    · simp only [State.takeEntry_full _ full]

end Turn

/-! ## What the start of a task changes -/

section Started
variable (s : State) (t : Task) (tag c base : Nat)

theorem State.started_running (queue : t.queue < 1024) :
    (s.started t tag c base).fget (R.KSK_QSTAT.RUNNING t.queue)
      = (s.fget (R.KSK_QSTAT.RUNNING t.queue) + 1) % 2 ^ (R.KSK_QSTAT.RUNNING t.queue).wid := by
  have square : (R.KSK_SQUARE_STAT.CTX_BUSY (c / 8 / 32)).key ≠ (R.KSK_QSTAT.RUNNING t.queue).key := by
    simp only [Fld.key, R.KSK_SQUARE_STAT.CTX_BUSY, R.KSK_QSTAT.RUNNING]; omega
  have kiosk : (R.KSK_KIOSK_STAT.CTX_BUSY (c / 8)).key ≠ (R.KSK_QSTAT.RUNNING t.queue).key := by
    simp only [Fld.key, R.KSK_KIOSK_STAT.CTX_BUSY, R.KSK_QSTAT.RUNNING]; omega
  have program : (R.KSK_PROG1.RUN_CUR t.prog).key ≠ (R.KSK_QSTAT.RUNNING t.queue).key := by
    simp only [Fld.key, R.KSK_PROG1.RUN_CUR, R.KSK_QSTAT.RUNNING]; omega
  refine (State.fset_fget_ne _ _ _ _ square).trans ((State.fset_fget_ne _ _ _ _ kiosk).trans ((State.fset_fget_same _ _ _).trans ?_))
  rw [State.inc, State.fset_fget_ne _ _ _ _ program, State.setCtx_fget]

end Started

/-! ## The Belvedere (R314, R315) -/

theorem exec_mgmtTaskStart_of_idle {s : State} {t : Task} {src : MgmtSrc} {rest : List (Task × MgmtSrc)}
    (runs : s.fget R.SUP_BOOT_STAT.STATE = 2) (idle : (s.ctx 4096).task = none) (answered : s.ksk.mgmtWait = none)
    (oldest : s.ksk.mgmt = (t, src) :: rest) : exec .mgmtTaskStart s = .next (
      if 256 ≤ t.prog ∨ (s.progFlags t.prog).any (fun f => f.testBit 1) then
        ({ s with ksk := { s.ksk with mgmt := rest } } : State).mgmtDone t src .access
      else ({ s with ksk := { s.ksk with mgmt := rest, mgmtSrc := some src, stores := [] } } : State).setCtx 4096
        { task := some t, a := t.args.zipIdx.foldl (fun m p => AMap.set 0 m (p.2 + 1) p.1) [] }) := by
  have ready : ¬ (s.fget R.SUP_BOOT_STAT.STATE ≠ 2 ∨ (s.ctx 4096).task.isSome = true ∨ s.ksk.mgmtWait.isSome = true) := by
    rw [runs, idle, answered]; decide
  refine congrArg Host.Outcome.next ((if_neg ready).trans ?_)
  simp only [oldest]
  rfl

/-- Settles O30: the registers that a start reads are none of those that leaving the pool changes. -/
theorem tasksStartWithTheirArguments : Obligations.TasksStartWithTheirArguments := by
  refine ⟨fun sq s q turn c base t picked startable room queue _ _ loaded owned => ?_,
    fun sq s q turn c base t picked startable room _ _ unfit => ?_, fun sq s unready => ?_,
    fun s t src rest runs idle answered oldest held main => ?_, fun s t src rest runs idle answered oldest unfit => ?_⟩
  · refine ⟨_, (exec_taskStart_of_turn room picked startable).trans (congrArg _ (if_pos ⟨loaded, owned⟩)), ?_⟩
    have running := (s.dequeued sq q turn t).started_running t (s.newTag .tasks) c base queue
    have starts := State.dequeued_startCtx (sq := sq) (q := q) (turn := turn) (base := base) room queue (s.newTag .tasks)
    rw [State.dequeued_running room queue] at running
    obtain ⟨ctl, tst, same⟩ := State.dequeued_same (sq := sq) (q := q) (turn := turn) (t := t) room
    have others (e : Nat) (other : e ≠ c) := State.setCtx_ctx_ne (s.dequeued sq q turn t) c
      ((s.dequeued sq q turn t).startCtx t (s.newTag .tasks) base) e other.symm
    refine ⟨(State.setCtx_ctx_same ..).trans starts, fun e other => (others e other).trans ?_, ?_, running, ?_, ?_, ?_, ?_⟩
    all_goals
      rw [same]
      rfl
  · refine (exec_taskStart_of_turn room picked startable).trans (congrArg _ (if_neg fun fit => ?_))
    obtain ⟨loaded, owned⟩ := fit
    rcases unfit with unloaded | foreign
    · exact loaded.elim unloaded.1 unloaded.2
    · exact foreign owned
  · exact unready.elim exec_taskStart_of_noTurn exec_taskStart_of_full
  · rw [exec_mgmtTaskStart_of_idle runs idle answered oldest, if_neg]
    rw [main]
    exact not_or.mpr ⟨not_le.mpr held, Bool.false_ne_true⟩
  · rw [exec_mgmtTaskStart_of_idle runs idle answered oldest, if_pos unfit]

end Sys2Proof.Machine
end

section
/-! Source timeouts, drain bounds and CLEAR_HIGH (R331, R333, R337, R338, R342). -/

namespace Sys2Proof.Machine

/-! ## Source timeouts (R331, R333; log entry 5) -/

theorem exec_opTimeout_of_absent {s : State} {tag : Fin 262144} (absent : AMap.find? s.tst.ops tag.val = none) :
    exec (.opTimeout tag) s = .next s := by
  refine congrArg Host.Outcome.next ?_
  simp only [absent]

section Entry
variable {s : State} {tag : Fin 262144} {o : Op} (entry : AMap.find? s.tst.ops tag.val = some o)
include entry

theorem exec_opTimeout_of_claimed (claimed : o.lingering = true ∨ o.jsn.isSome = true) : exec (.opTimeout tag) s = .next s := by
  refine congrArg Host.Outcome.next ?_
  simp only [entry, if_pos claimed]

variable (unresolved : o.lingering = false) (unsequenced : o.jsn = none)
include unresolved unsequenced

theorem exec_opTimeout_of_task {c : Nat} (task : s.ctxOfTag tag.val = some c) : exec (.opTimeout tag) s =
    .next ((s.sat (R.TST_SRC_CNT.TIMEOUTS (Src.ofTag tag.val).num)).stopTask c .timeout 0) := by
  refine congrArg Host.Outcome.next ?_
  simp [entry, unresolved, unsequenced, task]

variable (no_task : s.ctxOfTag tag.val = none)
include no_task

theorem exec_opTimeout_of_own (own : s.twinRec tag.val = none) : exec (.opTimeout tag) s =
    .next ((s.sat (R.TST_SRC_CNT.TIMEOUTS (Src.ofTag tag.val).num)).cut tag.val .timeout) := by
  refine congrArg Host.Outcome.next ?_
  simp [entry, unresolved, unsequenced, no_task, own]

theorem exec_opTimeout_of_twinRec {r : Rec} (record : s.twinRec tag.val = some r) : exec (.opTimeout tag) s = .next (
    let refused := ((s.sat (R.TST_SRC_CNT.TIMEOUTS (Src.ofTag tag.val).num)).dropRec r.id).refuseRec r .timeout
    if r.twin then (if s.pairTurn r then refused.rackTwin r.pairSeq else s) else refused) := by
  refine congrArg Host.Outcome.next ?_
  simp [entry, unresolved, unsequenced, no_task, record]

end Entry

/-! ## Drain bounds (R337, R338) -/

theorem exec_drainBound_of_not_draining {s : State} {u : DrainUnit} (idle : s.tst.draining.contains u = false) :
    exec (.drainBound u) s = .next s :=
  congrArg Host.Outcome.next (if_pos (by rw [idle]; rfl))

/-- The test by which a drain bound passes over a unit that does not drain. -/
theorem State.not_skipped_of_draining {s : State} {u : DrainUnit} (drains : s.tst.draining.contains u = true) :
    ¬ (!s.tst.draining.contains u) = true := by
  rw [drains]; decide

/-! ## CLEAR_HIGH (R342) -/

/-- HIGH_WATER of source `i` becomes its IN_USE. -/
def State.clearHighOf (s : State) (i : Nat) : State := s.fset (R.TST_SRC_STAT.HIGH_WATER i) (s.fget (R.TST_SRC_STAT.IN_USE i))

theorem State.clearHigh_eq_foldl (s : State) : s.clearHigh = (List.range 6).foldl State.clearHighOf s := rfl

theorem State.foldl_clearHighOf_same (l : List Nat) (s : State) :
    l.foldl State.clearHighOf s = { s with ctl := (l.foldl State.clearHighOf s).ctl } := by
  induction l generalizing s with
  | nil => rfl
  | cons i l ih => exact ih (s.clearHighOf i)

theorem State.foldl_clearHighOf_inUse (l : List Nat) (s : State) (i : Nat) :
    (l.foldl State.clearHighOf s).fget (R.TST_SRC_STAT.IN_USE i) = s.fget (R.TST_SRC_STAT.IN_USE i) := by
  induction l generalizing s with
  | nil => rfl
  | cons j l ih =>
    refine (ih _).trans (State.fset_fget_ne _ _ _ _ ?_)
    simp only [Fld.key, R.TST_SRC_STAT.HIGH_WATER, R.TST_SRC_STAT.IN_USE]; omega

theorem State.foldl_clearHighOf_highWater (n : Nat) (s : State) : ∀ i < n, ((List.range n).foldl State.clearHighOf s).fget
    (R.TST_SRC_STAT.HIGH_WATER i) = s.fget (R.TST_SRC_STAT.IN_USE i) % 2 ^ (R.TST_SRC_STAT.HIGH_WATER i).wid := by
  induction n with
  | zero => exact fun i below => absurd below i.not_lt_zero
  | succ n ih =>
    intro i below
    rw [List.range_succ, List.foldl_append]
    rcases Nat.lt_succ_iff_lt_or_eq.mp below with earlier | rfl
    · refine (State.fset_fget_ne _ _ _ _ ?_).trans (ih i earlier)
      simp only [Fld.key, R.TST_SRC_STAT.HIGH_WATER]; omega
    · exact (State.fset_fget_same ..).trans (congrArg (· % _) (State.foldl_clearHighOf_inUse ..))

/-- Settles O41: CLEAR_HIGH writes one HIGH_WATER after another and no IN_USE, so every source's own value stays; each other clause is
the branch of its command that the entry or the draining unit selects. -/
theorem timeoutsAndDrainBounds : Obligations.TimeoutsAndDrainBounds := by
  refine fun s => ⟨fun tag => ⟨exec_opTimeout_of_absent, fun o entry => ⟨exec_opTimeout_of_claimed entry,
    fun unresolved unsequenced => exec_opTimeout_of_own entry unresolved unsequenced,
    fun c unresolved unsequenced => exec_opTimeout_of_task entry unresolved unsequenced,
    fun r unresolved unsequenced no_task record => ?_⟩⟩, fun u => exec_drainBound_of_not_draining,
    fun p drains => ?_, fun p drains => ?_, fun k drains => ?_, fun l drains => ?_, fun q drains => ?_, fun i drains => ?_,
    s.clearHigh, rfl, State.foldl_clearHighOf_same _ s, State.foldl_clearHighOf_highWater 6 s⟩
  · rw [exec_opTimeout_of_twinRec entry unresolved unsequenced no_task record]
    exact ⟨fun own => by simp [own], fun twin turn => by simp [twin, turn], fun twin no_turn => by simp [twin, no_turn]⟩
  all_goals exact congrArg Host.Outcome.next (if_neg (State.not_skipped_of_draining drains))

end Sys2Proof.Machine
end

section
/-! The device as requester: issue, acknowledgements, READ responses and retries (R412 to R415; log entries 5 and 102). -/

namespace Sys2Proof.Machine

/-! ## The head of the queue (R373) -/

theorem State.respHead_of_head {s : State} {c : Nat} {ops : List Nat} {p : Pkt} {r : List Pkt} (head : (s.conn c).rxq = p :: r)
    (response : p.opcode ∈ ops) : s.respHead c ops = some p := by
  rw [State.respHead, head]
  exact if_pos (List.contains_iff_mem.mpr response)

theorem State.respHead_of_empty {s : State} {c : Nat} (empty : (s.conn c).rxq = []) (ops : List Nat) : s.respHead c ops = none := by
  rw [State.respHead, empty]

/-! ## Issue (R413) -/

/-- The state in which work request `w` of connection `c` has its entry and its PSNs, and its local key counts one more use. -/
def State.wrIssued (s : State) (c : Nat) (w : Wr) : State :=
  (((s.entered .net { kind := .netReq c w.id }).setWr { w with issued := some (s.newTag .net, (s.conn c).npsn) }).keyCount
    (w.localKey.toNat / 256) true).setConn c
      { s.conn c with npsn := ((s.conn c).npsn + wrPsns w (s.conn c).mtu) % 2 ^ 24 }

section Issue
variable {s : State} {c : Conn}

theorem exec_wrIssue_of_noTurn (noTurn : s.nextWrOf c.val = none) : exec (.wrIssue c) s = .next s := by
  refine congrArg Host.Outcome.next ?_
  simp only [noTurn]

variable {w : Wr} (turn : s.nextWrOf c.val = some w) (rts : (s.conn c.val).state = .rts) (opened : s.jnl.closed = false)
  (free : s.wrHeld w = false)
include rts opened free

/-- The test by which WR_ISSUE leaves a work request where it is fails. -/
theorem State.not_heldBack : ¬ ((s.conn c.val).state ≠ .rts ∨ s.jnl.closed ∨ s.wrHeld w) := by
  rw [rts, opened, free]; decide

include turn

theorem exec_wrIssue_of_nop (nop : w.opcode = 6) : exec (.wrIssue c) s = .next (s.wrDone w.id .ok) := by
  refine congrArg Host.Outcome.next ?_
  simp only [turn]
  rw [if_neg (State.not_heldBack rts opened free), if_pos nop]

theorem exec_wrIssue_of_room (transfers : w.opcode ≠ 6)
    (key : s.keyCheck w.tenant w.localKey w.localAddr w.len (wrRights w) = none) (room : s.HasRoom .net) :
    exec (.wrIssue c) s =
      .next (if w.opcode = 5 then (s.wrIssued c.val w).sendIssued c.val else (s.wrIssued c.val w).wrPump w.id) := by
  refine congrArg Host.Outcome.next ?_
  simp only [turn]
  rw [if_neg (State.not_heldBack rts opened free), if_neg transfers]
  simp only [key, State.takeEntry_room _ room]
  rfl

end Issue

/-! ## Acknowledgements (R373, R415) -/

section Head
variable {s : State} {c : Conn}

theorem exec_roceAcknowledge_of_empty (empty : (s.conn c.val).rxq = []) : exec (.roceAcknowledge c) s = .next s := by
  refine congrArg Host.Outcome.next ?_
  simp only [State.respHead_of_empty empty]

theorem exec_rdmaReadResponse_of_empty (empty : (s.conn c.val).rxq = []) : exec (.rdmaReadResponse c) s = .next s := by
  refine congrArg Host.Outcome.next ?_
  simp only [State.respHead_of_empty empty]

variable {p : Pkt} {r : List Pkt} (head : (s.conn c.val).rxq = p :: r)
include head

section Aeth
variable (acknowledge : p.opcode = 0x11) (aeth : p.plain.length = 4)
include acknowledge aeth

theorem exec_roceAcknowledge_of_ack (ack : fieldAt p.plain 0 1 / 32 % 4 = 0) :
    exec (.roceAcknowledge c) s = .next (((s.popReq c.val).ackUpTo c.val p.psn).sendIssued c.val) := by
  refine congrArg Host.Outcome.next ?_
  simp only [State.respHead_of_head head (List.mem_singleton.mpr acknowledge)]
  rw [if_neg (not_not_intro aeth), if_pos ack]

/-- A NAK of PSN Sequence Error acknowledges what precedes the PSN it names. -/
theorem exec_roceAcknowledge_of_sequenceNak (nak : fieldAt p.plain 0 1 = 0x60) : exec (.roceAcknowledge c) s =
    .next (((s.popReq c.val).ackUpTo c.val ((p.psn + 2 ^ 24 - 1) % 2 ^ 24)).resendWrs c.val) := by
  refine congrArg Host.Outcome.next ?_
  simp only [State.respHead_of_head head (List.mem_singleton.mpr acknowledge), nak]
  rw [if_neg (not_not_intro aeth)]
  rfl

end Aeth

/-! ## READ responses (R413; log entry 102) -/

/-- The state in which response packet `i` of READ `w`, with `n` bytes of a work request's data, is taken: the requests before it are
acknowledged (log entry 102), `f` being its first PSN. -/
def State.readTaken (s : State) (c f : Nat) (w : Wr) (i n : Nat) : State :=
  ((s.ackUpTo c ((f + 2 ^ 24 - 1) % 2 ^ 24)).rttUpTo c f).setWr
    { w with acked := i + 1, done := w.done + n, retries := 0, recs := w.recs + 1 }

/-- The DATA record that it forms. -/
def readRec (w : Wr) (tag mtu i : Nat) (b : Bytes) : Rec :=
  { id := 0, body := .data (segsAt (w.localAddr + i * mtu) b), mirror := true, tenant := w.tenant, origin := 2, owner := .read tag w.id }

theorem exec_rdmaReadResponse_of_next {w : Wr} {tag f : Nat} (only : p.opcode = 0x0E)
    (names : (s.popReq c.val).wrAt c.val p.psn = some w) (issued : w.issued = some (tag, f)) (read : w.opcode = 5)
    (next : psnDist p.psn f = w.acked) (sent : w.sent ≠ 0)
    (size : p.plain.length = min ((s.popReq c.val).conn c.val).mtu (w.len - w.acked * ((s.popReq c.val).conn c.val).mtu))
    (bytes : p.plain ≠ []) (work : w.target = none) :
    exec (.rdmaReadResponse c) s = .next (((s.popReq c.val).readTaken c.val f w w.acked p.plain.length).formRec
      (readRec w tag ((s.popReq c.val).conn c.val).mtu w.acked p.plain)).2 := by
  have response : p.opcode ∈ [0x0D, 0x0E, 0x0F, 0x10] := by rw [only]; decide
  have some_bytes : p.plain.length ≠ 0 := mt List.eq_nil_of_length_eq_zero bytes
  refine congrArg Host.Outcome.next ?_
  simp only [State.respHead_of_head head response, names, issued, if_pos only, next, ← size]
  rw [if_neg (by simp only [read, sent, ne_eq, not_true_eq_false, or_self, not_false_eq_true])]
  simp only [State.readTaken, readRec, issued, work, some_bytes, Option.isSome_none, Bool.false_eq_true, or_self, if_false]

end Head

/-! ## Retries (R414, R415; log entry 5) -/

section Rnr
variable {s : State} {c : Conn} {psn : BitVec 24} {tm : BitVec 5}

theorem exec_rnrNak_of_ignored (ignored : (s.conn c.val).state = .free ∨ s.netSends (s.conn c.val).port = false) :
    exec (.rnrNak c psn tm) s = .next s := by
  refine congrArg Host.Outcome.next (if_pos ?_)
  rcases ignored with free | silent
  · rw [free]; exact .inl ⟨nofun, nofun⟩
  · rw [silent]; exact .inr rfl

/-- What an RNR NAK of PSN `psn` acknowledges: what precedes it. -/
def State.rnrAcked (s : State) (c psn : Nat) : State := s.ackUpTo c ((psn + 2 ^ 24 - 1) % 2 ^ 24)

variable (rts : (s.conn c.val).state = .rts) (sends : s.netSends (s.conn c.val).port = true)
include rts sends

/-- The test by which an RNR NAK is ignored fails. -/
theorem State.hears_rnrNak :
    ¬ (((s.conn c.val).state ≠ .rts ∧ (s.conn c.val).state ≠ .closing) ∨ (!s.netSends (s.conn c.val).port) = true) := by
  rw [rts, sends]; decide

theorem exec_rnrNak_of_noRequest (noRequest : (s.rnrAcked c.val psn.toNat).wrAt c.val psn.toNat = none) :
    exec (.rnrNak c psn tm) s = .next (s.rnrAcked c.val psn.toNat) := by
  refine congrArg Host.Outcome.next ((if_neg (State.hears_rnrNak rts sends)).trans ?_)
  rw [State.rnrAcked] at noRequest ⊢
  simp only [noRequest]

/-- Where the named request is the only one issued, and no READ, it alone goes back to what is unacknowledged. -/
theorem exec_rnrNak_of_only {w : Wr} (names : (s.rnrAcked c.val psn.toNat).wrAt c.val psn.toNat = some w)
    (only : (s.rnrAcked c.val psn.toNat).issuedOf c.val = [w]) (noRead : w.opcode ≠ 5) : exec (.rnrNak c psn tm) s = .next
      ((((s.rnrAcked c.val psn.toNat).setWr { w with sent := w.acked }).setWr { w with rnr := true, sent := w.acked }).setConn c.val
        { (s.rnrAcked c.val psn.toNat).conn c.val with outstanding := 0 }) := by
  refine congrArg Host.Outcome.next ((if_neg (State.hears_rnrNak rts sends)).trans ?_)
  rw [State.rnrAcked] at names only ⊢
  simp only [names, only, List.foldl_cons, List.foldl_nil, if_neg noRead]
  rfl

end Rnr

section Timeout
variable {s : State} {c : Conn}

theorem exec_reqAckTimeout_of_none (none_issued : s.issuedOf c.val = []) : exec (.reqAckTimeout c) s = .next s := by
  refine congrArg Host.Outcome.next ?_
  simp only [none_issued, List.find?_nil]

/-- The oldest request that waits for an answer is sent again while it has a retry left. -/
theorem exec_reqAckTimeout_of_oldest {w : Wr} (oldest : (s.issuedOf c.val).find? (fun w => !w.allRead (s.conn c.val).mtu) = some w)
    (sent : w.sent ≠ 0) (ready : w.rnr = false) : exec (.reqAckTimeout c) s = .next (
      if w.retries < s.fget R.XPT_REQ_CTL.RETRY_CNT then (s.setWr { w with retries := w.retries + 1 }).resendWrs c.val
      else s.failWr c.val w .timeout) := by
  have waits : ¬ (w.sent = 0 ∨ w.rnr = true) := not_or.mpr ⟨sent, by rw [ready]; exact Bool.false_ne_true⟩
  refine congrArg Host.Outcome.next ?_
  simp only [oldest, if_neg waits]

end Timeout

/-- Settles O47, command by command: issue by whose turn it is and what holds it back, the two acknowledgements by their syndrome, a READ's
next response by its checks (that it acknowledges the requests before it: log entry 102), an RNR NAK by whether it is heard and names a
request, and the answer that does not come by the retries left (its timer, and the RNR timer's: log entry 5). -/
theorem workRequestsGoOut : Obligations.WorkRequestsGoOut := by
  refine fun c s => ⟨exec_wrIssue_of_noTurn, fun w turn rts opened free => ⟨exec_wrIssue_of_nop turn rts opened free,
      exec_wrIssue_of_room turn rts opened free⟩,
    fun p r head acknowledge aeth => ⟨exec_roceAcknowledge_of_ack head acknowledge aeth,
      exec_roceAcknowledge_of_sequenceNak head acknowledge aeth⟩,
    fun empty => ⟨exec_roceAcknowledge_of_empty empty, exec_rdmaReadResponse_of_empty empty⟩,
    fun p r w tag f i b head only names issued place payload read next sent size bytes work => ?_,
    fun psn tm => exec_rnrNak_of_ignored,
    fun psn tm rts sends => ⟨exec_rnrNak_of_noRequest rts sends, fun w => exec_rnrNak_of_only rts sends⟩,
    rfl, fun w oldest sent ready => ?_, exec_reqAckTimeout_of_none⟩
  · subst payload next
    exact exec_rdmaReadResponse_of_next head only names issued read place.symm sent size bytes work
  · rw [exec_reqAckTimeout_of_oldest oldest sent ready]
    exact ⟨fun left => congrArg _ (if_pos left), fun spent => congrArg _ (if_neg (not_lt.mpr spent))⟩

end Sys2Proof.Machine
end

section
/-! A word that a crossing holds back (R485), and the mailbox of a logical device behind it (R418, R419; log entry 67). -/

namespace Sys2Proof.Machine

/-- Whether a word to the island waits in the core: others wait for it, or all 64 slots are full (R485). -/
def Xing.Holds (x : Xing) : Prop := ¬ (x.wait = [] ∧ firstFree x.slots 0 < 64)

theorem Xing.send_of_holds {x : Xing} (holds : x.Holds) (o : Out) : x.send o = (false, { x with wait := x.wait ++ [o] }) := if_neg holds

/-- A word that is held back is no output yet. -/
theorem State.emit_out_of_holds {s : State} {o : Out} {i : Nat} (island : s.islandOf o = some i) (holds : (s.xingOf i).Holds) :
    (s.emit o).out = s.out := by
  simp [State.emit, State.crossed, island, Xing.send_of_holds holds]

/-- The answer of IDENTIFY_MEMORY_DEVICE leaves through the island of the logical device's port. -/
theorem exec_identifyMemoryDevice_of_holds {s : State} {l : Fin 32} (up : s.ldUp l.val = true) (holds : (s.xingOf (24 + l.val / 16)).Holds) :
    ∃ t, exec (.identifyMemoryDevice l) s = .next t ∧ t.out = s.out := by
  refine ⟨_, congrArg Host.Outcome.next (if_pos up), ?_⟩
  exact State.emit_out_of_holds (s := s.drawWord.2) rfl holds

/-- Port 0 is UP with one logical device, and DOE answers that its island has not taken fill all 64 slots of the crossing. -/
def crowdedPort : State :=
  { (State.reset.fset (R.CXL_PORT_STAT.STATE 0) 2).fset (R.CXL_LD_CFG.VALID 0) 1 with
    xing := [(24, { slots := (List.range 64).map fun i => (i, { word := .doe 0 0, full := { busy := true } }) })] }

theorem crowdedPort_ldUp : crowdedPort.ldUp 0 = true := by decide

theorem crowdedPort_holds : (crowdedPort.xingOf 24).Holds := by unfold Xing.Holds; decide

/-- Refutes O49: the statement wants the answer of IDENTIFY_MEMORY_DEVICE among the outputs at once, but where all 64 slots of the crossing
into the port's island are full it waits in the core (R485). -/
theorem not_capacityIsOfferedAndTaken : ¬ Obligations.CapacityIsOfferedAndTaken := by
  intro holds
  obtain ⟨-, -, -, -, -, -, host, -⟩ := holds 0 0 crowdedPort
  obtain ⟨-, -, -, -, -, -, -, ⟨w, t, answered, out⟩, -⟩ := host crowdedPort_ldUp
  obtain ⟨u, held, same⟩ := exec_identifyMemoryDevice_of_holds (l := 0) crowdedPort_ldUp crowdedPort_holds
  obtain rfl : t = u := Host.Outcome.next.inj (answered.symm.trans held)
  exact List.cons_ne_nil _ _ (List.self_eq_append_right.mp (same.symm.trans out))

end Sys2Proof.Machine
end

section
/-! Training, resets and fences of the CXL ports (R422 to R425, R444, R493; log entries 5, 104). -/

namespace Sys2Proof.Machine

section Port
variable {s : State} {p : Fin 2}

/-! ## Training (R423) -/

/-- The port is UP at a width and a rate. -/
def State.cxlTrained (s : State) (p : Fin 2) (w : Fin 3) (g mld : Bool) : State :=
  ((((((s.fset (R.CXL_PORT_STAT.STATE p.val) 2).fset (R.CXL_PORT_STAT.WIDTH p.val) w.val).fput (R.CXL_PORT_STAT.GTS p.val) g).fput
    (R.CXL_PORT_STAT.MLD p.val) mld).fset (R.CXL_PORT_STAT.CAUSE p.val) 0).noteBound p.val)

/-- A link within the port's limits goes up, and is reported where it is narrower than x16 or slower than 64 GT/s. -/
theorem exec_cxlLinkTrained_of_fit {w : Fin 3} {g : Bool} (mld : Bool) (training : s.fget (R.CXL_PORT_STAT.STATE p.val) = 1)
    (width : s.fget (R.CXL_PORT_CFG.MAX_WIDTH p.val) ≤ w.val) (rate : g = true ∨ s.flag (R.CXL_PORT_CFG.MAX_GTS p.val) = false) :
    exec (.cxlLinkTrained p w g mld) s = .next
      (if w.val ≠ 0 ∨ g = true then (s.cxlTrained p w g mld).postD 0x0801 p.val (w.val + 4 * g.toNat) else s.cxlTrained p w g mld) := by
  refine congrArg Host.Outcome.next (if_neg ?_)
  rintro (h | h | ⟨slow, fast⟩)
  · exact h training
  · omega
  · exact rate.elim (fun top => by simp [top] at slow) (fun any => by simp [any] at fast)

theorem exec_cxlLinkTrained_of_unfit {w : Fin 3} {g : Bool} (mld : Bool)
    (unfit : s.fget (R.CXL_PORT_STAT.STATE p.val) ≠ 1 ∨ w.val < s.fget (R.CXL_PORT_CFG.MAX_WIDTH p.val)
      ∨ (g = false ∧ s.flag (R.CXL_PORT_CFG.MAX_GTS p.val) = true)) : exec (.cxlLinkTrained p w g mld) s = .next s :=
  congrArg Host.Outcome.next (if_pos (unfit.imp_right (Or.imp_right (And.imp_left fun slow => by rw [slow]; rfl))))

theorem exec_cxlRetrainTimer_of_down (down : s.fget (R.CXL_PORT_STAT.STATE p.val) = 0) : exec (.cxlRetrainTimer p) s =
    .next (if s.cxlOut p.val = true then s.fset (R.CXL_PORT_STAT.STATE p.val) 1 else s) := by
  refine congrArg Host.Outcome.next ?_
  rw [down]
  rfl

theorem exec_cxlRetrainTimer_of_training (training : s.fget (R.CXL_PORT_STAT.STATE p.val) = 1) : exec (.cxlRetrainTimer p) s =
    .next (((s.fset (R.CXL_PORT_STAT.STATE p.val) 0).fset (R.CXL_PORT_STAT.CAUSE p.val) 2).sat (R.CXL_PORT_STAT.DOWNS p.val)) := by
  refine congrArg Host.Outcome.next ?_
  rw [training]
  rfl

theorem exec_cxlRetrainTimer_of_trained (trained : 1 < s.fget (R.CXL_PORT_STAT.STATE p.val)) : exec (.cxlRetrainTimer p) s = .next s := by
  obtain ⟨n, stands⟩ := Nat.exists_eq_add_of_le' trained
  refine congrArg Host.Outcome.next ?_
  rw [stands]
  rfl

/-! ## PERST (R422, R424) -/

/-- PERST of the port is deasserted. -/
def State.perstOff (s : State) (p : Fin 2) : State := { s with cxl := { s.cxl with perst := s.cxl.perst &&& ~~~(1#2 <<< p.val) } }

theorem State.perstOff_cxlOut : (s.perstOff p).cxlOut p.val = s.groupOn (6 + p.val) := by
  have released : ((s.cxl.perst &&& ~~~(1#2 <<< p.val)).getLsbD p.val) = false := by
    generalize s.cxl.perst = b
    revert b p; decide
  show (s.groupOn (6 + p.val) && !((s.cxl.perst &&& ~~~(1#2 <<< p.val)).getLsbD p.val)) = _
  rw [released, Bool.not_false, Bool.and_true]

theorem exec_cxlPerstDeassert_of_groupOff (off : s.groupOn (6 + p.val) = false) : exec (.cxlPerstDeassert p) s = .next (s.perstOff p) :=
  congrArg Host.Outcome.next (if_pos (by rw [← State.perstOff, State.perstOff_cxlOut, off]; rfl))

/-- The registers of the port and those of its island are apart. -/
theorem State.fset_islState_portState {v : Nat} : (s.fset (R.SUP_ISL_STAT.STATE (24 + p.val)) v).fget (R.CXL_PORT_STAT.STATE p.val) =
    s.fget (R.CXL_PORT_STAT.STATE p.val) :=
  State.fset_fget_ne _ _ _ _ (by simp only [Fld.key, R.SUP_ISL_STAT.STATE, R.CXL_PORT_STAT.STATE]; omega)

theorem State.fset_portState_islState {v : Nat} : (s.fset (R.CXL_PORT_STAT.STATE p.val) v).fget (R.SUP_ISL_STAT.STATE (24 + p.val)) =
    s.fget (R.SUP_ISL_STAT.STATE (24 + p.val)) :=
  State.fset_fget_ne _ _ _ _ (by simp only [Fld.key, R.SUP_ISL_STAT.STATE, R.CXL_PORT_STAT.STATE]; omega)

/-- The island of the port runs, and the port trains where it is DOWN. -/
def State.cxlWake (s : State) (p : Fin 2) : State :=
  let u := s.fset (R.SUP_ISL_STAT.STATE (24 + p.val)) 1
  if u.fget (R.CXL_PORT_STAT.STATE p.val) = 0 then u.fset (R.CXL_PORT_STAT.STATE p.val) 1 else u

theorem exec_cxlPerstDeassert_of_groupOn (on : s.groupOn (6 + p.val) = true) : exec (.cxlPerstDeassert p) s = .next ((s.perstOff p).cxlWake p) :=
  congrArg Host.Outcome.next (if_neg (by rw [← State.perstOff, State.perstOff_cxlOut, on]; decide))

theorem State.cxlWake_reads : (s.cxlWake p).fget (R.SUP_ISL_STAT.STATE (24 + p.val)) = 1
    ∧ (s.cxlWake p).fget (R.CXL_PORT_STAT.STATE p.val) =
      (if s.fget (R.CXL_PORT_STAT.STATE p.val) = 0 then 1 else s.fget (R.CXL_PORT_STAT.STATE p.val))
    ∧ (s.cxlWake p).cxl = s.cxl := by
  have runs : (s.fset (R.SUP_ISL_STAT.STATE (24 + p.val)) 1).fget (R.SUP_ISL_STAT.STATE (24 + p.val)) = 1 := State.fset_fget_same ..
  rw [State.cxlWake, State.fset_islState_portState]
  split
  · exact ⟨State.fset_portState_islState.trans runs, State.fset_fget_same .., rfl⟩
  · exact ⟨runs, State.fset_islState_portState, rfl⟩

/-! ## FENCE, RESTORE and RETRAIN (R425, R444) -/

/-- The port stands in a state for a cause. -/
def State.cxlStand (s : State) (p : Fin 2) (st cause : Nat) : State :=
  (s.fset (R.CXL_PORT_STAT.STATE p.val) st).fset (R.CXL_PORT_STAT.CAUSE p.val) cause

theorem State.cxlStand_reads {st cause : Nat} (state : st < 8) (why : cause < 16) :
    (s.cxlStand p st cause).fget (R.CXL_PORT_STAT.STATE p.val) = st ∧ (s.cxlStand p st cause).fget (R.CXL_PORT_STAT.CAUSE p.val) = cause
    ∧ s.cxlStand p st cause = { s with ctl := (s.cxlStand p st cause).ctl } := by
  refine ⟨(State.fset_fget_ne _ _ _ _ ?_).trans ((State.fset_fget_same ..).trans (Nat.mod_eq_of_lt state)),
    (State.fset_fget_same ..).trans (Nat.mod_eq_of_lt why), rfl⟩
  simp only [Fld.key, R.CXL_PORT_STAT.STATE, R.CXL_PORT_STAT.CAUSE]
  omega

theorem exec_cxlPortFence_of_fenced (fenced : 3 ≤ s.fget (R.CXL_PORT_STAT.STATE p.val)) :
    exec (.cxlPortFence p) s = .next (s.fput R.CXL_STAT.CMD_REFUSED true) := congrArg Host.Outcome.next (if_pos fenced)

/-- A port without a link is QUIESCED at once. -/
theorem exec_cxlPortFence_of_noLink (noLink : s.fget (R.CXL_PORT_STAT.STATE p.val) < 2) :
    exec (.cxlPortFence p) s = .next (s.cxlStand p 4 1) := by
  have down : (s.fget (R.CXL_PORT_STAT.STATE p.val) == 2) = false := beq_false_of_ne (Nat.ne_of_lt noLink)
  refine congrArg Host.Outcome.next ?_
  rw [State.cxlFence, if_neg (by omega), down]
  rfl

/-- A port that is UP drains. -/
theorem exec_cxlPortFence_of_up (up : s.fget (R.CXL_PORT_STAT.STATE p.val) = 2) :
    exec (.cxlPortFence p) s = .next ((((s.cxlStand p 3 1).startDrain (.cxlPort p)).noteBound p.val).cxlSettle p.val) := by
  refine congrArg Host.Outcome.next ?_
  rw [State.cxlFence, if_neg (by omega), up]
  simp only [beq_self_eq_true, if_true, State.cxlStand]

theorem exec_cxlPortRestore_of_quiesced (quiesced : s.fget (R.CXL_PORT_STAT.STATE p.val) = 4) :
    exec (.cxlPortRestore p) s = .next (s.cxlStand p 1 0) := congrArg Host.Outcome.next (if_neg (not_not_intro quiesced))

theorem exec_cxlPortRestore_of_unfit (unfit : s.fget (R.CXL_PORT_STAT.STATE p.val) ≠ 4) :
    exec (.cxlPortRestore p) s = .next (s.fput R.CXL_STAT.CMD_REFUSED true) := congrArg Host.Outcome.next (if_pos unfit)

theorem exec_cxlPortRetrain_of_up (up : s.fget (R.CXL_PORT_STAT.STATE p.val) = 2) :
    exec (.cxlPortRetrain p) s = .next ((s.cxlReset p).cxlStand p 1 0) := congrArg Host.Outcome.next (if_neg (not_not_intro up))

theorem exec_cxlPortRetrain_of_unfit (unfit : s.fget (R.CXL_PORT_STAT.STATE p.val) ≠ 2) :
    exec (.cxlPortRetrain p) s = .next (s.fput R.CXL_STAT.CMD_REFUSED true) := congrArg Host.Outcome.next (if_pos unfit)

end Port

/-- Settles O50: training by the port's limits, the timer by its state (log entry 104), resets by whether PERST holds the island, and each of
the three actions by the state it fits. -/
theorem cxlPortsTrainAndReset : Obligations.CxlPortsTrainAndReset := by
  refine fun p s => ⟨fun w g mld => ⟨fun training width rate => ⟨fun wide slow => ?_, fun degraded => ?_⟩, exec_cxlLinkTrained_of_unfit mld⟩,
    fun down out => ?_, fun down held => ?_, exec_cxlRetrainTimer_of_training, exec_cxlRetrainTimer_of_trained,
    congrArg Host.Outcome.next (if_pos rfl), fun why other => congrArg Host.Outcome.next (if_neg other), exec_cxlPerstDeassert_of_groupOff,
    fun on => ?_, fun l up => congrArg Host.Outcome.next (if_pos up), exec_cxlPortFence_of_fenced,
    fun noLink => ⟨_, exec_cxlPortFence_of_noLink noLink, State.cxlStand_reads (by decide) (by decide)⟩, exec_cxlPortFence_of_up,
    fun quiesced => ⟨_, exec_cxlPortRestore_of_quiesced quiesced, State.cxlStand_reads (by decide) (by decide)⟩, exec_cxlPortRestore_of_unfit,
    fun up => ⟨_, exec_cxlPortRetrain_of_up up, State.cxlStand_reads (by decide) (by decide)⟩, exec_cxlPortRetrain_of_unfit⟩
  · rw [exec_cxlLinkTrained_of_fit mld training width rate, if_neg (by simp [wide, slow])]
    rfl
  · rw [exec_cxlLinkTrained_of_fit mld training width rate, if_pos degraded]
    rfl
  · rw [exec_cxlRetrainTimer_of_down down, if_pos out]
  · rw [exec_cxlRetrainTimer_of_down down, if_neg (by simp [held])]
  · obtain ⟨runs, trains, same⟩ := State.cxlWake_reads (s := s.perstOff p) (p := p)
    exact ⟨_, exec_cxlPerstDeassert_of_groupOn on, runs, trains, congrArg Cxl.perst same⟩

end Sys2Proof.Machine
end

section
/-! Pace windows and their extremes, the VCORE step, island clocks and the timebase (R476 to R482, R489, R490, R495, R496, R498, R499,
R511). -/

namespace Sys2Proof.Machine

/-! ## The crossing of a count (R489, R490) -/

theorem crossValue_cons_of_agree {p : BitVec 16 × BitVec 16} (n : Nat) (r : List (BitVec 16 × BitVec 16)) (agree : p.1 = p.2) :
    crossValue (n + 1) (p :: r) = (0, some p.1.toNat) := if_pos agree

theorem crossValue_cons_of_differ {p : BitVec 16 × BitVec 16} (n : Nat) (r : List (BitVec 16 × BitVec 16)) (differ : p.1 ≠ p.2) :
    crossValue (n + 1) (p :: r) = ((crossValue n r).1 + 1, (crossValue n r).2) := if_neg differ

/-- What the fourth pair answers, after three that disagreed. -/
theorem crossValue_fourth {a b c : BitVec 16 × BitVec 16} (l : List (BitVec 16 × BitVec 16)) (first : a.1 ≠ a.2) (second : b.1 ≠ b.2)
    (third : c.1 ≠ c.2) : crossValue 4 (a :: b :: c :: l) = ((crossValue 1 l).1 + 3, (crossValue 1 l).2) := by
  rw [crossValue_cons_of_differ _ _ first, crossValue_cons_of_differ _ _ second, crossValue_cons_of_differ _ _ third]

/-! ## Pace windows (R476, R477; log entry 77) -/

section Window
variable {s : State} {q : Fin 16} {l : List (BitVec 16 × BitVec 16)}

theorem exec_paceWindow_of_idle (idle : s.railState 3 ≠ 2 ∨ s.fget (R.SUP_ISL_STAT.STATE 50) ≠ 1) : exec (.paceWindow q l) s = .next s :=
  congrArg Host.Outcome.next (if_pos idle)

variable (powered : s.railState 3 = 2) (runs : s.fget (R.SUP_ISL_STAT.STATE 50) = 1)
include powered runs

theorem exec_paceWindow_of_crossed {n v : Nat} (crossed : crossValue 4 l = (n, some v)) :
    exec (.paceWindow q l) s = .next ((s.sat (R.SUP_ISL_STAT.DISAGREE 50) n).publishPace q.val v) := by
  refine congrArg Host.Outcome.next ((if_neg (not_or.mpr ⟨not_not_intro powered, not_not_intro runs⟩)).trans ?_)
  simp only [crossed]

theorem exec_paceWindow_of_failed (failed : crossValue 4 l = (4, none)) : exec (.paceWindow q l) s =
    .next ((((s.sat (R.SUP_ISL_STAT.DISAGREE 50) 4).fset (R.SUP_ISL_STAT.CROSS_FAULT 50) 1).postD 0x0A02 50 0).resetIsland 50) := by
  refine congrArg Host.Outcome.next ((if_neg (not_or.mpr ⟨not_not_intro powered, not_not_intro runs⟩)).trans ?_)
  simp only [failed, if_true]

end Window

/-- Publishing sets the extremes after the pace, and leaves it. -/
theorem State.publishPace_pace (s : State) (q v : Nat) : (s.publishPace q v).fget (R.KSK_PACE.PACE q) = v % 2 ^ 16 := by
  have pace (m n : Nat) :
      (((s.fset (R.KSK_PACE.PACE q) v).fset (R.KSK_PACE.MAX q) m).fset (R.KSK_PACE.MIN q) n).fget (R.KSK_PACE.PACE q) = v % 2 ^ 16 := by
    rw [State.fset_fget_ne _ _ _ _ (by simp [Fld.key, R.KSK_PACE.MIN, R.KSK_PACE.PACE]),
      State.fset_fget_ne _ _ _ _ (by simp [Fld.key, R.KSK_PACE.MAX, R.KSK_PACE.PACE]), State.fset_fget_same]
    rfl
  dsimp only [State.publishPace]
  split
  · exact pace _ _
  · exact pace _ _

/-! ## CLEAR_MINMAX (R500) -/

/-- Both extremes of a Square become its pace. -/
def State.clearMinmaxOf (s : State) (q : Nat) : State :=
  (s.fset (R.KSK_PACE.MIN q) (s.fget (R.KSK_PACE.PACE q))).fset (R.KSK_PACE.MAX q) (s.fget (R.KSK_PACE.PACE q))

theorem State.clearMinmaxOf_fget_ne (s : State) {j : Nat} {f : Fld} (min : (R.KSK_PACE.MIN j).key ≠ f.key)
    (max : (R.KSK_PACE.MAX j).key ≠ f.key) : (s.clearMinmaxOf j).fget f = s.fget f :=
  (State.fset_fget_ne _ _ _ _ max).trans (State.fset_fget_ne _ _ _ _ min)

theorem State.clearMinmaxOf_pace (s : State) (j q : Nat) : (s.clearMinmaxOf j).fget (R.KSK_PACE.PACE q) = s.fget (R.KSK_PACE.PACE q) := by
  apply State.clearMinmaxOf_fget_ne <;> simp only [Fld.key, R.KSK_PACE.MIN, R.KSK_PACE.MAX, R.KSK_PACE.PACE] <;> omega

theorem State.clearMinmaxOf_min_ne (s : State) {j q : Nat} (other : j ≠ q) :
    (s.clearMinmaxOf j).fget (R.KSK_PACE.MIN q) = s.fget (R.KSK_PACE.MIN q) := by
  apply State.clearMinmaxOf_fget_ne <;> simp only [Fld.key, R.KSK_PACE.MIN, R.KSK_PACE.MAX] <;> omega

theorem State.clearMinmaxOf_max_ne (s : State) {j q : Nat} (other : j ≠ q) :
    (s.clearMinmaxOf j).fget (R.KSK_PACE.MAX q) = s.fget (R.KSK_PACE.MAX q) := by
  apply State.clearMinmaxOf_fget_ne <;> simp only [Fld.key, R.KSK_PACE.MIN, R.KSK_PACE.MAX] <;> omega

theorem State.clearMinmaxOf_min_same (s : State) (q : Nat) :
    (s.clearMinmaxOf q).fget (R.KSK_PACE.MIN q) = s.fget (R.KSK_PACE.PACE q) % 2 ^ 16 := by
  refine (State.fset_fget_ne _ _ _ _ ?_).trans (State.fset_fget_same ..)
  simp [Fld.key, R.KSK_PACE.MIN, R.KSK_PACE.MAX]

theorem State.clearMinmaxOf_max_same (s : State) (q : Nat) :
    (s.clearMinmaxOf q).fget (R.KSK_PACE.MAX q) = s.fget (R.KSK_PACE.PACE q) % 2 ^ 16 := State.fset_fget_same ..

theorem State.foldl_clearMinmaxOf_same (l : List Nat) (s : State) :
    l.foldl State.clearMinmaxOf s = { s with ctl := (l.foldl State.clearMinmaxOf s).ctl } := by
  induction l generalizing s with
  | nil => rfl
  | cons q l ih => exact ih (s.clearMinmaxOf q)

theorem State.foldl_clearMinmaxOf_pace (l : List Nat) (s : State) (q : Nat) :
    (l.foldl State.clearMinmaxOf s).fget (R.KSK_PACE.PACE q) = s.fget (R.KSK_PACE.PACE q) := by
  induction l generalizing s with
  | nil => rfl
  | cons j l ih => exact (ih _).trans (s.clearMinmaxOf_pace j q)

theorem State.foldl_clearMinmaxOf_extremes (n : Nat) (s : State) : ∀ q < n,
    ((List.range n).foldl State.clearMinmaxOf s).fget (R.KSK_PACE.MIN q) = s.fget (R.KSK_PACE.PACE q) % 2 ^ 16
    ∧ ((List.range n).foldl State.clearMinmaxOf s).fget (R.KSK_PACE.MAX q) = s.fget (R.KSK_PACE.PACE q) % 2 ^ 16 := by
  induction n with
  | zero => exact fun q below => absurd below q.not_lt_zero
  | succ n ih =>
    intro q below
    rw [List.range_succ, List.foldl_append]
    rcases Nat.lt_succ_iff_lt_or_eq.mp below with earlier | rfl
    · have other : n ≠ q := earlier.ne'
      exact (ih q earlier).imp (State.clearMinmaxOf_min_ne _ other).trans (State.clearMinmaxOf_max_ne _ other).trans
    · have pace := State.foldl_clearMinmaxOf_pace (List.range q) s q
      exact ⟨(State.clearMinmaxOf_min_same ..).trans (congrArg (· % _) pace), (State.clearMinmaxOf_max_same ..).trans (congrArg (· % _) pace)⟩

/-! ## VCORE (R478 to R482, R511; log entries 78 and 140) -/

/-- What a step begins with: VCORE's regulator is read, and the lowest pace since the last step is taken. -/
def State.stepRead (s : State) (w : Nat) : State :=
  let u : State := { (s.pm 3 0x96 0).fset R.PWR_VCORE_STAT.POWER_W w with pwr := { s.pwr with lowPace := none } }
  match s.pwr.lowPace with | some p => u.fset R.PWR_VCORE_STAT.LOW_PACE p | none => u

/-- What an adaptation leaves before its setpoint changes: no throttle, and whether the power cap took the step. -/
def State.stepAdapted (s : State) (capped : Bool) : State :=
  (({ s with pwr := { s.pwr with throttle := 0 } } : State).fset R.PWR_VCORE_STAT.THROTTLED 0).fput R.PWR_VCORE_STAT.CAPPED capped

section Vcore
variable {s : State} {w : BitVec 8}

theorem exec_vcoreStep_of_held (last : s.pwr.stepLast = true) :
    exec (.vcoreStep w) s = .next { s with pwr := { s.pwr with stepHeld := some w.toNat } } := congrArg Host.Outcome.next (if_pos last)

variable (free : s.pwr.stepLast = false)
include free

theorem exec_vcoreStep_of_free : exec (.vcoreStep w) s = .next (s.vcoreStep w.toNat) :=
  congrArg Host.Outcome.next (if_neg (by simp [free]))

theorem exec_vcoreStep_of_off (off : s.railState 3 ≠ 2) : exec (.vcoreStep w) s = .next s :=
  (exec_vcoreStep_of_free free).trans (congrArg Host.Outcome.next (if_pos (.inl off)))

/-- Throttling: the mode is fixed, or the sequencer holds the rail. -/
theorem exec_vcoreStep_of_throttle (on : s.railState 3 = 2)
    (fixed : s.flag R.PWR_VCORE_CTL.MODE = false ∨ s.flag R.PWR_STAT.SEQ_MODE = true) :
    let u := s.stepRead w.toNat
    let n := u.throttleNext w.toNat
    exec (.vcoreStep w) s =
      .next (({ u with pwr := { u.pwr with throttle := n } } : State).fput R.PWR_VCORE_STAT.THROTTLED (n != 0)).stepDone := by
  have throttles : (s.flag R.PWR_VCORE_CTL.MODE && !s.flag R.PWR_STAT.SEQ_MODE) = false := by
    rcases fixed with mode | seq
    · rw [mode]; rfl
    · rw [seq]; exact Bool.and_false _
  exact (exec_vcoreStep_of_free free).trans (congrArg Host.Outcome.next
    ((if_neg (by simp [on, throttles])).trans (if_neg (ne_true_of_eq_false throttles))))

variable (mode : s.flag R.PWR_VCORE_CTL.MODE = true) (native : s.flag R.PWR_STAT.SEQ_MODE = false)
include mode native

theorem exec_vcoreStep_of_noSquare (idle : ∀ q, q < 16 → s.squareUp q = false) : exec (.vcoreStep w) s = .next s := by
  have unused : (List.range 16).any s.squareUp = false := by simpa using idle
  exact (exec_vcoreStep_of_free free).trans (congrArg Host.Outcome.next (if_pos (.inr (by simp [mode, native, unused]))))

/-- Adaptation, while a Square is in service. -/
theorem exec_vcoreStep_of_adapt (on : s.railState 3 = 2) (busy : ∃ q, q < 16 ∧ s.squareUp q = true) :
    let u := s.stepRead w.toNat
    let n := u.vcoreNext w.toNat s.pwr.lowPace
    let v := u.stepAdapted n.2
    exec (.vcoreStep w) s = .next (if n.1 = v.fget R.PWR_VCORE_STAT.SET_MV then v else v.setVcore n.1).stepDone := by
  have used : (List.range 16).any s.squareUp = true := by simpa using busy
  exact (exec_vcoreStep_of_free free).trans (congrArg Host.Outcome.next
    ((if_neg (by simp [on, used])).trans (if_pos (by rw [mode, native]; rfl))))

end Vcore

/-! ## Island clocks (R495, R496) -/

section Island
variable {s : State} {i : Fin 51}

theorem exec_islandClockStopped_of_ignored (ignored : s.fget (R.SUP_ISL_STAT.STATE i.val) ≠ 1 ∨ i = 50) :
    exec (.islandClockStopped i) s = .next s := congrArg Host.Outcome.next (if_pos ignored)

/-- The JTAG island follows TCK without an event. -/
theorem exec_islandClockStopped_of_jtag (runs : s.fget (R.SUP_ISL_STAT.STATE i.val) = 1) (jtag : i = 49) :
    exec (.islandClockStopped i) s = .next (s.fset (R.SUP_ISL_STAT.STATE 49) 0) := by
  subst jtag
  exact congrArg Host.Outcome.next ((if_neg (not_or.mpr ⟨not_not_intro runs, by decide⟩)).trans (if_pos rfl))

theorem exec_islandClockStopped_of_watched (runs : s.fget (R.SUP_ISL_STAT.STATE i.val) = 1) (watched : i.val < 49) :
    exec (.islandClockStopped i) s =
      .next (((s.fset (R.SUP_ISL_STAT.STATE i.val) 2).sat (R.SUP_ISL_STAT.STOPS i.val)).postD 0x0A01 i.val 0) := by
  have jtag : i ≠ 49 := fun same => absurd watched (same ▸ by decide)
  have timebase : i ≠ 50 := fun same => absurd watched (same ▸ by decide)
  exact congrArg Host.Outcome.next ((if_neg (not_or.mpr ⟨not_not_intro runs, timebase⟩)).trans (if_neg jtag))

theorem exec_islandHeartbeatReturn_of_stopped (stopped : s.fget (R.SUP_ISL_STAT.STATE i.val) = if i = 49 then 0 else 2) :
    exec (.islandHeartbeatReturn i) s = .next (s.fset (R.SUP_ISL_STAT.STATE i.val) 1) := congrArg Host.Outcome.next (if_pos stopped)

theorem exec_islandHeartbeatReturn_of_running (runs : s.fget (R.SUP_ISL_STAT.STATE i.val) = 1) :
    exec (.islandHeartbeatReturn i) s = .next s := by
  refine congrArg Host.Outcome.next (if_neg ?_)
  rw [runs]
  split <;> decide

end Island

/-! ## The timebase (R498) -/

theorem exec_timebaseLost_of_lost {s : State} (lost : s.flag R.SUP_TIME_STAT.TIMEBASE_LOST = true) : exec .timebaseLost s = .next s :=
  congrArg Host.Outcome.next (if_pos lost)

theorem exec_timebaseLost_of_present {s : State} (present : s.flag R.SUP_TIME_STAT.TIMEBASE_LOST = false) : exec .timebaseLost s =
    .next (((s.fset R.SUP_TIME_STAT.TIMEBASE_LOST 1).sat R.SUP_TIME_STAT.LOSSES).postD 0x0A03 0 0) :=
  congrArg Host.Outcome.next (if_neg (by simp [present]))

/-- Settles O53: a window by what its crossing answers, the extremes one Square after another, which leaves every pace, the VCORE step by
whether it is held, adapts or throttles, and each island and the timebase by the state they are in. -/
theorem paceVcoreAndClocksGoOn : Obligations.PaceVcoreAndClocksGoOn := by
  refine ⟨fun q s powered runs => ⟨fun v r => exec_paceWindow_of_crossed powered runs (crossValue_cons_of_agree 3 r rfl),
      fun a b c d e f g h first second third => ⟨fun agree r => exec_paceWindow_of_crossed powered runs ?_,
        fun differ r => exec_paceWindow_of_failed powered runs ?_⟩⟩,
    fun q v s small => (s.publishPace_pace q.val v).trans (Nat.mod_eq_of_lt small), fun q l s => exec_paceWindow_of_idle,
    fun s => ⟨(List.range 16).foldl State.clearMinmaxOf s, rfl, State.foldl_clearMinmaxOf_same _ s, fun q => State.foldl_clearMinmaxOf_extremes 16 s q.val q.isLt⟩,
    fun w s => ⟨exec_vcoreStep_of_held, exec_vcoreStep_of_off, fun free _ mode native => exec_vcoreStep_of_noSquare free mode native,
      fun free on mode native busy => ⟨fun same => ?_, fun moved => ?_⟩, exec_vcoreStep_of_throttle⟩,
    fun i s => ⟨fun stopped => exec_islandClockStopped_of_ignored (.inl stopped), exec_islandClockStopped_of_watched,
      fun runs jtag => exec_islandClockStopped_of_jtag runs (Fin.ext jtag), fun timebase => exec_islandClockStopped_of_ignored (.inr (Fin.ext timebase)),
      fun isolated other => exec_islandHeartbeatReturn_of_stopped (isolated.trans (if_neg fun jtag => other (congrArg Fin.val jtag)).symm),
      fun stopped jtag => ?_, exec_islandHeartbeatReturn_of_running⟩,
    fun s => ⟨exec_timebaseLost_of_lost, exec_timebaseLost_of_present, rfl⟩⟩
  · rw [crossValue_fourth _ first second third, crossValue_cons_of_agree 0 r agree]
  · rw [crossValue_fourth _ first second third, crossValue_cons_of_differ 0 r differ]
    rfl
  · exact (exec_vcoreStep_of_adapt free mode native on busy).trans (congrArg (Host.Outcome.next ∘ State.stepDone) (if_pos same))
  · exact (exec_vcoreStep_of_adapt free mode native on busy).trans (congrArg (Host.Outcome.next ∘ State.stepDone) (if_neg moved))
  · obtain rfl : i = 49 := Fin.ext jtag
    exact exec_islandHeartbeatReturn_of_stopped stopped

end Sys2Proof.Machine
end

section
/-! The block as a whole: its queue, that every command answers, and the idle period (R244; log entries 1 and 4). -/

namespace Sys2Proof

theorem AMap.mem_of_find? {α : Type} {m : AMap α} {k : Nat} {v : α} (h : AMap.find? m k = some v) : (k, v) ∈ m := by
  induction m with
  | nil => cases h
  | cons p r ih =>
    obtain ⟨j, w⟩ := p
    by_cases e : k = j
    · subst e
      simp only [AMap.find?, if_true, Option.some.injEq] at h
      simp [h]
    · simp only [AMap.find?, e, if_false] at h
      exact List.mem_cons_of_mem _ (ih h)

end Sys2Proof

namespace Sys2Proof.Machine

/-! ## The queue -/

/-- The meaning of every command is a next state: whatever it checks chooses that state, and no check stands outside. -/
theorem exec_answers (i : Instr) (s : State) : ∃ t, exec i s = .next t := by
  cases i <;> exact ⟨_, rfl⟩

/-- Settles O3: an idle step finds no command to take, and no command touches the commands that wait. -/
theorem queueIsFifo : Obligations.QueueIsFifo := fun _ _ h => (step_keeps h).1

/-- Settles O4: no arm of a command faults or refuses (log entry 4), and none touches the commands that wait. -/
theorem everyCommandAnswers : Obligations.EveryCommandAnswers := by
  intro i s
  obtain ⟨t, answers⟩ := exec_answers i s
  exact ⟨t, answers, (exec_keeps answers).1⟩

/-- Settles O1: the queue and its front are the model's choice (log entry 1). -/
theorem stepRunsFront : Obligations.StepRunsFront := fun _ _ _ => step_of_cons rfl

/-! ## The idle period -/

/-- No VCORE step waits for another transaction. -/
theorem State.heldStep_of_none {s : State} (free : s.pwr.stepHeld = none) : s.heldStep = s := by rw [State.heldStep, free]

/-- Nothing in the device waits for room, credits or a turn. -/
structure State.Quiet (s : State) : Prop where
  requests : s.cxl.rxq = []
  rings : s.listed R.CXL_RING_CFG.VALID 256 = []
  records : s.prm.rxRecs = []
  asked : s.prm.rxWait = []
  owedA : s.prm.a.owed = 0
  owedB : s.prm.b.owed = 0
  ports : s.ports = []
  conns : s.xpt.conns = []
  xfers : s.sta.xfers = []
  xing : s.xing = []
  unheld : ∀ p ∈ s.tst.ops, p.2.after = []
  packets : s.twb.txq = []
  vcore : s.pwr.stepHeld = none

/-- One period of the timebase later. -/
def State.later (s : State) : State := { s with timeNs := s.timeNs + 40 }

namespace State.Quiet
variable {s : State}

/-- Time alone gives nothing to wait for. -/
theorem later (h : s.Quiet) : s.later.Quiet := { h with }

/-- No read is held for the writes of its line. -/
theorem unholdReads (h : s.Quiet) : s.unholdReads = s := by
  refine List.foldl_fixed' (fun p => ?_) _
  split
  next o found =>
    have free : o.after = [] := h.unheld _ (AMap.mem_of_find? found)
    unfold State.unholdRead
    split
    · exact if_pos (.inr (.inl free))
    · rfl
  · rfl

theorem cxlPump (h : s.Quiet) (p : Nat) : s.cxlPump p = s := by
  rw [State.cxlPump, h.requests, h.unholdReads]; rfl

theorem cxlTick (h : s.Quiet) : s.cxlTick = s := by
  rw [State.cxlTick, h.cxlPump, h.cxlPump, h.rings]; rfl

theorem prmPump (h : s.Quiet) : s.prmPump = s := by
  rw [State.prmPump, h.records, h.asked]; rfl

theorem creditTick_a (h : s.Quiet) : s.creditTick 0 = s := if_pos (.inl h.owedA)

theorem creditTick_b (h : s.Quiet) : s.creditTick 1 = s := if_pos (.inl h.owedB)

theorem netTick (h : s.Quiet) : s.netTick = s := by
  have drained : s.rxDrain = s := by rw [State.rxDrain, h.ports]; rfl
  rw [State.netTick, drained, h.conns]; rfl

theorem startXfers (h : s.Quiet) : s.startXfers = s := by rw [State.startXfers, h.xfers]; rfl

theorem flushMctp (h : s.Quiet) : s.flushMctp = s := by
  unfold State.flushMctp
  split
  · rfl
  · rw [h.packets]
    exact congrArg (fun q => ({ s with twb := { s.twb with txq := q } } : State)) h.packets.symm

theorem idle (h : s.Quiet) : s.idle = s.later := by
  have crossed : (s.xing.map (·.1)).foldl State.xingTick s.later = s.later := by rw [h.xing]; rfl
  have q := h.later
  calc s.idle
    _ = (((((s.xing.map (·.1)).foldl State.xingTick s.later).cxlTick.prmPump.creditTick 0).creditTick 1).netTick.startXfers
        |>.flushMctp.heldStep) := rfl
    _ = s.later := by
      rw [crossed, q.cxlTick, q.prmPump, q.creditTick_a, q.creditTick_b, q.netTick, q.startXfers, q.flushMctp, State.heldStep_of_none q.vcore]

end State.Quiet

/-- Settles O2: an idle period leaves the queue as it is, and where nothing waits each of its parts leaves the whole state. -/
theorem stepIdles : Obligations.StepIdles := fun s empty =>
  ⟨step_of_nil empty, (State.idle_keeps s).1.trans empty,
    fun requests rings records asked owedA owedB ports conns xfers xing unheld packets vcore => State.Quiet.idle
      { requests, rings, records, asked, owedA, owedB, ports, conns, xfers, xing, unheld, packets, vcore }⟩

end Sys2Proof.Machine
end

section
/-! Power: coming up, waves, restored groups, going down and SEQ_SYNC (R502, R503, R512 to R519, R535). -/

namespace Sys2Proof.Machine

/-! ## What logging and a rail's failure leave of the power unit -/

@[simp] theorem State.supLog_pwr (s : State) (code value rail : Nat) : (s.supLog code value rail).pwr = s.pwr := by
  unfold State.supLog
  dsimp only
  split <;> rfl

@[simp] theorem State.railFails_pwr (s : State) (r cause code mv : Nat) : (s.railFails r cause code mv).pwr = s.pwr := by
  unfold State.railFails
  dsimp only
  split
  · rfl
  · exact State.supLog_pwr ..

/-! ## Power-up (R502, R514, R535; log entry 85) -/

/-- A power-up has begun, and no rail has been switched on. -/
def State.comingUp (s : State) : State :=
  { (((s.fset R.PWR_STAT.STATE 1).fset R.PWR_STAT.COMMITTED 0).fset R.PWR_STAT.WAVE 0).fset R.SUP_START_STAT.PHASE 1 with
    sup := { s.sup with startNs := s.timeNs } }

theorem State.comingUp_seqMode (s : State) : s.comingUp.flag R.PWR_STAT.SEQ_MODE = s.flag R.PWR_STAT.SEQ_MODE := by
  refine congrArg (· != 0) (?_ : (State.fset _ R.SUP_START_STAT.PHASE 1).fget _ = _)
  rw [State.fset_fget_ne _ _ _ _ (by decide), State.fset_fget_ne _ _ _ _ (by decide), State.fset_fget_ne _ _ _ _ (by decide),
    State.fset_fget_ne _ _ _ _ (by decide)]

theorem State.startPowerUp_eq (s : State) :
    s.startPowerUp = if s.flag R.PWR_STAT.SEQ_MODE then s.comingUp.enterSeq 1 else s.comingUp.railOn 3 := by
  rw [← s.comingUp_seqMode]
  rfl

theorem exec_inputStable (s : State) : exec .inputStable s = .next (if s.fget R.PWR_STAT.STATE = 6
    then ((s.fset R.PWR_STAT.WARN 0).supLog 0x14 0 0).startPowerUp else s.fset R.PWR_STAT.WARN 0) := by
  have state : (s.fset R.PWR_STAT.WARN 0).fget R.PWR_STAT.STATE = s.fget R.PWR_STAT.STATE := State.fset_fget_ne _ _ _ _ (by decide)
  rw [← state]
  rfl

/-! ## RAIL_POWER_GOOD (R503, R512, R517, R519) -/

/-- A rail is power-good, and logged so. -/
def State.railGood (s : State) (r mv : Nat) : State :=
  (((s.fset (R.PWR_RAIL_STAT.STATE r) 2).fset (R.PWR_RAIL_STAT.MON_MV r) mv).fset (R.PWR_RAIL_STAT.CAUSE r) 0).supLog 0x02 mv r

section PowerGood
variable {s : State} {r : Fin 56} {mv : BitVec 16}

theorem exec_railPowerGood_of_settled (settled : s.railState r.val ≠ 1) (native : s.flag R.PWR_STAT.SEQ_MODE = false) :
    exec (.railPowerGood r mv) s = .next s := congrArg Host.Outcome.next (if_pos ⟨settled, by simp [native]⟩)

variable (ramps : s.railState r.val = 1)
include ramps

theorem exec_railPowerGood_of_core (core : r.val < 8) : exec (.railPowerGood r mv) s = .next ((s.railGood r.val mv.toNat).upNext r.val) :=
  congrArg Host.Outcome.next ((if_neg fun settled => settled.1 ramps).trans (if_pos core))

variable (grouped : 8 ≤ r.val)
include grouped

theorem exec_railPowerGood_of_seq (seq : s.flag R.PWR_STAT.SEQ_MODE = true) :
    exec (.railPowerGood r mv) s = .next (s.railGood r.val mv.toNat).seqSettle :=
  congrArg Host.Outcome.next ((if_neg fun settled => settled.1 ramps).trans ((if_neg grouped.not_gt).trans (if_pos seq)))

variable (native : s.flag R.PWR_STAT.SEQ_MODE = false)
include native

/-- While rails go down, a group's rail that is good is noted alone. -/
theorem exec_railPowerGood_of_off (off : (s.railGood r.val mv.toNat).pwr.off.isSome = true) :
    exec (.railPowerGood r mv) s = .next (s.railGood r.val mv.toNat) :=
  congrArg Host.Outcome.next ((if_neg fun settled => settled.1 ramps).trans ((if_neg grouped.not_gt).trans
    ((if_neg (ne_true_of_eq_false native)).trans (if_pos off))))

theorem exec_railPowerGood_of_on (on : (s.railGood r.val mv.toNat).pwr.off = none) :
    let good := s.railGood r.val mv.toNat
    let g := (r.val - 8) / 2
    exec (.railPowerGood r mv) s = .next (if good.pwr.restores.head? = some g
        ∨ (groupWave g ≤ good.fget R.PWR_STAT.WAVE ∧ (good.fget R.PWR_STAT.GROUPS_FENCED).testBit g = false)
      then good.powerGroup g else good).pumpRestores := by
  refine congrArg Host.Outcome.next ((if_neg fun settled => settled.1 ramps).trans ((if_neg grouped.not_gt).trans
    ((if_neg (ne_true_of_eq_false native)).trans ((if_neg ?_).trans (congrArg State.pumpRestores (if_congr ?_ rfl rfl))))))
  · exact ne_true_of_eq_false (congrArg Option.isSome on)
  · simp [State.railGood]

end PowerGood

/-! ## RAIL_PG_TIMEOUT (R503, R509, R513, R517, R592) -/

section Timeout
variable {s : State} {r : Fin 56} {c : RailCause} {mv : BitVec 16}

theorem exec_railPgTimeout_of_settled (settled : s.railState r.val ≠ 1) : exec (.railPgTimeout r c mv) s = .next s :=
  congrArg Host.Outcome.next (if_pos settled)

variable {u : State} (ramps : s.railState r.val = 1)
  (missed : (s.sat (R.TWB_CNT0.ARB_LOST 0) (railLost c)).railFails r.val (railCodes c).1 (railCodes c).2 mv.toNat = u)
include ramps missed

theorem exec_railPgTimeout_of_off {w : List OffStep × OffWhy} (off : s.pwr.off = some w) : exec (.railPgTimeout r c mv) s = .next u := by
  subst missed
  have down : (s.sat (R.TWB_CNT0.ARB_LOST 0) (railLost c)).pwr.off.isSome = true := congrArg Option.isSome off
  rw [← State.railFails_pwr] at down
  exact congrArg Host.Outcome.next ((if_neg (not_not_intro ramps)).trans (if_pos down))

variable (on : s.pwr.off = none)
include on

theorem exec_railPgTimeout_of_core (core : r.val < 8) :
    exec (.railPgTimeout r c mv) s = .next (u.comeUpFails r.val (railCodes c).1) := by
  subst missed
  have up : (s.sat (R.TWB_CNT0.ARB_LOST 0) (railLost c)).pwr.off.isSome ≠ true := ne_true_of_eq_false (congrArg Option.isSome on)
  rw [← State.railFails_pwr] at up
  exact congrArg Host.Outcome.next ((if_neg (not_not_intro ramps)).trans ((if_neg up).trans (if_pos core)))

theorem exec_railPgTimeout_of_group (grouped : 8 ≤ r.val) :
    let t := u.fenceGroup ((r.val - 8) / 2) mv.toNat
    exec (.railPgTimeout r c mv) s =
      .next ({ t with pwr := { t.pwr with restores := u.pwr.restores.filter (· ≠ (r.val - 8) / 2) } }).seqSettle.pumpRestores := by
  subst missed
  have up : (s.sat (R.TWB_CNT0.ARB_LOST 0) (railLost c)).pwr.off.isSome ≠ true := ne_true_of_eq_false (congrArg Option.isSome on)
  rw [← State.railFails_pwr] at up
  exact congrArg Host.Outcome.next ((if_neg (not_not_intro ramps)).trans ((if_neg up).trans (if_neg grouped.not_gt)))

end Timeout

/-! ## Waves (R515, R516) -/

theorem State.waveReady_of_notGo {s : State} {w : Nat} (go : s.pwr.goGiven = false) (later : 1 < w) : s.waveReady w = false := by
  have second : w ≠ 1 := later.ne'
  simp [State.waveReady, second, go]

section Go
variable {s : State} (go : s.pwr.goGiven = false) (up : s.fget R.PWR_STAT.STATE = 2) (first : s.fget R.PWR_STAT.WAVE ≠ 0)
include go up first

theorem State.goCmd_of_fit : s.goCmd =
    if !s.flag R.PWR_STAT.SEQ_MODE ∧ (List.range 48).any fun i => !s.flag (R.PWR_RAIL_CFG.VALID (8 + i)) then s
    else { s.fset R.SUP_START_STAT.PHASE 3 with pwr := { s.pwr with goGiven := true } } :=
  if_neg (by simp [go, up, first])

theorem exec_go_of_provisioned (known : s.flag R.PWR_STAT.SEQ_MODE = true ∨ ∀ i, i < 48 → s.flag (R.PWR_RAIL_CFG.VALID (8 + i)) = true) :
    exec .go s = .next { s.fset R.SUP_START_STAT.PHASE 3 with pwr := { s.pwr with goGiven := true } } := by
  refine congrArg Host.Outcome.next ((State.goCmd_of_fit go up first).trans (if_neg ?_))
  rcases known with seq | valid
  · simp [seq]
  · simpa using fun _ => valid

theorem exec_go_of_unprovisioned (native : s.flag R.PWR_STAT.SEQ_MODE = false) {i : Nat} (rail : i < 48)
    (unknown : s.flag (R.PWR_RAIL_CFG.VALID (8 + i)) = false) : exec .go s = .next s := by
  refine congrArg Host.Outcome.next ((State.goCmd_of_fit go up first).trans (if_pos ⟨by simp [native], ?_⟩))
  exact List.any_eq_true.mpr ⟨i, List.mem_range.mpr rail, by simp [unknown]⟩

end Go

/-! ## RESTORE_GROUP (R518) -/

/-- A group that can be restored: it is fenced, the rails of the core are up, its restoration has not been asked for and no rails go down. -/
def State.Restorable (s : State) (g : Nat) : Prop :=
  (s.fget R.PWR_STAT.GROUPS_FENCED).testBit g = true ∧ (s.fget R.PWR_STAT.STATE = 2 ∨ s.fget R.PWR_STAT.STATE = 3)
    ∧ s.pwr.restores.contains g = false ∧ s.pwr.off = none

theorem State.restoreGroupCmd_of_unfit {s : State} {g : Nat} (unfit : ¬ s.Restorable g) :
    s.restoreGroupCmd g = s.fset R.PWR_STAT.CMD_REFUSED 1 := by
  refine if_pos (Classical.byContradiction fun fits => unfit ?_)
  simp only [not_or, not_and_or, not_not, Bool.not_eq_true', Bool.not_eq_false, Bool.not_eq_true, Option.isSome_eq_false_iff,
    Option.isNone_iff_eq_none] at fits
  exact fits

theorem State.restoreGroupCmd_of_fit {s : State} {g : Nat} (fits : s.Restorable g) :
    s.restoreGroupCmd g = if s.flag R.PWR_STAT.SEQ_MODE then
        (if (groupRails g).all fun r => s.railState r == 2 then s.groupRestored g else s.fset R.PWR_STAT.CMD_REFUSED 1)
      else ({ s with pwr := { s.pwr with restores := s.pwr.restores ++ [g] } }).pumpRestores := by
  obtain ⟨fenced, state, fresh, on⟩ := fits
  refine if_neg ?_
  simp only [fenced, fresh, on]
  simpa [← or_iff_not_imp_left] using state

/-! ## Stages of going down (R513, R532) and SEQ_SYNC (R519 to R521; log entry 84) -/

theorem exec_railOffStage_of_on {s : State} {m : List (Fin 56 × BitVec 16)} (on : s.pwr.off = none) :
    exec (.railOffStage m) s = .next s := by
  change Host.Outcome.next (match s.pwr.off with | some (.rails l :: _, _) => _ | _ => s) = _
  rw [on]

theorem exec_railOffStage_of_rail {s : State} {r : Fin 56} {v : BitVec 16} {rest : List OffStep} {why : OffWhy}
    (off : s.pwr.off = some (.rails [r.val] :: rest, why)) :
    exec (.railOffStage [(r, v)]) s = .next (s.railIsOff r.val v.toNat).stageEnds := by
  simp [exec, execRailOffStage, off]

theorem exec_seqSyncStep_of_held {s : State}
    (held : s.flag R.PWR_STAT.SEQ_MODE = false ∨ s.fget R.PWR_STAT.SEQ_STATE = 0 ∨ s.pwr.seqHeld = true) :
    exec .seqSyncStep s = .next s := congrArg Host.Outcome.next (if_pos (by simpa using held))

theorem exec_seqSyncAbort_of_ignored {s : State}
    (ignored : s.flag R.PWR_STAT.SEQ_MODE = false ∨ s.fget R.PWR_STAT.SEQ_STATE = 0 ∨ 7 < s.fget R.PWR_STAT.SEQ_STATE) :
    exec .seqSyncAbort s = .next s := congrArg Host.Outcome.next (if_pos (by simpa using ignored))

/-- Settles O54: each command by the condition it checks first; a GO without its rails provisioned does nothing and CLEAR_LATCH begins
a power-up (log entry 85), and the steps of SEQ_SYNC are those of log entry 84. -/
theorem powerComesUpInOrder : Obligations.PowerComesUpInOrder := by
  refine ⟨fun senior seqMode s => ⟨fun por => congrArg Host.Outcome.next (if_neg (by simp [por])),
      fun por => congrArg Host.Outcome.next (if_pos por)⟩,
    fun s => ⟨fun native => s.startPowerUp_eq.trans (if_neg (ne_true_of_eq_false native)), fun seq => s.startPowerUp_eq.trans (if_pos seq)⟩,
    fun r mv s => ⟨exec_railPowerGood_of_core, exec_railPowerGood_of_seq,
      fun ramps grouped native => ⟨fun w off => exec_railPowerGood_of_off ramps grouped native (congrArg Option.isSome off),
        fun on due => (exec_railPowerGood_of_on ramps grouped native on).trans (congrArg (Host.Outcome.next ∘ State.pumpRestores) (if_pos due)),
        fun on idle => (exec_railPowerGood_of_on ramps grouped native on).trans
          (congrArg (Host.Outcome.next ∘ State.pumpRestores) (if_neg idle))⟩,
      exec_railPowerGood_of_settled, fun c => exec_railPgTimeout_of_settled, fun c ramps => exec_railPgTimeout_of_core ramps rfl,
      fun c ramps => exec_railPgTimeout_of_group ramps rfl, fun c w ramps => exec_railPgTimeout_of_off ramps rfl⟩,
    fun s => ⟨fun ready => congrArg Host.Outcome.next (if_pos ready),
      fun early => congrArg Host.Outcome.next (if_neg (ne_true_of_eq_false early)),
      State.waveReady_of_notGo, fun unfit => congrArg Host.Outcome.next (if_pos unfit),
      fun go up first => ⟨exec_go_of_provisioned go up first, fun native i => exec_go_of_unprovisioned go up first native⟩,
      fun lost => (exec_inputStable s).trans (congrArg _ (if_pos lost)), fun kept => (exec_inputStable s).trans (congrArg _ (if_neg kept)),
      fun latched => ⟨_, congrArg Host.Outcome.next (if_pos latched), rfl⟩,
      fun free => congrArg Host.Outcome.next (if_neg (ne_true_of_eq_false free))⟩,
    fun g s => ⟨fun unfit => congrArg Host.Outcome.next (State.restoreGroupCmd_of_unfit unfit),
      fun fits native => congrArg Host.Outcome.next ((State.restoreGroupCmd_of_fit fits).trans (if_neg (ne_true_of_eq_false native))),
      fun fits seq => ⟨fun a h => ?_, fun bad => ?_⟩⟩,
    fun m s => ⟨exec_railOffStage_of_on, ?_⟩,
    fun s => ⟨fun seq runs released => congrArg Host.Outcome.next (if_neg (by simp [seq, runs, released])), exec_seqSyncStep_of_held,
      fun seq runs early => congrArg Host.Outcome.next (if_neg (by simp [seq, runs, early])), exec_seqSyncAbort_of_ignored⟩⟩
  · exact congrArg Host.Outcome.next ((State.restoreGroupCmd_of_fit fits).trans ((if_pos seq).trans (if_pos (by simp [groupRails, a, h]))))
  · refine congrArg Host.Outcome.next ((State.restoreGroupCmd_of_fit fits).trans ((if_pos seq).trans (if_neg ?_)))
    simpa [groupRails, imp_iff_not_or] using bad
  · rintro r v rest why rfl
    exact exec_railOffStage_of_rail

end Sys2Proof.Machine
end

section
/-! Supervision: rails that fail in service, warnings, attention and telemetry (R504, R509 to R511, R524 to R534, R540, R541, R592, R600,
R641, R643). -/

namespace Sys2Proof.Machine

/-! ## Rails that fail in service (R524 to R526, R534) -/

section Fails
variable {s : State} {r : Fin 56} {high : Bool} {mv : BitVec 16}

theorem exec_groupRailFail_of_settled (settled : s.railState r.val ≠ 2) : exec (.groupRailFail r high mv) s = .next s :=
  congrArg Host.Outcome.next (if_pos (.inr settled))

theorem exec_criticalRailFail_of_settled (settled : s.railState r.val ≠ 2) : exec (.criticalRailFail r high mv) s = .next s :=
  congrArg Host.Outcome.next (if_pos (.inr (.inr settled)))

variable {why code : Nat} (out : outOf high = (why, code)) (runs : s.railState r.val = 2)
include out runs

theorem exec_groupRailFail_of_fenced (grouped : 8 ≤ r.val) (on : s.pwr.off = none)
    (serves : (s.railFails r.val why code mv.toNat).flag R.PWR_STAT.COMMITTED = false) :
    let g := (r.val - 8) / 2
    let t := (s.railFails r.val why code mv.toNat).fenceGroup g mv.toNat
    exec (.groupRailFail r high mv) s =
      .next ({ t with pwr := { t.pwr with restores := t.pwr.restores.filter (· ≠ g) } }).pumpRestores := by
  obtain ⟨rfl, rfl⟩ : (outOf high).1 = why ∧ (outOf high).2 = code := by simp [out]
  exact congrArg Host.Outcome.next ((if_neg (not_or.mpr ⟨grouped.not_gt, not_not_intro runs⟩)).trans
    (if_neg (not_or.mpr ⟨ne_true_of_eq_false serves, by simp [on]⟩)))

variable (core : 3 ≤ r.val) (last : r.val ≤ 6)
include core last

/-- While rails already go down, a further failure ends the drain alone. -/
theorem exec_criticalRailFail_of_off {w : List OffStep × OffWhy} (off : s.pwr.off = some w) :
    exec (.criticalRailFail r high mv) s = .next (s.railFails r.val why code mv.toNat).stopDrain.afterDrainOff := by
  obtain ⟨rfl, rfl⟩ : (outOf high).1 = why ∧ (outOf high).2 = code := by simp [out]
  refine congrArg Host.Outcome.next ((if_neg (by simp [runs]; omega)).trans ?_)
  dsimp only
  split
  next => rfl
  next on => simp [off] at on

theorem exec_criticalRailFail_of_on (on : s.pwr.off = none) :
    let u := s.railFails r.val why code mv.toNat
    exec (.criticalRailFail r high mv) s =
      .next (if u.fget R.PWR_STAT.STATE = 1 then u.comeUpFails r.val why else u.criticalStop r.val why) := by
  obtain ⟨rfl, rfl⟩ : (outOf high).1 = why ∧ (outOf high).2 = code := by simp [out]
  refine congrArg Host.Outcome.next ((if_neg (by simp [runs]; omega)).trans ?_)
  dsimp only
  split
  next off => simp [on] at off
  next => rfl

end Fails

section Vfl
variable {s : State} {high : Bool} {mv : BitVec 16} {why code : Nat} (out : outOf high = (why, code)) (runs : s.railState 7 = 2)
  (on : s.pwr.off = none)
include out runs on

theorem exec_vflFail_of_rising (rising : (s.railFails 7 why code mv.toNat).fget R.PWR_STAT.STATE = 1) :
    exec (.vflFail high mv) s = .next ((s.railFails 7 why code mv.toNat).comeUpFails 7 why) := by
  obtain ⟨rfl, rfl⟩ : (outOf high).1 = why ∧ (outOf high).2 = code := by simp [out]
  exact congrArg Host.Outcome.next ((if_neg (not_not_intro runs)).trans (if_pos ⟨rising, by simp [on]⟩))

theorem exec_vflFail_of_up (up : (s.railFails 7 why code mv.toNat).fget R.PWR_STAT.STATE ≠ 1)
    (serves : (s.railFails 7 why code mv.toNat).flag R.PWR_STAT.COMMITTED = false) :
    let v := s.railFails 7 why code mv.toNat
    exec (.vflFail high mv) s = .next (({ v with fls := { v.fls with fenced := true } } : State).postD 0x0B01 0x107 mv.toNat) := by
  obtain ⟨rfl, rfl⟩ : (outOf high).1 = why ∧ (outOf high).2 = code := by simp [out]
  exact congrArg Host.Outcome.next ((if_neg (not_not_intro runs)).trans ((if_neg fun rising => up rising.1).trans
    (if_neg (not_or.mpr ⟨ne_true_of_eq_false serves, by simp [on]⟩))))

end Vfl

/-! ## Heat (R527, R641, R643; log entry 82) -/

section Trip
variable {s u : State} {n : Fin 48} {c : BitVec 8}
  (noted : ((((s.fset R.PWR_TEMP_STAT.HOTTEST_C c.toNat).fset R.PWR_TEMP_STAT.SENSOR n.val).peak R.PWR_TEMP_STAT.PEAK_C c.toNat).sat
    R.PWR_TEMP_STAT.TRIPS).supLog 0x32 c.toNat 0 = u)
include noted

theorem exec_thermalTrip_of_shutdown (committed : u.flag R.PWR_STAT.COMMITTED = true) (drains : u.fget R.PWR_STAT.STATE = 4) :
    exec (.thermalTrip n c) s = .next { u with pwr := { u.pwr with tripAfter := true } } := by
  subst noted
  exact congrArg Host.Outcome.next (if_pos ⟨committed, drains⟩)

variable (serves : u.flag R.PWR_STAT.COMMITTED = false)
include serves

theorem exec_thermalTrip_of_down (down : u.fget R.PWR_STAT.STATE = 0 ∨ u.fget R.PWR_STAT.STATE = 5 ∨ u.fget R.PWR_STAT.STATE = 6) :
    exec (.thermalTrip n c) s = .next u := by
  subst noted
  exact congrArg Host.Outcome.next ((if_neg fun drains => ne_true_of_eq_false serves drains.1).trans (if_pos (down.imp_right (.imp_right .inl))))

theorem exec_thermalTrip_of_up (up : u.fget R.PWR_STAT.STATE = 1 ∨ u.fget R.PWR_STAT.STATE = 2 ∨ u.fget R.PWR_STAT.STATE = 3)
    (on : s.pwr.off = none) : exec (.thermalTrip n c) s = .next (u.criticalStop 0 6) := by
  have calm : u.pwr.off = none := (congrArg Pwr.off (noted ▸ State.supLog_pwr ..)).trans on
  have running : ¬ (u.fget R.PWR_STAT.STATE = 0 ∨ u.fget R.PWR_STAT.STATE = 5 ∨ u.fget R.PWR_STAT.STATE = 6 ∨ u.pwr.off.isSome = true) := by
    rw [calm]
    rcases up with state | state | state <;> rw [state] <;> decide
  subst noted
  exact congrArg Host.Outcome.next ((if_neg fun drains => ne_true_of_eq_false serves drains.1).trans (if_neg running))

end Trip

/-! ## Power warnings (R530, R532, R541; log entry 83) -/

section Warning
variable {s u : State} (out : s.pwr.por = false) (warned : (s.fset R.PWR_STAT.WARN 1).supLog 0x10 0 0 = u)
include out warned

theorem exec_pwrWarnCommit_of_down (down : u.fget R.PWR_STAT.STATE = 0 ∨ u.fget R.PWR_STAT.STATE = 5 ∨ u.fget R.PWR_STAT.STATE = 6
    ∨ s.pwr.off.isSome = true) : exec .pwrWarnCommit s = .next u := by
  have pwr : u.pwr = s.pwr := warned ▸ State.supLog_pwr ..
  rw [← pwr] at down
  subst warned
  exact congrArg Host.Outcome.next ((if_neg (ne_true_of_eq_false out)).trans (if_pos down))

/-- A shutdown is committed once, and the rails go down. -/
theorem exec_pwrWarnCommit_of_up {v : State} (up : ¬ (u.fget R.PWR_STAT.STATE = 0 ∨ u.fget R.PWR_STAT.STATE = 5 ∨ u.fget R.PWR_STAT.STATE = 6
    ∨ s.pwr.off.isSome = true)) (committed : (if u.flag R.PWR_STAT.COMMITTED then u else u.commit) = v) :
    exec .pwrWarnCommit s = .next (({ v with sup := { v.sup with resetWait := none } } : State).goDown v.shutdownSteps .shutdown) := by
  have pwr : u.pwr = s.pwr := warned ▸ State.supLog_pwr ..
  rw [← pwr] at up
  subst warned committed
  exact congrArg Host.Outcome.next ((if_neg (ne_true_of_eq_false out)).trans (if_neg up))

end Warning

/-! ## Attention (R510, R600) -/

theorem State.attend_of_unprovisioned {s : State} (a : Nat) (l : List (Fin 56 × BitVec 16))
    (unknown : ∀ r : Fin 56, s.flag (R.PWR_RAIL_CFG.VALID r.val) = false) : s.attend a l = s.sat (R.TWB_CNT1.ATTENTIONS 0) := by
  have still (r : Fin 56) : (s.sat (R.TWB_CNT1.ATTENTIONS 0)).flag (R.PWR_RAIL_CFG.VALID r.val) = false := by
    rw [← unknown r]
    exact congrArg (· != 0) (State.fset_fget_ne _ _ _ _ (by simp only [Fld.key, R.TWB_CNT1.ATTENTIONS, R.PWR_RAIL_CFG.VALID]; omega))
  have nobody : ((List.finRange 56).filter fun r => (s.sat (R.TWB_CNT1.ATTENTIONS 0)).flag (R.PWR_RAIL_CFG.VALID r.val)
      && (s.sat (R.TWB_CNT1.ATTENTIONS 0)).fget (R.PWR_RAIL_CFG.ADDR r.val) == a) = [] :=
    List.filter_eq_nil_iff.mpr fun r _ => by simp [still r]
  rw [State.attend, nobody]
  rfl

/-! ## Telemetry (R509, R511, R592) -/

@[simp] theorem State.pm_stepHeld (s : State) (r code data : Nat) : (s.pm r code data).pwr.stepHeld = s.pwr.stepHeld := by
  unfold State.pm
  split
  · rfl
  · dsimp only
    split <;> rfl

/-- A read whose attempts leave no VCORE step waiting is over with them: one that fails is logged. -/
theorem State.readRail_of_try {s t : State} {r code : Nat} {tries rest : List PmTry} {ok : Bool}
    (tried : State.pmTry r code 4 tries s = (ok, rest, t)) (free : t.pwr.stepHeld = none) :
    s.readRail r code tries = (ok, rest, if ok then t else t.supLog 0x07 4 r) := by
  have calm : (if ok then t else t.supLog 0x07 4 r).pwr.stepHeld = none := by
    split
    · exact free
    · rw [State.supLog_pwr, free]
  rw [State.readRail, tried]
  exact congrArg (fun v => (ok, rest, v)) (State.heldStep_of_none calm)

section Read
variable {s : State} {r code : Nat} {tries : List PmTry} (free : s.pwr.stepHeld = none)
include free

theorem State.readRail_of_acked : s.readRail r code (.acked :: tries) = (true, tries, s.pm r code 0) :=
  State.readRail_of_try (t := s.pm r code 0) rfl (by simp [free])

theorem State.readRail_of_failed : s.readRail r code (.failed :: .failed :: .failed :: .failed :: tries) =
    (false, tries, ((((s.pm r code 0).pm r code 0).pm r code 0).pm r code 0).supLog 0x07 4 r) :=
  State.readRail_of_try (t := (((s.pm r code 0).pm r code 0).pm r code 0).pm r code 0) rfl (by simp [free])

theorem State.readRail_of_arbLost : s.readRail r code (.arbLost :: .acked :: tries) =
    (true, tries, ((s.pm r code 0).sat (R.TWB_CNT0.ARB_LOST 0)).pm r code 0) :=
  State.readRail_of_try (t := ((s.pm r code 0).sat (R.TWB_CNT0.ARB_LOST 0)).pm r code 0) rfl
    ((State.pm_stepHeld ..).trans ((State.pm_stepHeld s r code 0).trans free))

end Read

/-- Settles O55: each failure by the condition its command checks; a thermal latch names rail 0 (log entry 82), and WARN is set whether or not a
power warning is committed again (log entry 83). -/
theorem supervisionActsOnFailures : Obligations.SupervisionActsOnFailures := by
  refine ⟨fun r high mv s => ?_,
    fun n c s => ?_,
    fun s => ⟨fun por => congrArg Host.Outcome.next (if_pos por), fun out down => exec_pwrWarnCommit_of_down out rfl down,
      fun out off latched lost on => ?_⟩,
    fun us s => ⟨fun out short => congrArg Host.Outcome.next (if_neg (by simp [out, short])),
      fun ignored => congrArg Host.Outcome.next (if_pos ignored)⟩,
    fun s => ⟨fun l ignored => congrArg Host.Outcome.next (if_pos (by simpa using ignored)),
      fun a l out heard => congrArg Host.Outcome.next (if_neg (by simp [out, heard]))⟩,
    fun a l s => State.attend_of_unprovisioned a l,
    fun r tries v i c s => ⟨fun ignored => congrArg Host.Outcome.next (if_pos (by simpa using ignored)),
      fun out known => congrArg Host.Outcome.next (if_neg (by simp [out, known])),
      fun code free => ⟨State.readRail_of_acked free, State.readRail_of_failed free, State.readRail_of_arbLost free⟩⟩,
    fun s => rfl⟩
  · have out : outOf high = (if high then 3 else 2, if high then 0x05 else 0x04) := by cases high <;> rfl
    exact ⟨fun settled => ⟨exec_groupRailFail_of_settled settled, exec_criticalRailFail_of_settled settled⟩, exec_groupRailFail_of_fenced out,
      fun runs core last on => ⟨fun rising => (exec_criticalRailFail_of_on out runs core last on).trans (congrArg _ (if_pos rising)),
        fun up => (exec_criticalRailFail_of_on out runs core last on).trans (congrArg _ (if_neg up))⟩,
      fun runs core last _ => exec_criticalRailFail_of_off out runs core last, fun settled => congrArg Host.Outcome.next (if_pos settled),
      fun runs on => ⟨exec_vflFail_of_rising out runs on, exec_vflFail_of_up out runs on⟩,
      fun runs => congrArg Host.Outcome.next (if_neg (not_not_intro runs)), fun settled => congrArg Host.Outcome.next (if_pos settled)⟩
  · intro u st
    exact ⟨exec_thermalTrip_of_shutdown (u := u) rfl, exec_thermalTrip_of_down (u := u) rfl, exec_thermalTrip_of_up (u := u) rfl⟩
  · intro v
    exact exec_pwrWarnCommit_of_up (v := v) out rfl (by simp [off, latched, lost, on]) rfl

end Sys2Proof.Machine
end

section
/-! The flash controller's commands, their keys and their ends (R558, R559, R563 to R569, R572, R575, R577, R581). -/

namespace Sys2Proof.Machine

/-! ## The keys (R565; log entry 92) -/

theorem State.flsKeyWrite_of_idle {s : State} (v : Word) (idle : s.fls.seq = .idle) : s.flsKeyWrite v =
    if v.toNat % 65536 = 0x6F1A then { s with fls := { s.fls with seq := .key1 } } else s.flsDrop := by
  simp only [State.flsKeyWrite, idle]

theorem State.flsKeyWrite_of_key1 {s : State} (v : Word) (first : s.fls.seq = .key1) : s.flsKeyWrite v =
    if v.toNat % 65536 = 0x90E5 then { s with fls := { s.fls with seq := .key2 } } else s.flsDrop := by
  simp only [State.flsKeyWrite, first]

theorem State.flsKeyWrite_of_key2 {s : State} (v : Word) (both : s.fls.seq = .key2) : s.flsKeyWrite v = s.flsDrop := by
  simp only [State.flsKeyWrite, both]

/-- The sequence has ended with its command. -/
def State.unkeyed (s : State) : State := { s with fls := { s.fls with seq := .idle } }

section Keyed
variable {s : State} {op count addr : Nat} {arg : Word} {ecc : List (Nat × EccResult)}

theorem State.keyed_of_idle (idle : s.fls.seq = .idle) : s.keyed op count addr arg ecc = s := by
  simp [State.keyed, State.flsStray, idle]

theorem State.keyed_of_key1 (first : s.fls.seq = .key1) : s.keyed op count addr arg ecc = s.flsDrop := by
  simp [State.keyed, State.flsStray, first]

theorem State.keyed_of_key2 (both : s.fls.seq = .key2) : s.keyed op count addr arg ecc = s.unkeyed.flsCommand op count addr arg ecc :=
  if_pos both

end Keyed

/-- Every command of R566 runs only behind its keys. -/
theorem exec_of_flashCommand {n : BitVec 12} {a : BitVec 28} {x : Word} {ecc : List (Nat × EccResult)} {i : Instr}
    (h : i ∈ ([.program n a, .erase n a, .read n a ecc, .unlock a x, .writeConfig n a, .writeCommit n a x] : List Instr)) :
    ∃ op count addr arg ecc, ∀ s, exec i s = .next (s.keyed op count addr arg ecc) := by
  simp only [List.mem_cons, List.not_mem_nil, or_false] at h
  rcases h with rfl | rfl | rfl | rfl | rfl | rfl <;> exact ⟨_, _, _, _, _, fun _ => rfl⟩

/-! ## The commands (R566 to R569, R577, R581) -/

theorem State.flsCommand_of_fenced {s : State} {op count addr : Nat} {arg : Word} {ecc : List (Nat × EccResult)} (fenced : s.fls.fenced = true) :
    s.flsCommand op count addr arg ecc = s := if_pos fenced

section Command
variable {s : State} {op count addr : Nat} {arg : Word} {ecc : List (Nat × EccResult)} (up : s.fls.fenced = false)
include up

/-- PROGRAM, ERASE and READ: refused for the first reason, or carried out. -/
theorem State.flsCommand_of_refusal (kind : op = 1 ∨ op = 2 ∨ op = 3) {r : FlsResult}
    (refused : s.flsRefusal op (addr / 32) (count + 1) = some r) : s.flsCommand op count addr arg ecc = s.flsSay r := by
  refine (if_neg (ne_true_of_eq_false up)).trans ((if_pos kind).trans ?_)
  rw [refused]

theorem State.flsCommand_of_fit (kind : op = 1 ∨ op = 2 ∨ op = 3) (fits : s.flsRefusal op (addr / 32) (count + 1) = none) :
    s.flsCommand op count addr arg ecc =
      if op = 1 then (s.flsStart op 0).setJob (addr / 32 / 2048 / 2048) (some (.program (addr / 32) (count + 1) true))
      else if op = 2 then (s.flsStart op 0).setJob (addr / 32 / 2048 / 2048) (some (.erase (addr / 32 / 2048) 0 true))
      else if addr / 32 / 2048 / 2048 = s.recordBank ∧ s.fls.recq ≠ [] then (s.fset R.FLS_STAT.BUS_FAULT 1).flsSay .busFault
      else State.readWords (addr / 32) ecc (count + 1) 0 (s.flsStart op 0) := by
  refine (if_neg (ne_true_of_eq_false up)).trans ((if_pos kind).trans ?_)
  rw [fits]

theorem State.flsCommand_unlock : s.flsCommand 4 count addr arg ecc = s.flsUnlock (addr / 32 / 2048) arg :=
  (if_neg (ne_true_of_eq_false up)).trans ((if_neg (by decide)).trans (if_pos rfl))

theorem State.flsCommand_of_write (kind : op = 5 ∨ op = 6) : s.flsCommand op count addr arg ecc =
    if (s.flsJob s.recordBank).isSome then s.flsSay .busy
    else if op = 5 ∧ ((List.range 16).any fun k => let r := regionOf s.configFromBuf k; r.2.2.2.1 && r.2.2.2.2 == 0) then s.flsSay .range
    else (s.flsStart op arg).setJob s.recordBank (some .write) := by
  have modify : ¬ (op = 1 ∨ op = 2 ∨ op = 3) := by omega
  have unlock : op ≠ 4 := by omega
  exact (if_neg (ne_true_of_eq_false up)).trans ((if_neg modify).trans ((if_neg unlock).trans (if_pos kind)))

end Command

/-! ## UNLOCK (R569; log entry 87) -/

section Unlock
variable {s : State} {sec : Nat} (pw : Word) (ready : s.flsJob (sec / 2048) = none)
include ready

theorem State.flsUnlock_of_locked (locked : s.flsLocked sec = true) : s.flsUnlock sec pw = s.flsSay .locked :=
  (if_neg (by simp [ready])).trans (if_pos locked)

theorem State.flsUnlock_of_free (free : s.regionsAt sec = []) : s.flsUnlock sec pw = s.flsStart 4 0 := by
  have unlocked : s.flsLocked sec = false := by rw [State.flsLocked, free]; rfl
  refine (if_neg (by simp [ready])).trans ((if_neg (ne_true_of_eq_false unlocked)).trans ?_)
  rw [free]
  rfl

end Unlock

/-! ## FLASH_COMMAND_DONE (R559, R563, R566) -/

section Done
variable {b : Fin 2} {ok : Bool} {s : State}

theorem exec_flashCommandDone_of_idle (idle : s.fls.fenced = true ∨ s.flsJob b.val = none) : exec (.flashCommandDone b ok) s = .next s := by
  rcases idle with fenced | free
  · exact congrArg Host.Outcome.next (if_pos fenced)
  · refine congrArg Host.Outcome.next (ite_eq_left_iff.mpr fun _ => ?_)
    rw [free]

variable (up : s.fls.fenced = false)
include up

theorem exec_flashCommandDone_of_program {i n : Nat} {fw : Bool} (job : s.flsJob b.val = some (.program i n fw)) :
    exec (.flashCommandDone b ok) s = .next (((State.programWords i 0 (s.flsBufWords n) s).setJob b.val none).dropLines b.val) := by
  refine congrArg Host.Outcome.next ((if_neg (ne_true_of_eq_false up)).trans ?_)
  rw [job]

theorem exec_flashCommandDone_of_erase {sec tries : Nat} {fw : Bool} (job : s.flsJob b.val = some (.erase sec tries fw)) :
    exec (.flashCommandDone b ok) s = .next (
      if ok then ((((s.clearSector sec true).fset R.FLS_STAT.DONE 1).flsSay .ok).setJob b.val none).dropLines b.val
      else if tries < 2 then s.setJob b.val (some (.erase sec (tries + 1) fw))
      else (((s.clearSector sec false).flsSay .verifyFail).setJob b.val none).dropLines b.val) := by
  refine congrArg Host.Outcome.next ((if_neg (ne_true_of_eq_false up)).trans ?_)
  rw [job]

theorem exec_flashCommandDone_of_write (job : s.flsJob b.val = some .write) :
    let u := s.setJob b.val none
    exec (.flashCommandDone b ok) s =
      .next ((if u.fget R.FLS_CMD.OP = 5 then u.writeConfigSector u.configFromBuf else u.commitFromArg).flsSay .ok) := by
  refine congrArg Host.Outcome.next ((if_neg (ne_true_of_eq_false up)).trans ?_)
  rw [job]

end Done

/-! ## Records and the scan (R564, R572, R575) -/

theorem exec_flashRecordAppend_of_idle {s : State} (idle : s.fls.recq = [] ∨ s.fls.fenced = true) : exec .flashRecordAppend s = .next s := by
  refine congrArg Host.Outcome.next ?_
  split
  next r rest queued =>
    have fenced : s.fls.fenced = true := idle.resolve_left (by simp [queued])
    exact if_pos fenced
  next => rfl

theorem exec_flashRecordAppend_of_queued {s : State} {r : LogRec} {q : List LogRec} (queued : s.fls.recq = r :: q) (up : s.fls.fenced = false) :
    exec .flashRecordAppend s = .next (({ s with fls := { s.fls with recq := q } } : State).logAppend r) := by
  simp [exec, execFlashRecordAppend, queued, up]

theorem exec_flashScan_of_due {s : State} (due : s.sup.bootDue = true) (cold : s.sup.bootWarm = false) (up : s.fls.fenced = false)
    (plain : s.config = none) : ∃ t, exec .flashScan s = .next t
      ∧ t.fls = { s.fls with half := (s.fls.words.map (·.1 / 2048)).eraseDups.filter s.halfErased, regions := [] } ∧ t.ext = s.ext := by
  refine ⟨_, congrArg Host.Outcome.next (if_neg (by simp [due, cold, up])), ?_, rfl⟩
  rw [plain]
  rfl

/-- Settles O57: a command outside its key sequence does nothing (log entry 92), and one within it is refused for the first of its
reasons or runs; UNLOCK answers by log entry 87. -/
theorem flashCommandsNeedTheirKeys : Obligations.FlashCommandsNeedTheirKeys := by
  refine ⟨fun v s => ⟨fun idle key => ?_, fun first key => ?_, fun idle other => ?_, fun first other => ?_, fun both => ?_⟩,
    fun n a x ecc s => ⟨fun idle i command => ?_, fun first i command => ?_, fun both => ⟨fun fenced i command => ?_, fun up => ?_⟩⟩,
    fun sec pw s => ⟨fun busy => if_pos busy, State.flsUnlock_of_locked pw, State.flsUnlock_of_free pw⟩,
    fun b ok s => ⟨exec_flashCommandDone_of_idle, fun up => ⟨fun i n fw => exec_flashCommandDone_of_program up,
      fun sec k fw job => ⟨?_, ?_, ?_⟩, fun job => ⟨?_, ?_⟩⟩⟩,
    fun s => ⟨exec_flashRecordAppend_of_idle, fun r q => exec_flashRecordAppend_of_queued,
      fun ignored => congrArg Host.Outcome.next (if_pos (by simpa using ignored)), exec_flashScan_of_due,
      fun ignored => congrArg Host.Outcome.next (if_pos (by simpa using ignored)),
      fun due up => congrArg Host.Outcome.next (if_neg (by simp [due, up]))⟩⟩
  · exact congrArg Host.Outcome.next ((s.flsKeyWrite_of_idle v idle).trans (if_pos key))
  · exact congrArg Host.Outcome.next ((s.flsKeyWrite_of_key1 v first).trans (if_pos key))
  · exact congrArg Host.Outcome.next ((s.flsKeyWrite_of_idle v idle).trans (if_neg other))
  · exact congrArg Host.Outcome.next ((s.flsKeyWrite_of_key1 v first).trans (if_neg other))
  · exact congrArg Host.Outcome.next (s.flsKeyWrite_of_key2 v both)
  · obtain ⟨op, count, addr, arg, e, keyed⟩ := exec_of_flashCommand command
    exact (keyed s).trans (congrArg _ (State.keyed_of_idle idle))
  · obtain ⟨op, count, addr, arg, e, keyed⟩ := exec_of_flashCommand command
    exact (keyed s).trans (congrArg _ (State.keyed_of_key1 first))
  · obtain ⟨op, count, addr, arg, e, keyed⟩ := exec_of_flashCommand command
    exact (keyed s).trans (congrArg _ ((State.keyed_of_key2 both).trans (State.flsCommand_of_fenced fenced)))
  · have ready : s.unkeyed.fls.fenced = false := up
    have run {t : State} {op count addr : Nat} {arg : Word} {e : List (Nat × EccResult)} (h : s.unkeyed.flsCommand op count addr arg e = t) :
        Host.Outcome.next (φ := Fault) (ρ := Refusal) (s.keyed op count addr arg e) = .next t :=
      congrArg _ ((State.keyed_of_key2 both).trans h)
    refine ⟨fun r refused => run (State.flsCommand_of_refusal ready (by decide) refused),
      fun fits => run ((State.flsCommand_of_fit ready (by decide) fits).trans (if_pos rfl)),
      fun r refused => run (State.flsCommand_of_refusal ready (by decide) refused),
      fun fits => run ((State.flsCommand_of_fit ready (by decide) fits).trans ((if_neg (by decide)).trans (if_pos rfl))),
      fun r refused => run (State.flsCommand_of_refusal ready (by decide) refused),
      fun fits => ⟨fun records queued => ?_, fun empty => ?_⟩, run (State.flsCommand_unlock ready),
      fun busy => ⟨run ((State.flsCommand_of_write ready (by decide)).trans (if_pos busy)),
        run ((State.flsCommand_of_write ready (by decide)).trans (if_pos busy))⟩,
      fun free => ⟨?_, fun passwords => ?_⟩⟩
    · exact run ((State.flsCommand_of_fit ready (by decide) fits).trans ((if_neg (by decide)).trans ((if_neg (by decide)).trans
        (if_pos ⟨records, queued⟩))))
    · exact run ((State.flsCommand_of_fit ready (by decide) fits).trans ((if_neg (by decide)).trans ((if_neg (by decide)).trans
        (if_neg fun clash => clash.2 empty))))
    · exact run ((State.flsCommand_of_write ready (by decide)).trans
        ((if_neg (ne_true_of_eq_false (congrArg Option.isSome free))).trans (if_neg fun config => absurd config.1 (by decide))))
    · refine run ((State.flsCommand_of_write ready (by decide)).trans
        ((if_neg (ne_true_of_eq_false (congrArg Option.isSome free))).trans (if_neg fun config => ?_)))
      obtain ⟨k, region, bare⟩ := List.any_eq_true.mp config.2
      obtain ⟨protects, zero⟩ := (Bool.and_eq_true ..).mp bare
      exact passwords k (List.mem_range.mp region) protects (eq_of_beq zero)
  · exact fun good => (exec_flashCommandDone_of_erase up job).trans (congrArg _ (if_pos good))
  · exact fun bad again => (exec_flashCommandDone_of_erase up job).trans (congrArg _ ((if_neg (ne_true_of_eq_false bad)).trans (if_pos again)))
  · exact fun bad last => (exec_flashCommandDone_of_erase up job).trans (congrArg _ ((if_neg (ne_true_of_eq_false bad)).trans (if_neg last.not_gt)))
  · exact fun config => (exec_flashCommandDone_of_write up job).trans (congrArg (Host.Outcome.next ∘ (State.flsSay · .ok)) (if_pos config))
  · exact fun commit => (exec_flashCommandDone_of_write up job).trans (congrArg (Host.Outcome.next ∘ (State.flsSay · .ok)) (if_neg commit))

end Sys2Proof.Machine
end

section
/-! Completion queues against their hosts, delivery targets and status pages (R608, R612, R614, R615, R620 to R623, R625). -/

namespace Sys2Proof.Machine

/-! ## Completion queues (R614, R615) -/

section Poll
variable {c : Fin 65536} {ci : BitVec 32} {s : State}

theorem exec_cqCiPoll_of_ignored (ignored : (s.cq c.val).waiting = [] ∨ s.fget (R.STA_CQ0.STATE c.val) = 3
    ∨ s.targetReady (s.fget (R.STA_CQ0.TARGET c.val)) = false) : exec (.cqCiPoll c ci) s = .next s :=
  congrArg Host.Outcome.next (if_pos (ignored.imp_right (.imp_right fun broken => by rw [broken]; rfl)))

theorem exec_cqCiPoll_of_read (waits : (s.cq c.val).waiting ≠ []) (runs : s.fget (R.STA_CQ0.STATE c.val) ≠ 3)
    (ready : s.targetReady (s.fget (R.STA_CQ0.TARGET c.val)) = true) : exec (.cqCiPoll c ci) s =
      .next (((s.setCq c.val { s.cq c.val with ci := ci.toNat }).cqFlush c.val).cqAdmitOverflow) :=
  congrArg Host.Outcome.next (if_neg (by simp [waits, runs, ready]))

end Poll

/-! ## Delivery targets (R608) -/

/-- A write that leaves VALID clear names no endpoint to be checked. -/
theorem State.targetOk_of_invalid (s : State) {v : Word} (invalid : v.toNat < 2 ^ 63) : s.targetOk v = true := by
  have clear : v.toNat / 2 ^ 63 = 0 := Nat.div_eq_of_lt invalid
  rw [State.targetOk, clear]
  rfl

/-! ## Status pages (R625) -/

section Mirror
variable {k : Fin 2048} {s : State}

theorem exec_pageMirror_of_ignored (ignored : s.flag (R.STA_TPAGE0.VALID k.val) = false ∨ s.flag (R.STA_TPAGE0.MIRROR_EN k.val) = false
    ∨ s.targetReady (s.fget (R.STA_TPAGE0.MIRROR_TARGET k.val)) = false) : exec (.pageMirror k) s = .next s :=
  congrArg Host.Outcome.next (if_pos (by simpa using ignored))

/-- The bytes of the status page at an offset of control space. -/
def State.pageBytes (s : State) (base : Nat) : Bytes := (List.range 512).flatMap fun w => natLe 8 (s.pageWord (base + 8 * w)).toNat

theorem exec_pageMirror_of_ready (valid : s.flag (R.STA_TPAGE0.VALID k.val) = true) (on : s.flag (R.STA_TPAGE0.MIRROR_EN k.val) = true)
    (ready : s.targetReady (s.fget (R.STA_TPAGE0.MIRROR_TARGET k.val)) = true) : exec (.pageMirror k) s =
      .next (s.hostXfer (s.fget (R.STA_TPAGE0.MIRROR_TARGET k.val)) (s.fget (R.STA_TPAGE3.MIRROR_BASE k.val) * 8192)
        (s.pageBytes (0x3600000 + 0x1000 * k.val) ++ s.pageBytes 0x3000000)) :=
  congrArg Host.Outcome.next (if_neg (by simp [valid, on, ready]))

end Mirror

/-- Settles O59: a queue, a target and a page by the conditions their commands check; a write of a queue's BASE sets its cached consumer
index to 0 (log entry 94). -/
theorem statusReachesItsReaders : Obligations.StatusReachesItsReaders :=
  ⟨fun _ _ => ⟨fun _ => exec_cqCiPoll_of_ignored, fun _ => exec_cqCiPoll_of_read, fun full => congrArg Host.Outcome.next (if_pos full),
      fun room => congrArg Host.Outcome.next (if_neg room), fun _ => rfl⟩,
    fun _ _ s => ⟨fun refused => congrArg Host.Outcome.next (if_neg (ne_true_of_eq_false refused)), s.targetOk_of_invalid,
      fun ok => congrArg Host.Outcome.next (if_pos ok)⟩,
    fun _ => ⟨_, rfl, rfl, rfl⟩, fun _ _ => ⟨exec_pageMirror_of_ignored, exec_pageMirror_of_ready⟩⟩

end Sys2Proof.Machine
end

section
/-! The JTAG port and the DBG region (R32, R537, R584, R644 to R646; log entries 95 and 96). -/

namespace Sys2Proof.Machine

/-! ## Loading an instruction (R644) -/

@[simp] theorem State.loadTap_jtag (s : State) (i : TapInstr) (dr : List Bool) : (s.loadTap i dr).jtag = { s.jtag with ir := i, dr := dr } := by
  unfold State.loadTap
  dsimp only
  split <;> rfl

@[simp] theorem State.loadTap_ctl (s : State) (i : TapInstr) (dr : List Bool) : (s.loadTap i dr).ctl = s.ctl := by
  unfold State.loadTap
  split <;> rfl

@[simp] theorem State.loadTap_sup (s : State) (i : TapInstr) (dr : List Bool) : (s.loadTap i dr).sup = s.sup := by
  unfold State.loadTap
  split <;> rfl

/-! ## Instructions that want the device held in reset (R644, R646) -/

theorem State.heldInReset_iff (s : State) : s.heldInReset = true ↔ s.sup.sysRst = true ∧ s.sup.resetTaken = true := Bool.and_eq_true_iff

section Free
variable {s : State} (free : ¬ s.heldInReset = true)
include free

theorem State.driveTap_of_free (i : TapInstr) (dr : List Bool) : s.driveTap i dr = s.loadTap .bypass [false] := if_neg free

theorem exec_highz_of_free : exec .highz s = .next (s.loadTap .bypass [false]) := congrArg Host.Outcome.next (if_neg free)

theorem exec_dbgUnlock_of_free (tok : Bytes) (x y : Bool) : exec (.dbgUnlock tok x y) s = .next (s.loadTap .bypass [false]) :=
  congrArg Host.Outcome.next (if_pos (by simp [free]))

end Free

section Held
variable {s : State} (held : s.heldInReset = true)
include held

theorem State.driveTap_of_held (i : TapInstr) (dr : List Bool) : s.driveTap i dr = { s.loadTap i dr with
    pins := { serving := s.jtag.cells.getD 22 false, twinAliveOut := s.jtag.cells.getD 28 false, floating := false } } := by
  refine (if_pos held).trans ?_
  simp only [State.loadTap_jtag]

theorem exec_highz_of_held : ∃ t, exec .highz s = .next t ∧ t.pins.floating = true ∧ t.jtag.ir = .highz ∧ t.ctl = s.ctl :=
  ⟨_, congrArg Host.Outcome.next (if_pos held), rfl, by simp, by simp⟩

/-- Without a token a fresh challenge is shifted out. -/
theorem exec_dbgUnlock_of_noToken (x y : Bool) : ∃ t, exec (.dbgUnlock [] x y) s = .next t ∧ t.jtag.ir = .dbgUnlock
    ∧ t.jtag.challenge = (s.drawBytes 32).1 ∧ t.jtag.unlockNext = s.jtag.unlockNext :=
  ⟨_, congrArg Host.Outcome.next ((if_neg (by simp [held])).trans (if_pos rfl)), by simp, rfl, by simp [State.drawBytes]⟩

/-- A token uses up the challenge that it answers. -/
theorem exec_dbgUnlock_of_token {tok : Bytes} (x y : Bool) (token : tok ≠ []) : ∃ t, exec (.dbgUnlock tok x y) s = .next t
    ∧ t.jtag.ir = .dbgUnlock ∧ t.jtag.challenge = []
    ∧ t.jtag.unlockNext = (s.jtag.unlockNext || (x && y && s.jtag.challenge != [] && slice tok 0 48 == natLe 48 Config.deviceIdHash.toNat
      && slice tok 48 32 == s.jtag.challenge)) ∧ t.ctl = s.ctl := by
  refine ⟨_, congrArg Host.Outcome.next ((if_neg (by simp [held])).trans (if_neg token)), by simp, rfl, by simp, by simp⟩

end Held

/-! ## Flash recovery (R584) -/

section Recover
variable {s : State} {op : RecoverOp}

theorem exec_flsRecover_of_image (image : s.fget R.SUP_BOOT_STAT.STATE ≠ 3) : exec (.flsRecover op) s = .next (s.loadTap .bypass [false]) :=
  congrArg Host.Outcome.next (if_neg image)

theorem exec_flsRecover_of_noImage (missing : s.fget R.SUP_BOOT_STAT.STATE = 3) :
    exec (.flsRecover op) s = .next ((s.loadTap .flsRecover []).recover op) := congrArg Host.Outcome.next (if_pos missing)

/-- A sector of an image slot. -/
abbrev ImageSlot (a : Nat) : Prop := 64 ≤ a / 65536 % 2048 ∧ a / 65536 % 2048 < 576

variable {n : BitVec 12} {a : BitVec 28}

section Slot
variable (slot : ImageSlot a.toNat)
include slot

theorem State.recover_program_of_slot : s.recover (.program n a) = s.flsCommand 1 n.toNat a.toNat 0 [] := if_pos (decide_eq_true slot)
theorem State.recover_erase_of_slot : s.recover (.erase a) = s.flsCommand 2 0 a.toNat 0 [] := if_pos (decide_eq_true slot)
theorem State.recover_read_of_slot : s.recover (.read n a) = s.flsCommand 3 n.toNat a.toNat 0 [] := if_pos (.inl (decide_eq_true slot))

end Slot

section NoSlot
variable (other : ¬ ImageSlot a.toNat)
include other

theorem State.recover_program_of_other : s.recover (.program n a) = s.flsSay .prot := if_neg (ne_true_of_eq_false (decide_eq_false other))
theorem State.recover_erase_of_other : s.recover (.erase a) = s.flsSay .prot := if_neg (ne_true_of_eq_false (decide_eq_false other))

/-- READ is let into the commit log beside the image slots. -/
theorem State.recover_read_of_other (log : 2 ≤ a.toNat / 65536 % 2048) : s.recover (.read n a) = s.flsSay .prot :=
  if_neg (not_or.mpr ⟨ne_true_of_eq_false (decide_eq_false other), log.not_gt⟩)

end NoSlot
end Recover

/-- Settles O60: an instruction whose condition fails loads BYPASS; a token uses the challenge up, and TRST clears cells and challenge
(log entry 95). -/
theorem jtagObeysItsConditions : Obligations.JtagObeysItsConditions := by
  refine fun s => ⟨rfl, rfl, fun cells => ?_, fun free => ?_, fun held => ?_, fun image op => exec_flsRecover_of_image image, fun missing => ?_, ?_⟩
  · exact ⟨_, rfl, by simp, rfl, by simp [State.drawBytes], by simp [State.drawBytes]⟩
  · have free : ¬ s.heldInReset = true := mt s.heldInReset_iff.mp free
    have drive (i : TapInstr) (dr : List Bool) :
        Host.Outcome.next (φ := Fault) (ρ := Refusal) (s.driveTap i dr) = .next (s.loadTap .bypass [false]) :=
      congrArg _ (State.driveTap_of_free free i dr)
    exact ⟨List.forall_mem_cons.mpr ⟨drive .extest _, List.forall_mem_cons.mpr ⟨drive .clamp _,
      List.forall_mem_cons.mpr ⟨exec_highz_of_free free, List.forall_mem_cons.mpr ⟨drive .pulse _,
        List.forall_mem_singleton.mpr (drive .train _)⟩⟩⟩⟩, exec_dbgUnlock_of_free free⟩
  · have held : s.heldInReset = true := s.heldInReset_iff.mpr held
    exact ⟨congrArg Host.Outcome.next (State.driveTap_of_held held ..), congrArg Host.Outcome.next (State.driveTap_of_held held ..),
      congrArg Host.Outcome.next (State.driveTap_of_held held ..), congrArg Host.Outcome.next (State.driveTap_of_held held ..),
      exec_highz_of_held held, exec_dbgUnlock_of_noToken held, fun tok => exec_dbgUnlock_of_token held⟩
  · have recovers {op : RecoverOp} {t : State} (h : (s.loadTap .flsRecover []).recover op = t) : exec (.flsRecover op) s = .next t :=
      (exec_flsRecover_of_noImage missing).trans (congrArg _ h)
    refine ⟨fun n a first last => ?_, fun n a outside => ?_, fun v => recovers rfl, fun i v => recovers rfl⟩
    · have slot : ImageSlot a.toNat := ⟨first, last⟩
      exact ⟨recovers (State.recover_program_of_slot slot), recovers (State.recover_erase_of_slot slot),
        recovers (State.recover_read_of_slot slot)⟩
    · have other : ¬ ImageSlot a.toNat := fun slot => outside.elim slot.1.not_gt slot.2.not_ge
      exact ⟨recovers (State.recover_program_of_other other), recovers (State.recover_erase_of_other other),
        fun log => recovers (State.recover_read_of_other other log)⟩
  · exact ⟨_, rfl, by simp, rfl, rfl, by simp, by simp⟩

/-! ## The DBG region (R32, R646) -/

theorem State.regRead_of_dbg (s : State) {off : Nat} (dbg : isDbg off = true) : s.regRead off = 0 := if_pos (.inl dbg)

theorem State.regStore_of_dbg (s : State) (who : Nat) {off : Nat} (v : Word) (dbg : isDbg off = true) : s.regStore who off v = (s, .ok) := if_pos dbg

/-- Settles O9: a store that its checks let through reaches no register of the region (log entry 96), and any other is ignored. -/
theorem debugRegionIsLocked : Obligations.DebugRegionIsLocked := by
  refine fun off v s dbg => ⟨s.regRead_of_dbg dbg, congrArg Host.Outcome.next ?_⟩
  split
  · rw [s.regStore_of_dbg 0 v dbg]
  · rfl

end Sys2Proof.Machine
end
